-- ==== Sys2Proof/Word.lean ====
section
/-! DEFINITION. The word types of the KA4 (R3 to R5) and their plainest arithmetic. -/

namespace Sys2Proof

/-- A byte of memory. -/
abbrev Byte := BitVec 8
/-- A 32-bit word: a task instruction, a `g` register, a passage word (R130, R157). -/
abbrev W32 := BitVec 32
/-- A 64-bit word: an `a` or `v` register, a payload unit, a record header (R38, R157). -/
abbrev W64 := BitVec 64
/-- A 128-bit configuration word or accumulator (R122, R139). -/
abbrev W128 := BitVec 128

/-- Bits `lo + w - 1` down to `lo` of a natural number (R4, R10). -/
def bitsOf (x lo w : Nat) : Nat := (x >>> lo) % 2 ^ w

/-- Bit `i` of a natural number. -/
def bitOf (x i : Nat) : Bool := x.testBit i

/-- The low `n` bits of `x` read as two's complement (the helper `sext` of R11). -/
def sextInt (x n : Nat) : Int :=
  let y := x % 2 ^ n
  if 2 * y < 2 ^ n then (y : Int) else (y : Int) - (2 ^ n : Nat)

/-- `x` reduced modulo `2 ^ n` as a natural number. -/
def wrapInt (x : Int) (n : Nat) : Nat := (x % ((2 ^ n : Nat) : Int)).toNat

/-- Ceiling of `a / b`. -/
def ceilDiv (a b : Nat) : Nat := (a + b - 1) / b

end Sys2Proof
end

