-- ==== Sys2Proof/Machine/Crc.lean ====
section
/-! DEFINITION. CRC-32C, the Castagnoli polynomial, as flits (R392) and configuration loads (R97) carry it: bytes in order, the least
significant bit of each first, from a register of ones that is inverted at the end. -/

namespace Sys2Proof.Machine

/-- The register after the lowest `n` bits of a number, bit 0 first. -/
def crcBits : Nat → Nat → W32 → W32
  | 0, _, c => c
  | n + 1, x, c =>
    crcBits n (x / 2) (if (c.getLsbD 0 != decide (x % 2 = 1)) then (c >>> 1) ^^^ 0x82F63B78#32 else c >>> 1)

/-- The CRC-32C of the lowest `n` bits of a number. -/
def crc32c (n x : Nat) : W32 := crcBits n x 0xFFFFFFFF#32 ^^^ 0xFFFFFFFF#32

end Sys2Proof.Machine
end

