-- ==== Sys2Proof/Syntax.lean ====
section
/-! DEFINITION. The syntax of the KA4: one constructor of `Instr` per row of the opcode table. The encoded rows carry their
fields (R131 to R138, R142, R355 to R360). The rows that are events carry none: what an event happens to is its `Subject`, which the
agenda gives with it (Machine/State.lean). -/

namespace Sys2Proof

/-- What a 6-bit operand specifier names (R132). -/
inductive Opnd where
  /-- `g0` to `g15`: specifiers 0 to 15. -/
  | g (n : Fin 16)
  /-- `a0` to `a7`: specifiers 16 to 23. -/
  | a (n : Fin 8)
  /-- `v0` to `v7`: specifiers 24 to 31. -/
  | v (n : Fin 8)
  /-- Input port `i0` to `i15`: specifiers 32 to 47. -/
  | i (n : Fin 16)
  /-- Output port `o0` to `o15`: specifiers 48 to 63. -/
  | o (n : Fin 16)
  deriving DecidableEq, Repr

/-- The vector format indices 0 to 11 (R138, R184). -/
inductive VFmt where
  | s8 | z8 | s16 | z16 | s32 | z32 | fp32 | bf16 | fp16 | e4m3 | e5m2 | tw8
  deriving DecidableEq, Repr

/-- The rounding modes of R111. -/
inductive Mode where
  /-- to nearest, ties to even -/
  | rne
  /-- toward zero -/
  | rtz
  /-- up -/
  | rup
  /-- down -/
  | rdn
  /-- to nearest, ties away from zero -/
  | rna
  /-- stochastic -/
  | sr
  deriving DecidableEq, Repr

/-- A record: its header and its payload units (R38). The model's own `ord` names the writes, issued to the host port and perhaps not performed yet,
that come before what follows on the record (R339; assumption 36): it is no part of what the record carries. -/
structure Rec where
  hdr : BitVec 64
  units : List (BitVec 64)
  ord : List Nat := []
  deriving DecidableEq, Repr

/-- A register that a plain write may reach (R7, R28, R60, R386, R400). -/
inductive RegAddr where
  /-- Offset `off` of kick-page slot `slot` (R60, R386). -/
  | kick (slot off : Nat)
  /-- Offset `off` of BAR2 (R386, R400). -/
  | bar2 (off : Nat)
  /-- Offset `off` of BAR4 (R386). -/
  | bar4 (off : Nat)
  /-- Offset `off` of the governor block of die `die` (R28). -/
  | gov (die off : Nat)
  deriving DecidableEq, Repr

/-- A place that holds translations (R265). -/
inductive Layer where
  /-- The entry of stream `k` of generator `n` of tenure `t`. -/
  | stream (t n k : Nat)
  /-- The four entries of the cell of node `n` of tenure `t`. -/
  | cell (t n : Nat)
  /-- The stream translation cache of an S5 slice. -/
  | s5 (slice : Nat)
  /-- The S7 translation agent of a slice, or the ATS agent of the die root (R265, R266). -/
  | agent (slice : Nat)
  /-- The source entry, or the destination entry, of request `k` of lighter `lt`. -/
  | lighter (lt k : Nat) (dst : Bool)
  /-- The entry of a lighter's accumulate streams for a tenure. -/
  | accs (lt t : Nat)
  /-- The accesses of command `idx` of queue `q`. -/
  | command (q idx : Nat)
  /-- The accesses to the rings of queue `q`. -/
  | ring (q : Nat)
  /-- The accesses of the lockkeeper of tenure `t`, and of Gykan for it. -/
  | passage (t : Nat)
  /-- No one any more: what asked is gone. -/
  | gone
  deriving DecidableEq, Repr

/-- What drains and is zeroed: an L4 subtree, or the plane that a tenure has left of the shared region that begins at subtree `b` (R77,
R79). -/
inductive DrainRef where
  | subtree (l4 : Nat)
  | plane (b : Nat)
  deriving DecidableEq, Repr

/-- A residual tile: of a cell interface or of a lighter (R297). -/
inductive TileRef where
  | cell (t n : Nat)
  | lighter (lt t : Nat)
  deriving DecidableEq, Repr

/-- Where a corrected error was found (R396). -/
inductive ErrorSource where
  | hbm (channel : Nat)
  | sram (die : Nat)
  deriving DecidableEq, Repr

/-- The repair map (R75). What it does not list is Good; a pair it does not list has 24 full-width modules. -/
structure RepairMap where
  /-- Fenced bank or matrix cells, by site index. -/
  fenced : List Nat
  /-- Reduced bank cells: site index and usable KiB (48, 32 or 16). -/
  reduced : List (Nat × Nat)
  /-- Cut switches: level and switch index within the package. -/
  cutSwitch : List (Nat × Nat)
  /-- Switches whose up-link is cut. -/
  cutUplink : List (Nat × Nat)
  /-- Die pairs: `4 * low die + high die`, live full-width modules, live half-width modules. -/
  pairs : List (Nat × Nat × Nat)
  /-- HBM channels retired at dawn, 0 to 511, 16 to a slice (R263). -/
  deadChannels : List Nat
  deriving DecidableEq, Repr, Inhabited

/-- What an event happens to, and what the outside world brings to it. -/
inductive Subject where
  | none
  /-- Host queue `q`. -/
  | queue (q : Nat)
  /-- The value `v` written to a register of queue `q`. -/
  | write (q : Nat) (v : BitVec 32)
  /-- The `k`-th pending completion of queue `q`. -/
  | completion (q k : Nat)
  /-- A value. -/
  | value (v : BitVec 32)
  /-- A queue descriptor and the die its queue processor is on (R59). -/
  | newQueue (desc : BitVec 512) (die : Nat)
  /-- A register and the value written to it. -/
  | register (r : RegAddr) (v : BitVec 64)
  /-- A die, and a budget or a measured power in watts. -/
  | die (die : Nat) (w : BitVec 32)
  /-- Tenure `t`. -/
  | tenure (t : Nat)
  /-- The load of tenure `t`: the bits that change on the way to its elements, by packet, and whether an uncorrectable error struck an idle
  plane (R97). -/
  | loadAck (t : Nat) (noise : List (Nat × Nat)) (ue : Bool)
  /-- The tenure that asks for a plane, and the one that holds the region. -/
  | planes (t resident : Nat)
  /-- What drains or is zeroed. -/
  | drain (x : DrainRef)
  /-- An L4 subtree. -/
  | subtree (l4 : Nat)
  /-- The message `m`. -/
  | msg (m : Nat)
  /-- The message `m`, and whether its data has an uncorrectable error. -/
  | reply (m : Nat) (ue : Bool)
  /-- Channel `c` of tenure `t`. -/
  | chan (t c : Nat)
  /-- Virtual queue `v`. -/
  | vq (v : Nat)
  /-- Node `n` of tenure `t`. -/
  | node (t n : Nat)
  /-- The place that refills its translation of `va` for `pasid`. -/
  | refill (l : Layer) (pasid va : Nat)
  /-- The host's answer to the page request for `va`: the page it maps (base, size, physical address, permissions), or failure
  (R267). -/
  | hostPage (pasid va : Nat) (page : Option (Nat × Nat × Nat × Bool × Bool))
  /-- The device OS's answer to the page request for `va`: the root table and the table entries it writes, or failure (R266,
  R267). -/
  | osPage (pasid va : Nat) (root : Nat) (writes : List (Nat × BitVec 64)) (ok : Bool)
  /-- A range of addresses. -/
  | pages (pasid va bytes : Nat)
  /-- The burst of request `k` of lighter `lt` into the aligned 64-byte block `blk`, and whether its source has an uncorrectable
  error. -/
  | burst (lt k blk : Nat) (ue : Bool)
  /-- Request `k` of lighter `lt`. -/
  | request (lt k : Nat)
  /-- The residual for `addr` in a tile. -/
  | residual (tile : TileRef) (addr : Nat)
  /-- A sparse-update unit. -/
  | unit (u : Nat)
  /-- Gate node `g` of tenure `t`, and one of its output ports. -/
  | gate (t g port : Nat)
  /-- Entry `k` of a combine tree of tenure `t`. -/
  | entry (t tree k : Nat)
  /-- The `k`-th fault record on the fault lane of tenure `t`. -/
  | faultRecord (t k : Nat)
  /-- A process and the peer module it goes to. -/
  | process (pasid peer : Nat)
  /-- The rate and width of the host link. -/
  | link (rate width : Nat)
  /-- An Ethernet port. -/
  | port (p : Nat)
  /-- The oldest flit on the wire of a module of a die pair, and the bits of it that the wire has changed. -/
  | flit (src dst module : Nat) (noise : BitVec 576)
  /-- A module of a die pair, and whether retraining succeeded. -/
  | retrain (src dst module : Nat) (ok : Bool)
  /-- The values the SRAM identity cells power up with (R402). -/
  | sram (x : BitVec 256)
  /-- The HBM channels that failed training. -/
  | failed (channels : List Nat)
  /-- The repair map the self-test finds (R404). -/
  | repair (map : RepairMap)
  /-- GET_CERTIFICATE's operands. -/
  | certificate (slot offset length : Nat)
  /-- CHALLENGE's operands. -/
  | challenge (slot : Nat) (nonce : BitVec 256)
  /-- GET_MEASUREMENTS's operands. -/
  | measurements (index : Nat) (signed : Bool) (nonce : BitVec 256)
  /-- The owner, direction and capacity of a new virtual queue, and the peer module's queue that the device OS links it to, if any
  (R391). -/
  | newVq (pasid : Nat) (output : Bool) (capacity : Nat) (peer : Option Nat)
  /-- The `k`-th bundle that arrives, and the PASID that the device OS gives its process. -/
  | bundle (k pasid : Nat)
  /-- A record that a peer sends to virtual queue `v`. -/
  | bridged (v : Nat) (r : Rec)
  /-- An MCTP control command. -/
  | command (c : BitVec 8)
  /-- Where a corrected error was. -/
  | corrected (src : ErrorSource)
  deriving DecidableEq, Repr

/-- One constructor per row of the opcode table: the rows with fields first, each part in the table's order. -/
inductive Instr where
  /-- ADD_W (R162). 32-bit add. -/
  | addW (d a b : Opnd)
  /-- SUB_W (R162). 32-bit subtract. -/
  | subW (d a b : Opnd)
  /-- AND_W (R162). 32-bit bitwise and. -/
  | andW (d a b : Opnd)
  /-- OR_W (R162). 32-bit bitwise or. -/
  | orW (d a b : Opnd)
  /-- XOR_W (R162). 32-bit bitwise exclusive or. -/
  | xorW (d a b : Opnd)
  /-- SLL_W (R162). Logical left shift by y[4:0]. -/
  | sllW (d a b : Opnd)
  /-- SRL_W (R162). Logical right shift by y[4:0]. -/
  | srlW (d a b : Opnd)
  /-- SRA_W (R162). Arithmetic right shift by y[4:0]. -/
  | sraW (d a b : Opnd)
  /-- MUL_W (R162). Low 32 bits of the product. -/
  | mulW (d a b : Opnd)
  /-- MULHS_W (R162). High 32 bits of the signed product. -/
  | mulhsW (d a b : Opnd)
  /-- MULHZ_W (R162). High 32 bits of the unsigned product. -/
  | mulhzW (d a b : Opnd)
  /-- DIVS_W (R163). Signed division truncating toward zero, never faulting. -/
  | divsW (d a b : Opnd)
  /-- DIVZ_W (R163). Unsigned division, never faulting. -/
  | divzW (d a b : Opnd)
  /-- REMS_W (R163). Signed remainder with the sign of the dividend. -/
  | remsW (d a b : Opnd)
  /-- REMZ_W (R163). Unsigned remainder. -/
  | remzW (d a b : Opnd)
  /-- MINS_W (R162). Signed minimum. -/
  | minsW (d a b : Opnd)
  /-- MAXS_W (R162). Signed maximum. -/
  | maxsW (d a b : Opnd)
  /-- MINZ_W (R162). Unsigned minimum. -/
  | minzW (d a b : Opnd)
  /-- MAXZ_W (R162). Unsigned maximum. -/
  | maxzW (d a b : Opnd)
  /-- ADDS_W (R162). Signed saturating add. -/
  | addsW (d a b : Opnd)
  /-- SUBS_W (R162). Signed saturating subtract. -/
  | subsW (d a b : Opnd)
  /-- CLZ_W (R162). Count leading zero bits. -/
  | clzW (d a : Opnd)
  /-- CNT_W (R162). Count one bits. -/
  | cntW (d a : Opnd)
  /-- MOV_W (R162). 32-bit move. -/
  | movW (d a : Opnd)
  /-- CMP_EQ_W (R164). Writes a predicate true when the operands are equal. -/
  | cmpEqW (p : Fin 4) (a b : Opnd)
  /-- CMP_NE_W (R164). Writes a predicate true when the operands differ. -/
  | cmpNeW (p : Fin 4) (a b : Opnd)
  /-- CMP_LTS_W (R164). Signed less-than into a predicate. -/
  | cmpLtsW (p : Fin 4) (a b : Opnd)
  /-- CMP_LTZ_W (R164). Unsigned less-than into a predicate. -/
  | cmpLtzW (p : Fin 4) (a b : Opnd)
  /-- CMP_GES_W (R164). Signed greater-or-equal into a predicate. -/
  | cmpGesW (p : Fin 4) (a b : Opnd)
  /-- CMP_GEZ_W (R164). Unsigned greater-or-equal into a predicate. -/
  | cmpGezW (p : Fin 4) (a b : Opnd)
  /-- PAND (R165). Predicate and. -/
  | pand (p q r : Fin 4)
  /-- POR (R165). Predicate or. -/
  | por (p q r : Fin 4)
  /-- PXOR (R165). Predicate exclusive or. -/
  | pxor (p q r : Fin 4)
  /-- PANDN (R165). Predicate and-not. -/
  | pandn (p q r : Fin 4)
  /-- PSET (R165). Sets a predicate from the low four bits of a source. -/
  | pset (p : Fin 4) (a : Opnd)
  /-- PGET (R165). Reads a predicate into a destination, zero-extended. -/
  | pget (d : Opnd) (q : Fin 4)
  /-- ADDI_W (R166). Adds a sign-extended 14-bit immediate. -/
  | addiW (d a : Opnd) (imm : BitVec 14)
  /-- ANDI_W (R166). Bitwise and with a zero-extended immediate. -/
  | andiW (d a : Opnd) (imm : BitVec 14)
  /-- ORI_W (R166). Bitwise or with a zero-extended immediate. -/
  | oriW (d a : Opnd) (imm : BitVec 14)
  /-- XORI_W (R166). Bitwise exclusive or with a zero-extended immediate. -/
  | xoriW (d a : Opnd) (imm : BitVec 14)
  /-- SLLI_W (R166). Logical left shift by an immediate amount. -/
  | slliW (d a : Opnd) (sh : BitVec 5)
  /-- SRLI_W (R166). Logical right shift by an immediate amount. -/
  | srliW (d a : Opnd) (sh : BitVec 5)
  /-- SRAI_W (R166). Arithmetic right shift by an immediate amount. -/
  | sraiW (d a : Opnd) (sh : BitVec 5)
  /-- LI_W (R167). Loads a sign-extended 20-bit immediate. -/
  | liW (d : Opnd) (imm : BitVec 20)
  /-- LUI_W (R167). Loads an immediate shifted left by 12. -/
  | luiW (d : Opnd) (imm : BitVec 20)
  /-- ADD_A (R168). 64-bit address plus sign-extended G register. -/
  | addA (d a b : Opnd)
  /-- ADDZ_A (R168). 64-bit address plus zero-extended G register. -/
  | addzA (d a b : Opnd)
  /-- SUB_A (R168). 64-bit subtract. -/
  | subA (d a b : Opnd)
  /-- MOV_A (R168). 64-bit move. -/
  | movA (d a : Opnd)
  /-- LO_A (R168). Low 32 bits of a 64-bit value. -/
  | loA (d a : Opnd)
  /-- HI_A (R168). High 32 bits of a 64-bit value. -/
  | hiA (d a : Opnd)
  /-- CAT_A (R168). Joins two 32-bit registers into a 64-bit value. -/
  | catA (d a b : Opnd)
  /-- CMP_EQ_A (R168). 64-bit equality into a predicate. -/
  | cmpEqA (p : Fin 4) (a b : Opnd)
  /-- CMP_LTZ_A (R168). 64-bit unsigned less-than into a predicate. -/
  | cmpLtzA (p : Fin 4) (a b : Opnd)
  /-- ADDI_A (R168). 64-bit add of a sign-extended immediate. -/
  | addiA (d a : Opnd) (imm : BitVec 14)
  /-- BR (R169). Branch taken when the predicate is true. -/
  | br (p : Fin 4) (imm : BitVec 16)
  /-- BRZ (R169). Branch when the predicate is true and s1 is zero. -/
  | brz (a : Opnd) (p : Fin 4) (imm : BitVec 16)
  /-- BRNZ (R169). Branch when the predicate is true and s1 is nonzero. -/
  | brnz (a : Opnd) (p : Fin 4) (imm : BitVec 16)
  /-- BRNEG (R169). Branch when the predicate is true and s1 is negative. -/
  | brneg (a : Opnd) (p : Fin 4) (imm : BitVec 16)
  /-- BR_NP (R169). Branch taken when the predicate is false. -/
  | brNp (p : Fin 4) (imm : BitVec 16)
  /-- BRZ_NP (R169). Branch when the predicate is false and s1 is zero. -/
  | brzNp (a : Opnd) (p : Fin 4) (imm : BitVec 16)
  /-- BRNZ_NP (R169). Branch when the predicate is false and s1 is nonzero. -/
  | brnzNp (a : Opnd) (p : Fin 4) (imm : BitVec 16)
  /-- BRNEG_NP (R169). Branch when the predicate is false and s1 is negative. -/
  | brnegNp (a : Opnd) (p : Fin 4) (imm : BitVec 16)
  /-- CALL (R170). Writes the return PC to g15 and branches. -/
  | call (imm : BitVec 16)
  /-- JR (R170). Jumps to the PC held in a G register. -/
  | jr (a : Opnd)
  /-- CALLR (R170). Reads the target, writes g15 and jumps. -/
  | callr (a : Opnd)
  /-- DBNZ (R172). Decrements a G register and branches while it is nonzero. -/
  | dbnz (d : Opnd) (imm : BitVec 14)
  /-- OPEN (R179). Opens an output record with a given header, reserving a slot. -/
  | open_ (d a : Opnd)
  /-- CLOSE (R179). Closes the open output record for delivery. -/
  | close (d : Opnd)
  /-- NEXT (R178). Releases the current record of an input port. -/
  | next_ (a : Opnd)
  /-- HDR (R178). Reads the header of an input port's current record. -/
  | hdr (d a : Opnd)
  /-- SEND (R180). Opens and closes a zero-length record. -/
  | send (d a : Opnd)
  /-- LEFT (R178). Reads the units remaining in an input port's current record. -/
  | left (d a : Opnd)
  /-- CPY (R181). Copies n units from an input record into the open output record. -/
  | cpy (d a b : Opnd)
  /-- LD_S8 (R173). Bank load of a signed byte. -/
  | ldS8 (d b : Opnd) (off : BitVec 14)
  /-- LD_Z8 (R173). Bank load of an unsigned byte. -/
  | ldZ8 (d b : Opnd) (off : BitVec 14)
  /-- LD_S16 (R173). Bank load of a signed halfword. -/
  | ldS16 (d b : Opnd) (off : BitVec 14)
  /-- LD_Z16 (R173). Bank load of an unsigned halfword. -/
  | ldZ16 (d b : Opnd) (off : BitVec 14)
  /-- LD_W (R173). Bank load of a word. -/
  | ldW (d b : Opnd) (off : BitVec 14)
  /-- LD_D (R173). Bank load of a doubleword. -/
  | ldD (d b : Opnd) (off : BitVec 14)
  /-- ST_B (R174). Bank store of a byte. -/
  | stB (d b : Opnd) (off : BitVec 12)
  /-- ST_H (R174). Bank store of a halfword. -/
  | stH (d b : Opnd) (off : BitVec 12)
  /-- ST_W (R174). Bank store of a word. -/
  | stW (d b : Opnd) (off : BitVec 12)
  /-- ST_D (R174). Bank store of a doubleword. -/
  | stD (d b : Opnd) (off : BitVec 12)
  /-- GLD_S8 (R272). Global load of a signed byte. -/
  | gldS8 (d a : Opnd) (tk : Bool) (tok : BitVec 3)
  /-- GLD_Z8 (R272). Global load of an unsigned byte. -/
  | gldZ8 (d a : Opnd) (tk : Bool) (tok : BitVec 3)
  /-- GLD_S16 (R272). Global load of a signed halfword. -/
  | gldS16 (d a : Opnd) (tk : Bool) (tok : BitVec 3)
  /-- GLD_Z16 (R272). Global load of an unsigned halfword. -/
  | gldZ16 (d a : Opnd) (tk : Bool) (tok : BitVec 3)
  /-- GLD_W (R272). Global load of a word. -/
  | gldW (d a : Opnd) (tk : Bool) (tok : BitVec 3)
  /-- GLD_D (R272). Global load of a doubleword. -/
  | gldD (d a : Opnd) (tk : Bool) (tok : BitVec 3)
  /-- GST_B (R272). Global store of a byte. -/
  | gstB (d a : Opnd) (tk : Bool) (tok : BitVec 3)
  /-- GST_H (R272). Global store of a halfword. -/
  | gstH (d a : Opnd) (tk : Bool) (tok : BitVec 3)
  /-- GST_W (R272). Global store of a word. -/
  | gstW (d a : Opnd) (tk : Bool) (tok : BitVec 3)
  /-- GST_D (R272). Global store of a doubleword. -/
  | gstD (d a : Opnd) (tk : Bool) (tok : BitVec 3)
  /-- XFER (R276). Checks a transfer request from registers or a port and injects it to a lighter. -/
  | xfer (a : Opnd) (port : BitVec 3)
  /-- ACC_FP32 (R293). Accumulates an fp32 addend into a window word. -/
  | accFp32 (wid : BitVec 6) (a b : Opnd)
  /-- ACC_BF16 (R293). Accumulates a bf16 addend into a window word. -/
  | accBf16 (wid : BitVec 6) (a b : Opnd)
  /-- ACC_FP16 (R293). Accumulates an fp16 addend into a window word. -/
  | accFp16 (wid : BitVec 6) (a b : Opnd)
  /-- ACC_S8 (R293). Accumulates a signed byte addend. -/
  | accS8 (wid : BitVec 6) (a b : Opnd)
  /-- ACC_Z8 (R293). Accumulates an unsigned byte addend. -/
  | accZ8 (wid : BitVec 6) (a b : Opnd)
  /-- ACC_S16 (R293). Accumulates a signed halfword addend. -/
  | accS16 (wid : BitVec 6) (a b : Opnd)
  /-- ACC_Z16 (R293). Accumulates an unsigned halfword addend. -/
  | accZ16 (wid : BitVec 6) (a b : Opnd)
  /-- ACC_S32 (R293). Accumulates a signed word addend. -/
  | accS32 (wid : BitVec 6) (a b : Opnd)
  /-- ACC_Z32 (R293). Accumulates an unsigned word addend. -/
  | accZ32 (wid : BitVec 6) (a b : Opnd)
  /-- ACC_S64 (R293). Accumulates a signed doubleword addend. -/
  | accS64 (wid : BitVec 6) (a b : Opnd)
  /-- FLUSHR (R294). Sends a window's held residuals on the flush lane. -/
  | flushr (wid : BitVec 6)
  /-- ATOM_ADD (R286). Non-fetch atomic add. -/
  | atomAdd (a b : Opnd) (dbl : Bool)
  /-- ATOM_MIN (R286). Non-fetch signed atomic minimum. -/
  | atomMin (a b : Opnd) (dbl : Bool)
  /-- ATOM_MAX (R286). Non-fetch signed atomic maximum. -/
  | atomMax (a b : Opnd) (dbl : Bool)
  /-- ATOM_MINZ (R286). Non-fetch unsigned atomic minimum. -/
  | atomMinz (a b : Opnd) (dbl : Bool)
  /-- ATOM_MAXZ (R286). Non-fetch unsigned atomic maximum. -/
  | atomMaxz (a b : Opnd) (dbl : Bool)
  /-- ATOM_AND (R286). Non-fetch atomic and. -/
  | atomAnd (a b : Opnd) (dbl : Bool)
  /-- ATOM_OR (R286). Non-fetch atomic or. -/
  | atomOr (a b : Opnd) (dbl : Bool)
  /-- ATOM_XOR (R286). Non-fetch atomic exclusive or. -/
  | atomXor (a b : Opnd) (dbl : Bool)
  /-- ATOM_ADD_F (R286). Fetching atomic add. -/
  | atomAddF (d a b : Opnd) (ord dbl : Bool)
  /-- ATOM_MIN_F (R286). Fetching signed atomic minimum. -/
  | atomMinF (d a b : Opnd) (ord dbl : Bool)
  /-- ATOM_MAX_F (R286). Fetching signed atomic maximum. -/
  | atomMaxF (d a b : Opnd) (ord dbl : Bool)
  /-- ATOM_MINZ_F (R286). Fetching unsigned atomic minimum. -/
  | atomMinzF (d a b : Opnd) (ord dbl : Bool)
  /-- ATOM_MAXZ_F (R286). Fetching unsigned atomic maximum. -/
  | atomMaxzF (d a b : Opnd) (ord dbl : Bool)
  /-- ATOM_AND_F (R286). Fetching atomic and. -/
  | atomAndF (d a b : Opnd) (ord dbl : Bool)
  /-- ATOM_OR_F (R286). Fetching atomic or. -/
  | atomOrF (d a b : Opnd) (ord dbl : Bool)
  /-- ATOM_XOR_F (R286). Fetching atomic exclusive or. -/
  | atomXorF (d a b : Opnd) (ord dbl : Bool)
  /-- ATOM_SWAP (R286). Fetching atomic swap. -/
  | atomSwap (d a b : Opnd) (ord dbl : Bool)
  /-- ATOM_CAS (R286). Fetching atomic compare-and-swap with a register pair. -/
  | atomCas (d a b : Opnd) (ord dbl : Bool)
  /-- ATOM_FADD_FP32 (R288). Non-fetch floating-point atomic add on an fp32 word. -/
  | atomFaddFp32 (a b : Opnd)
  /-- ATOM_FADD_BF16 (R288). Non-fetch floating-point atomic add on a bf16 word. -/
  | atomFaddBf16 (a b : Opnd)
  /-- ATOM_FADD_FP32_F (R288). Fetching floating-point atomic add on an fp32 word. -/
  | atomFaddFp32F (d a b : Opnd)
  /-- ATOM_FADD_BF16_F (R288). Fetching floating-point atomic add on a bf16 word. -/
  | atomFaddBf16F (d a b : Opnd)
  /-- ADD (R189). Vector lane add. -/
  | vAdd (d a b : Opnd) (f : VFmt)
  /-- SUB (R189). Vector lane subtract. -/
  | vSub (d a b : Opnd) (f : VFmt)
  /-- MUL (R189). Vector lane multiply. -/
  | vMul (d a b : Opnd) (f : VFmt)
  /-- MIN (R189). Vector lane minimum. -/
  | vMin (d a b : Opnd) (f : VFmt)
  /-- MAX (R189). Vector lane maximum. -/
  | vMax (d a b : Opnd) (f : VFmt)
  /-- ABS (R189). Vector lane absolute value. -/
  | vAbs (d a : Opnd) (f : VFmt)
  /-- NEG (R189). Vector lane negation. -/
  | vNeg (d a : Opnd) (f : VFmt)
  /-- ADDS (R189). Vector lane saturating add. -/
  | vAdds (d a b : Opnd) (f : VFmt)
  /-- SUBS (R189). Vector lane saturating subtract. -/
  | vSubs (d a b : Opnd) (f : VFmt)
  /-- AND (R189). Vector bitwise and. -/
  | vAnd (d a b : Opnd) (f : VFmt)
  /-- OR (R189). Vector bitwise or. -/
  | vOr (d a b : Opnd) (f : VFmt)
  /-- XOR (R189). Vector bitwise exclusive or. -/
  | vXor (d a b : Opnd) (f : VFmt)
  /-- SLL (R189). Vector lane logical left shift. -/
  | vSll (d a b : Opnd) (f : VFmt)
  /-- SRL (R189). Vector lane logical right shift. -/
  | vSrl (d a b : Opnd) (f : VFmt)
  /-- SRA (R189). Vector lane arithmetic right shift. -/
  | vSra (d a b : Opnd) (f : VFmt)
  /-- FMA (R191). Vector fused multiply-add. -/
  | vFma (d a b : Opnd) (f : VFmt)
  /-- FMS (R191). Vector fused multiply-subtract. -/
  | vFms (d a b : Opnd) (f : VFmt)
  /-- FNMA (R191). Vector fused negated multiply-add. -/
  | vFnma (d a b : Opnd) (f : VFmt)
  /-- FMAB (R191). Vector fused multiply-add by lane 0 of s2. -/
  | vFmab (d a b : Opnd) (f : VFmt)
  /-- DOT (R192). Dot product into fp32 lane 0 with one rounding. -/
  | vDot (d a b : Opnd) (f : VFmt)
  /-- CMP_EQ (R193). Vector lane equality mask. -/
  | vCmpEq (d a b : Opnd) (f : VFmt)
  /-- CMP_LT (R193). Vector lane less-than mask. -/
  | vCmpLt (d a b : Opnd) (f : VFmt)
  /-- CMP_LE (R193). Vector lane less-or-equal mask. -/
  | vCmpLe (d a b : Opnd) (f : VFmt)
  /-- CMP_UN (R193). Vector lane unordered mask. -/
  | vCmpUn (d a b : Opnd) (f : VFmt)
  /-- SEL (R194). Bitwise select using d as the mask. -/
  | vSel (d a b : Opnd) (f : VFmt)
  /-- SHUF (R195). Lane shuffle by indices. -/
  | vShuf (d a b : Opnd) (f : VFmt)
  /-- BCAST (R195). Broadcast one lane. -/
  | vBcast (d a : Opnd) (m : BitVec 6) (f : VFmt)
  /-- ZIP (R195). Interleave lanes of two sources. -/
  | vZip (d a b : Opnd) (f : VFmt)
  /-- UNZIP (R195). Take even lanes of two sources. -/
  | vUnzip (d a b : Opnd) (f : VFmt)
  /-- ROT (R195). Rotate lanes. -/
  | vRot (d a : Opnd) (m : BitVec 6) (f : VFmt)
  /-- INS (R195). Insert lane 0 of s1 into lane m of d. -/
  | vIns (d a : Opnd) (m : BitVec 6) (f : VFmt)
  /-- EXT (R195). Extract lane m to a scalar destination. -/
  | vExt (d a : Opnd) (m : BitVec 6) (f : VFmt)
  /-- CMPR_2OF4 (R196). Keeps the two largest of four 16-bit lanes and writes a predicate. -/
  | cmpr2of4 (d a : Opnd) (p : Fin 4) (f : VFmt)
  /-- CVT (R197). Converts lanes between formats with a named rounding mode and saturation. -/
  | vCvt (d a : Opnd) (mode : Mode) (sat : Bool) (src dst : VFmt)
  /-- RSUM (R199). Sum of lanes in fixed order. -/
  | vRsum (d a : Opnd) (f : VFmt)
  /-- RMAX (R199). Maximum of lanes. -/
  | vRmax (d a : Opnd) (f : VFmt)
  /-- RMIN (R199). Minimum of lanes. -/
  | vRmin (d a : Opnd) (f : VFmt)
  /-- RDOT (R199). Dot product with per-step rounding. -/
  | vRdot (d a b : Opnd) (f : VFmt)
  /-- SCL (R200). Scales lanes by a scale register. -/
  | vScl (d a : Opnd) (m : BitVec 6) (f : VFmt)
  /-- SCLX (R201). Folds lanes into an MX block descriptor. -/
  | vSclx (d a b : Opnd) (f : VFmt)
  /-- MXPACK (R202). Packs lanes into MX elements by a descriptor's scale. -/
  | vMxpack (d a b : Opnd) (f : VFmt)
  /-- MXUNPACK (R202). Unpacks MX elements into lanes. -/
  | vMxunpack (d a b : Opnd) (f : VFmt)
  /-- LDEXP (R200). Multiplies lanes by powers of two. -/
  | vLdexp (d a b : Opnd) (f : VFmt)
  /-- WSB (R271). Stalls until the masked scoreboard tokens reach zero. -/
  | wsb (mask : BitVec 8)
  /-- GATE_ARR (R310). Waits as fence.g and sends arrivals to a gate. -/
  | gateArr (gid : BitVec 6) (a : Opnd)
  /-- GATE_WAIT (R310). Registers a waiter and waits until the gate's generation differs. -/
  | gateWait (gid : BitVec 6) (a : Opnd)
  /-- COMB_SEND (R316). Sends a bank vector as one round of a combine-tree leaf. -/
  | combSend (a b : Opnd)
  /-- WAITA (R280). Waits until a global word is at least a given value. -/
  | waita (a b : Opnd)
  /-- SYSR (R377). Reads a system register. -/
  | sysr (d : Opnd) (reg : BitVec 20)
  /-- SYSW (R377). Writes a system register by its access code. -/
  | sysw (d : Opnd) (reg : BitVec 20)
  /-- TRAP (R378). Takes USER_TRAP with the s1 value. -/
  | trap (a : Opnd)
  /-- LONG_IMMEDIATE_PREFIX (R134). A prefix group issues with the next word as a 32-bit immediate for the third word. -/
  | longImmediatePrefix (imm third : BitVec 32)
  /-- ENTER (R356). Enters a pound: loads, switches planes, resets state and injects bound ranges. -/
  | enter (k : BitVec 12)
  /-- LOCK (R357). Begins a lock: optional preload, root Done, flush, quiet and write-backs. -/
  | lock (hv : Bool) (k : BitVec 12)
  /-- BIND_ARG (R358). Binds an external producer end to an argument range. -/
  | bindArg (c : BitVec 24) (off : BitVec 28) (len : BitVec 32)
  /-- BIND_VQ (R358). Binds an external end to a virtual queue. -/
  | bindVq (c : BitVec 24) (off : BitVec 28)
  /-- BIND_XFER (R358). Binds an external consumer end to a lighter port for transfer requests. -/
  | bindXfer (c : BitVec 24) (port : BitVec 28)
  /-- BIND_ACCS (R358). Binds an external consumer end as an accumulate stream for a window. -/
  | bindAccs (c : BitVec 24) (port : BitVec 28) (wid : BitVec 32)
  /-- BIND_XF (R358). Binds an external end as a transform with a ratio. -/
  | bindXf (c : BitVec 24) (x : BitVec 28) (a b : BitVec 4)
  /-- BIND_PRED (R358). Binds an external consumer end to a passage predicate. -/
  | bindPred (c : BitVec 24) (m : BitVec 28)
  /-- CHOOSE (R355). Waits for a valid predicate, consumes it and jumps on its value. -/
  | choose (neg : Bool) (m : BitVec 3) (t : BitVec 16)
  /-- JMP (R355). Jumps to a passage target. -/
  | jmp (t : BitVec 16)
  /-- WATCH (R360). Arms a watchpoint of the tenure. -/
  | watch (w : BitVec 2) (rd wr at_ arg : Bool) (base : BitVec 57) (units : BitVec 16) (mask : BitVec 8)
  /-- UNWATCH (R360). Disarms a watchpoint. -/
  | unwatch (w : BitVec 2)
  /-- FAULT (R355). Retires the tenure with USER_FAULT. -/
  | fault (v : BitVec 16)
  /-- WAVE (R355). Sets the wave period. -/
  | wave (p : BitVec 17)
  /-- QUIET (R355). The lockkeeper requests a wave at graph or pound scope and waits for quiet. -/
  | quiet (s : Bool)
  /-- SETP (R355). Sets a passage predicate and marks it valid. -/
  | setp (v : Bool) (m : BitVec 3)
  /-- WAITP (R355). Waits until a passage predicate is valid. -/
  | waitp (m : BitVec 3)
  /-- COUNT (R355). Sets a passage counter. -/
  | count (k : BitVec 2) (v : BitVec 20)
  /-- DEC_JNZ (R355). Decrements a passage counter and jumps while nonzero. -/
  | decJnz (k : BitVec 2) (t : BitVec 16)
  /-- SETTLE (R359). Flushes, waits for graph quiet and publishes a window's read-out. -/
  | settle (w : BitVec 6)
  /-- ILLEGAL_INSTRUCTION (R136). Issue of a task word with an unassigned major, function or field raises ILLEGAL_INSTRUCTION precisely. -/
  | illegalInstruction (word : BitVec 32)
  /-- CODE_RANGE_FETCH (R135). A fetch at an index below 0 or at or beyond the code size raises CODE_RANGE precisely. -/
  | codeRangeFetch (index : Int)
  /-- KICK_TAIL_WRITE (R61). A write of KICK_TAIL announces every command below the written index, and the queue processor reads the newly announced ring entries. -/
  | kickTailWrite
  /-- CPL_HEAD_WRITE (R62). Software advances CPL_HEAD, which frees completion-ring slots for waiting completions. -/
  | cplHeadWrite
  /-- COMPLETION_WRITE (R62). A pending completion is written once the completion ring has room, followed by its MSI-X interrupt when requested. -/
  | completionWrite
  /-- LAUNCH (R65). The host command that copies the argument block, checks the graph and starts admission of a tenure. -/
  | launch
  /-- PUSH (R65). The host command that checks whole records and appends them to an input virtual queue's ring, all or nothing. -/
  | push
  /-- PULL (R65). The host command that moves whole records, oldest first, from an output virtual queue into a host buffer without waiting. -/
  | pull
  /-- SIGNAL_SET (R65). The SIGNAL command with mode 0 sets a semaphore at system scope. -/
  | signalSet
  /-- SIGNAL_ADD (R65). The SIGNAL command with mode 1 adds to a semaphore modulo 2^64 at system scope. -/
  | signalAdd
  /-- WAIT (R65). The host command that waits for a semaphore condition and holds back later commands of its queue. -/
  | wait
  /-- WAIT_SATISFIED (R65). A waiting WAIT completes when its semaphore condition holds. -/
  | waitSatisfied
  /-- WAIT_TIMEOUT (R65). A WAIT whose time-out passes first completes with WAIT_TIMEOUT and the last value read. -/
  | waitTimeout
  /-- PAUSE_PREFERRED (R363). The PAUSE command in mode 0 stops the tenure at its next segment boundary and saves its context image. -/
  | pausePreferred
  /-- PAUSE_FORCED (R363). The PAUSE command in mode 1 stops the tenure at record and block boundaries and saves its context image. -/
  | pauseForced
  /-- RESUME (R65). The host command that restores a paused tenure in place, or re-places it. -/
  | resume
  /-- KILL (R65). The host command that ends a tenure and removes it from the fabric. -/
  | kill
  /-- QUERY_CAPABILITIES (R68). QUERY selector 0 returns the ABI version and the capability word. -/
  | queryCapabilities
  /-- QUERY_TENURE (R69). QUERY selector 1 returns a tenure's state, pound, tag, region and home flags. -/
  | queryTenure
  /-- QUERY_COUNTS (R69). QUERY selector 2 returns the as-built unit counts less the repair-map losses. -/
  | queryCounts
  /-- QUERY_GOVERNOR (R69). QUERY selector 3 returns one die's governor registers. -/
  | queryGovernor
  /-- QUERY_VIRTUAL_QUEUE (R69). QUERY selector 4 returns a virtual queue's occupancy, capacity, direction and bound tenure. -/
  | queryVirtualQueue
  /-- MBOX_DOOR_WRITE (R386). Writing 1 to MBOX_DOOR submits an administrative mailbox request to the device OS. -/
  | mboxDoorWrite
  /-- CREATE_QUEUE (R59). An administrative request creates a queue from a 64-byte descriptor and assigns it an identifier and a queue processor. -/
  | createQueue
  /-- DESTROY_QUEUE (R59). An administrative request destroys a queue, which also ends its error state. -/
  | destroyQueue
  /-- REGISTER_WRITE (R7). A write to a register with no behaviour of its own follows its access code. -/
  | registerWrite
  /-- PWR_BUDGET_WRITE (R28). The management controller writes a die's budget, and out-of-range values are ignored. -/
  | pwrBudgetWrite
  /-- GOVERNOR_TICK (R26). Every 50 µs the governor compares the die's measured power with its budget. -/
  | governorTick
  /-- CANDIDATE_ATTEMPT (R84). Gykan attempts the next candidate region once it is FREE, and grants it on success. -/
  | candidateAttempt
  /-- LOAD_COMMIT (R97). The combined acknowledgements of a configuration load arrive, and the load commits or fails. -/
  | loadCommit
  /-- CODE_PAGE_RESOLVED (R381). An absent object page is resolved and the waiting load or admission read resumes, or fails with CODE_PAGE. -/
  | codePageResolved
  /-- PLANE_GRANT (R79). On a device OS request, Gykan zeroes a region's idle plane and grants it to a second tenure. -/
  | planeGrant
  /-- DRAIN_COMPLETE (R77). A DRAINING subtree or plane whose outstanding-reply count reaches zero goes to ZEROING. -/
  | drainComplete
  /-- DRAIN_TIMEOUT (R77). A DRAINING subtree or plane goes to ZEROING after 2^20 cycles. -/
  | drainTimeout
  /-- ZEROING_COMPLETE (R101). Hardware zeroing of a region or allocation completes and the subtree goes to FREE. -/
  | zeroingComplete
  /-- RESERVE_SUBTREE (R77). The device OS reserves a FREE L4 subtree for its own use. -/
  | reserveSubtree
  /-- RELEASE_SUBTREE (R77). The device OS releases a RESERVED subtree, which goes to ZEROING. -/
  | releaseSubtree
  /-- REPLY_EXPIRY (R78). The fabric discards a reply that has been in transit for more than 2^20 cycles. -/
  | replyExpiry
  /-- REPLY_ARRIVAL (R78). A reply reaches an interface and is dropped when its tag differs from the current tag of its plane. -/
  | replyArrival
  /-- RECORD_VISIBLE (R34). A closed record arrives whole at the consumer's buffer and becomes visible. -/
  | recordVisible
  /-- VQ_AGENT_MOVE (R71). An input virtual-queue agent moves the oldest ring record into the external channel when a slot frees. -/
  | vqAgentMove
  /-- VQ_AGENT_APPEND (R72). An output virtual-queue agent appends a delivered record to its ring when the ring has room. -/
  | vqAgentAppend
  /-- ACTIVATION_START (R151). A task activation starts at PC 0 when a trigger record is visible and the processor is free. -/
  | activationStart
  /-- NULL_TRIGGER (R152). A Null on the trigger channel is taken without an activation and forwarded on null-forwarding outputs. -/
  | nullTrigger
  /-- END (R154). Retires the activation, releasing inputs and then the trigger record. -/
  | end_
  /-- NOP (R171). No effect. -/
  | nop
  /-- LOAD_REPLY (R272). A global load reply writes its destination and decrements its token. -/
  | loadReply
  /-- STORE_PERFORMED (R272). A global store is performed at its home or the host port and decrements its token. -/
  | storePerformed
  /-- TRANSLATION_REFILL (R265). A translation miss is refilled from the layer above and the stalled access proceeds. -/
  | translationRefill
  /-- PRI_RESPONSE (R267). A PRI page response arrives and the translation is retried or fails with PAGE_FAULT. -/
  | priResponse
  /-- OS_PAGE_RESPONSE (R267). The device OS answers a device-local page request by installing an entry or failing. -/
  | osPageResponse
  /-- ATS_INVALIDATION (R268). An invalidation drops every copy of the entries and completes once translated accesses are performed. -/
  | atsInvalidation
  /-- TRANSFER_REQUEST_RECORD (R276). A lighter takes a Transfer request record from a bound channel. -/
  | transferRequestRecord
  /-- LIGHTER_REQUEST (R277). A lighter starts performing a held request in bursts of aligned blocks. -/
  | lighterRequest
  /-- LIGHTER_COMPLETE (R277). After every payload byte is performed, the lighter writes the completion word and decrements the token. -/
  | lighterComplete
  /-- TRANSFORM_ROW (R279). The lighter sends a source row through a transform and writes its output units to the destination row. -/
  | transformRow
  /-- ACCUMULATE_STREAM_RECORD (R295). A lighter takes a record of an accumulate stream and accumulates its elements into window words. -/
  | accumulateStreamRecord
  /-- FLUSHR_ALL (R294). Sends every held residual on the flush lane. -/
  | flushrAll
  /-- ACCUMULATE_ARRIVAL (R296). A home accepts an accumulate partial into the word, or refuses it under the quota. -/
  | accumulateArrival
  /-- FLUSH_DELIVERY (R296). A flush-lane delivery is always accepted and performed at the home. -/
  | flushDelivery
  /-- REFUSAL_REPLY (R297). A refusal reply enters the sender's residual tile, combining, taking a way or evicting the older entry. -/
  | refusalReply
  /-- RESIDUAL_AGE_EXPIRY (R298). A residual whose age reaches 65,536 cycles is sent on the flush lane. -/
  | residualAgeExpiry
  /-- ACCEPTANCE_INTERVAL_END (R296). A sparse-update unit's 256-cycle acceptance interval ends and its quota counts restart. -/
  | acceptanceIntervalEnd
  /-- ATOMIC_PERFORM (R286). An atomic request arriving at its home is performed in arrival order and replies. -/
  | atomicPerform
  /-- ATOMIC_REPLY (R286). An atomic's reply or acknowledgement reaches the cell, writing the old value or lowering updpend. -/
  | atomicReply
  /-- QUIET_P (R325). Requests a pound-scope wave and waits for quiet. -/
  | quietP
  /-- QUIET_G (R325). Requests a graph-scope wave and waits for quiet. -/
  | quietG
  /-- FENCE_G (R326). Stalls until earlier global accesses are complete. -/
  | fenceG
  /-- FENCE_S (R326). As fence.g, and also until host-shared stores are performed in host memory. -/
  | fenceS
  /-- RTE (R378). Returns from a trap handler to tpc. -/
  | rte
  /-- HALT (R378). Halts the node and reports TASK_HALT. -/
  | halt
  /-- BRK (R378). Takes BREAKPOINT. -/
  | brk
  /-- ARITHMETIC_FIRING (R210). An arithmetic operator computes one output record from its Data inputs. -/
  | arithmeticFiring
  /-- CONTROL_TOKEN_FIRING (R207). Equal control tokens at every stream input are emitted once and popped. -/
  | controlTokenFiring
  /-- NULL_FIRING (R207). Nulls at every stream input emit one Null on each output. -/
  | nullFiring
  /-- CONVERT (R212). A convert operator converts one record's elements to the destination format. -/
  | convert
  /-- MX_PACK (R212). An MX pack operator forms an MX record from a record. -/
  | mxPack
  /-- MX_UNPACK (R212). An MX unpack operator decodes an MX record. -/
  | mxUnpack
  /-- FORK (R214). Copies a head record to every output. -/
  | fork
  /-- STEER (R215). Sends a record to one output by the next control record. -/
  | steer
  /-- FILTER (R215). Passes or discards a record by the next control record. -/
  | filter
  /-- MERGE (R216). A control-steered merge emits the head of the side its control record selects. -/
  | merge
  /-- NULL_MERGE (R216). A null merge emits the Data record of a pair of heads. -/
  | nullMerge
  /-- FAIR_MERGE (R217). A fair merge serves ready inputs round-robin, moving segments whole. -/
  | fairMerge
  /-- SEQUENCE_TAG (R218). Tags a passing record with the counter value. -/
  | sequenceTag
  /-- REORDER (R219). A record enters the reorder window and in-order records are emitted. -/
  | reorder
  /-- TAP (R309). A tap passes a record and sends a gate arrival for each selected event. -/
  | tap
  /-- COMBINE_SEND (R317). A combine-send operator contributes a record as one round of its leaf. -/
  | combineSend
  /-- COMPARE_EXCHANGE (R221). Sends the greater input to o0 and the lesser to o1. -/
  | compareExchange
  /-- LOOP_EXIT_DRAIN (R222). Matches records with predicates, passing, exiting or draining iterations. -/
  | loopExitDrain
  /-- CONSTANT_SOURCE (R223). Emits a constant record for each Data record. -/
  | constantSource
  /-- SINK (R223). Consumes a record. -/
  | sink
  /-- REPEAT (R223). Emits a record n times and then an optional dim_end. -/
  | repeat_
  /-- BANK_STREAM (R225). An address generator runs its nest over its bank partition for a start record. -/
  | bankStream
  /-- GLOBAL_STREAM (R225). An address generator runs its nest over global memory for a start record. -/
  | globalStream
  /-- GLOBAL_GATHER (R225). A gather generator reads or addresses elements by an index record. -/
  | globalGather
  /-- GENERATOR_COMPLETION (R225). A write-mode nest emits its completion record once every store is performed. -/
  | generatorCompletion
  /-- CONTROLLER_PERMIT (R228). A controller receives a parent Permit and grants Permits to children. -/
  | controllerPermit
  /-- CONTROLLER_DONE (R228). A controller receives a child's Done, grants further Permits and reports its own Done. -/
  | controllerDone
  /-- WEIGHT_COLUMN (R242). A weight column record is written into the current weight buffer when it is empty. -/
  | weightColumn
  /-- ACTIVATION_ROW (R243). An activation row record moves into an empty activation buffer. -/
  | activationRow
  /-- ROW_FIRING (R243). The oldest full row fires against the pass's weight buffer into the accumulators. -/
  | rowFiring
  /-- MM_DRAIN (R248). The drain command drains the accumulators in stream order. -/
  | mmDrain
  /-- MM_CLEAR (R248). The clear command resets accumulators without emitting. -/
  | mmClear
  /-- NULL_ROW (R249). A Null on i0 takes a row slot without arithmetic. -/
  | nullRow
  /-- MATRIX_CONTROL_TOKEN (R249). A control token on i0 passes to o0 after earlier rows and drains. -/
  | matrixControlToken
  /-- SORT (R252). A sort-mode cell sorts one key record and emits the top keys and tokens. -/
  | sort
  /-- GATE_ARRIVAL (R306). A gate counts an arrival for the current or the next generation. -/
  | gateArrival
  /-- GATE_PERMIT (R307). A gate sends a Permit for owed openings when an output has a free slot. -/
  | gatePermit
  /-- GATE_TIMEOUT (R308). A gate's timer expires and the gate raises GATE_TIMEOUT. -/
  | gateTimeout
  /-- CONTRIBUTION_ARRIVAL (R314). A combine entry receives a child's value for a round and combines it when complete. -/
  | contributionArrival
  /-- COMBINE_TIMEOUT (R315). An entry's timer expires and it forwards a partial with a missing-child mask. -/
  | combineTimeout
  /-- WAVE_PERIOD (R322). The lockkeeper starts a wave every P cycles with no request pending. -/
  | wavePeriod
  /-- WAVE_PASS (R320). A wave pass completes its descent and climb with summed counters. -/
  | wavePass
  /-- YIELD (R362). Offers the next segment boundary to a time-sharing partner. -/
  | yield_
  /-- IRELOAD (R355). Makes the next enter reload its pound from the object. -/
  | ireload
  /-- DONE (R366). Retires the tenure after flush, quiet, settling and host-shared completion. -/
  | done
  /-- PREDICATE_RECORD (R354). A record on a predicate-bound channel sets the predicate and is consumed. -/
  | predicateRecord
  /-- SEGMENT_BOUNDARY_SWITCH (R362). At a segment boundary the lockkeeper switches planes to a ready time-sharing partner. -/
  | segmentBoundarySwitch
  /-- SEGMAX_EXPIRY (R43). A preferred pause still waiting after segmax cycles becomes a forced pause. -/
  | segmaxExpiry
  /-- PAUSE_COMPLETE (R363). The context image is saved and the pause completes. -/
  | pauseComplete
  /-- FAULT_RECORD_ARRIVAL (R372). The lockkeeper takes a fault record and starts a forced pause of the tenure. -/
  | faultRecordArrival
  /-- HOLD_TIMEOUT (R373). A faulted and held tenure not killed within 10 s is killed by the device OS. -/
  | holdTimeout
  /-- PROCESS_MIGRATION (R367). The device OS freezes a process and streams its images and state to a peer module. -/
  | processMigration
  /-- FUNCTION_LEVEL_RESET (R388). A function-level reset kills tenures, destroys queues and releases virtual queues. -/
  | functionLevelReset
  /-- LINK_DOWN (R388). A surprise host link-down acts as a function-level reset. -/
  | linkDown
  /-- PCIE_RETRAIN (R389). The host link trains at a lower rate or width, changing only bandwidth. -/
  | pcieRetrain
  /-- ETHERNET_PORT_DOWN (R391). An Ethernet port goes down and its bridged traffic moves to other ports. -/
  | ethernetPortDown
  /-- FLIT_RECEIVE (R393). A die-link receiver accepts, discards or naks a flit and processes its acknowledgement. -/
  | flitReceive
  /-- RETRAIN_COMPLETE (R395). A module finishes retraining and replays from its ack, or is retired. -/
  | retrainComplete
  /-- POWER_GOOD (R397). Power good enters Dawn 0 and the loader checks and accepts an image. -/
  | powerGood
  /-- HBM_TRAINING_COMPLETE (R397). The device OS finishes HBM training and the module enters Dawn 2. -/
  | hbmTrainingComplete
  /-- SELF_TEST_COMPLETE (R404). Self-test seals the repair map, reconciles it and the module enters Dawn 3. -/
  | selfTestComplete
  /-- UNDERVOLTAGE (R405). Input below 40 V holds every die in reset until recovery restarts Dawn 0. -/
  | undervoltage
  /-- THERMAL_TRIP (R405). A die past its trip point at the floor clock switches the module off. -/
  | thermalTrip
  /-- COUNTER_RAISE (R401). A management request raises the anti-rollback counter when allowed. -/
  | counterRaise
  /-- READ_STATUS (R406). A vendor MCTP message reads DAWN_STATUS, temperatures and power. -/
  | readStatus
  /-- SET_BUDGET (R406). A vendor MCTP message sets die budgets. -/
  | setBudget
  /-- POWER_CYCLE_REQUEST (R406). A vendor MCTP message requests a power cycle. -/
  | powerCycleRequest
  /-- GET_VERSION (R403). SPDM GET_VERSION request. -/
  | getVersion
  /-- GET_CAPABILITIES (R403). SPDM GET_CAPABILITIES request. -/
  | getCapabilities
  /-- NEGOTIATE_ALGORITHMS (R403). SPDM NEGOTIATE_ALGORITHMS request. -/
  | negotiateAlgorithms
  /-- GET_DIGESTS (R403). SPDM GET_DIGESTS request. -/
  | getDigests
  /-- GET_CERTIFICATE (R403). SPDM GET_CERTIFICATE request. -/
  | getCertificate
  /-- CHALLENGE (R403). SPDM CHALLENGE request, answered with an error when IDFAIL is set. -/
  | challenge
  /-- GET_MEASUREMENTS (R403). SPDM GET_MEASUREMENTS request returning the attestation log. -/
  | getMeasurements
  /-- ACCUMULATE_ACKNOWLEDGEMENT (R285). The acknowledgement of an accepted accumulate or flush-lane delivery reaches the cell and lowers updpend by 1. -/
  | accumulateAcknowledgement
  /-- CONFIRMING_READ_COMPLETION (R326). The host port's confirming read, sent after a node's host-shared stores, completes and releases fence.s or done. -/
  | confirmingReadCompletion
  /-- VIRTUAL_QUEUE_ASSIGN (R70). The device OS assigns a process a virtual queue identifier with a fixed direction and a ring. -/
  | virtualQueueAssign
  /-- REGION_RECLAIM (R363). The device OS reclaims the region of a paused tenure, sending its subtrees to DRAINING. -/
  | regionReclaim
  /-- REPLACEMENT_FALLBACK (R365). After RESTORE_FEATURE, the device OS re-places the graph from its unplaced object and resumes the passage at the current pound's enter. -/
  | replacementFallback
  /-- MIGRATION_RECEIVE (R367). A peer module receives a migrated process's images, pages and rings and restores each tenure by re-placement. -/
  | migrationReceive
  /-- ETHERNET_PORT_UP (R391). An Ethernet port comes up and the bridge's reliable transport may use it again. -/
  | ethernetPortUp
  /-- BRIDGED_RECORD_ARRIVAL (R391). A record bridged from a peer module arrives and is appended whole to the linked local virtual queue's ring in order. -/
  | bridgedRecordArrival
  /-- MCTP_CONTROL_MESSAGE (R406). The management controller answers an MCTP control message (type 0x00). -/
  | mctpControlMessage
  /-- CORRECTABLE_ERROR (R396). A correctable HBM or SRAM error is corrected in place and counted for the device OS. -/
  | correctableError
  deriving DecidableEq, Repr

end Sys2Proof
end

