-- ==== Sys2Proof/Config.lean ====
section
/-! DEFINITION. What an implementation fixes, and the free values: constants without a body, of which nothing can be proved
but that they are one value (assumption 4). -/

namespace Sys2Proof.Config

/-- A free 64-bit value, by the number of free values taken before it. -/
opaque freeWord : Nat → BitVec 64

/-- A free natural number, by the number of free values taken before it. -/
opaque freeNat : Nat → Nat

/-- A free byte of memory, by the number of free values taken before it. -/
opaque freeByte : Nat → BitVec 8

/-- The 64 bytes of packet data in part `part` of the packet with a pair sequence number: the spec gives packets no layout (R392). -/
opaque packetPart : (pseq part : Nat) → BitVec 512

/-- Whether the header of a packet that is written off can be read, by the number of free values taken before (R323). -/
opaque headerRead : Nat → Bool

/-- The seq of a made token that no rule states, by the configuration words of its node, its identity, its count among the tokens made on
its port, and the seq of the record it belongs to (R53, R417; assumption 11). -/
opaque madeSeq : (words : List Nat) → (node count seq : Nat) → BitVec 16

/-- Which of two records without an element 0 a compare-exchange takes for the greater, by their headers (R221; assumption 9). -/
opaque exchangeFree : BitVec 64 → BitVec 64 → Bool

/-- The amax and the scale that `sclx` gives for a NaN amax, by its two sources (R201; assumption 8). -/
opaque sclxNaN : BitVec 64 → BitVec 64 → BitVec 64

/-! ### Dawn (R397 to R406): functions and layouts that the spec names and leaves to standards or to the implementation -/

/-- SHA-256 (R399, R403). -/
opaque sha256 : List Byte → BitVec 256

/-- Whether an ECDSA P-256 signature of a digest checks under a key (R399). -/
opaque ecdsaOk : (key : BitVec 512) → (digest : BitVec 256) → (sig : BitVec 512) → Bool

/-- Whether a key manifest's signature checks against the root digest in the mask ROM (R399). -/
opaque manifestOk : List Byte → Bool

/-- Signing key 0 to 3 of a key manifest, where it lists one (R399). -/
opaque manifestKey : List Byte → Nat → Option (BitVec 512)

/-- Whether a part record's signature checks (R404). -/
opaque recordOk : List Byte → Bool

/-- The capability bits that a part record grants (R404). -/
opaque recordCaps : List Byte → BitVec 64

/-- The units that a part record does not enable among those that a repair map names (R404). -/
opaque recordOff : List Byte → RepairMap

/-- The count that a part record enables of unit `k`: host ports, Ethernet ports, NVMe drives, lockkeepers, lighters, control cores, queue
processors, Gykans (R15, R19, R404). -/
opaque recordUnits : List Byte → Nat → Nat

/-- The module serial number in a part record (R404). -/
opaque recordSerial : List Byte → Nat

/-- The capability bits whose hardware is present (R404). -/
opaque hardwareCaps : BitVec 64

/-- The identity seed from the power-up state of the SRAM cells and the helper data in flash; none where reconstruction fails (R402). -/
opaque reconstruct : BitVec 256 → List Byte → Option (BitVec 256)

/-- The identity certificate in the flash area of R399. -/
opaque certificate : List Byte → List Byte

/-- The SPDM responder's signature of a transcript with the key derived from a seed (R402, R403). -/
opaque spdmSign : BitVec 256 → List Nat → BitVec 512

/-- What stands for the mask-ROM version, the Gykan policy tables and the self-test code as they are measured (R403). -/
opaque maskRom : List Byte

/-- The Gykan policy tables (R403). -/
opaque policyTables : List Byte

/-- The dawn-stage self-test code (R403). -/
opaque selfTestCode : List Byte

/-- A repair map as it is measured (R403). -/
opaque repairImage : RepairMap → List Byte

end Sys2Proof.Config
end

