-- ==== Sys2Proof/WellFormed.lean ====
section
/-! DEFINITION. Which instructions are well formed: the operand classes of R132 that each instruction allows, its formats, its
predicate destinations and the ranges of its number fields (R131, R132, R138, R161 to R182, R186 to R202, R272, R276, R280, R286
to R294, R310, R316, R352 to R360, R377, R378). An event is always well formed: its operands are names. -/

namespace Sys2Proof

/-- Class G. -/
def Opnd.isG : Opnd → Bool | .g _ => true | _ => false
/-- Class A. -/
def Opnd.isA : Opnd → Bool | .a _ => true | _ => false
/-- Class V. -/
def Opnd.isV : Opnd → Bool | .v _ => true | _ => false
/-- Class I. -/
def Opnd.isI : Opnd → Bool | .i _ => true | _ => false
/-- Class O. -/
def Opnd.isO : Opnd → Bool | .o _ => true | _ => false

/-- Classes G, A, V, I: a 32-bit source (R161). -/
def Opnd.s32 (x : Opnd) : Bool := !x.isO
/-- Classes G, A, V, O: a 32-bit destination (R161), a scalar destination (R186). -/
def Opnd.d32 (x : Opnd) : Bool := !x.isI
/-- Classes A, V, I: an A-type source (R168), a vector source (R186). -/
def Opnd.sA (x : Opnd) : Bool := x.isA || x.isV || x.isI
/-- Classes A, V, O: an A-type destination (R168), a vector destination (R186). -/
def Opnd.dA (x : Opnd) : Bool := x.isA || x.isV || x.isO
/-- Classes V, A: an accumulating operand (R186). -/
def Opnd.rw (x : Opnd) : Bool := x.isV || x.isA
/-- Classes G, A: a base (R173). -/
def Opnd.base (x : Opnd) : Bool := x.isG || x.isA
/-- Classes G, A, V: a register. -/
def Opnd.reg (x : Opnd) : Bool := x.isG || x.isA || x.isV

/-- The number of a register, or of a port. -/
def Opnd.num : Opnd → Nat
  | .g n => n | .a n => n | .v n => n | .i n => n | .o n => n

/-- The index of a vector format (R138). -/
def VFmt.idx : VFmt → Nat
  | .s8 => 0 | .z8 => 1 | .s16 => 2 | .z16 => 3 | .s32 => 4 | .z32 => 5 | .fp32 => 6 | .bf16 => 7 | .fp16 => 8 | .e4m3 => 9
  | .e5m2 => 10 | .tw8 => 11

/-- The lane width (R184). -/
def VFmt.width : VFmt → Nat
  | .s8 => 8 | .z8 => 8 | .s16 => 16 | .z16 => 16 | .s32 => 32 | .z32 => 32 | .fp32 => 32 | .bf16 => 16 | .fp16 => 16
  | .e4m3 => 8 | .e5m2 => 8 | .tw8 => 8

/-- The number of lanes (R184). -/
def VFmt.lanes : VFmt → Nat
  | .s8 => 8 | .z8 => 8 | .s16 => 4 | .z16 => 4 | .s32 => 2 | .z32 => 2 | .fp32 => 2 | .bf16 => 4 | .fp16 => 4
  | .e4m3 => 8 | .e5m2 => 8 | .tw8 => 8

/-- The system-register numbers that are assigned (R159, R126, R374, R270, R290). -/
def sysRegKnown (r : Nat) : Bool :=
  r ≤ 6 || r == 8 || r == 9 || (0x10 ≤ r && r ≤ 0x2F) || (0x100 ≤ r && r ≤ 0x128) || (0x200 ≤ r && r ≤ 0x206)
    || r == 0x300 || r == 0x301 || (0x308 ≤ r && r ≤ 0x30F) || (0x400 ≤ r && r ≤ 0x402)

/-- The operand checks of the vector majors 0x30 to 0x36, apart from formats: a destination and two sources. -/
def vec3 (d a b : Opnd) : Bool := d.dA && a.sA && b.sA

/-- A `cas` register pair (R286). -/
def casPair (b : Opnd) (dbl : Bool) : Bool := (b.reg && b.num % 2 == 0) && !(dbl && b.isG)

/-- An operand of an integer atomic other than `cas` (R286). -/
def atomSrc (a b : Opnd) : Bool := a.sA && b.s32

/-- A fetching atomic's destination (R286). -/
def atomDst (d : Opnd) (dbl : Bool) : Bool := d.reg && !(dbl && d.isG)

/-- A global load's destination (R272). -/
def gldDst (d a : Opnd) (tk : Bool) (tok : BitVec 3) : Bool := d.reg && a.sA && (tk || tok == 0)

/-- The well-formed instructions. -/
def Instr.wf : Instr → Bool
  -- scalar (R161, R162)
  | .addW d a b | .subW d a b | .andW d a b | .orW d a b | .xorW d a b | .sllW d a b | .srlW d a b | .sraW d a b
  | .mulW d a b | .mulhsW d a b | .mulhzW d a b | .divsW d a b | .divzW d a b | .remsW d a b | .remzW d a b
  | .minsW d a b | .maxsW d a b | .minzW d a b | .maxzW d a b | .addsW d a b | .subsW d a b =>
    d.d32 && a.s32 && b.s32
  | .clzW d a | .cntW d a | .movW d a => d.d32 && a.s32
  -- compares and predicates (R164, R165)
  | .cmpEqW p a b | .cmpNeW p a b | .cmpLtsW p a b | .cmpLtzW p a b | .cmpGesW p a b | .cmpGezW p a b =>
    p != 0 && a.s32 && b.s32
  | .pand p _ _ | .por p _ _ | .pxor p _ _ | .pandn p _ _ => p != 0
  | .pset p a => p != 0 && a.s32
  | .pget d _ => d.d32
  -- immediates (R166, R167)
  | .addiW d a _ | .andiW d a _ | .oriW d a _ | .xoriW d a _ => d.d32 && a.s32
  | .slliW d a _ | .srliW d a _ | .sraiW d a _ => d.d32 && a.s32
  | .liW d _ | .luiW d _ => d.d32
  -- address (R168)
  | .addA d a b | .addzA d a b => d.dA && a.sA && b.isG
  | .subA d a b => d.dA && a.sA && b.sA
  | .movA d a => d.dA && a.sA
  | .loA d a | .hiA d a => d.d32 && a.sA
  | .catA d a b => d.dA && a.isG && b.isG
  | .cmpEqA p a b | .cmpLtzA p a b => p != 0 && a.sA && b.sA
  | .addiA d a _ => d.dA && a.sA
  -- control (R136, R169 to R172)
  | .br _ _ | .brNp _ _ => true
  | .brz a _ _ | .brnz a _ _ | .brneg a _ _ | .brzNp a _ _ | .brnzNp a _ _ | .brnegNp a _ _ => a.isG
  | .call _ => true
  | .jr a | .callr a => a.isG
  | .end_ | .nop => true
  | .dbnz d _ => d.isG
  -- channels (R178 to R181)
  | .open_ d a | .send d a => d.isO && a.sA
  | .close d => d.isO
  | .next_ a => a.isI
  | .hdr d a => d.dA && a.isI
  | .left d a => d.d32 && a.isI
  | .cpy d a b => d.isO && a.isI && b.isG
  -- bank (R173, R174)
  | .ldS8 d b _ | .ldZ8 d b _ | .ldS16 d b _ | .ldZ16 d b _ | .ldW d b _ => d.d32 && b.base
  | .ldD d b _ => d.dA && b.base
  | .stB d b _ | .stH d b _ | .stW d b _ | .stD d b _ => d.s32 && b.base
  -- global (R272, R276, R280)
  | .gldS8 d a tk tok | .gldZ8 d a tk tok | .gldS16 d a tk tok | .gldZ16 d a tk tok | .gldW d a tk tok =>
    gldDst d a tk tok
  | .gldD d a tk tok => gldDst d a tk tok && !d.isG
  | .gstB d a tk tok | .gstH d a tk tok | .gstW d a tk tok | .gstD d a tk tok => d.s32 && a.sA && (tk || tok == 0)
  | .xfer a port => (a == .a 0 || a == .a 4 || a.isI) && port.toNat ≤ 4
  | .waita a b => a.sA && b.isG
  -- accumulates (R293, R294)
  | .accFp32 _ a b | .accBf16 _ a b | .accFp16 _ a b | .accS8 _ a b | .accZ8 _ a b | .accS16 _ a b | .accZ16 _ a b
  | .accS32 _ a b | .accZ32 _ a b | .accS64 _ a b => a.sA && b.s32
  | .flushr _ | .flushrAll => true
  -- atomics (R286, R288); a `.d` operand may be of class G, and is then sign-extended (R133)
  | .atomAdd a b _ | .atomMin a b _ | .atomMax a b _ | .atomMinz a b _ | .atomMaxz a b _ | .atomAnd a b _ | .atomOr a b _
  | .atomXor a b _ => atomSrc a b
  | .atomAddF d a b _ z | .atomMinF d a b _ z | .atomMaxF d a b _ z | .atomMinzF d a b _ z | .atomMaxzF d a b _ z
  | .atomAndF d a b _ z | .atomOrF d a b _ z | .atomXorF d a b _ z | .atomSwap d a b _ z => atomDst d z && atomSrc a b
  | .atomCas d a b _ z => atomDst d z && a.sA && casPair b z
  | .atomFaddFp32 a b | .atomFaddBf16 a b => atomSrc a b
  | .atomFaddFp32F d a b | .atomFaddBf16F d a b => d.reg && atomSrc a b
  -- vector (R138, R186, R189 to R202)
  | .vAdd d a b f | .vSub d a b f | .vMul d a b f | .vMin d a b f | .vMax d a b f => vec3 d a b && f.idx ≤ 8
  | .vAbs d a f | .vNeg d a f => d.dA && a.sA && f.idx ≤ 8
  | .vAdds d a b f | .vSubs d a b f | .vAnd d a b f | .vOr d a b f | .vXor d a b f | .vSll d a b f | .vSrl d a b f
  | .vSra d a b f => vec3 d a b && f.idx ≤ 5
  | .vFma d a b f | .vFms d a b f | .vFnma d a b f | .vFmab d a b f => d.rw && a.sA && b.sA && 6 ≤ f.idx && f.idx ≤ 8
  | .vDot d a b f => d.rw && a.sA && b.sA && ((6 ≤ f.idx && f.idx ≤ 8) || f.idx == 11)
  | .vCmpEq d a b f | .vCmpLt d a b f | .vCmpLe d a b f => vec3 d a b && f.idx ≤ 8
  | .vCmpUn d a b f => vec3 d a b && 6 ≤ f.idx && f.idx ≤ 8
  | .vSel d a b f => d.rw && a.sA && b.sA && f.idx ≤ 8
  | .vShuf d a b f | .vZip d a b f | .vUnzip d a b f => vec3 d a b && f.idx ≤ 10
  | .vBcast d a m f | .vRot d a m f => d.dA && a.sA && f.idx ≤ 10 && m.toNat < f.lanes
  | .vIns d a m f => d.rw && a.sA && f.idx ≤ 10 && m.toNat < f.lanes
  | .vExt d a m f => d.d32 && a.sA && f.idx ≤ 10 && m.toNat < f.lanes
  | .cmpr2of4 d a p f => d.dA && a.sA && p != 0 && (f.idx == 2 || f.idx == 3 || f.idx == 7 || f.idx == 8)
  | .vCvt d a _ _ _ _ => d.dA && a.sA
  | .vRsum d a f | .vRmax d a f | .vRmin d a f => d.d32 && a.sA && f.idx ≤ 8
  | .vRdot d a b f => d.d32 && a.sA && b.sA && f.idx ≤ 8
  | .vScl d a m f => d.dA && a.sA && m.toNat ≤ 7 && 6 ≤ f.idx && f.idx ≤ 10
  | .vSclx d a b f => d.rw && a.sA && b.sA && 6 ≤ f.idx && f.idx ≤ 10
  | .vMxpack d a b f | .vMxunpack d a b f | .vLdexp d a b f => vec3 d a b && 6 ≤ f.idx && f.idx ≤ 10
  -- synchronising (R271, R310, R316, R325, R326)
  | .wsb _ => true
  | .gateArr _ a | .gateWait _ a => a.s32
  | .quietP | .quietG | .fenceG | .fenceS => true
  | .combSend a b => a.isG && b.base
  -- system (R377, R378)
  | .sysr d r => d.d32 && sysRegKnown r.toNat
  | .sysw d r => d.s32 && sysRegKnown r.toNat
  | .trap a => a.isG
  | .rte | .halt | .brk => true
  | .longImmediatePrefix _ _ => true
  -- passage (R355 to R360)
  | .lock hv k => hv || k == 0
  | .wave p => 256 ≤ p.toNat && p.toNat ≤ 65536
  | .bindArg _ off len => off.toNat % 8 == 0 && len.toNat % 8 == 0 && 8 ≤ len.toNat
  | .bindVq _ off => off.toNat % 8 == 0
  | .bindXfer _ port => port.toNat ≤ 4
  | .bindAccs _ port wid => port.toNat ≤ 4 && wid.toNat ≤ 63
  | .bindXf _ x _ _ => x.toNat ≤ 127
  | .bindPred _ m => m.toNat ≤ 7
  | .watch _ rd wr at_ arg base _ mask =>
    (rd || wr || at_) && base.toNat % 8 == 0 && mask != 0 && (!arg || base.toNat < 4294967296)
  -- passage instructions whose fields admit every value, and events
  | .enter _ | .choose _ _ _ | .jmp _ | .unwatch _ | .fault _ | .quiet _ | .setp _ _ | .waitp _ | .count _ _
  | .decJnz _ _ | .settle _ | .illegalInstruction _ | .codeRangeFetch _ | .kickTailWrite | .cplHeadWrite
  | .completionWrite | .launch | .push | .pull | .signalSet | .signalAdd | .wait | .waitSatisfied | .waitTimeout
  | .pausePreferred | .pauseForced | .resume | .kill | .queryCapabilities | .queryTenure | .queryCounts
  | .queryGovernor | .queryVirtualQueue | .mboxDoorWrite | .createQueue | .destroyQueue | .registerWrite
  | .pwrBudgetWrite | .governorTick | .candidateAttempt | .loadCommit | .codePageResolved | .planeGrant
  | .drainComplete | .drainTimeout | .zeroingComplete | .reserveSubtree | .releaseSubtree | .replyExpiry
  | .replyArrival | .recordVisible | .vqAgentMove | .vqAgentAppend | .activationStart | .nullTrigger | .loadReply
  | .storePerformed | .translationRefill | .priResponse | .osPageResponse | .atsInvalidation | .transferRequestRecord
  | .lighterRequest | .lighterComplete | .transformRow | .accumulateStreamRecord | .accumulateArrival
  | .flushDelivery | .refusalReply | .residualAgeExpiry | .acceptanceIntervalEnd | .atomicPerform | .atomicReply
  | .arithmeticFiring | .controlTokenFiring | .nullFiring | .convert | .mxPack | .mxUnpack | .fork | .steer | .filter
  | .merge | .nullMerge | .fairMerge | .sequenceTag | .reorder | .tap | .combineSend | .compareExchange
  | .loopExitDrain | .constantSource | .sink | .repeat_ | .bankStream | .globalStream | .globalGather
  | .generatorCompletion | .controllerPermit | .controllerDone | .weightColumn | .activationRow | .rowFiring
  | .mmDrain | .mmClear | .nullRow | .matrixControlToken | .sort | .gateArrival | .gatePermit | .gateTimeout
  | .contributionArrival | .combineTimeout | .wavePeriod | .wavePass | .yield_ | .ireload | .done | .predicateRecord
  | .segmentBoundarySwitch | .segmaxExpiry | .pauseComplete | .faultRecordArrival | .holdTimeout | .processMigration
  | .functionLevelReset | .linkDown | .pcieRetrain | .ethernetPortDown | .flitReceive | .retrainComplete | .powerGood
  | .hbmTrainingComplete | .selfTestComplete | .undervoltage | .thermalTrip | .counterRaise | .readStatus
  | .setBudget | .powerCycleRequest | .getVersion | .getCapabilities | .negotiateAlgorithms | .getDigests
  | .getCertificate | .challenge | .getMeasurements | .accumulateAcknowledgement | .confirmingReadCompletion
  | .virtualQueueAssign | .regionReclaim | .replacementFallback | .migrationReceive | .ethernetPortUp
  | .bridgedRecordArrival | .mctpControlMessage | .correctableError => true

end Sys2Proof
end

