-- ==== Sys2Proof/Decode.lean ====
section
/-! DEFINITION. Reading instructions from their words and bytes, and writing them back (R130 to R138, R142, R355 to R360). A task
word that is no instruction, or whose operands are of a class it does not allow, reads as `illegalInstruction` (R131, R132, R136). A
passage word that is no instruction is refused. -/

namespace Sys2Proof

/-- The field of `len` bits of `w` that begins at bit `lo`. -/
def fld (w : W32) (lo len : Nat) : BitVec len := w.extractLsb' lo len

/-- The operand that a specifier names (R132). -/
def Opnd.ofBits (x : BitVec 6) : Opnd :=
  let n := x.toNat
  if n < 16 then .g (Fin.ofNat 16 n)
  else if n < 24 then .a (Fin.ofNat 8 (n - 16))
  else if n < 32 then .v (Fin.ofNat 8 (n - 24))
  else if n < 48 then .i (Fin.ofNat 16 (n - 32))
  else .o (Fin.ofNat 16 (n - 48))

/-- The specifier of an operand (R132). -/
def Opnd.bits : Opnd → BitVec 6
  | .g n => BitVec.ofNat 6 n.val
  | .a n => BitVec.ofNat 6 (16 + n.val)
  | .v n => BitVec.ofNat 6 (24 + n.val)
  | .i n => BitVec.ofNat 6 (32 + n.val)
  | .o n => BitVec.ofNat 6 (48 + n.val)

/-- The vector format of an index; 12 to 15 are none (R138). -/
def VFmt.ofBits? (x : BitVec 4) : Option VFmt :=
  match x.toNat with
  | 0 => some .s8 | 1 => some .z8 | 2 => some .s16 | 3 => some .z16 | 4 => some .s32 | 5 => some .z32 | 6 => some .fp32
  | 7 => some .bf16 | 8 => some .fp16 | 9 => some .e4m3 | 10 => some .e5m2 | 11 => some .tw8 | _ => none

/-- The index of a vector format (R138). -/
def VFmt.bits (f : VFmt) : BitVec 4 := BitVec.ofNat 4 f.idx

/-- The rounding mode of a code; 6 and 7 are none (R111). -/
def Mode.ofBits? (x : BitVec 3) : Option Mode :=
  match x.toNat with
  | 0 => some .rne | 1 => some .rtz | 2 => some .rup | 3 => some .rdn | 4 => some .rna | 5 => some .sr | _ => none

/-- The code of a rounding mode (R111). -/
def Mode.bits : Mode → BitVec 3
  | .rne => 0 | .rtz => 1 | .rup => 2 | .rdn => 3 | .rna => 4 | .sr => 5

/-- Words of major 0x00 (R136). -/
def decMajor00 (w : W32) : Instr :=
  if fld w 0 8 == 0#8 then .addW (Opnd.ofBits (fld w 20 6)) (Opnd.ofBits (fld w 14 6)) (Opnd.ofBits (fld w 8 6)) else
  if fld w 0 8 == 1#8 then .subW (Opnd.ofBits (fld w 20 6)) (Opnd.ofBits (fld w 14 6)) (Opnd.ofBits (fld w 8 6)) else
  if fld w 0 8 == 2#8 then .andW (Opnd.ofBits (fld w 20 6)) (Opnd.ofBits (fld w 14 6)) (Opnd.ofBits (fld w 8 6)) else
  if fld w 0 8 == 3#8 then .orW (Opnd.ofBits (fld w 20 6)) (Opnd.ofBits (fld w 14 6)) (Opnd.ofBits (fld w 8 6)) else
  if fld w 0 8 == 4#8 then .xorW (Opnd.ofBits (fld w 20 6)) (Opnd.ofBits (fld w 14 6)) (Opnd.ofBits (fld w 8 6)) else
  if fld w 0 8 == 5#8 then .sllW (Opnd.ofBits (fld w 20 6)) (Opnd.ofBits (fld w 14 6)) (Opnd.ofBits (fld w 8 6)) else
  if fld w 0 8 == 6#8 then .srlW (Opnd.ofBits (fld w 20 6)) (Opnd.ofBits (fld w 14 6)) (Opnd.ofBits (fld w 8 6)) else
  if fld w 0 8 == 7#8 then .sraW (Opnd.ofBits (fld w 20 6)) (Opnd.ofBits (fld w 14 6)) (Opnd.ofBits (fld w 8 6)) else
  if fld w 0 8 == 8#8 then .mulW (Opnd.ofBits (fld w 20 6)) (Opnd.ofBits (fld w 14 6)) (Opnd.ofBits (fld w 8 6)) else
  if fld w 0 8 == 9#8 then .mulhsW (Opnd.ofBits (fld w 20 6)) (Opnd.ofBits (fld w 14 6)) (Opnd.ofBits (fld w 8 6)) else
  if fld w 0 8 == 10#8 then .mulhzW (Opnd.ofBits (fld w 20 6)) (Opnd.ofBits (fld w 14 6)) (Opnd.ofBits (fld w 8 6)) else
  if fld w 0 8 == 11#8 then .divsW (Opnd.ofBits (fld w 20 6)) (Opnd.ofBits (fld w 14 6)) (Opnd.ofBits (fld w 8 6)) else
  if fld w 0 8 == 12#8 then .divzW (Opnd.ofBits (fld w 20 6)) (Opnd.ofBits (fld w 14 6)) (Opnd.ofBits (fld w 8 6)) else
  if fld w 0 8 == 13#8 then .remsW (Opnd.ofBits (fld w 20 6)) (Opnd.ofBits (fld w 14 6)) (Opnd.ofBits (fld w 8 6)) else
  if fld w 0 8 == 14#8 then .remzW (Opnd.ofBits (fld w 20 6)) (Opnd.ofBits (fld w 14 6)) (Opnd.ofBits (fld w 8 6)) else
  if fld w 0 8 == 15#8 then .minsW (Opnd.ofBits (fld w 20 6)) (Opnd.ofBits (fld w 14 6)) (Opnd.ofBits (fld w 8 6)) else
  if fld w 0 8 == 16#8 then .maxsW (Opnd.ofBits (fld w 20 6)) (Opnd.ofBits (fld w 14 6)) (Opnd.ofBits (fld w 8 6)) else
  if fld w 0 8 == 17#8 then .minzW (Opnd.ofBits (fld w 20 6)) (Opnd.ofBits (fld w 14 6)) (Opnd.ofBits (fld w 8 6)) else
  if fld w 0 8 == 18#8 then .maxzW (Opnd.ofBits (fld w 20 6)) (Opnd.ofBits (fld w 14 6)) (Opnd.ofBits (fld w 8 6)) else
  if fld w 0 8 == 19#8 then .addsW (Opnd.ofBits (fld w 20 6)) (Opnd.ofBits (fld w 14 6)) (Opnd.ofBits (fld w 8 6)) else
  if fld w 0 8 == 20#8 then .subsW (Opnd.ofBits (fld w 20 6)) (Opnd.ofBits (fld w 14 6)) (Opnd.ofBits (fld w 8 6)) else
  if fld w 8 6 == 0#6 && fld w 0 8 == 21#8 then .clzW (Opnd.ofBits (fld w 20 6)) (Opnd.ofBits (fld w 14 6)) else
  if fld w 8 6 == 0#6 && fld w 0 8 == 22#8 then .cntW (Opnd.ofBits (fld w 20 6)) (Opnd.ofBits (fld w 14 6)) else
  if fld w 8 6 == 0#6 && fld w 0 8 == 23#8 then .movW (Opnd.ofBits (fld w 20 6)) (Opnd.ofBits (fld w 14 6)) else
  .illegalInstruction w

/-- Words of major 0x01 (R136). -/
def decMajor01 (w : W32) : Instr :=
  if fld w 22 4 == 0#4 && fld w 0 8 == 0#8 then .cmpEqW (fld w 20 2).toFin (Opnd.ofBits (fld w 14 6)) (Opnd.ofBits (fld w 8 6)) else
  if fld w 22 4 == 0#4 && fld w 0 8 == 1#8 then .cmpNeW (fld w 20 2).toFin (Opnd.ofBits (fld w 14 6)) (Opnd.ofBits (fld w 8 6)) else
  if fld w 22 4 == 0#4 && fld w 0 8 == 2#8 then .cmpLtsW (fld w 20 2).toFin (Opnd.ofBits (fld w 14 6)) (Opnd.ofBits (fld w 8 6)) else
  if fld w 22 4 == 0#4 && fld w 0 8 == 3#8 then .cmpLtzW (fld w 20 2).toFin (Opnd.ofBits (fld w 14 6)) (Opnd.ofBits (fld w 8 6)) else
  if fld w 22 4 == 0#4 && fld w 0 8 == 4#8 then .cmpGesW (fld w 20 2).toFin (Opnd.ofBits (fld w 14 6)) (Opnd.ofBits (fld w 8 6)) else
  if fld w 22 4 == 0#4 && fld w 0 8 == 5#8 then .cmpGezW (fld w 20 2).toFin (Opnd.ofBits (fld w 14 6)) (Opnd.ofBits (fld w 8 6)) else
  .illegalInstruction w

/-- Words of major 0x02 (R136). -/
def decMajor02 (w : W32) : Instr :=
  if fld w 22 4 == 0#4 && fld w 16 4 == 0#4 && fld w 10 4 == 0#4 && fld w 0 8 == 0#8 then .pand (fld w 20 2).toFin (fld w 14 2).toFin (fld w 8 2).toFin else
  if fld w 22 4 == 0#4 && fld w 16 4 == 0#4 && fld w 10 4 == 0#4 && fld w 0 8 == 1#8 then .por (fld w 20 2).toFin (fld w 14 2).toFin (fld w 8 2).toFin else
  if fld w 22 4 == 0#4 && fld w 16 4 == 0#4 && fld w 10 4 == 0#4 && fld w 0 8 == 2#8 then .pxor (fld w 20 2).toFin (fld w 14 2).toFin (fld w 8 2).toFin else
  if fld w 22 4 == 0#4 && fld w 16 4 == 0#4 && fld w 10 4 == 0#4 && fld w 0 8 == 3#8 then .pandn (fld w 20 2).toFin (fld w 14 2).toFin (fld w 8 2).toFin else
  if fld w 22 4 == 0#4 && fld w 8 6 == 0#6 && fld w 0 8 == 4#8 then .pset (fld w 20 2).toFin (Opnd.ofBits (fld w 14 6)) else
  if fld w 16 4 == 0#4 && fld w 8 6 == 0#6 && fld w 0 8 == 5#8 then .pget (Opnd.ofBits (fld w 20 6)) (fld w 14 2).toFin else
  .illegalInstruction w

/-- Words of major 0x03 (R136). -/
def decMajor03 (w : W32) : Instr :=
  .addiW (Opnd.ofBits (fld w 20 6)) (Opnd.ofBits (fld w 14 6)) (fld w 0 14)

/-- Words of major 0x04 (R136). -/
def decMajor04 (w : W32) : Instr :=
  .andiW (Opnd.ofBits (fld w 20 6)) (Opnd.ofBits (fld w 14 6)) (fld w 0 14)

/-- Words of major 0x05 (R136). -/
def decMajor05 (w : W32) : Instr :=
  .oriW (Opnd.ofBits (fld w 20 6)) (Opnd.ofBits (fld w 14 6)) (fld w 0 14)

/-- Words of major 0x06 (R136). -/
def decMajor06 (w : W32) : Instr :=
  .xoriW (Opnd.ofBits (fld w 20 6)) (Opnd.ofBits (fld w 14 6)) (fld w 0 14)

/-- Words of major 0x07 (R136). -/
def decMajor07 (w : W32) : Instr :=
  if fld w 8 6 == 0#6 && fld w 5 3 == 0#3 then .slliW (Opnd.ofBits (fld w 20 6)) (Opnd.ofBits (fld w 14 6)) (fld w 0 5) else
  if fld w 8 6 == 16#6 && fld w 5 3 == 0#3 then .srliW (Opnd.ofBits (fld w 20 6)) (Opnd.ofBits (fld w 14 6)) (fld w 0 5) else
  if fld w 8 6 == 32#6 && fld w 5 3 == 0#3 then .sraiW (Opnd.ofBits (fld w 20 6)) (Opnd.ofBits (fld w 14 6)) (fld w 0 5) else
  .illegalInstruction w

/-- Words of major 0x08 (R136). -/
def decMajor08 (w : W32) : Instr :=
  .liW (Opnd.ofBits (fld w 20 6)) (fld w 0 20)

/-- Words of major 0x09 (R136). -/
def decMajor09 (w : W32) : Instr :=
  .luiW (Opnd.ofBits (fld w 20 6)) (fld w 0 20)

/-- Words of major 0x0A (R136). -/
def decMajor0A (w : W32) : Instr :=
  if fld w 0 8 == 0#8 then .addA (Opnd.ofBits (fld w 20 6)) (Opnd.ofBits (fld w 14 6)) (Opnd.ofBits (fld w 8 6)) else
  if fld w 0 8 == 1#8 then .addzA (Opnd.ofBits (fld w 20 6)) (Opnd.ofBits (fld w 14 6)) (Opnd.ofBits (fld w 8 6)) else
  if fld w 0 8 == 2#8 then .subA (Opnd.ofBits (fld w 20 6)) (Opnd.ofBits (fld w 14 6)) (Opnd.ofBits (fld w 8 6)) else
  if fld w 8 6 == 0#6 && fld w 0 8 == 3#8 then .movA (Opnd.ofBits (fld w 20 6)) (Opnd.ofBits (fld w 14 6)) else
  if fld w 8 6 == 0#6 && fld w 0 8 == 4#8 then .loA (Opnd.ofBits (fld w 20 6)) (Opnd.ofBits (fld w 14 6)) else
  if fld w 8 6 == 0#6 && fld w 0 8 == 5#8 then .hiA (Opnd.ofBits (fld w 20 6)) (Opnd.ofBits (fld w 14 6)) else
  if fld w 0 8 == 6#8 then .catA (Opnd.ofBits (fld w 20 6)) (Opnd.ofBits (fld w 14 6)) (Opnd.ofBits (fld w 8 6)) else
  if fld w 22 4 == 0#4 && fld w 0 8 == 7#8 then .cmpEqA (fld w 20 2).toFin (Opnd.ofBits (fld w 14 6)) (Opnd.ofBits (fld w 8 6)) else
  if fld w 22 4 == 0#4 && fld w 0 8 == 8#8 then .cmpLtzA (fld w 20 2).toFin (Opnd.ofBits (fld w 14 6)) (Opnd.ofBits (fld w 8 6)) else
  .illegalInstruction w

/-- Words of major 0x0B (R136). -/
def decMajor0B (w : W32) : Instr :=
  .addiA (Opnd.ofBits (fld w 20 6)) (Opnd.ofBits (fld w 14 6)) (fld w 0 14)

/-- Words of major 0x10 (R136). -/
def decMajor10 (w : W32) : Instr :=
  if fld w 20 6 == 0#6 && fld w 16 2 == 0#2 then .br (fld w 18 2).toFin (fld w 0 16) else
  if fld w 16 2 == 1#2 then .brz (Opnd.ofBits (fld w 20 6)) (fld w 18 2).toFin (fld w 0 16) else
  if fld w 16 2 == 2#2 then .brnz (Opnd.ofBits (fld w 20 6)) (fld w 18 2).toFin (fld w 0 16) else
  if fld w 16 2 == 3#2 then .brneg (Opnd.ofBits (fld w 20 6)) (fld w 18 2).toFin (fld w 0 16) else
  .illegalInstruction w

/-- Words of major 0x11 (R136). -/
def decMajor11 (w : W32) : Instr :=
  if fld w 20 6 == 0#6 && fld w 16 2 == 0#2 then .brNp (fld w 18 2).toFin (fld w 0 16) else
  if fld w 16 2 == 1#2 then .brzNp (Opnd.ofBits (fld w 20 6)) (fld w 18 2).toFin (fld w 0 16) else
  if fld w 16 2 == 2#2 then .brnzNp (Opnd.ofBits (fld w 20 6)) (fld w 18 2).toFin (fld w 0 16) else
  if fld w 16 2 == 3#2 then .brnegNp (Opnd.ofBits (fld w 20 6)) (fld w 18 2).toFin (fld w 0 16) else
  .illegalInstruction w

/-- Words of major 0x12 (R136). -/
def decMajor12 (w : W32) : Instr :=
  if fld w 20 6 == 0#6 && fld w 16 4 == 0#4 then .call (fld w 0 16) else
  .illegalInstruction w

/-- Words of major 0x13 (R136). -/
def decMajor13 (w : W32) : Instr :=
  if fld w 20 6 == 0#6 && fld w 8 6 == 0#6 && fld w 0 8 == 0#8 then .jr (Opnd.ofBits (fld w 14 6)) else
  if fld w 20 6 == 0#6 && fld w 8 6 == 0#6 && fld w 0 8 == 1#8 then .callr (Opnd.ofBits (fld w 14 6)) else
  if fld w 20 6 == 0#6 && fld w 14 6 == 0#6 && fld w 8 6 == 0#6 && fld w 0 8 == 2#8 then .end_ else
  if fld w 20 6 == 0#6 && fld w 14 6 == 0#6 && fld w 8 6 == 0#6 && fld w 0 8 == 3#8 then .nop else
  .illegalInstruction w

/-- Words of major 0x14 (R136). -/
def decMajor14 (w : W32) : Instr :=
  if fld w 14 6 == 0#6 then .dbnz (Opnd.ofBits (fld w 20 6)) (fld w 0 14) else
  .illegalInstruction w

/-- Words of major 0x18 (R136). -/
def decMajor18 (w : W32) : Instr :=
  if fld w 8 6 == 0#6 && fld w 0 8 == 0#8 then .open_ (Opnd.ofBits (fld w 20 6)) (Opnd.ofBits (fld w 14 6)) else
  if fld w 14 6 == 0#6 && fld w 8 6 == 0#6 && fld w 0 8 == 1#8 then .close (Opnd.ofBits (fld w 20 6)) else
  if fld w 20 6 == 0#6 && fld w 8 6 == 0#6 && fld w 0 8 == 2#8 then .next_ (Opnd.ofBits (fld w 14 6)) else
  if fld w 8 6 == 0#6 && fld w 0 8 == 3#8 then .hdr (Opnd.ofBits (fld w 20 6)) (Opnd.ofBits (fld w 14 6)) else
  if fld w 8 6 == 0#6 && fld w 0 8 == 4#8 then .send (Opnd.ofBits (fld w 20 6)) (Opnd.ofBits (fld w 14 6)) else
  if fld w 8 6 == 0#6 && fld w 0 8 == 5#8 then .left (Opnd.ofBits (fld w 20 6)) (Opnd.ofBits (fld w 14 6)) else
  if fld w 0 8 == 6#8 then .cpy (Opnd.ofBits (fld w 20 6)) (Opnd.ofBits (fld w 14 6)) (Opnd.ofBits (fld w 8 6)) else
  .illegalInstruction w

/-- Words of major 0x20 (R136). -/
def decMajor20 (w : W32) : Instr :=
  .ldS8 (Opnd.ofBits (fld w 20 6)) (Opnd.ofBits (fld w 14 6)) (fld w 0 14)

/-- Words of major 0x21 (R136). -/
def decMajor21 (w : W32) : Instr :=
  .ldZ8 (Opnd.ofBits (fld w 20 6)) (Opnd.ofBits (fld w 14 6)) (fld w 0 14)

/-- Words of major 0x22 (R136). -/
def decMajor22 (w : W32) : Instr :=
  .ldS16 (Opnd.ofBits (fld w 20 6)) (Opnd.ofBits (fld w 14 6)) (fld w 0 14)

/-- Words of major 0x23 (R136). -/
def decMajor23 (w : W32) : Instr :=
  .ldZ16 (Opnd.ofBits (fld w 20 6)) (Opnd.ofBits (fld w 14 6)) (fld w 0 14)

/-- Words of major 0x24 (R136). -/
def decMajor24 (w : W32) : Instr :=
  .ldW (Opnd.ofBits (fld w 20 6)) (Opnd.ofBits (fld w 14 6)) (fld w 0 14)

/-- Words of major 0x25 (R136). -/
def decMajor25 (w : W32) : Instr :=
  .ldD (Opnd.ofBits (fld w 20 6)) (Opnd.ofBits (fld w 14 6)) (fld w 0 14)

/-- Words of major 0x26 (R136). -/
def decMajor26 (w : W32) : Instr :=
  if fld w 12 2 == 0#2 then .stB (Opnd.ofBits (fld w 20 6)) (Opnd.ofBits (fld w 14 6)) (fld w 0 12) else
  if fld w 12 2 == 1#2 then .stH (Opnd.ofBits (fld w 20 6)) (Opnd.ofBits (fld w 14 6)) (fld w 0 12) else
  if fld w 12 2 == 2#2 then .stW (Opnd.ofBits (fld w 20 6)) (Opnd.ofBits (fld w 14 6)) (fld w 0 12) else
  if fld w 12 2 == 3#2 then .stD (Opnd.ofBits (fld w 20 6)) (Opnd.ofBits (fld w 14 6)) (fld w 0 12) else
  .illegalInstruction w

/-- Words of major 0x28 (R136). -/
def decMajor28 (w : W32) : Instr :=
  if fld w 8 2 == 0#2 && fld w 0 8 == 0#8 then .gldS8 (Opnd.ofBits (fld w 20 6)) (Opnd.ofBits (fld w 14 6)) (fld w 13 1 == 1#1) (fld w 10 3) else
  if fld w 8 2 == 0#2 && fld w 0 8 == 1#8 then .gldZ8 (Opnd.ofBits (fld w 20 6)) (Opnd.ofBits (fld w 14 6)) (fld w 13 1 == 1#1) (fld w 10 3) else
  if fld w 8 2 == 0#2 && fld w 0 8 == 2#8 then .gldS16 (Opnd.ofBits (fld w 20 6)) (Opnd.ofBits (fld w 14 6)) (fld w 13 1 == 1#1) (fld w 10 3) else
  if fld w 8 2 == 0#2 && fld w 0 8 == 3#8 then .gldZ16 (Opnd.ofBits (fld w 20 6)) (Opnd.ofBits (fld w 14 6)) (fld w 13 1 == 1#1) (fld w 10 3) else
  if fld w 8 2 == 0#2 && fld w 0 8 == 4#8 then .gldW (Opnd.ofBits (fld w 20 6)) (Opnd.ofBits (fld w 14 6)) (fld w 13 1 == 1#1) (fld w 10 3) else
  if fld w 8 2 == 0#2 && fld w 0 8 == 5#8 then .gldD (Opnd.ofBits (fld w 20 6)) (Opnd.ofBits (fld w 14 6)) (fld w 13 1 == 1#1) (fld w 10 3) else
  if fld w 8 2 == 0#2 && fld w 0 8 == 8#8 then .gstB (Opnd.ofBits (fld w 20 6)) (Opnd.ofBits (fld w 14 6)) (fld w 13 1 == 1#1) (fld w 10 3) else
  if fld w 8 2 == 0#2 && fld w 0 8 == 9#8 then .gstH (Opnd.ofBits (fld w 20 6)) (Opnd.ofBits (fld w 14 6)) (fld w 13 1 == 1#1) (fld w 10 3) else
  if fld w 8 2 == 0#2 && fld w 0 8 == 10#8 then .gstW (Opnd.ofBits (fld w 20 6)) (Opnd.ofBits (fld w 14 6)) (fld w 13 1 == 1#1) (fld w 10 3) else
  if fld w 8 2 == 0#2 && fld w 0 8 == 11#8 then .gstD (Opnd.ofBits (fld w 20 6)) (Opnd.ofBits (fld w 14 6)) (fld w 13 1 == 1#1) (fld w 10 3) else
  .illegalInstruction w

/-- Words of major 0x29 (R136). -/
def decMajor29 (w : W32) : Instr :=
  if fld w 20 6 == 0#6 && fld w 11 3 == 0#3 && fld w 0 8 == 0#8 then .xfer (Opnd.ofBits (fld w 14 6)) (fld w 8 3) else
  .illegalInstruction w

/-- Words of major 0x2A (R136). -/
def decMajor2A (w : W32) : Instr :=
  if fld w 0 8 == 0#8 then .accFp32 (fld w 20 6) (Opnd.ofBits (fld w 14 6)) (Opnd.ofBits (fld w 8 6)) else
  if fld w 0 8 == 1#8 then .accBf16 (fld w 20 6) (Opnd.ofBits (fld w 14 6)) (Opnd.ofBits (fld w 8 6)) else
  if fld w 0 8 == 2#8 then .accFp16 (fld w 20 6) (Opnd.ofBits (fld w 14 6)) (Opnd.ofBits (fld w 8 6)) else
  if fld w 0 8 == 3#8 then .accS8 (fld w 20 6) (Opnd.ofBits (fld w 14 6)) (Opnd.ofBits (fld w 8 6)) else
  if fld w 0 8 == 4#8 then .accZ8 (fld w 20 6) (Opnd.ofBits (fld w 14 6)) (Opnd.ofBits (fld w 8 6)) else
  if fld w 0 8 == 5#8 then .accS16 (fld w 20 6) (Opnd.ofBits (fld w 14 6)) (Opnd.ofBits (fld w 8 6)) else
  if fld w 0 8 == 6#8 then .accZ16 (fld w 20 6) (Opnd.ofBits (fld w 14 6)) (Opnd.ofBits (fld w 8 6)) else
  if fld w 0 8 == 7#8 then .accS32 (fld w 20 6) (Opnd.ofBits (fld w 14 6)) (Opnd.ofBits (fld w 8 6)) else
  if fld w 0 8 == 8#8 then .accZ32 (fld w 20 6) (Opnd.ofBits (fld w 14 6)) (Opnd.ofBits (fld w 8 6)) else
  if fld w 0 8 == 9#8 then .accS64 (fld w 20 6) (Opnd.ofBits (fld w 14 6)) (Opnd.ofBits (fld w 8 6)) else
  if fld w 14 6 == 0#6 && fld w 8 6 == 0#6 && fld w 0 8 == 16#8 then .flushr (fld w 20 6) else
  if fld w 20 6 == 0#6 && fld w 14 6 == 0#6 && fld w 8 6 == 0#6 && fld w 0 8 == 17#8 then .flushrAll else
  .illegalInstruction w

/-- Words of major 0x2B (R136). -/
def decMajor2B (w : W32) : Instr :=
  if fld w 20 6 == 0#6 && fld w 4 4 == 0#4 && fld w 0 3 == 0#3 then .atomAdd (Opnd.ofBits (fld w 14 6)) (Opnd.ofBits (fld w 8 6)) (fld w 3 1 == 1#1) else
  if fld w 20 6 == 0#6 && fld w 4 4 == 0#4 && fld w 0 3 == 1#3 then .atomMin (Opnd.ofBits (fld w 14 6)) (Opnd.ofBits (fld w 8 6)) (fld w 3 1 == 1#1) else
  if fld w 20 6 == 0#6 && fld w 4 4 == 0#4 && fld w 0 3 == 2#3 then .atomMax (Opnd.ofBits (fld w 14 6)) (Opnd.ofBits (fld w 8 6)) (fld w 3 1 == 1#1) else
  if fld w 20 6 == 0#6 && fld w 4 4 == 1#4 && fld w 0 3 == 1#3 then .atomMinz (Opnd.ofBits (fld w 14 6)) (Opnd.ofBits (fld w 8 6)) (fld w 3 1 == 1#1) else
  if fld w 20 6 == 0#6 && fld w 4 4 == 1#4 && fld w 0 3 == 2#3 then .atomMaxz (Opnd.ofBits (fld w 14 6)) (Opnd.ofBits (fld w 8 6)) (fld w 3 1 == 1#1) else
  if fld w 20 6 == 0#6 && fld w 4 4 == 0#4 && fld w 0 3 == 3#3 then .atomAnd (Opnd.ofBits (fld w 14 6)) (Opnd.ofBits (fld w 8 6)) (fld w 3 1 == 1#1) else
  if fld w 20 6 == 0#6 && fld w 4 4 == 0#4 && fld w 0 3 == 4#3 then .atomOr (Opnd.ofBits (fld w 14 6)) (Opnd.ofBits (fld w 8 6)) (fld w 3 1 == 1#1) else
  if fld w 20 6 == 0#6 && fld w 4 4 == 0#4 && fld w 0 3 == 5#3 then .atomXor (Opnd.ofBits (fld w 14 6)) (Opnd.ofBits (fld w 8 6)) (fld w 3 1 == 1#1) else
  if fld w 7 1 == 0#1 && fld w 4 2 == 2#2 && fld w 0 3 == 0#3 then .atomAddF (Opnd.ofBits (fld w 20 6)) (Opnd.ofBits (fld w 14 6)) (Opnd.ofBits (fld w 8 6)) (fld w 6 1 == 1#1) (fld w 3 1 == 1#1) else
  if fld w 7 1 == 0#1 && fld w 4 2 == 2#2 && fld w 0 3 == 1#3 then .atomMinF (Opnd.ofBits (fld w 20 6)) (Opnd.ofBits (fld w 14 6)) (Opnd.ofBits (fld w 8 6)) (fld w 6 1 == 1#1) (fld w 3 1 == 1#1) else
  if fld w 7 1 == 0#1 && fld w 4 2 == 2#2 && fld w 0 3 == 2#3 then .atomMaxF (Opnd.ofBits (fld w 20 6)) (Opnd.ofBits (fld w 14 6)) (Opnd.ofBits (fld w 8 6)) (fld w 6 1 == 1#1) (fld w 3 1 == 1#1) else
  if fld w 7 1 == 0#1 && fld w 4 2 == 3#2 && fld w 0 3 == 1#3 then .atomMinzF (Opnd.ofBits (fld w 20 6)) (Opnd.ofBits (fld w 14 6)) (Opnd.ofBits (fld w 8 6)) (fld w 6 1 == 1#1) (fld w 3 1 == 1#1) else
  if fld w 7 1 == 0#1 && fld w 4 2 == 3#2 && fld w 0 3 == 2#3 then .atomMaxzF (Opnd.ofBits (fld w 20 6)) (Opnd.ofBits (fld w 14 6)) (Opnd.ofBits (fld w 8 6)) (fld w 6 1 == 1#1) (fld w 3 1 == 1#1) else
  if fld w 7 1 == 0#1 && fld w 4 2 == 2#2 && fld w 0 3 == 3#3 then .atomAndF (Opnd.ofBits (fld w 20 6)) (Opnd.ofBits (fld w 14 6)) (Opnd.ofBits (fld w 8 6)) (fld w 6 1 == 1#1) (fld w 3 1 == 1#1) else
  if fld w 7 1 == 0#1 && fld w 4 2 == 2#2 && fld w 0 3 == 4#3 then .atomOrF (Opnd.ofBits (fld w 20 6)) (Opnd.ofBits (fld w 14 6)) (Opnd.ofBits (fld w 8 6)) (fld w 6 1 == 1#1) (fld w 3 1 == 1#1) else
  if fld w 7 1 == 0#1 && fld w 4 2 == 2#2 && fld w 0 3 == 5#3 then .atomXorF (Opnd.ofBits (fld w 20 6)) (Opnd.ofBits (fld w 14 6)) (Opnd.ofBits (fld w 8 6)) (fld w 6 1 == 1#1) (fld w 3 1 == 1#1) else
  if fld w 7 1 == 0#1 && fld w 4 2 == 2#2 && fld w 0 3 == 6#3 then .atomSwap (Opnd.ofBits (fld w 20 6)) (Opnd.ofBits (fld w 14 6)) (Opnd.ofBits (fld w 8 6)) (fld w 6 1 == 1#1) (fld w 3 1 == 1#1) else
  if fld w 7 1 == 0#1 && fld w 4 2 == 2#2 && fld w 0 3 == 7#3 then .atomCas (Opnd.ofBits (fld w 20 6)) (Opnd.ofBits (fld w 14 6)) (Opnd.ofBits (fld w 8 6)) (fld w 6 1 == 1#1) (fld w 3 1 == 1#1) else
  .illegalInstruction w

/-- Words of major 0x2C (R136). -/
def decMajor2C (w : W32) : Instr :=
  if fld w 20 6 == 0#6 && fld w 0 8 == 0#8 then .atomFaddFp32 (Opnd.ofBits (fld w 14 6)) (Opnd.ofBits (fld w 8 6)) else
  if fld w 20 6 == 0#6 && fld w 0 8 == 1#8 then .atomFaddBf16 (Opnd.ofBits (fld w 14 6)) (Opnd.ofBits (fld w 8 6)) else
  if fld w 0 8 == 32#8 then .atomFaddFp32F (Opnd.ofBits (fld w 20 6)) (Opnd.ofBits (fld w 14 6)) (Opnd.ofBits (fld w 8 6)) else
  if fld w 0 8 == 33#8 then .atomFaddBf16F (Opnd.ofBits (fld w 20 6)) (Opnd.ofBits (fld w 14 6)) (Opnd.ofBits (fld w 8 6)) else
  .illegalInstruction w

/-- Words of major 0x30 (R136). -/
def decMajor30 (w : W32) : Instr :=
  if fld w 0 4 == 0#4 then (VFmt.ofBits? (fld w 4 4)).elim (.illegalInstruction w) (fun f => .vAdd (Opnd.ofBits (fld w 20 6)) (Opnd.ofBits (fld w 14 6)) (Opnd.ofBits (fld w 8 6)) f) else
  if fld w 0 4 == 1#4 then (VFmt.ofBits? (fld w 4 4)).elim (.illegalInstruction w) (fun f => .vSub (Opnd.ofBits (fld w 20 6)) (Opnd.ofBits (fld w 14 6)) (Opnd.ofBits (fld w 8 6)) f) else
  if fld w 0 4 == 2#4 then (VFmt.ofBits? (fld w 4 4)).elim (.illegalInstruction w) (fun f => .vMul (Opnd.ofBits (fld w 20 6)) (Opnd.ofBits (fld w 14 6)) (Opnd.ofBits (fld w 8 6)) f) else
  if fld w 0 4 == 3#4 then (VFmt.ofBits? (fld w 4 4)).elim (.illegalInstruction w) (fun f => .vMin (Opnd.ofBits (fld w 20 6)) (Opnd.ofBits (fld w 14 6)) (Opnd.ofBits (fld w 8 6)) f) else
  if fld w 0 4 == 4#4 then (VFmt.ofBits? (fld w 4 4)).elim (.illegalInstruction w) (fun f => .vMax (Opnd.ofBits (fld w 20 6)) (Opnd.ofBits (fld w 14 6)) (Opnd.ofBits (fld w 8 6)) f) else
  if fld w 8 6 == 0#6 && fld w 0 4 == 5#4 then (VFmt.ofBits? (fld w 4 4)).elim (.illegalInstruction w) (fun f => .vAbs (Opnd.ofBits (fld w 20 6)) (Opnd.ofBits (fld w 14 6)) f) else
  if fld w 8 6 == 0#6 && fld w 0 4 == 6#4 then (VFmt.ofBits? (fld w 4 4)).elim (.illegalInstruction w) (fun f => .vNeg (Opnd.ofBits (fld w 20 6)) (Opnd.ofBits (fld w 14 6)) f) else
  if fld w 0 4 == 7#4 then (VFmt.ofBits? (fld w 4 4)).elim (.illegalInstruction w) (fun f => .vAdds (Opnd.ofBits (fld w 20 6)) (Opnd.ofBits (fld w 14 6)) (Opnd.ofBits (fld w 8 6)) f) else
  if fld w 0 4 == 8#4 then (VFmt.ofBits? (fld w 4 4)).elim (.illegalInstruction w) (fun f => .vSubs (Opnd.ofBits (fld w 20 6)) (Opnd.ofBits (fld w 14 6)) (Opnd.ofBits (fld w 8 6)) f) else
  if fld w 0 4 == 9#4 then (VFmt.ofBits? (fld w 4 4)).elim (.illegalInstruction w) (fun f => .vAnd (Opnd.ofBits (fld w 20 6)) (Opnd.ofBits (fld w 14 6)) (Opnd.ofBits (fld w 8 6)) f) else
  if fld w 0 4 == 10#4 then (VFmt.ofBits? (fld w 4 4)).elim (.illegalInstruction w) (fun f => .vOr (Opnd.ofBits (fld w 20 6)) (Opnd.ofBits (fld w 14 6)) (Opnd.ofBits (fld w 8 6)) f) else
  if fld w 0 4 == 11#4 then (VFmt.ofBits? (fld w 4 4)).elim (.illegalInstruction w) (fun f => .vXor (Opnd.ofBits (fld w 20 6)) (Opnd.ofBits (fld w 14 6)) (Opnd.ofBits (fld w 8 6)) f) else
  if fld w 0 4 == 12#4 then (VFmt.ofBits? (fld w 4 4)).elim (.illegalInstruction w) (fun f => .vSll (Opnd.ofBits (fld w 20 6)) (Opnd.ofBits (fld w 14 6)) (Opnd.ofBits (fld w 8 6)) f) else
  if fld w 0 4 == 13#4 then (VFmt.ofBits? (fld w 4 4)).elim (.illegalInstruction w) (fun f => .vSrl (Opnd.ofBits (fld w 20 6)) (Opnd.ofBits (fld w 14 6)) (Opnd.ofBits (fld w 8 6)) f) else
  if fld w 0 4 == 14#4 then (VFmt.ofBits? (fld w 4 4)).elim (.illegalInstruction w) (fun f => .vSra (Opnd.ofBits (fld w 20 6)) (Opnd.ofBits (fld w 14 6)) (Opnd.ofBits (fld w 8 6)) f) else
  .illegalInstruction w

/-- Words of major 0x31 (R136). -/
def decMajor31 (w : W32) : Instr :=
  if fld w 0 4 == 0#4 then (VFmt.ofBits? (fld w 4 4)).elim (.illegalInstruction w) (fun f => .vFma (Opnd.ofBits (fld w 20 6)) (Opnd.ofBits (fld w 14 6)) (Opnd.ofBits (fld w 8 6)) f) else
  if fld w 0 4 == 1#4 then (VFmt.ofBits? (fld w 4 4)).elim (.illegalInstruction w) (fun f => .vFms (Opnd.ofBits (fld w 20 6)) (Opnd.ofBits (fld w 14 6)) (Opnd.ofBits (fld w 8 6)) f) else
  if fld w 0 4 == 2#4 then (VFmt.ofBits? (fld w 4 4)).elim (.illegalInstruction w) (fun f => .vFnma (Opnd.ofBits (fld w 20 6)) (Opnd.ofBits (fld w 14 6)) (Opnd.ofBits (fld w 8 6)) f) else
  if fld w 0 4 == 3#4 then (VFmt.ofBits? (fld w 4 4)).elim (.illegalInstruction w) (fun f => .vFmab (Opnd.ofBits (fld w 20 6)) (Opnd.ofBits (fld w 14 6)) (Opnd.ofBits (fld w 8 6)) f) else
  if fld w 0 4 == 4#4 then (VFmt.ofBits? (fld w 4 4)).elim (.illegalInstruction w) (fun f => .vDot (Opnd.ofBits (fld w 20 6)) (Opnd.ofBits (fld w 14 6)) (Opnd.ofBits (fld w 8 6)) f) else
  .illegalInstruction w

/-- Words of major 0x32 (R136). -/
def decMajor32 (w : W32) : Instr :=
  if fld w 0 4 == 0#4 then (VFmt.ofBits? (fld w 4 4)).elim (.illegalInstruction w) (fun f => .vCmpEq (Opnd.ofBits (fld w 20 6)) (Opnd.ofBits (fld w 14 6)) (Opnd.ofBits (fld w 8 6)) f) else
  if fld w 0 4 == 1#4 then (VFmt.ofBits? (fld w 4 4)).elim (.illegalInstruction w) (fun f => .vCmpLt (Opnd.ofBits (fld w 20 6)) (Opnd.ofBits (fld w 14 6)) (Opnd.ofBits (fld w 8 6)) f) else
  if fld w 0 4 == 2#4 then (VFmt.ofBits? (fld w 4 4)).elim (.illegalInstruction w) (fun f => .vCmpLe (Opnd.ofBits (fld w 20 6)) (Opnd.ofBits (fld w 14 6)) (Opnd.ofBits (fld w 8 6)) f) else
  if fld w 0 4 == 3#4 then (VFmt.ofBits? (fld w 4 4)).elim (.illegalInstruction w) (fun f => .vCmpUn (Opnd.ofBits (fld w 20 6)) (Opnd.ofBits (fld w 14 6)) (Opnd.ofBits (fld w 8 6)) f) else
  if fld w 0 4 == 4#4 then (VFmt.ofBits? (fld w 4 4)).elim (.illegalInstruction w) (fun f => .vSel (Opnd.ofBits (fld w 20 6)) (Opnd.ofBits (fld w 14 6)) (Opnd.ofBits (fld w 8 6)) f) else
  .illegalInstruction w

/-- Words of major 0x33 (R136). -/
def decMajor33 (w : W32) : Instr :=
  if fld w 0 4 == 0#4 then (VFmt.ofBits? (fld w 4 4)).elim (.illegalInstruction w) (fun f => .vShuf (Opnd.ofBits (fld w 20 6)) (Opnd.ofBits (fld w 14 6)) (Opnd.ofBits (fld w 8 6)) f) else
  if fld w 0 4 == 1#4 then (VFmt.ofBits? (fld w 4 4)).elim (.illegalInstruction w) (fun f => .vBcast (Opnd.ofBits (fld w 20 6)) (Opnd.ofBits (fld w 14 6)) (fld w 8 6) f) else
  if fld w 0 4 == 2#4 then (VFmt.ofBits? (fld w 4 4)).elim (.illegalInstruction w) (fun f => .vZip (Opnd.ofBits (fld w 20 6)) (Opnd.ofBits (fld w 14 6)) (Opnd.ofBits (fld w 8 6)) f) else
  if fld w 0 4 == 3#4 then (VFmt.ofBits? (fld w 4 4)).elim (.illegalInstruction w) (fun f => .vUnzip (Opnd.ofBits (fld w 20 6)) (Opnd.ofBits (fld w 14 6)) (Opnd.ofBits (fld w 8 6)) f) else
  if fld w 0 4 == 4#4 then (VFmt.ofBits? (fld w 4 4)).elim (.illegalInstruction w) (fun f => .vRot (Opnd.ofBits (fld w 20 6)) (Opnd.ofBits (fld w 14 6)) (fld w 8 6) f) else
  if fld w 0 4 == 5#4 then (VFmt.ofBits? (fld w 4 4)).elim (.illegalInstruction w) (fun f => .vIns (Opnd.ofBits (fld w 20 6)) (Opnd.ofBits (fld w 14 6)) (fld w 8 6) f) else
  if fld w 0 4 == 6#4 then (VFmt.ofBits? (fld w 4 4)).elim (.illegalInstruction w) (fun f => .vExt (Opnd.ofBits (fld w 20 6)) (Opnd.ofBits (fld w 14 6)) (fld w 8 6) f) else
  if fld w 10 4 == 0#4 && fld w 0 4 == 7#4 then (VFmt.ofBits? (fld w 4 4)).elim (.illegalInstruction w) (fun f => .cmpr2of4 (Opnd.ofBits (fld w 20 6)) (Opnd.ofBits (fld w 14 6)) (fld w 8 2).toFin f) else
  .illegalInstruction w

/-- Words of major 0x34 (R136). -/
def decMajor34 (w : W32) : Instr :=
  if fld w 8 2 == 0#2 then (Mode.ofBits? (fld w 11 3)).elim (.illegalInstruction w) (fun mode => (VFmt.ofBits? (fld w 4 4)).elim (.illegalInstruction w) (fun src => (VFmt.ofBits? (fld w 0 4)).elim (.illegalInstruction w) (fun dst => .vCvt (Opnd.ofBits (fld w 20 6)) (Opnd.ofBits (fld w 14 6)) mode (fld w 10 1 == 1#1) src dst))) else
  .illegalInstruction w

/-- Words of major 0x35 (R136). -/
def decMajor35 (w : W32) : Instr :=
  if fld w 8 6 == 0#6 && fld w 0 4 == 0#4 then (VFmt.ofBits? (fld w 4 4)).elim (.illegalInstruction w) (fun f => .vRsum (Opnd.ofBits (fld w 20 6)) (Opnd.ofBits (fld w 14 6)) f) else
  if fld w 8 6 == 0#6 && fld w 0 4 == 1#4 then (VFmt.ofBits? (fld w 4 4)).elim (.illegalInstruction w) (fun f => .vRmax (Opnd.ofBits (fld w 20 6)) (Opnd.ofBits (fld w 14 6)) f) else
  if fld w 8 6 == 0#6 && fld w 0 4 == 2#4 then (VFmt.ofBits? (fld w 4 4)).elim (.illegalInstruction w) (fun f => .vRmin (Opnd.ofBits (fld w 20 6)) (Opnd.ofBits (fld w 14 6)) f) else
  if fld w 0 4 == 3#4 then (VFmt.ofBits? (fld w 4 4)).elim (.illegalInstruction w) (fun f => .vRdot (Opnd.ofBits (fld w 20 6)) (Opnd.ofBits (fld w 14 6)) (Opnd.ofBits (fld w 8 6)) f) else
  .illegalInstruction w

/-- Words of major 0x36 (R136). -/
def decMajor36 (w : W32) : Instr :=
  if fld w 0 4 == 0#4 then (VFmt.ofBits? (fld w 4 4)).elim (.illegalInstruction w) (fun f => .vScl (Opnd.ofBits (fld w 20 6)) (Opnd.ofBits (fld w 14 6)) (fld w 8 6) f) else
  if fld w 0 4 == 1#4 then (VFmt.ofBits? (fld w 4 4)).elim (.illegalInstruction w) (fun f => .vSclx (Opnd.ofBits (fld w 20 6)) (Opnd.ofBits (fld w 14 6)) (Opnd.ofBits (fld w 8 6)) f) else
  if fld w 0 4 == 2#4 then (VFmt.ofBits? (fld w 4 4)).elim (.illegalInstruction w) (fun f => .vMxpack (Opnd.ofBits (fld w 20 6)) (Opnd.ofBits (fld w 14 6)) (Opnd.ofBits (fld w 8 6)) f) else
  if fld w 0 4 == 3#4 then (VFmt.ofBits? (fld w 4 4)).elim (.illegalInstruction w) (fun f => .vMxunpack (Opnd.ofBits (fld w 20 6)) (Opnd.ofBits (fld w 14 6)) (Opnd.ofBits (fld w 8 6)) f) else
  if fld w 0 4 == 4#4 then (VFmt.ofBits? (fld w 4 4)).elim (.illegalInstruction w) (fun f => .vLdexp (Opnd.ofBits (fld w 20 6)) (Opnd.ofBits (fld w 14 6)) (Opnd.ofBits (fld w 8 6)) f) else
  .illegalInstruction w

/-- Words of major 0x38 (R136). -/
def decMajor38 (w : W32) : Instr :=
  if fld w 20 6 == 0#6 && fld w 14 6 == 0#6 && fld w 8 6 == 0#6 then .wsb (fld w 0 8) else
  .illegalInstruction w

/-- Words of major 0x39 (R136). -/
def decMajor39 (w : W32) : Instr :=
  if fld w 8 6 == 0#6 && fld w 0 8 == 0#8 then .gateArr (fld w 20 6) (Opnd.ofBits (fld w 14 6)) else
  if fld w 8 6 == 0#6 && fld w 0 8 == 1#8 then .gateWait (fld w 20 6) (Opnd.ofBits (fld w 14 6)) else
  if fld w 20 6 == 0#6 && fld w 14 6 == 0#6 && fld w 8 6 == 0#6 && fld w 0 8 == 2#8 then .quietP else
  if fld w 20 6 == 0#6 && fld w 14 6 == 0#6 && fld w 8 6 == 0#6 && fld w 0 8 == 3#8 then .quietG else
  if fld w 20 6 == 0#6 && fld w 0 8 == 4#8 then .combSend (Opnd.ofBits (fld w 14 6)) (Opnd.ofBits (fld w 8 6)) else
  if fld w 20 6 == 0#6 && fld w 14 6 == 0#6 && fld w 8 6 == 0#6 && fld w 0 8 == 5#8 then .fenceG else
  if fld w 20 6 == 0#6 && fld w 14 6 == 0#6 && fld w 8 6 == 0#6 && fld w 0 8 == 6#8 then .fenceS else
  if fld w 20 6 == 0#6 && fld w 0 8 == 7#8 then .waita (Opnd.ofBits (fld w 14 6)) (Opnd.ofBits (fld w 8 6)) else
  .illegalInstruction w

/-- Words of major 0x3C (R136). -/
def decMajor3C (w : W32) : Instr :=
  .sysr (Opnd.ofBits (fld w 20 6)) (fld w 0 20)

/-- Words of major 0x3D (R136). -/
def decMajor3D (w : W32) : Instr :=
  .sysw (Opnd.ofBits (fld w 20 6)) (fld w 0 20)

/-- Words of major 0x3E (R136). -/
def decMajor3E (w : W32) : Instr :=
  if fld w 20 6 == 0#6 && fld w 8 6 == 0#6 && fld w 0 8 == 0#8 then .trap (Opnd.ofBits (fld w 14 6)) else
  if fld w 20 6 == 0#6 && fld w 14 6 == 0#6 && fld w 8 6 == 0#6 && fld w 0 8 == 1#8 then .rte else
  if fld w 20 6 == 0#6 && fld w 14 6 == 0#6 && fld w 8 6 == 0#6 && fld w 0 8 == 2#8 then .halt else
  if fld w 20 6 == 0#6 && fld w 14 6 == 0#6 && fld w 8 6 == 0#6 && fld w 0 8 == 3#8 then .brk else
  .illegalInstruction w

/-- The task instruction of a word, before the operand classes are checked; prefix words aside (R131, R136). -/
def decodeRaw (w : W32) : Instr :=
  match (fld w 26 6).toNat with
  | 0x00 => decMajor00 w
  | 0x01 => decMajor01 w
  | 0x02 => decMajor02 w
  | 0x03 => decMajor03 w
  | 0x04 => decMajor04 w
  | 0x05 => decMajor05 w
  | 0x06 => decMajor06 w
  | 0x07 => decMajor07 w
  | 0x08 => decMajor08 w
  | 0x09 => decMajor09 w
  | 0x0A => decMajor0A w
  | 0x0B => decMajor0B w
  | 0x10 => decMajor10 w
  | 0x11 => decMajor11 w
  | 0x12 => decMajor12 w
  | 0x13 => decMajor13 w
  | 0x14 => decMajor14 w
  | 0x18 => decMajor18 w
  | 0x20 => decMajor20 w
  | 0x21 => decMajor21 w
  | 0x22 => decMajor22 w
  | 0x23 => decMajor23 w
  | 0x24 => decMajor24 w
  | 0x25 => decMajor25 w
  | 0x26 => decMajor26 w
  | 0x28 => decMajor28 w
  | 0x29 => decMajor29 w
  | 0x2A => decMajor2A w
  | 0x2B => decMajor2B w
  | 0x2C => decMajor2C w
  | 0x30 => decMajor30 w
  | 0x31 => decMajor31 w
  | 0x32 => decMajor32 w
  | 0x33 => decMajor33 w
  | 0x34 => decMajor34 w
  | 0x35 => decMajor35 w
  | 0x36 => decMajor36 w
  | 0x38 => decMajor38 w
  | 0x39 => decMajor39 w
  | 0x3C => decMajor3C w
  | 0x3D => decMajor3D w
  | 0x3E => decMajor3E w
  | _ => .illegalInstruction w

/-- The task instruction of a word; prefix words aside (R131 to R136). -/
def decodeTaskWord (w : W32) : Instr :=
  if (decodeRaw w).wf then decodeRaw w else .illegalInstruction w

/-- The prefix word (R134). -/
def prefixWord : W32 := 0xFC000000

/-- The task instruction at the front of a list of words, and how many words it takes: three for a prefix group. None where
the words run out (R134, R135). -/
def decodeTask : List W32 → Option (Instr × Nat)
  | [] => none
  | w :: ws =>
    if w = prefixWord then
      match ws with
      | imm :: third :: _ => some (.longImmediatePrefix imm third, 3)
      | _ => none
    else some (decodeTaskWord w, 1)

/-- A three-word `bind` (R358). -/
def decodeBind (w u x : W32) : Option Instr :=
  let c := fld w 0 24
  let a := fld u 0 28
  if fld w 24 2 = 0 then
    match (fld u 28 4).toNat with
    | 0 => some (.bindArg c a x)
    | 1 => if x = 0 then some (.bindVq c a) else none
    | 2 => if x = 0 then some (.bindXfer c a) else none
    | 3 => some (.bindAccs c a x)
    | 4 => if fld x 8 24 = 0 then some (.bindXf c a (fld x 0 4) (fld x 4 4)) else none
    | 5 => if x = 0 then some (.bindPred c a) else none
    | _ => none
  else none

/-- A four-word `watch` (R360). -/
def decodeWatch (w u x y : W32) : Option Instr :=
  if fld w 6 20 = 0 && fld x 25 7 == 0 && fld y 24 8 == 0 then
    some (.watch (fld w 0 2) (fld w 2 1 == 1#1) (fld w 3 1 == 1#1) (fld w 4 1 == 1#1) (fld w 5 1 == 1#1)
      (fld x 0 25 ++ u) (fld y 0 16) (fld y 16 8))
  else none

/-- The single-word passage instructions (R355). -/
def decodePassageWord (w : W32) : Option (Instr × Nat) :=
  match (fld w 26 6).toNat with
  | 0x01 => if fld w 20 6 == 0#6 && fld w 14 6 == 0#6 && fld w 12 2 == 0#2 then some (.enter (fld w 0 12), 1) else none
  | 0x02 => if fld w 20 6 == 0#6 && fld w 14 6 == 0#6 && fld w 13 1 == 0#1 then some (.lock (fld w 12 1 == 1#1) (fld w 0 12), 1) else none
  | 0x04 => if fld w 20 2 == 0#2 && fld w 16 4 == 0#4 then some (.choose (fld w 25 1 == 1#1) (fld w 22 3) (fld w 0 16), 1) else none
  | 0x05 => if fld w 20 6 == 0#6 && fld w 16 4 == 0#4 then some (.jmp (fld w 0 16), 1) else none
  | 0x06 => if fld w 20 6 == 0#6 && fld w 14 6 == 0#6 && fld w 8 6 == 0#6 && fld w 0 8 == 0#8 then some (.yield_, 1) else none
  | 0x07 => if fld w 20 6 == 0#6 && fld w 14 6 == 0#6 && fld w 8 6 == 0#6 && fld w 0 8 == 0#8 then some (.ireload, 1) else none
  | 0x09 => if fld w 20 6 == 0#6 && fld w 14 6 == 0#6 && fld w 8 6 == 0#6 && fld w 2 6 == 0#6 then some (.unwatch (fld w 0 2), 1) else none
  | 0x0A => if fld w 20 6 == 0#6 && fld w 16 4 == 0#4 then some (.fault (fld w 0 16), 1) else none
  | 0x0B => if fld w 20 6 == 0#6 && fld w 14 6 == 0#6 && fld w 8 6 == 0#6 && fld w 0 8 == 0#8 then some (.done, 1) else none
  | 0x0C => if fld w 20 6 == 0#6 && fld w 17 3 == 0#3 then some (.wave (fld w 0 17), 1) else none
  | 0x0D => if fld w 20 6 == 0#6 && fld w 14 6 == 0#6 && fld w 8 6 == 0#6 && fld w 1 7 == 0#7 then some (.quiet (fld w 0 1 == 1#1), 1) else none
  | 0x0E => if fld w 20 6 == 0#6 && fld w 14 6 == 0#6 && fld w 8 6 == 0#6 && fld w 4 4 == 0#4 then some (.setp (fld w 3 1 == 1#1) (fld w 0 3), 1) else none
  | 0x0F => if fld w 20 6 == 0#6 && fld w 14 6 == 0#6 && fld w 8 6 == 0#6 && fld w 3 5 == 0#5 then some (.waitp (fld w 0 3), 1) else none
  | 0x10 => if fld w 22 4 == 0#4 then some (.count (fld w 20 2) (fld w 0 20), 1) else none
  | 0x11 => if fld w 20 6 == 0#6 && fld w 18 2 == 0#2 then some (.decJnz (fld w 16 2) (fld w 0 16), 1) else none
  | 0x12 => if fld w 20 6 == 0#6 && fld w 14 6 == 0#6 && fld w 8 6 == 0#6 && fld w 6 2 == 0#2 then some (.settle (fld w 0 6), 1) else none
  | _ => none

/-- The passage instruction at the front of a list of words, before its operands are checked (R142, R352, R355). -/
def decodePassageRaw : List W32 → Option (Instr × Nat)
  | [] => none
  | w :: ws =>
    if fld w 26 6 = 3 then
      match ws with
      | u :: x :: _ => (decodeBind w u x).map (fun i => (i, 3))
      | _ => none
    else if fld w 26 6 = 8 then
      match ws with
      | u :: x :: y :: _ => (decodeWatch w u x y).map (fun i => (i, 4))
      | _ => none
    else decodePassageWord w

/-- The passage instruction at the front of a list of words, and how many words it takes (R142, R143, R352). -/
def decodePassage (ws : List W32) : Option (Instr × Nat) :=
  match decodePassageRaw ws with
  | some (i, n) => if i.wf then some (i, n) else none
  | none => none

/-- The words of a well-formed encoded instruction; none for an event (R131 to R138, R142, R355 to R360). -/
def encode : Instr → Option (List W32)
  | .addW d a b => some [(0#6 ++ d.bits ++ a.bits ++ b.bits ++ 0#8 : W32)]
  | .subW d a b => some [(0#6 ++ d.bits ++ a.bits ++ b.bits ++ 1#8 : W32)]
  | .andW d a b => some [(0#6 ++ d.bits ++ a.bits ++ b.bits ++ 2#8 : W32)]
  | .orW d a b => some [(0#6 ++ d.bits ++ a.bits ++ b.bits ++ 3#8 : W32)]
  | .xorW d a b => some [(0#6 ++ d.bits ++ a.bits ++ b.bits ++ 4#8 : W32)]
  | .sllW d a b => some [(0#6 ++ d.bits ++ a.bits ++ b.bits ++ 5#8 : W32)]
  | .srlW d a b => some [(0#6 ++ d.bits ++ a.bits ++ b.bits ++ 6#8 : W32)]
  | .sraW d a b => some [(0#6 ++ d.bits ++ a.bits ++ b.bits ++ 7#8 : W32)]
  | .mulW d a b => some [(0#6 ++ d.bits ++ a.bits ++ b.bits ++ 8#8 : W32)]
  | .mulhsW d a b => some [(0#6 ++ d.bits ++ a.bits ++ b.bits ++ 9#8 : W32)]
  | .mulhzW d a b => some [(0#6 ++ d.bits ++ a.bits ++ b.bits ++ 10#8 : W32)]
  | .divsW d a b => some [(0#6 ++ d.bits ++ a.bits ++ b.bits ++ 11#8 : W32)]
  | .divzW d a b => some [(0#6 ++ d.bits ++ a.bits ++ b.bits ++ 12#8 : W32)]
  | .remsW d a b => some [(0#6 ++ d.bits ++ a.bits ++ b.bits ++ 13#8 : W32)]
  | .remzW d a b => some [(0#6 ++ d.bits ++ a.bits ++ b.bits ++ 14#8 : W32)]
  | .minsW d a b => some [(0#6 ++ d.bits ++ a.bits ++ b.bits ++ 15#8 : W32)]
  | .maxsW d a b => some [(0#6 ++ d.bits ++ a.bits ++ b.bits ++ 16#8 : W32)]
  | .minzW d a b => some [(0#6 ++ d.bits ++ a.bits ++ b.bits ++ 17#8 : W32)]
  | .maxzW d a b => some [(0#6 ++ d.bits ++ a.bits ++ b.bits ++ 18#8 : W32)]
  | .addsW d a b => some [(0#6 ++ d.bits ++ a.bits ++ b.bits ++ 19#8 : W32)]
  | .subsW d a b => some [(0#6 ++ d.bits ++ a.bits ++ b.bits ++ 20#8 : W32)]
  | .clzW d a => some [(0#6 ++ d.bits ++ a.bits ++ 0#6 ++ 21#8 : W32)]
  | .cntW d a => some [(0#6 ++ d.bits ++ a.bits ++ 0#6 ++ 22#8 : W32)]
  | .movW d a => some [(0#6 ++ d.bits ++ a.bits ++ 0#6 ++ 23#8 : W32)]
  | .cmpEqW p a b => some [(1#6 ++ 0#4 ++ BitVec.ofFin (w := 2) p ++ a.bits ++ b.bits ++ 0#8 : W32)]
  | .cmpNeW p a b => some [(1#6 ++ 0#4 ++ BitVec.ofFin (w := 2) p ++ a.bits ++ b.bits ++ 1#8 : W32)]
  | .cmpLtsW p a b => some [(1#6 ++ 0#4 ++ BitVec.ofFin (w := 2) p ++ a.bits ++ b.bits ++ 2#8 : W32)]
  | .cmpLtzW p a b => some [(1#6 ++ 0#4 ++ BitVec.ofFin (w := 2) p ++ a.bits ++ b.bits ++ 3#8 : W32)]
  | .cmpGesW p a b => some [(1#6 ++ 0#4 ++ BitVec.ofFin (w := 2) p ++ a.bits ++ b.bits ++ 4#8 : W32)]
  | .cmpGezW p a b => some [(1#6 ++ 0#4 ++ BitVec.ofFin (w := 2) p ++ a.bits ++ b.bits ++ 5#8 : W32)]
  | .pand p q r => some [(2#6 ++ 0#4 ++ BitVec.ofFin (w := 2) p ++ 0#4 ++ BitVec.ofFin (w := 2) q ++ 0#4 ++ BitVec.ofFin (w := 2) r ++ 0#8 : W32)]
  | .por p q r => some [(2#6 ++ 0#4 ++ BitVec.ofFin (w := 2) p ++ 0#4 ++ BitVec.ofFin (w := 2) q ++ 0#4 ++ BitVec.ofFin (w := 2) r ++ 1#8 : W32)]
  | .pxor p q r => some [(2#6 ++ 0#4 ++ BitVec.ofFin (w := 2) p ++ 0#4 ++ BitVec.ofFin (w := 2) q ++ 0#4 ++ BitVec.ofFin (w := 2) r ++ 2#8 : W32)]
  | .pandn p q r => some [(2#6 ++ 0#4 ++ BitVec.ofFin (w := 2) p ++ 0#4 ++ BitVec.ofFin (w := 2) q ++ 0#4 ++ BitVec.ofFin (w := 2) r ++ 3#8 : W32)]
  | .pset p a => some [(2#6 ++ 0#4 ++ BitVec.ofFin (w := 2) p ++ a.bits ++ 0#6 ++ 4#8 : W32)]
  | .pget d q => some [(2#6 ++ d.bits ++ 0#4 ++ BitVec.ofFin (w := 2) q ++ 0#6 ++ 5#8 : W32)]
  | .addiW d a imm => some [(3#6 ++ d.bits ++ a.bits ++ imm : W32)]
  | .andiW d a imm => some [(4#6 ++ d.bits ++ a.bits ++ imm : W32)]
  | .oriW d a imm => some [(5#6 ++ d.bits ++ a.bits ++ imm : W32)]
  | .xoriW d a imm => some [(6#6 ++ d.bits ++ a.bits ++ imm : W32)]
  | .slliW d a sh => some [(7#6 ++ d.bits ++ a.bits ++ 0#6 ++ 0#3 ++ sh : W32)]
  | .srliW d a sh => some [(7#6 ++ d.bits ++ a.bits ++ 16#6 ++ 0#3 ++ sh : W32)]
  | .sraiW d a sh => some [(7#6 ++ d.bits ++ a.bits ++ 32#6 ++ 0#3 ++ sh : W32)]
  | .liW d imm => some [(8#6 ++ d.bits ++ imm : W32)]
  | .luiW d imm => some [(9#6 ++ d.bits ++ imm : W32)]
  | .addA d a b => some [(10#6 ++ d.bits ++ a.bits ++ b.bits ++ 0#8 : W32)]
  | .addzA d a b => some [(10#6 ++ d.bits ++ a.bits ++ b.bits ++ 1#8 : W32)]
  | .subA d a b => some [(10#6 ++ d.bits ++ a.bits ++ b.bits ++ 2#8 : W32)]
  | .movA d a => some [(10#6 ++ d.bits ++ a.bits ++ 0#6 ++ 3#8 : W32)]
  | .loA d a => some [(10#6 ++ d.bits ++ a.bits ++ 0#6 ++ 4#8 : W32)]
  | .hiA d a => some [(10#6 ++ d.bits ++ a.bits ++ 0#6 ++ 5#8 : W32)]
  | .catA d a b => some [(10#6 ++ d.bits ++ a.bits ++ b.bits ++ 6#8 : W32)]
  | .cmpEqA p a b => some [(10#6 ++ 0#4 ++ BitVec.ofFin (w := 2) p ++ a.bits ++ b.bits ++ 7#8 : W32)]
  | .cmpLtzA p a b => some [(10#6 ++ 0#4 ++ BitVec.ofFin (w := 2) p ++ a.bits ++ b.bits ++ 8#8 : W32)]
  | .addiA d a imm => some [(11#6 ++ d.bits ++ a.bits ++ imm : W32)]
  | .br p imm => some [(16#6 ++ 0#6 ++ BitVec.ofFin (w := 2) p ++ 0#2 ++ imm : W32)]
  | .brz a p imm => some [(16#6 ++ a.bits ++ BitVec.ofFin (w := 2) p ++ 1#2 ++ imm : W32)]
  | .brnz a p imm => some [(16#6 ++ a.bits ++ BitVec.ofFin (w := 2) p ++ 2#2 ++ imm : W32)]
  | .brneg a p imm => some [(16#6 ++ a.bits ++ BitVec.ofFin (w := 2) p ++ 3#2 ++ imm : W32)]
  | .brNp p imm => some [(17#6 ++ 0#6 ++ BitVec.ofFin (w := 2) p ++ 0#2 ++ imm : W32)]
  | .brzNp a p imm => some [(17#6 ++ a.bits ++ BitVec.ofFin (w := 2) p ++ 1#2 ++ imm : W32)]
  | .brnzNp a p imm => some [(17#6 ++ a.bits ++ BitVec.ofFin (w := 2) p ++ 2#2 ++ imm : W32)]
  | .brnegNp a p imm => some [(17#6 ++ a.bits ++ BitVec.ofFin (w := 2) p ++ 3#2 ++ imm : W32)]
  | .call imm => some [(18#6 ++ 0#6 ++ 0#4 ++ imm : W32)]
  | .jr a => some [(19#6 ++ 0#6 ++ a.bits ++ 0#6 ++ 0#8 : W32)]
  | .callr a => some [(19#6 ++ 0#6 ++ a.bits ++ 0#6 ++ 1#8 : W32)]
  | .end_ => some [(19#6 ++ 0#6 ++ 0#6 ++ 0#6 ++ 2#8 : W32)]
  | .nop => some [(19#6 ++ 0#6 ++ 0#6 ++ 0#6 ++ 3#8 : W32)]
  | .dbnz d imm => some [(20#6 ++ d.bits ++ 0#6 ++ imm : W32)]
  | .open_ d a => some [(24#6 ++ d.bits ++ a.bits ++ 0#6 ++ 0#8 : W32)]
  | .close d => some [(24#6 ++ d.bits ++ 0#6 ++ 0#6 ++ 1#8 : W32)]
  | .next_ a => some [(24#6 ++ 0#6 ++ a.bits ++ 0#6 ++ 2#8 : W32)]
  | .hdr d a => some [(24#6 ++ d.bits ++ a.bits ++ 0#6 ++ 3#8 : W32)]
  | .send d a => some [(24#6 ++ d.bits ++ a.bits ++ 0#6 ++ 4#8 : W32)]
  | .left d a => some [(24#6 ++ d.bits ++ a.bits ++ 0#6 ++ 5#8 : W32)]
  | .cpy d a b => some [(24#6 ++ d.bits ++ a.bits ++ b.bits ++ 6#8 : W32)]
  | .ldS8 d b off => some [(32#6 ++ d.bits ++ b.bits ++ off : W32)]
  | .ldZ8 d b off => some [(33#6 ++ d.bits ++ b.bits ++ off : W32)]
  | .ldS16 d b off => some [(34#6 ++ d.bits ++ b.bits ++ off : W32)]
  | .ldZ16 d b off => some [(35#6 ++ d.bits ++ b.bits ++ off : W32)]
  | .ldW d b off => some [(36#6 ++ d.bits ++ b.bits ++ off : W32)]
  | .ldD d b off => some [(37#6 ++ d.bits ++ b.bits ++ off : W32)]
  | .stB d b off => some [(38#6 ++ d.bits ++ b.bits ++ 0#2 ++ off : W32)]
  | .stH d b off => some [(38#6 ++ d.bits ++ b.bits ++ 1#2 ++ off : W32)]
  | .stW d b off => some [(38#6 ++ d.bits ++ b.bits ++ 2#2 ++ off : W32)]
  | .stD d b off => some [(38#6 ++ d.bits ++ b.bits ++ 3#2 ++ off : W32)]
  | .gldS8 d a tk tok => some [(40#6 ++ d.bits ++ a.bits ++ BitVec.ofBool tk ++ tok ++ 0#2 ++ 0#8 : W32)]
  | .gldZ8 d a tk tok => some [(40#6 ++ d.bits ++ a.bits ++ BitVec.ofBool tk ++ tok ++ 0#2 ++ 1#8 : W32)]
  | .gldS16 d a tk tok => some [(40#6 ++ d.bits ++ a.bits ++ BitVec.ofBool tk ++ tok ++ 0#2 ++ 2#8 : W32)]
  | .gldZ16 d a tk tok => some [(40#6 ++ d.bits ++ a.bits ++ BitVec.ofBool tk ++ tok ++ 0#2 ++ 3#8 : W32)]
  | .gldW d a tk tok => some [(40#6 ++ d.bits ++ a.bits ++ BitVec.ofBool tk ++ tok ++ 0#2 ++ 4#8 : W32)]
  | .gldD d a tk tok => some [(40#6 ++ d.bits ++ a.bits ++ BitVec.ofBool tk ++ tok ++ 0#2 ++ 5#8 : W32)]
  | .gstB d a tk tok => some [(40#6 ++ d.bits ++ a.bits ++ BitVec.ofBool tk ++ tok ++ 0#2 ++ 8#8 : W32)]
  | .gstH d a tk tok => some [(40#6 ++ d.bits ++ a.bits ++ BitVec.ofBool tk ++ tok ++ 0#2 ++ 9#8 : W32)]
  | .gstW d a tk tok => some [(40#6 ++ d.bits ++ a.bits ++ BitVec.ofBool tk ++ tok ++ 0#2 ++ 10#8 : W32)]
  | .gstD d a tk tok => some [(40#6 ++ d.bits ++ a.bits ++ BitVec.ofBool tk ++ tok ++ 0#2 ++ 11#8 : W32)]
  | .xfer a port => some [(41#6 ++ 0#6 ++ a.bits ++ 0#3 ++ port ++ 0#8 : W32)]
  | .accFp32 wid a b => some [(42#6 ++ wid ++ a.bits ++ b.bits ++ 0#8 : W32)]
  | .accBf16 wid a b => some [(42#6 ++ wid ++ a.bits ++ b.bits ++ 1#8 : W32)]
  | .accFp16 wid a b => some [(42#6 ++ wid ++ a.bits ++ b.bits ++ 2#8 : W32)]
  | .accS8 wid a b => some [(42#6 ++ wid ++ a.bits ++ b.bits ++ 3#8 : W32)]
  | .accZ8 wid a b => some [(42#6 ++ wid ++ a.bits ++ b.bits ++ 4#8 : W32)]
  | .accS16 wid a b => some [(42#6 ++ wid ++ a.bits ++ b.bits ++ 5#8 : W32)]
  | .accZ16 wid a b => some [(42#6 ++ wid ++ a.bits ++ b.bits ++ 6#8 : W32)]
  | .accS32 wid a b => some [(42#6 ++ wid ++ a.bits ++ b.bits ++ 7#8 : W32)]
  | .accZ32 wid a b => some [(42#6 ++ wid ++ a.bits ++ b.bits ++ 8#8 : W32)]
  | .accS64 wid a b => some [(42#6 ++ wid ++ a.bits ++ b.bits ++ 9#8 : W32)]
  | .flushr wid => some [(42#6 ++ wid ++ 0#6 ++ 0#6 ++ 16#8 : W32)]
  | .flushrAll => some [(42#6 ++ 0#6 ++ 0#6 ++ 0#6 ++ 17#8 : W32)]
  | .atomAdd a b dbl => some [(43#6 ++ 0#6 ++ a.bits ++ b.bits ++ 0#4 ++ BitVec.ofBool dbl ++ 0#3 : W32)]
  | .atomMin a b dbl => some [(43#6 ++ 0#6 ++ a.bits ++ b.bits ++ 0#4 ++ BitVec.ofBool dbl ++ 1#3 : W32)]
  | .atomMax a b dbl => some [(43#6 ++ 0#6 ++ a.bits ++ b.bits ++ 0#4 ++ BitVec.ofBool dbl ++ 2#3 : W32)]
  | .atomMinz a b dbl => some [(43#6 ++ 0#6 ++ a.bits ++ b.bits ++ 1#4 ++ BitVec.ofBool dbl ++ 1#3 : W32)]
  | .atomMaxz a b dbl => some [(43#6 ++ 0#6 ++ a.bits ++ b.bits ++ 1#4 ++ BitVec.ofBool dbl ++ 2#3 : W32)]
  | .atomAnd a b dbl => some [(43#6 ++ 0#6 ++ a.bits ++ b.bits ++ 0#4 ++ BitVec.ofBool dbl ++ 3#3 : W32)]
  | .atomOr a b dbl => some [(43#6 ++ 0#6 ++ a.bits ++ b.bits ++ 0#4 ++ BitVec.ofBool dbl ++ 4#3 : W32)]
  | .atomXor a b dbl => some [(43#6 ++ 0#6 ++ a.bits ++ b.bits ++ 0#4 ++ BitVec.ofBool dbl ++ 5#3 : W32)]
  | .atomAddF d a b ord dbl => some [(43#6 ++ d.bits ++ a.bits ++ b.bits ++ 0#1 ++ BitVec.ofBool ord ++ 2#2 ++ BitVec.ofBool dbl ++ 0#3 : W32)]
  | .atomMinF d a b ord dbl => some [(43#6 ++ d.bits ++ a.bits ++ b.bits ++ 0#1 ++ BitVec.ofBool ord ++ 2#2 ++ BitVec.ofBool dbl ++ 1#3 : W32)]
  | .atomMaxF d a b ord dbl => some [(43#6 ++ d.bits ++ a.bits ++ b.bits ++ 0#1 ++ BitVec.ofBool ord ++ 2#2 ++ BitVec.ofBool dbl ++ 2#3 : W32)]
  | .atomMinzF d a b ord dbl => some [(43#6 ++ d.bits ++ a.bits ++ b.bits ++ 0#1 ++ BitVec.ofBool ord ++ 3#2 ++ BitVec.ofBool dbl ++ 1#3 : W32)]
  | .atomMaxzF d a b ord dbl => some [(43#6 ++ d.bits ++ a.bits ++ b.bits ++ 0#1 ++ BitVec.ofBool ord ++ 3#2 ++ BitVec.ofBool dbl ++ 2#3 : W32)]
  | .atomAndF d a b ord dbl => some [(43#6 ++ d.bits ++ a.bits ++ b.bits ++ 0#1 ++ BitVec.ofBool ord ++ 2#2 ++ BitVec.ofBool dbl ++ 3#3 : W32)]
  | .atomOrF d a b ord dbl => some [(43#6 ++ d.bits ++ a.bits ++ b.bits ++ 0#1 ++ BitVec.ofBool ord ++ 2#2 ++ BitVec.ofBool dbl ++ 4#3 : W32)]
  | .atomXorF d a b ord dbl => some [(43#6 ++ d.bits ++ a.bits ++ b.bits ++ 0#1 ++ BitVec.ofBool ord ++ 2#2 ++ BitVec.ofBool dbl ++ 5#3 : W32)]
  | .atomSwap d a b ord dbl => some [(43#6 ++ d.bits ++ a.bits ++ b.bits ++ 0#1 ++ BitVec.ofBool ord ++ 2#2 ++ BitVec.ofBool dbl ++ 6#3 : W32)]
  | .atomCas d a b ord dbl => some [(43#6 ++ d.bits ++ a.bits ++ b.bits ++ 0#1 ++ BitVec.ofBool ord ++ 2#2 ++ BitVec.ofBool dbl ++ 7#3 : W32)]
  | .atomFaddFp32 a b => some [(44#6 ++ 0#6 ++ a.bits ++ b.bits ++ 0#8 : W32)]
  | .atomFaddBf16 a b => some [(44#6 ++ 0#6 ++ a.bits ++ b.bits ++ 1#8 : W32)]
  | .atomFaddFp32F d a b => some [(44#6 ++ d.bits ++ a.bits ++ b.bits ++ 32#8 : W32)]
  | .atomFaddBf16F d a b => some [(44#6 ++ d.bits ++ a.bits ++ b.bits ++ 33#8 : W32)]
  | .vAdd d a b f => some [(48#6 ++ d.bits ++ a.bits ++ b.bits ++ f.bits ++ 0#4 : W32)]
  | .vSub d a b f => some [(48#6 ++ d.bits ++ a.bits ++ b.bits ++ f.bits ++ 1#4 : W32)]
  | .vMul d a b f => some [(48#6 ++ d.bits ++ a.bits ++ b.bits ++ f.bits ++ 2#4 : W32)]
  | .vMin d a b f => some [(48#6 ++ d.bits ++ a.bits ++ b.bits ++ f.bits ++ 3#4 : W32)]
  | .vMax d a b f => some [(48#6 ++ d.bits ++ a.bits ++ b.bits ++ f.bits ++ 4#4 : W32)]
  | .vAbs d a f => some [(48#6 ++ d.bits ++ a.bits ++ 0#6 ++ f.bits ++ 5#4 : W32)]
  | .vNeg d a f => some [(48#6 ++ d.bits ++ a.bits ++ 0#6 ++ f.bits ++ 6#4 : W32)]
  | .vAdds d a b f => some [(48#6 ++ d.bits ++ a.bits ++ b.bits ++ f.bits ++ 7#4 : W32)]
  | .vSubs d a b f => some [(48#6 ++ d.bits ++ a.bits ++ b.bits ++ f.bits ++ 8#4 : W32)]
  | .vAnd d a b f => some [(48#6 ++ d.bits ++ a.bits ++ b.bits ++ f.bits ++ 9#4 : W32)]
  | .vOr d a b f => some [(48#6 ++ d.bits ++ a.bits ++ b.bits ++ f.bits ++ 10#4 : W32)]
  | .vXor d a b f => some [(48#6 ++ d.bits ++ a.bits ++ b.bits ++ f.bits ++ 11#4 : W32)]
  | .vSll d a b f => some [(48#6 ++ d.bits ++ a.bits ++ b.bits ++ f.bits ++ 12#4 : W32)]
  | .vSrl d a b f => some [(48#6 ++ d.bits ++ a.bits ++ b.bits ++ f.bits ++ 13#4 : W32)]
  | .vSra d a b f => some [(48#6 ++ d.bits ++ a.bits ++ b.bits ++ f.bits ++ 14#4 : W32)]
  | .vFma d a b f => some [(49#6 ++ d.bits ++ a.bits ++ b.bits ++ f.bits ++ 0#4 : W32)]
  | .vFms d a b f => some [(49#6 ++ d.bits ++ a.bits ++ b.bits ++ f.bits ++ 1#4 : W32)]
  | .vFnma d a b f => some [(49#6 ++ d.bits ++ a.bits ++ b.bits ++ f.bits ++ 2#4 : W32)]
  | .vFmab d a b f => some [(49#6 ++ d.bits ++ a.bits ++ b.bits ++ f.bits ++ 3#4 : W32)]
  | .vDot d a b f => some [(49#6 ++ d.bits ++ a.bits ++ b.bits ++ f.bits ++ 4#4 : W32)]
  | .vCmpEq d a b f => some [(50#6 ++ d.bits ++ a.bits ++ b.bits ++ f.bits ++ 0#4 : W32)]
  | .vCmpLt d a b f => some [(50#6 ++ d.bits ++ a.bits ++ b.bits ++ f.bits ++ 1#4 : W32)]
  | .vCmpLe d a b f => some [(50#6 ++ d.bits ++ a.bits ++ b.bits ++ f.bits ++ 2#4 : W32)]
  | .vCmpUn d a b f => some [(50#6 ++ d.bits ++ a.bits ++ b.bits ++ f.bits ++ 3#4 : W32)]
  | .vSel d a b f => some [(50#6 ++ d.bits ++ a.bits ++ b.bits ++ f.bits ++ 4#4 : W32)]
  | .vShuf d a b f => some [(51#6 ++ d.bits ++ a.bits ++ b.bits ++ f.bits ++ 0#4 : W32)]
  | .vBcast d a m f => some [(51#6 ++ d.bits ++ a.bits ++ m ++ f.bits ++ 1#4 : W32)]
  | .vZip d a b f => some [(51#6 ++ d.bits ++ a.bits ++ b.bits ++ f.bits ++ 2#4 : W32)]
  | .vUnzip d a b f => some [(51#6 ++ d.bits ++ a.bits ++ b.bits ++ f.bits ++ 3#4 : W32)]
  | .vRot d a m f => some [(51#6 ++ d.bits ++ a.bits ++ m ++ f.bits ++ 4#4 : W32)]
  | .vIns d a m f => some [(51#6 ++ d.bits ++ a.bits ++ m ++ f.bits ++ 5#4 : W32)]
  | .vExt d a m f => some [(51#6 ++ d.bits ++ a.bits ++ m ++ f.bits ++ 6#4 : W32)]
  | .cmpr2of4 d a p f => some [(51#6 ++ d.bits ++ a.bits ++ 0#4 ++ BitVec.ofFin (w := 2) p ++ f.bits ++ 7#4 : W32)]
  | .vCvt d a mode sat src dst => some [(52#6 ++ d.bits ++ a.bits ++ mode.bits ++ BitVec.ofBool sat ++ 0#2 ++ src.bits ++ dst.bits : W32)]
  | .vRsum d a f => some [(53#6 ++ d.bits ++ a.bits ++ 0#6 ++ f.bits ++ 0#4 : W32)]
  | .vRmax d a f => some [(53#6 ++ d.bits ++ a.bits ++ 0#6 ++ f.bits ++ 1#4 : W32)]
  | .vRmin d a f => some [(53#6 ++ d.bits ++ a.bits ++ 0#6 ++ f.bits ++ 2#4 : W32)]
  | .vRdot d a b f => some [(53#6 ++ d.bits ++ a.bits ++ b.bits ++ f.bits ++ 3#4 : W32)]
  | .vScl d a m f => some [(54#6 ++ d.bits ++ a.bits ++ m ++ f.bits ++ 0#4 : W32)]
  | .vSclx d a b f => some [(54#6 ++ d.bits ++ a.bits ++ b.bits ++ f.bits ++ 1#4 : W32)]
  | .vMxpack d a b f => some [(54#6 ++ d.bits ++ a.bits ++ b.bits ++ f.bits ++ 2#4 : W32)]
  | .vMxunpack d a b f => some [(54#6 ++ d.bits ++ a.bits ++ b.bits ++ f.bits ++ 3#4 : W32)]
  | .vLdexp d a b f => some [(54#6 ++ d.bits ++ a.bits ++ b.bits ++ f.bits ++ 4#4 : W32)]
  | .wsb mask => some [(56#6 ++ 0#6 ++ 0#6 ++ 0#6 ++ mask : W32)]
  | .gateArr gid a => some [(57#6 ++ gid ++ a.bits ++ 0#6 ++ 0#8 : W32)]
  | .gateWait gid a => some [(57#6 ++ gid ++ a.bits ++ 0#6 ++ 1#8 : W32)]
  | .quietP => some [(57#6 ++ 0#6 ++ 0#6 ++ 0#6 ++ 2#8 : W32)]
  | .quietG => some [(57#6 ++ 0#6 ++ 0#6 ++ 0#6 ++ 3#8 : W32)]
  | .combSend a b => some [(57#6 ++ 0#6 ++ a.bits ++ b.bits ++ 4#8 : W32)]
  | .fenceG => some [(57#6 ++ 0#6 ++ 0#6 ++ 0#6 ++ 5#8 : W32)]
  | .fenceS => some [(57#6 ++ 0#6 ++ 0#6 ++ 0#6 ++ 6#8 : W32)]
  | .waita a b => some [(57#6 ++ 0#6 ++ a.bits ++ b.bits ++ 7#8 : W32)]
  | .sysr d reg => some [(60#6 ++ d.bits ++ reg : W32)]
  | .sysw d reg => some [(61#6 ++ d.bits ++ reg : W32)]
  | .trap a => some [(62#6 ++ 0#6 ++ a.bits ++ 0#6 ++ 0#8 : W32)]
  | .rte => some [(62#6 ++ 0#6 ++ 0#6 ++ 0#6 ++ 1#8 : W32)]
  | .halt => some [(62#6 ++ 0#6 ++ 0#6 ++ 0#6 ++ 2#8 : W32)]
  | .brk => some [(62#6 ++ 0#6 ++ 0#6 ++ 0#6 ++ 3#8 : W32)]
  | .longImmediatePrefix imm third => some [prefixWord, imm, third]
  | .enter k => some [(1#6 ++ 0#6 ++ 0#6 ++ 0#2 ++ k : W32)]
  | .lock hv k => some [(2#6 ++ 0#6 ++ 0#6 ++ 0#1 ++ BitVec.ofBool hv ++ k : W32)]
  | .choose neg m t => some [(4#6 ++ BitVec.ofBool neg ++ m ++ 0#2 ++ 0#4 ++ t : W32)]
  | .jmp t => some [(5#6 ++ 0#6 ++ 0#4 ++ t : W32)]
  | .yield_ => some [(6#6 ++ 0#6 ++ 0#6 ++ 0#6 ++ 0#8 : W32)]
  | .ireload => some [(7#6 ++ 0#6 ++ 0#6 ++ 0#6 ++ 0#8 : W32)]
  | .unwatch w => some [(9#6 ++ 0#6 ++ 0#6 ++ 0#6 ++ 0#6 ++ w : W32)]
  | .fault v => some [(10#6 ++ 0#6 ++ 0#4 ++ v : W32)]
  | .done => some [(11#6 ++ 0#6 ++ 0#6 ++ 0#6 ++ 0#8 : W32)]
  | .wave p => some [(12#6 ++ 0#6 ++ 0#3 ++ p : W32)]
  | .quiet s => some [(13#6 ++ 0#6 ++ 0#6 ++ 0#6 ++ 0#7 ++ BitVec.ofBool s : W32)]
  | .setp v m => some [(14#6 ++ 0#6 ++ 0#6 ++ 0#6 ++ 0#4 ++ BitVec.ofBool v ++ m : W32)]
  | .waitp m => some [(15#6 ++ 0#6 ++ 0#6 ++ 0#6 ++ 0#5 ++ m : W32)]
  | .count k v => some [(16#6 ++ 0#4 ++ k ++ v : W32)]
  | .decJnz k t => some [(17#6 ++ 0#6 ++ 0#2 ++ k ++ t : W32)]
  | .settle w => some [(18#6 ++ 0#6 ++ 0#6 ++ 0#6 ++ 0#2 ++ w : W32)]
  | .bindArg c off len => some [3#6 ++ 0#2 ++ c, 0#4 ++ off, len]
  | .bindVq c off => some [3#6 ++ 0#2 ++ c, 1#4 ++ off, 0]
  | .bindXfer c port => some [3#6 ++ 0#2 ++ c, 2#4 ++ port, 0]
  | .bindAccs c port wid => some [3#6 ++ 0#2 ++ c, 3#4 ++ port, wid]
  | .bindXf c x a b => some [3#6 ++ 0#2 ++ c, 4#4 ++ x, 0#24 ++ b ++ a]
  | .bindPred c m => some [3#6 ++ 0#2 ++ c, 5#4 ++ m, 0]
  | .watch w rd wr at_ arg base units mask =>
    some [8#6 ++ 0#20 ++ BitVec.ofBool arg ++ BitVec.ofBool at_ ++ BitVec.ofBool wr ++ BitVec.ofBool rd ++ w,
      base.extractLsb' 0 32, 0#7 ++ base.extractLsb' 32 25, 0#8 ++ mask ++ units]
  | .illegalInstruction _ | .codeRangeFetch _ | .kickTailWrite | .cplHeadWrite | .completionWrite | .launch | .push
  | .pull | .signalSet | .signalAdd | .wait | .waitSatisfied | .waitTimeout | .pausePreferred | .pauseForced
  | .resume | .kill | .queryCapabilities | .queryTenure | .queryCounts | .queryGovernor | .queryVirtualQueue
  | .mboxDoorWrite | .createQueue | .destroyQueue | .registerWrite | .pwrBudgetWrite | .governorTick
  | .candidateAttempt | .loadCommit | .codePageResolved | .planeGrant | .drainComplete | .drainTimeout
  | .zeroingComplete | .reserveSubtree | .releaseSubtree | .replyExpiry | .replyArrival | .recordVisible
  | .vqAgentMove | .vqAgentAppend | .activationStart | .nullTrigger | .loadReply | .storePerformed
  | .translationRefill | .priResponse | .osPageResponse | .atsInvalidation | .transferRequestRecord | .lighterRequest
  | .lighterComplete | .transformRow | .accumulateStreamRecord | .accumulateArrival | .flushDelivery | .refusalReply
  | .residualAgeExpiry | .acceptanceIntervalEnd | .atomicPerform | .atomicReply | .arithmeticFiring
  | .controlTokenFiring | .nullFiring | .convert | .mxPack | .mxUnpack | .fork | .steer | .filter | .merge
  | .nullMerge | .fairMerge | .sequenceTag | .reorder | .tap | .combineSend | .compareExchange | .loopExitDrain
  | .constantSource | .sink | .repeat_ | .bankStream | .globalStream | .globalGather | .generatorCompletion
  | .controllerPermit | .controllerDone | .weightColumn | .activationRow | .rowFiring | .mmDrain | .mmClear
  | .nullRow | .matrixControlToken | .sort | .gateArrival | .gatePermit | .gateTimeout | .contributionArrival
  | .combineTimeout | .wavePeriod | .wavePass | .predicateRecord | .segmentBoundarySwitch | .segmaxExpiry
  | .pauseComplete | .faultRecordArrival | .holdTimeout | .processMigration | .functionLevelReset | .linkDown
  | .pcieRetrain | .ethernetPortDown | .flitReceive | .retrainComplete | .powerGood | .hbmTrainingComplete
  | .selfTestComplete | .undervoltage | .thermalTrip | .counterRaise | .readStatus | .setBudget | .powerCycleRequest
  | .getVersion | .getCapabilities | .negotiateAlgorithms | .getDigests | .getCertificate | .challenge
  | .getMeasurements | .accumulateAcknowledgement | .confirmingReadCompletion | .virtualQueueAssign | .regionReclaim
  | .replacementFallback | .migrationReceive | .ethernetPortUp | .bridgedRecordArrival | .mctpControlMessage
  | .correctableError => none

/-- The first word of a list of bytes, little-endian (R4), and the bytes after it. -/
def takeWord : List Byte → Option (W32 × List Byte)
  | b0 :: b1 :: b2 :: b3 :: r => some (b3 ++ b2 ++ b1 ++ b0, r)
  | _ => none

/-- The first `n` words of a list of bytes, as far as the bytes reach. -/
def takeWords : Nat → List Byte → List W32
  | 0, _ => []
  | n + 1, bs => match takeWord bs with
    | some (w, r) => w :: takeWords n r
    | none => []

/-- The four bytes of a word at ascending addresses (R4). -/
def wordBytes (w : W32) : List Byte := [w.extractLsb' 0 8, w.extractLsb' 8 8, w.extractLsb' 16 8, w.extractLsb' 24 8]

/-- The task instruction at the front of a list of bytes, and the bytes after it; none where the bytes run out. -/
def decodeTaskBytes (bs : List Byte) : Option (Instr × List Byte) :=
  (decodeTask (takeWords 3 bs)).map (fun r => (r.1, bs.drop (4 * r.2)))

/-- The passage instruction at the front of a list of bytes, and the bytes after it; none where there is none. -/
def decodePassageBytes (bs : List Byte) : Option (Instr × List Byte) :=
  (decodePassage (takeWords 4 bs)).map (fun r => (r.1, bs.drop (4 * r.2)))

/-- The four bytes of each word of a list. -/
def wordsBytes : List W32 → List Byte
  | [] => []
  | w :: ws => wordBytes w ++ wordsBytes ws

/-- The words of a numeral, first word lowest: four words, so that every instruction is whole. -/
def tableWords (w : Nat) : List W32 :=
  [BitVec.ofNat 32 w, BitVec.ofNat 32 (w >>> 32), BitVec.ofNat 32 (w >>> 64), BitVec.ofNat 32 (w >>> 96)]

/-- The bits of an opcode-table row, cut to `nbits`, as the bytes of an instruction. -/
def tableBytes (nbits w : Nat) : List Byte := wordsBytes (tableWords (w % 2 ^ nbits))

/-- Whether a task instruction is one: not an illegal word. -/
def Instr.isIllegal : Instr → Bool
  | .illegalInstruction _ => true
  | _ => false

/-- The instruction that the bits of an opcode-table row are. The task space and the passage space use one set of words
(R130): where the word is a task instruction it is read as one, else as a passage instruction, else as an illegal task word
(assumption 5). -/
def decodeTableWord (nbits w : Nat) : Option Instr :=
  let bs := tableBytes nbits w
  match decodeTaskBytes bs with
  | some (i, _) =>
    if i.isIllegal then
      match decodePassageBytes bs with
      | some (j, _) => some j
      | none => some i
    else some i
  | none => none

end Sys2Proof
end

