-- ==== Sys2Proof/Machine/Num.lean ====
section
/-! DEFINITION. Numbers: exact values, rounding, the element formats and their conversions, two-term weights, MX blocks, aw128
words and summation orders (R104 to R129). Every value is computed exactly and rounded once. -/

namespace Sys2Proof.Machine

/-- The exact value of an element: a NaN (signalling or not), an infinity, or `± m · 2^e`. -/
inductive XReal where
  | nan (sig : Bool)
  | inf (neg : Bool)
  | fin (neg : Bool) (m : Nat) (e : Int)
  deriving DecidableEq, Repr

/-- The floating-point element formats (R108). -/
inductive FFmt where
  | fp32 | bf16 | fp16 | e4m3 | e5m2 | e2m1
  deriving DecidableEq, Repr

/-- Exponent bits (R108). -/
def FFmt.ebits : FFmt → Nat | .fp32 => 8 | .bf16 => 8 | .fp16 => 5 | .e4m3 => 4 | .e5m2 => 5 | .e2m1 => 2
/-- Fraction bits (R108). -/
def FFmt.fbits : FFmt → Nat | .fp32 => 23 | .bf16 => 7 | .fp16 => 10 | .e4m3 => 3 | .e5m2 => 2 | .e2m1 => 1
/-- Bias (R108). -/
def FFmt.bias : FFmt → Nat | .fp32 => 127 | .bf16 => 127 | .fp16 => 15 | .e4m3 => 7 | .e5m2 => 15 | .e2m1 => 1
/-- Whether the format has infinities (R108). -/
def FFmt.hasInf : FFmt → Bool | .fp32 => true | .bf16 => true | .fp16 => true | .e5m2 => true | .e4m3 => false | .e2m1 => false
/-- All bits: sign, exponent, fraction. -/
def FFmt.width (f : FFmt) : Nat := 1 + f.ebits + f.fbits
/-- The encoding of the largest finite magnitude (R108). -/
def FFmt.maxBits : FFmt → Nat
  | .fp32 => 0x7F7FFFFF | .bf16 => 0x7F7F | .fp16 => 0x7BFF | .e4m3 => 0x7E | .e5m2 => 0x7B | .e2m1 => 0x7
/-- The canonical NaN (R108); e2m1 has none. -/
def FFmt.canonNaN : FFmt → Nat
  | .fp32 => 0x7FC00000 | .bf16 => 0x7FC0 | .fp16 => 0x7E00 | .e4m3 => 0x7F | .e5m2 => 0x7E | .e2m1 => 0
/-- The encoding of plus infinity. -/
def FFmt.infBits (f : FFmt) : Nat := (2 ^ f.ebits - 1) * 2 ^ f.fbits
/-- The bits of a sign. -/
def FFmt.signBits (f : FFmt) (neg : Bool) : Nat := if neg then 2 ^ (f.ebits + f.fbits) else 0

/-- The exact value of an encoding (R108). -/
def FFmt.decode (f : FFmt) (b : Nat) : XReal :=
  let frac := bitsOf b 0 f.fbits
  let ex := bitsOf b f.fbits f.ebits
  let neg := bitOf b (f.ebits + f.fbits)
  if f.hasInf && ex == 2 ^ f.ebits - 1 then
    if frac = 0 then .inf neg else .nan (!(bitOf frac (f.fbits - 1)))
  else if f == .e4m3 && ex == 15 && frac == 7 then .nan false
  else if ex = 0 then .fin neg frac (1 - (f.bias : Int) - f.fbits)
  else .fin neg (2 ^ f.fbits + frac) ((ex : Int) - f.bias - f.fbits)

/-- The flags of R110. -/
abbrev Flags := BitVec 5
/-- Invalid. -/
def fNV : Flags := 1
/-- Division by zero. -/
def fDZ : Flags := 2
/-- Overflow. -/
def fOF : Flags := 4
/-- Underflow. -/
def fUF : Flags := 8
/-- Inexact. -/
def fNX : Flags := 16

/-- The stochastic-rounding function (R113). -/
def mix (s q i : BitVec 32) : BitVec 32 :=
  let h := s ^^^ q
  let h := h * 0x85EBCA6B#32
  let h := h ^^^ (h >>> 13)
  let h := h ^^^ i
  let h := h * 0xC2B2AE35#32
  let h := h ^^^ (h >>> 16)
  let h := h * 0x27D4EB2F#32
  h ^^^ (h >>> 15)

/-- Whether a magnitude between `n` and `n + 1`, `r / d` above `n`, goes up in magnitude (R111). `0 < r < d`. -/
def roundUp (mode : Mode) (rho : Nat) (neg : Bool) (n r d : Nat) : Bool :=
  match mode with
  | .rne => decide (d < 2 * r) || (decide (d = 2 * r) && n % 2 == 1)
  | .rtz => false
  | .rup => !neg
  | .rdn => neg
  | .rna => decide (d ≤ 2 * r)
  | .sr => if neg then decide (¬ rho < (d - r) * 2 ^ 32 / d) else decide (rho < r * 2 ^ 32 / d)

/-- `m · 2^e` rounded to a whole multiple of `2^q`: the multiple, and whether it is exact (R111). -/
def roundTo (mode : Mode) (rho : Nat) (neg : Bool) (m : Nat) (e q : Int) : Nat × Bool :=
  if q ≤ e then (m <<< (e - q).toNat, true)
  else
    let d := 2 ^ (q - e).toNat
    let n := m / d
    let r := m % d
    if r = 0 then (n, true) else (if roundUp mode rho neg n r d then n + 1 else n, false)

/-- Whether `n · 2^q` is larger than `m · 2^e`. -/
def magLt (m : Nat) (e : Int) (n : Nat) (q : Int) : Bool :=
  if q ≤ e then decide (m <<< (e - q).toNat < n) else decide (m < n <<< (q - e).toNat)

/-- The exact magnitude of an encoding without its sign. -/
def FFmt.magOf (f : FFmt) (b : Nat) : Nat × Int :=
  match f.decode b with
  | .fin _ m e => (m, e)
  | _ => (0, 0)

/-- The delivered overflow (R112): whether it is the largest finite value. -/
def overflowIsMax (mode : Mode) (neg sat : Bool) : Bool :=
  sat || (match mode with
    | .rtz => true
    | .rup => neg
    | .rdn => !neg
    | .rne => false | .rna => false | .sr => false)

/-- A finite value rounded into a format (R111, R112, R116), with its flags (R110). -/
def FFmt.roundFin (f : FFmt) (mode : Mode) (sat : Bool) (rho : Nat) (neg : Bool) (m : Nat) (e : Int) : Nat × Flags :=
  if m = 0 then (f.signBits neg, 0)
  else
    let top := e + Nat.log2 m
    let qmin : Int := 1 - (f.bias : Int) - f.fbits
    let qu := top - f.fbits
    let q := if qu < qmin then qmin else qu
    let (n, exact) := roundTo mode rho neg m e q
    let mx := f.magOf f.maxBits
    if magLt mx.1 mx.2 n q then
      let fl := fOF ||| fNX
      if f == .e2m1 then (f.signBits neg ||| f.maxBits, fl)
      else if overflowIsMax mode neg sat then (f.signBits neg ||| f.maxBits, fl)
      else if f.hasInf then (f.signBits neg ||| f.infBits, fl)
      else (f.canonNaN, fl ||| fNV)
    else if n = 0 then (f.signBits neg, (if exact then 0 else if f == .e2m1 then fNX else
      (let u := roundTo mode rho neg m e qu
       if magLt u.1 qu 1 (1 - (f.bias : Int)) then fNX ||| fUF else fNX)))
    else
      let topn := q + Nat.log2 n
      let mag :=
        if topn < 1 - (f.bias : Int) then n
        else
          let ex := (topn + f.bias).toNat
          let frac := if Nat.log2 n ≤ f.fbits then n <<< (f.fbits - Nat.log2 n) else n >>> (Nat.log2 n - f.fbits)
          ex * 2 ^ f.fbits + (frac - 2 ^ f.fbits)
      let fl :=
        if exact then 0
        else if f == .e2m1 then fNX
        else
          let u := roundTo mode rho neg m e qu
          if magLt u.1 qu 1 (1 - (f.bias : Int)) then fNX ||| fUF else fNX
      (f.signBits neg ||| mag, fl)

/-- `round(x, mode)` into a floating-point format, special values by R109, R112, R116; `rho` is the mixed value of R113. -/
def FFmt.round (f : FFmt) (mode : Mode) (sat : Bool) (rho : Nat) : XReal → Nat × Flags
  | .nan sig => if f == .e2m1 then (0, fNV) else (f.canonNaN, if sig then fNV else 0)
  | .inf neg =>
    if f == .e2m1 then (f.signBits neg ||| f.maxBits, fNV)
    else if sat then (f.signBits neg ||| f.maxBits, fOF ||| fNX)
    else if f.hasInf then (f.signBits neg ||| f.infBits, 0)
    else (f.canonNaN, fNV)
  | .fin neg m e => f.roundFin mode sat rho neg m e

/-- An arithmetic result: to nearest even, sat = 0 (R187). An infinity an operation delivers sets no flag. -/
def FFmt.rnd (f : FFmt) (x : XReal) : Nat × Flags := f.round .rne false 0 x

/-! ### Exact arithmetic -/

/-- Minus `x`. -/
def XReal.neg : XReal → XReal
  | .nan s => .nan s
  | .inf n => .inf (!n)
  | .fin n m e => .fin (!n) m e

/-- Whether `x` is a NaN. -/
def XReal.isNaN : XReal → Bool | .nan _ => true | _ => false
/-- Whether `x` is a signalling NaN. -/
def XReal.isSig : XReal → Bool | .nan s => s | _ => false
/-- Whether `x` is a NaN or an infinity. -/
def XReal.special : XReal → Bool | .fin _ _ _ => false | _ => true

/-- The exact product; a NaN result is marked signalling where NV is due (R109, R110). -/
def XReal.mul : XReal → XReal → XReal
  | .nan s, .nan t => .nan (s || t)
  | .nan s, _ => .nan s
  | _, .nan t => .nan t
  | .inf a, .inf b => .inf (a != b)
  | .inf a, .fin b m _ => if m = 0 then .nan true else .inf (a != b)
  | .fin a m _, .inf b => if m = 0 then .nan true else .inf (a != b)
  | .fin a m e, .fin b n d => .fin (a != b) (m * n) (e + d)

/-- A signed whole number of `2^q` for a finite value whose exponent is at least `q`. -/
def finInt (neg : Bool) (m : Nat) (e q : Int) : Int :=
  let x : Int := ((m <<< (e - q).toNat : Nat) : Int)
  if neg then -x else x

/-- The exact sum of two values, with the sign of an exact zero as IEEE 754 gives it in every mode but down (R109). -/
def XReal.add : XReal → XReal → XReal
  | .nan s, .nan t => .nan (s || t)
  | .nan s, _ => .nan s
  | _, .nan t => .nan t
  | .inf a, .inf b => if a = b then .inf a else .nan true
  | .inf a, .fin _ _ _ => .inf a
  | .fin _ _ _, .inf b => .inf b
  | .fin a m e, .fin b n d =>
    if m = 0 ∧ n = 0 then .fin (a && b) 0 e
    else if m = 0 then .fin b n d
    else if n = 0 then .fin a m e
    else
      let q := if e < d then e else d
      let x := finInt a m e q + finInt b n d q
      if x = 0 then .fin false 0 q else .fin (decide (x < 0)) x.natAbs q

/-- `x - y`. -/
def XReal.sub (x y : XReal) : XReal := x.add y.neg

/-- The integer `x`. -/
def XReal.ofInt (x : Int) : XReal := .fin (decide (x < 0)) x.natAbs 0

/-- `x · 2^k`. -/
def XReal.scale2 (x : XReal) (k : Int) : XReal :=
  match x with
  | .fin n m e => .fin n m (e + k)
  | y => y

/-- `x < y` for values that are no NaN; zeros of either sign are equal (R193). -/
def XReal.lt : XReal → XReal → Bool
  | .nan _, _ => false
  | _, .nan _ => false
  | .inf a, .inf b => a && !b
  | .inf a, .fin _ _ _ => a
  | .fin _ _ _, .inf b => !b
  | .fin a m e, .fin b n d =>
    let q := if e < d then e else d
    decide (finInt a m e q < finInt b n d q)

/-- Equality by value; false for a NaN (R193). -/
def XReal.eqv (x y : XReal) : Bool := !x.isNaN && !y.isNaN && !x.lt y && !y.lt x

/-- The order of `min` and `max`: minus zero below plus zero (R190). -/
def XReal.ltz (x y : XReal) : Bool :=
  match x, y with
  | .fin a m _, .fin b n _ => if m = 0 ∧ n = 0 then a && !b else x.lt y
  | _, _ => x.lt y

/-! ### Element formats -/

/-- An element format without a block scale (R104, R107, R108, R118). -/
inductive EFmt where
  | int (signed : Bool) (bits : Nat)
  | flt (f : FFmt)
  | tw8
  deriving DecidableEq, Repr

/-- The element format of a code; none for Raw, MX, aw128 and unassigned codes (R104). -/
def EFmt.ofCode? : Nat → Option EFmt
  | 0x01 => some (.int true 8) | 0x02 => some (.int false 8) | 0x03 => some (.int true 16) | 0x04 => some (.int false 16)
  | 0x05 => some (.int true 32) | 0x06 => some (.int false 32) | 0x07 => some (.int true 64)
  | 0x10 => some (.flt .fp32) | 0x11 => some (.flt .bf16) | 0x12 => some (.flt .fp16) | 0x13 => some (.flt .e4m3)
  | 0x14 => some (.flt .e5m2) | 0x20 => some .tw8
  | _ => none

/-- The codes of R104. -/
def fmtKnown (c : Nat) : Bool :=
  c ≤ 7 || (0x10 ≤ c && c ≤ 0x14) || (0x18 ≤ c && c ≤ 0x1B) || c == 0x20 || c == 0x30

/-- Element width in bits (R104). -/
def fmtBits (c : Nat) : Nat :=
  match c with
  | 0x00 => 64 | 0x01 => 8 | 0x02 => 8 | 0x03 => 16 | 0x04 => 16 | 0x05 => 32 | 0x06 => 32 | 0x07 => 64
  | 0x10 => 32 | 0x11 => 16 | 0x12 => 16 | 0x13 => 8 | 0x14 => 8 | 0x18 => 8 | 0x19 => 8 | 0x1A => 4 | 0x1B => 8
  | 0x20 => 8 | 0x30 => 128 | _ => 64

/-- The element format of a vector format (R184). -/
def vElem : VFmt → EFmt
  | .s8 => .int true 8 | .z8 => .int false 8 | .s16 => .int true 16 | .z16 => .int false 16 | .s32 => .int true 32
  | .z32 => .int false 32 | .fp32 => .flt .fp32 | .bf16 => .flt .bf16 | .fp16 => .flt .fp16 | .e4m3 => .flt .e4m3
  | .e5m2 => .flt .e5m2 | .tw8 => .tw8

/-- Element width in bits. -/
def EFmt.width : EFmt → Nat
  | .int _ n => n
  | .flt f => f.width
  | .tw8 => 8

/-- One term of a two-term weight, in units of `2^-6` (R118). -/
def tw8Term (s : Bool) (k : Nat) : Int :=
  if k = 7 then 0 else if s then -(2 ^ (6 - k) : Nat) else ((2 ^ (6 - k) : Nat) : Int)

/-- The value of a two-term weight, in units of `2^-6` (R118). -/
def tw8Val (b : Nat) : Int := tw8Term (bitOf b 7) (bitsOf b 4 3) + tw8Term (bitOf b 3) (bitsOf b 0 3)

/-- The magnitudes of two-term weights, rising, in units of `2^-6` (R118). -/
def tw8Mags : List Nat :=
  [0, 1, 2, 3, 4, 5, 6, 7, 8, 9, 10, 12, 14, 15, 16, 17, 18, 20, 24, 28, 30, 31, 32, 33, 34, 36, 40, 48, 56, 60, 62, 63, 64, 65,
    66, 68, 72, 80, 96, 128]

/-- The shift `k` of the single term of magnitude `m · 2^-6`. -/
def tw8Shift (m : Nat) : Nat := 6 - Nat.log2 m

/-- The byte of sign, shift, sign, shift (R118). -/
def tw8Byte (s1 : Bool) (k1 : Nat) (s2 : Bool) (k2 : Nat) : Nat :=
  s1.toNat * 128 + k1 * 16 + s2.toNat * 8 + k2

/-- The canonical encoding of a two-term weight (R117). -/
def tw8Canon (neg : Bool) (m : Nat) : Nat :=
  if m = 0 then 0x77
  else if m = 128 then tw8Byte neg 0 neg 0
  else
    let hi := 2 ^ Nat.log2 m
    if m = hi then tw8Byte neg (tw8Shift m) false 7
    else
      let rest := m - hi
      if rest = 2 ^ Nat.log2 rest then tw8Byte neg (tw8Shift m) neg (tw8Shift rest)
      else
        let lo := 2 * hi - m
        tw8Byte neg (tw8Shift (2 * hi)) (!neg) (tw8Shift lo)

/-- The neighbours of `m · 2^e` among the magnitudes: the largest not above it and the next. -/
def tw8Near (m : Nat) (e : Int) : List Nat → Nat × Nat
  | a :: b :: r => if magLt m e b (-6) then (a, b) else tw8Near m e (b :: r)
  | [a] => (a, a)
  | [] => (0, 0)

/-- A finite value converted into a two-term weight (R117). -/
def tw8Round (mode : Mode) (rho : Nat) (neg : Bool) (m : Nat) (e : Int) : Nat × Flags :=
  if magLt 2 0 m e then (tw8Canon neg 128, fOF ||| fNX)
  else
    let (a, b) := tw8Near m e tw8Mags
    -- `m·2^e = x / den` and `2^-6 = one / den`
    let q : Int := if e < -6 then e else -6
    let x := m <<< (e - q).toNat
    let one := 1 <<< (-6 - q).toNat
    if x = a * one then (tw8Canon neg a, 0)
    else
      let r := x - a * one
      let d := (b - a) * one
      let up := match mode with
        | .rne => decide (d < 2 * r)
        | .rna => decide (d < 2 * r)
        | md => roundUp md rho neg 0 r d
      (tw8Canon neg (if up then b else a), fNX)

/-- The least and the greatest integer of a format. -/
def intMin (signed : Bool) (n : Nat) : Int := if signed then -((2 ^ (n - 1) : Nat) : Int) else 0
/-- The greatest integer of a format. -/
def intMax (signed : Bool) (n : Nat) : Int := if signed then ((2 ^ (n - 1) : Nat) : Int) - 1 else ((2 ^ n : Nat) : Int) - 1

/-- An integer clamped into a format, and whether it was (R115). -/
def clampInt (signed : Bool) (n : Nat) (x : Int) : Int × Bool :=
  if x < intMin signed n then (intMin signed n, true)
  else if intMax signed n < x then (intMax signed n, true) else (x, false)

/-- A value converted into an integer format (R115). -/
def toIntFmt (signed : Bool) (n : Nat) (mode : Mode) (rho : Nat) : XReal → Nat × Flags
  | .nan _ => (0, fNV)
  | .inf neg => (wrapInt (if neg then intMin signed n else intMax signed n) n, fNV)
  | .fin neg m e =>
    let (k, exact) := roundTo mode rho neg m e 0
    let x : Int := if neg then -(k : Int) else k
    let (y, cl) := clampInt signed n x
    (wrapInt y n, if cl then fNV else if exact then 0 else fNX)

/-- The exact value of an element (R107, R108, R118). -/
def EFmt.decode (f : EFmt) (b : Nat) : XReal :=
  match f with
  | .int true n => .ofInt (sextInt b n)
  | .int false n => .ofInt ((b % 2 ^ n : Nat) : Int)
  | .flt g => g.decode b
  | .tw8 => (XReal.ofInt (tw8Val b)).scale2 (-6)

/-- A conversion: the exact value rounded once into the destination (R114 to R117). -/
def EFmt.convert (f : EFmt) (mode : Mode) (sat : Bool) (rho : Nat) (x : XReal) : Nat × Flags :=
  match f with
  | .int s n => toIntFmt s n mode rho x
  | .flt g => g.round mode sat rho x
  | .tw8 =>
    match x with
    | .nan _ => (0x77, fNV)
    | .inf neg => (tw8Canon neg 128, fNV)
    | .fin neg m e => tw8Round mode rho neg m e

/-! ### Lanes -/

/-- Lane `k` of width `w`. -/
def lane (w : Nat) (x : W64) (k : Nat) : Nat := bitsOf x.toNat (w * k) w

/-- The lanes of a 64-bit value. -/
def lanesOf (w n : Nat) (x : W64) : List Nat := (List.range n).map (lane w x)

/-- Lanes packed from lane 0 up. -/
def packNat (w : Nat) : List Nat → Nat
  | [] => 0
  | x :: xs => x % 2 ^ w + 2 ^ w * packNat w xs

/-- Lanes packed into 64 bits. -/
def packLanes (w : Nat) (xs : List Nat) : W64 := BitVec.ofNat 64 (packNat w xs)

/-- The OR of flags. -/
def orFlags : List Flags → Flags
  | [] => 0
  | f :: fs => f ||| orFlags fs

/-! ### Elementwise arithmetic, shared by vector lanes and operator nodes (R107, R189, R190, R209, R210) -/

/-- The arithmetic of two elements. -/
inductive Arith where
  | add | sub | mul | min | max | abs | neg | adds | subs | and | or | xor | sll | srl | sra
  deriving DecidableEq, Repr

/-- The value of an integer element. -/
def intVal (signed : Bool) (n x : Nat) : Int := if signed then sextInt x n else ((x % 2 ^ n : Nat) : Int)

/-- Integer lanes: modulo `2^n` (R189). -/
def arithInt (op : Arith) (signed : Bool) (n : Nat) (x y : Nat) : Nat :=
  let a := intVal signed n x
  let b := intVal signed n y
  let s := y % n
  match op with
  | .add => wrapInt (a + b) n
  | .sub => wrapInt (a - b) n
  | .mul => wrapInt (a * b) n
  | .min => wrapInt (if b < a then b else a) n
  | .max => wrapInt (if a < b then b else a) n
  | .abs => wrapInt (if a < 0 then -a else a) n
  | .neg => wrapInt (-a) n
  | .adds => wrapInt (clampInt signed n (a + b)).1 n
  | .subs => wrapInt (clampInt signed n (a - b)).1 n
  | .and => (x &&& y) % 2 ^ n
  | .or => (x ||| y) % 2 ^ n
  | .xor => (x ^^^ y) % 2 ^ n
  | .sll => (x <<< s) % 2 ^ n
  | .srl => (x % 2 ^ n) >>> s
  | .sra => wrapInt (sextInt x n >>> s) n

/-- Minimum or maximum of floating-point elements: the chosen input, unchanged (R190). -/
def fltMinMax (f : FFmt) (isMax : Bool) (x y : Nat) : Nat × Flags :=
  let a := f.decode x
  let b := f.decode y
  if a.isNaN || b.isNaN then (f.canonNaN, if a.isSig || b.isSig then fNV else 0)
  else if (if isMax then a.ltz b else b.ltz a) then (y, 0) else (x, 0)

/-- Floating-point elements (R189, R190). The operations of indices 0 to 5 alone have no meaning here and give their bits. -/
def arithFlt (op : Arith) (f : FFmt) (x y : Nat) : Nat × Flags :=
  let a := f.decode x
  let b := f.decode y
  match op with
  | .add => f.rnd (a.add b)
  | .sub => f.rnd (a.sub b)
  | .mul => f.rnd (a.mul b)
  | .min => fltMinMax f false x y
  | .max => fltMinMax f true x y
  | .abs => if a.isNaN then (f.canonNaN, if a.isSig then fNV else 0) else (x % 2 ^ (f.width - 1), 0)
  | .neg => if a.isNaN then (f.canonNaN, if a.isSig then fNV else 0) else (x ^^^ 2 ^ (f.width - 1), 0)
  | _ => (x, 0)

/-- One element of an elementwise operation, with its flags. -/
def arithElem (op : Arith) (f : EFmt) (x y : Nat) : Nat × Flags :=
  match f with
  | .int s n => (arithInt op s n x y, 0)
  | .flt g => arithFlt op g x y
  | .tw8 => (x, 0)

/-- The fused forms: `± (x · y) ± z`, rounded once (R191). -/
def fmaElem (f : FFmt) (negProd negAdd : Bool) (x y z : Nat) : Nat × Flags :=
  let p := (f.decode x).mul (f.decode y)
  let p := if negProd then p.neg else p
  let c := f.decode z
  let c := if negAdd then c.neg else c
  f.rnd (p.add c)

/-! ### Sums (R129) -/

/-- The finite values of a list summed from `init`. -/
def sumFrom (init : XReal) : List XReal → XReal
  | [] => init
  | x :: xs => sumFrom (init.add x) xs

/-- Whether a value is the infinity of sign `neg`. -/
def XReal.isInf (neg : Bool) : XReal → Bool
  | .inf n => n == neg
  | _ => false

/-- The exact sum of a list, which does not depend on its order (R192): a NaN among the terms, or infinities of both signs, make it
NaN, marked for NV where a term is so marked or the infinities meet. -/
def exactSum (xs : List XReal) : XReal :=
  let both := xs.any (XReal.isInf false) && xs.any (XReal.isInf true)
  if xs.any XReal.isNaN || both then .nan (xs.any XReal.isSig || both)
  else if xs.any (XReal.isInf false) then .inf false
  else if xs.any (XReal.isInf true) then .inf true
  else match xs with
    | [] => .fin false 0 0
    | y :: ys => sumFrom y ys

/-- A rounded fp32 addition of encodings. -/
def addRnd (x y : Nat) : Nat × Flags := FFmt.fp32.rnd ((FFmt.fp32.decode x).add (FFmt.fp32.decode y))

/-- Pairwise combination of 2, 4 or 8 terms from lane 0 (R129), flags collected. -/
def pairwise (f : Nat → Nat → Nat × Flags) : List Nat → Nat × Flags
  | [a] => (a, 0)
  | [a, b] => f a b
  | [a, b, c, d] =>
    let x := f a b
    let y := f c d
    let z := f x.1 y.1
    (z.1, x.2 ||| y.2 ||| z.2)
  | [a, b, c, d, e, g, h, i] =>
    let x := f a b
    let y := f c d
    let z := f x.1 y.1
    let x' := f e g
    let y' := f h i
    let z' := f x'.1 y'.1
    let r := f z.1 z'.1
    (r.1, x.2 ||| y.2 ||| z.2 ||| x'.2 ||| y'.2 ||| z'.2 ||| r.2)
  | _ => (0, 0)

/-! ### MX blocks (R120, R121) -/

/-- The value of an E8M0 scale (R120). -/
def e8m0 (b : Nat) : XReal := if b = 255 then .nan false else .fin false 1 ((b : Int) - 127)

/-- The element kinds of MX formats: 0 mxe4m3, 1 mxe5m2, 2 mxe2m1, 3 mxs8 (R201). -/
def mxWidth (kind : Nat) : Nat := if kind = 2 then 4 else 8

/-- `E` of R121. -/
def mxE (kind : Nat) : Int := match kind with | 0 => 8 | 1 => 15 | 2 => 2 | _ => 0

/-- The value of an MX element apart from its scale (R120). -/
def mxDecode (kind : Nat) (b : Nat) : XReal :=
  match kind with
  | 0 => FFmt.e4m3.decode b
  | 1 => FFmt.e5m2.decode b
  | 2 => FFmt.e2m1.decode b
  | _ => (XReal.ofInt (sextInt b 8)).scale2 (-6)

/-- The scale byte for a block whose largest finite magnitude is `m · 2^e` (R121). -/
def mxScale (kind : Nat) (m : Nat) (e : Int) : Nat :=
  if m = 0 then 0
  else
    let k := e + Nat.log2 m - mxE kind
    ((if k < -127 then -127 else if 127 < k then 127 else k) + 127).toNat

/-- A finite value already divided by the scale, rounded into an MX element and saturated (R121, R202). -/
def mxEncode (kind : Nat) (mode : Mode) (rho : Nat) (x : XReal) : Nat × Flags :=
  match kind with
  | 0 => FFmt.e4m3.round mode true rho x
  | 1 => FFmt.e5m2.round mode true rho x
  | 2 => FFmt.e2m1.round mode true rho x
  | _ =>
    match x with
    | .fin neg m e =>
      let (k, exact) := roundTo mode rho neg m e (-6)
      let v : Int := if neg then -(k : Int) else k
      let (y, cl) := clampInt true 8 v
      (wrapInt y 8, if cl then fOF ||| fNX else if exact then 0 else fNX)
    | _ => (0, 0)

/-- The larger magnitude of two finite magnitudes. -/
def magMax (a b : Nat × Int) : Nat × Int := if magLt a.1 a.2 b.1 b.2 then b else a

/-! ### aw128 words (R122 to R124) -/

/-- An aw128 word and its flag byte. -/
abbrev Aw := W128 × BitVec 8

/-- Two partials of one window combined (R122). -/
def Aw.combine (x y : Aw) : Aw := (x.1 + y.1, x.2 ||| y.2)

/-- The partial of an addend from zero, with base exponent `e0` (R123). -/
def accPartial (e0 : Int) : XReal → Aw
  | .nan _ => (0, 0x01)
  | .inf false => (0, 0x02)
  | .inf true => (0, 0x04)
  | .fin neg m e =>
    let (k, exact) := roundTo .rne 0 neg m e e0
    let n : Int := if neg then -(k : Int) else k
    let fl : BitVec 8 := if exact then 0 else 0x08
    let fl := if m ≠ 0 ∧ ¬ magLt m e 1 (e0 + 100) then fl ||| 0x10 else fl
    (BitVec.ofInt 128 n, fl)

/-- Reading an aw128 word out to fp32 or bf16 (R124). -/
def awRead (f : FFmt) (e0 : Int) (x : Aw) : Nat :=
  let fl := x.2.toNat
  let pos := bitOf fl 1
  let neg := bitOf fl 2
  if bitOf fl 0 || (pos && neg) then f.canonNaN
  else if pos then f.infBits
  else if neg then f.signBits true ||| f.infBits
  else if x.1 = 0 then 0
  else (f.rnd ((XReal.ofInt x.1.toInt).scale2 e0)).1

/-! ### Scales (R126, R128) -/

/-- The value of a scale register: fp32, or E8M0 (R126). -/
def scaleVal (scl : W32) (e8 : Bool) : XReal :=
  if e8 then e8m0 (scl.toNat % 256) else FFmt.fp32.decode scl.toNat

end Sys2Proof.Machine
end

