-- ==== Sys2Proof/Machine/Map.lean ====
section
/-! DEFINITION. Finite maps from natural numbers, kept as lists with rising keys, and byte memory in its one canonical form:
addresses strictly rising, no listed byte equal to what an unlisted address reads as (0; assumption 2). -/

namespace Sys2Proof.Machine

/-- A finite map: pairs with strictly rising keys. -/
abbrev Map (α : Type) := List (Nat × α)

/-- The value at key `k`. -/
def Map.get? {α : Type} : Map α → Nat → Option α
  | [], _ => none
  | (j, x) :: m, k => if j = k then some x else Map.get? m k

/-- The map with `x` at key `k`. -/
def Map.set {α : Type} : Map α → Nat → α → Map α
  | [], k, x => [(k, x)]
  | (j, y) :: m, k, x =>
    if k < j then (k, x) :: (j, y) :: m
    else if j = k then (k, x) :: m
    else (j, y) :: Map.set m k x

/-- The map without key `k`. -/
def Map.erase {α : Type} (m : Map α) (k : Nat) : Map α := m.filter (fun e => e.1 != k)

/-- The map with the value at `k` changed by `f`, where there is one. -/
def Map.modify {α : Type} (m : Map α) (k : Nat) (f : α → α) : Map α :=
  match m.get? k with
  | some x => m.set k (f x)
  | none => m

/-- The value at `k`, or `d`. -/
def Map.getD {α : Type} (m : Map α) (k : Nat) (d : α) : α := (m.get? k).getD d

/-- The entries whose key satisfies `p`. -/
def Map.keep {α : Type} (m : Map α) (p : Nat → Bool) : Map α := m.filter (fun e => p e.1)

/-- The key of part `n` (below 2^24) of tenure `t` in the maps of running parts. -/
def key2 (t n : Nat) : Nat := t * 16777216 + n

/-- The key of entry `k` of combine tree `tree` of tenure `t`. -/
def combKey (t tree k : Nat) : Nat := t * 1099511627776 + tree * 4096 + k

/-- The tenure in a key made by `combKey`. -/
def combKeyT (k : Nat) : Nat := k / 1099511627776

/-- The tenure in a key made by `key2`. -/
def keyT (k : Nat) : Nat := k / 16777216

/-- The part in a key made by `key2`. -/
def keyN (k : Nat) : Nat := k % 16777216

/-- Byte memory: the listed bytes, by rising address; an unlisted address reads as 0. -/
abbrev Memory := List Host.Cell

/-- One byte of memory. -/
def Memory.get : Memory → Nat → Byte
  | [], _ => 0
  | (j, x) :: m, k => if j = k then x else Memory.get m k

/-- Memory with byte `x` at `k`: a 0 is not listed. -/
def Memory.put : Memory → Nat → Byte → Memory
  | [], k, x => if x = 0 then [] else [(k, x)]
  | (j, y) :: m, k, x =>
    if k < j then (if x = 0 then (j, y) :: m else (k, x) :: (j, y) :: m)
    else if j = k then (if x = 0 then m else (k, x) :: m)
    else (j, y) :: Memory.put m k x

/-- Every listed address lies above `lo`, addresses rise, and no listed byte is 0. -/
def Memory.wfAbove : Option Nat → Memory → Bool
  | _, [] => true
  | lo, (j, x) :: m => (match lo with | none => true | some l => decide (l < j)) && decide (x ≠ 0) && Memory.wfAbove (some j) m

/-- The canonical form of memory. -/
def Memory.wf (m : Memory) : Bool := Memory.wfAbove none m

/-- `n` bytes of memory from address `a`. -/
def Memory.read (m : Memory) (a : Nat) : Nat → List Byte
  | 0 => []
  | n + 1 => m.get a :: Memory.read m (a + 1) n

/-- The bytes `bs` written from address `a` on. -/
def Memory.write (m : Memory) (a : Nat) : List Byte → Memory
  | [] => m
  | b :: bs => Memory.write (m.put a b) (a + 1) bs

/-- A little-endian natural number from bytes (R4). -/
def leNat : List Byte → Nat
  | [] => 0
  | b :: bs => b.toNat + 256 * leNat bs

/-- The `n` little-endian bytes of a natural number (R4). -/
def leBytes (x : Nat) : Nat → List Byte
  | 0 => []
  | n + 1 => BitVec.ofNat 8 x :: leBytes (x / 256) n

end Sys2Proof.Machine
end

