-- ==== Sys2Proof/Machine/State.lean ====
section
/-! DEFINITION. The state of one KA4 module, as plain data: what the spec gives each of its parts, the messages in flight, and
the agenda that says which part moves next (assumption 1). The parts that belong to tenures stand in flat maps keyed by
`key2 tenure part`. -/

namespace Sys2Proof.Machine

/-! ### The graph object, as read at admission (R29 to R33, R81, R82, R127, R145, R291, R311, R312) -/

/-- A node-table entry (R31). -/
structure NodeE where
  kind : Nat
  pound : Nat
  cls : Nat
  bank : Nat
  code : Nat
  body : Nat
  deriving DecidableEq, Repr

/-- A channel-table entry (R33); an external end is 0xFFFFFF. -/
structure ChanE where
  src : Nat
  oport : Nat
  dst : Nat
  iport : Nat
  trig : Bool
  depth : Nat
  width : Nat
  ratelo : Nat
  ratehi : Nat
  sticky : Nat
  level : Nat
  deriving DecidableEq, Repr

/-- A pattern header (R82): its words' offset in the object and the locality positions it covers. -/
structure Pattern where
  nwords : Nat
  words : Nat
  spans : List (Nat × Nat)
  deriving DecidableEq, Repr

/-- A pound-table entry with its locality list and patterns (R81). -/
structure PoundE where
  jmin : Nat
  jmax : Nat
  loc : List Nat
  pats : List Pattern
  deriving DecidableEq, Repr

/-- A placement-time relocation (R145). -/
structure Reloc where
  node : Nat
  kind : Nat
  word : Nat
  lo : Nat
  width : Nat
  symbol : Nat
  addend : Int
  deriving DecidableEq, Repr

/-- An accumulate-window descriptor (R291). -/
structure WinE where
  wid : Nat
  isLocal : Bool
  init : Bool
  rofmt : Nat
  warg : Bool
  rarg : Bool
  e0 : Int
  quota : Nat
  count : Nat
  wbase : Nat
  robase : Nat
  pound : Nat
  cfirst : Nat
  clast : Nat
  deriving DecidableEq, Repr

/-- A combine tree: header, internal entries (parent, slot, children), leaves (node, parent, slot) (R311, R312). -/
structure TreeE where
  tree : Nat
  fmt : Nat
  op : Nat
  ord : Bool
  ulen : Nat
  texp : Nat
  rchan : Nat
  ints : List (Nat × Nat × Nat)
  leaves : List (Nat × Nat × Nat)
  deriving DecidableEq, Repr

/-- The format table and the scale registers of an element (R125, R126). -/
structure Fmt where
  ins : Vector W32 16
  outs : Vector W32 16
  scl : Vector W32 8
  sclkind : BitVec 8
  deriving DecidableEq, Repr

/-- A graph object as read (R29, R30). -/
structure Graph where
  size : Nat
  det : Bool
  cands : Nat
  segmax : Nat
  nodes : List NodeE
  chans : List ChanE
  pounds : List PoundE
  passage : List W32
  trees : List TreeE
  wins : List WinE
  relocs : List Reloc
  argSize : Nat
  /-- Format blocks by node, and their byte offsets in the object (R127). -/
  fmts : Map Fmt
  blocks : Map Nat
  /-- Configuration words of the nodes of kinds 1 to 5, by node (R139, R141, R224). -/
  cfg : Map (List Nat)
  deriving DecidableEq, Repr

/-! ### Channels and nodes -/

/-- A channel as it runs (R34 to R37, R42): records under construction, in transit and held for the consumer. -/
structure ChanRt where
  e : ChanE
  /-- Records visible to the consumer, oldest first; the current record stays at the head until it is released (R176). -/
  buf : List Rec
  /-- Closed records that have not arrived yet (R34). -/
  transit : List Rec
  /-- The record its producer holds open (R179): header and units pushed so far. -/
  opn : Option Rec
  /-- The open bit of R42. -/
  seg : Bool
  /-- Firings the sticky head record has served (R37), and whether the running activation of a task has used one of them (R176). -/
  used : Nat
  taken : Bool
  /-- Records of the argument range bound to it that wait for a slot (R233). -/
  feed : List Rec
  deriving DecidableEq, Repr

/-- The state of a task node (R150). -/
inductive TStatus where
  | idle | running | blocked | halted
  deriving DecidableEq, Repr

/-- An input port of a task: whether it has a current record, and the index of its next unit (R176). -/
structure InPort where
  cur : Bool
  idx : Nat
  deriving DecidableEq, Repr

/-- The watch flag that an atomic's reply brought (R380, R384). -/
structure WFlag where
  dst : Option Opnd
  pc : Nat
  arg : W64
  issued : Nat
  deriving DecidableEq, Repr

/-- A residual (R297). -/
structure Residual where
  wid : Nat
  addr : Nat
  part : W128
  flags : BitVec 8
  /-- The cycle at which its age was 0. -/
  born : Nat
  deriving DecidableEq, Repr

/-- How far a `quiet` request has come (R322, R325): asked for, served by the wave that runs, or declared quiet. -/
inductive QuietSt where
  | asked | served | quiet
  deriving DecidableEq, Repr

/-- What an instruction waits for outside its cell. -/
inductive WaitSt where
  | none
  /-- A `quiet` request: `graph` scope or pound scope, and how far it has come (R325). -/
  | quiet (graph : Bool) (st : QuietSt)
  /-- A waiter registered at a gate (R310). -/
  | gate (gid : Nat) (e : W32)
  /-- A waiter registered at the home of a completion word: its address, its physical address, the least value, and whether a write has met
  the condition (R280). -/
  | word (va pa least : Nat) (done : Bool)
  /-- A `waita` whose translation was invalidated: it looks its word up again (R268). -/
  | lookup (va least : Nat)
  /-- A waiter whose request or answer was lost on a die pair without a live module: nothing ends the wait (R323, R396). -/
  | lost
  /-- The host port's confirming read is out (R326). -/
  | confirm
  /-- A lockkeeper's `enter` has started its load, a `lock` its hinted load, or a `done` has its confirming read behind it (R356, R357,
  R366). -/
  | begun
  deriving DecidableEq, Repr

/-- The answer to a page request (R267). -/
inductive PageSt where
  | waiting | failed
  deriving DecidableEq, Repr

/-- A task node (R148 to R159, R269, R270, R290, R374). -/
structure TaskRt where
  st : TStatus
  pc : Int
  g : Vector W32 16
  a : Vector W64 8
  v : Vector W64 8
  p : Vector (BitVec 4) 4
  sbcnt : Vector (BitVec 8) 8
  sberr : BitVec 8
  acts : W32
  fflags : BitVec 5
  srseed : W32
  nullfwd : BitVec 16
  fmt : Fmt
  tvec : BitVec 16
  tpc : BitVec 16
  tcause : BitVec 16
  targ : W64
  tsrc : BitVec 16
  tstat : BitVec 1
  updpend : BitVec 8
  code : List W32
  bankBytes : Nat
  bank : Memory
  inp : Vector InPort 16
  /-- The channel of each input and output port. -/
  inCh : Vector (Option Nat) 16
  outCh : Vector (Option Nat) 16
  trigp : Nat
  /-- The seq of the trigger record and the count of stochastic conversions of this activation (R198). -/
  trigSeq : Nat
  srCount : Nat
  /-- Registers that wait for a reply (R272, R286). -/
  pend : List Opnd
  wflags : List WFlag
  /-- Atomics without a reply: message and instructions issued since (R380). -/
  atoms : List (Nat × Nat)
  tile : List Residual
  /-- The words, by window and address, to which accumulates have issued in a cycle, and that cycle (R301). -/
  accNow : Nat × List (Nat × Nat)
  wait : WaitSt
  /-- Host-shared stores not yet known to be performed in host memory (R326). -/
  hostDirty : Bool
  /-- A Null trigger being forwarded: the Null and the ports left (R152). -/
  nullLeft : Option (Rec × List Nat)
  /-- The next round of each leaf, by `65536 * tree + leaf` (R316). -/
  rounds : Map Nat
  deriving DecidableEq, Repr

/-- An operator node (R139, R204 to R223). -/
structure OperRt where
  word : Nat
  fmt : Fmt
  halted : Bool
  inCh : Vector (Option Nat) 16
  outCh : Vector (Option Nat) 16
  /-- Sequence-tag counter, or the expected tag of a reorder, or the next round of a combine-send. -/
  ctr : Nat
  /-- The reorder window (R219). -/
  window : List Rec
  /-- The first input that a fair merge, or a loop-exit drain in DRAIN, may serve next (R51), and the one whose segment a fair merge moves
  (R217). -/
  last : Nat
  inSeg : Option Nat
  /-- A loop-exit drain is in DRAIN (R222). -/
  drain : Bool
  /-- The parity of a tap, and an arrival it owes (R309). -/
  par : Bool
  /-- Copies a repeat has sent of its head (R223). -/
  copies : Nat
  deriving DecidableEq, Repr

/-- The nest a generator runs (R225). -/
structure Nest where
  base : Nat
  seq : Nat
  /-- The number of level-0 runs already done. -/
  run : Nat
  /-- 0: the bow is due; 1: a record is due; 2: a dim_end is due; 3: the completion record is due; 4: the stern is due. -/
  phase : Nat
  /-- The elements of the run whose access has been issued so far, and those that a read of the run has returned, by their place in it; of a stream
that reads global memory, by their place in the nest, for it reads ahead of the run whose record is due (R344). -/
  asked : Nat
  got : Map Nat
  /-- The record of `i1` that the run uses, where its residence has ended since the run began, and whether that of the start record has (R37). -/
  held : Option Rec
  ended : Bool
  /-- What the start record says comes before what follows on it (R339). -/
  ord : List Nat
  deriving DecidableEq, Repr

/-- An address generator (R224 to R226). -/
structure GenRt where
  words : List Nat
  fmt : Fmt
  halted : Bool
  bankBytes : Nat
  bank : Memory
  inCh : Vector (Option Nat) 16
  outCh : Vector (Option Nat) 16
  nest : Option Nest
  /-- Tokens whose seq no rule states, made so far (assumption 11). -/
  made : Nat
  /-- The first input whose token or Null a gather may pass next (R51). -/
  last : Nat
  deriving DecidableEq, Repr

/-- A controller (R227, R228). -/
structure CtrlRt where
  word : Nat
  fmt : Fmt
  halted : Bool
  inCh : Vector (Option Nat) 16
  outCh : Vector (Option Nat) 16
  /-- Iterations asked for and not yet reported (`I` of R228); 0 when no permit is being served. -/
  want : Nat
  /-- Iterations permitted to, and Dones returned by, each child. -/
  issued : Vector Nat 16
  returned : Vector Nat 16
  /-- The final Done of a root has been reported (R227). -/
  rootDone : Bool
  /-- Iterations permitted, and Dones sent, on each output port so far (assumption 11). -/
  made : Vector Nat 16
  /-- The first input that may be served next (R51). -/
  last : Nat
  /-- What the records taken for the Permit being served say comes before what follows on them (R339). -/
  ord : List Nat
  deriving DecidableEq, Repr

/-- A weight buffer: its columns so far and its full bit (R235, R242). -/
structure WBuf where
  cols : List (List W64)
  full : Bool
  deriving DecidableEq, Repr

/-- A drain in progress: the next row to emit, whether it clears, whether a command started it (R247, R248), whether the residence of that
command has ended since (R37), and what the record that started it says comes before what follows on it (R339). -/
structure MatDrain where
  row : Nat
  clear : Bool
  cmd : Bool
  gone : Bool
  ord : List Nat
  deriving DecidableEq, Repr

/-- A matrix cell (R235 to R254). -/
structure MatRt where
  word : Nat
  fmt : Fmt
  halted : Bool
  inCh : Vector (Option Nat) 16
  outCh : Vector (Option Nat) 16
  wbufs : List WBuf
  /-- The weight buffer that fills next, and the one for the current pass, both in fill order (R242, R243). -/
  wfill : Nat
  wcur : Nat
  /-- Activation rows held, oldest first. -/
  rows : List Rec
  /-- Accumulators by `row * N + column`; unlisted is +0. -/
  acc : Map W32
  live : Map Bool
  seqreg : Map Nat
  r : Nat
  p : Nat
  /-- A row has fired against the current weight buffer since it was filled. -/
  fired : Bool
  drain : Option MatDrain
  deriving DecidableEq, Repr

/-- A gate (R303 to R308). -/
structure GateRt where
  gid : Nat
  count : Nat
  texp : Nat
  gaddr : Nat
  arrived : Nat
  early : Nat
  gen : Nat
  /-- Output channels: port, channel, owed Permits (R307). -/
  outs : List (Nat × Nat × Nat)
  /-- Waiting task nodes and the generation each saw (R310). -/
  waiters : List (Nat × Nat)
  /-- The cycle at which the running timer started (R308). -/
  timer : Option Nat
  /-- The cycle at which an early arrival beyond the count came: an opening in that cycle is counted before it (R327). -/
  excess : Option Nat
  halted : Bool
  deriving DecidableEq, Repr

/-- The slice copy of a local window: words and flag bytes by index (R292). -/
structure WinRt where
  words : Map W128
  flags : Map (BitVec 8)
  deriving DecidableEq, Repr

/-- A timed-out combine entry and the mask of its missing children (R315). -/
abbrev Missing := Nat × Nat

/-- One round held by a combine entry: the children present, in order of arrival (slot, payload units, the lowest timed-out entry the
value carries), and when its first child arrived (R314, R315). -/
structure Round where
  round : Nat
  kids : List (Nat × List W64 × Option Missing)
  start : Nat
  deriving DecidableEq, Repr

/-- A combine entry of a switch (R313 to R315). -/
structure CombRt where
  rounds : List Round
  /-- Rounds that have been forwarded. -/
  done : List Nat
  /-- Results of a root that wait for their turn and a slot, by round. -/
  out : Map (List W64 × Option Missing)
  /-- The next round a root delivers. -/
  sent : Nat
  deriving DecidableEq, Repr

/-! ### Tenures -/

/-- A physical address (R259, R262): in host memory or in HBM. -/
inductive Phys where
  | host (a : Nat)
  | dev (a : Nat)
  deriving DecidableEq, Repr

/-- A watchpoint of a tenure (R360, R379). -/
structure Watchpoint where
  rd : Bool
  wr : Bool
  at_ : Bool
  base : Nat
  units : Nat
  mask : BitVec 8
  deriving DecidableEq, Repr

/-- What an external channel end is bound to (R358). -/
inductive Binding where
  | arg (off len : Nat)
  | vq (id : Nat)
  | xfer (port : Nat)
  | accs (port wid : Nat)
  | xf (x a b : Nat)
  | pred (m : Nat)
  deriving DecidableEq, Repr

/-- The lockkeeper's registers (R353). -/
structure Lockkeeper where
  lpc : BitVec 16
  lpound : BitVec 16
  lstate : BitVec 8
  lhint : BitVec 16
  n0 : BitVec 20
  n1 : BitVec 20
  n2 : BitVec 20
  n3 : BitVec 20
  qval : BitVec 8
  qvalid : BitVec 8
  wper : BitVec 17
  ireq : BitVec 8
  deriving DecidableEq, Repr

/-- Where a pound stands: the site of each element node, the slice object locators, the circuit slots, and, for each combine entry by
`4096 * tree + entry`, the level of its switch (9 for a die root) and the first site under it (R88 to R92, R313). -/
structure Placement where
  pound : Nat
  sites : Map Nat
  slices : Map Nat
  slots : Map Nat
  combs : Map (Nat × Nat)
  deriving DecidableEq, Repr

/-- A configuration load (R96 to R98): what will run, whether it has committed, and the loads that failed. -/
structure Load where
  place : Placement
  /-- The words of the object that it has not read yet: byte offset and bytes; and those it has, by offset (R382). -/
  todo : List (Nat × Nat)
  parts : Map Nat
  /-- Once all is read: the words of each node's pattern as read, the patch words for single elements (by node, word within it, and value),
  and the format blocks read with them (R96, R127, R145). -/
  words : Map (List Nat)
  patches : List (Nat × Nat × Nat)
  fmts : Map Fmt
  committed : Bool
  fails : Nat
  deriving DecidableEq, Repr

/-- One reading of the summed counters (R318). -/
structure Sums where
  i : W32
  c : W32
  h : Nat
  b : Nat
  e : Nat
  t : Nat
  w : W32
  s : Bool
  bmin : Nat
  /-- Records are left and nothing of the scope can move (R44, R219). -/
  left : Bool
  deriving DecidableEq, Repr

/-- A wave: its scope, its first pass, and of the pass under way the counting points that it has visited, what they reported beside their message
counts, and what has been counted at them since (R320). -/
structure WaveSt where
  graph : Bool
  first : Option Sums
  seen : List Nat
  part : Sums
  late : Sums
  deriving DecidableEq, Repr

/-- A fault record (R371). -/
structure FaultRec where
  code : Nat
  src : Nat
  prec : Bool
  nest : Bool
  node : Nat
  engine : Nat
  pc : Nat
  arg : W64
  deriving DecidableEq, Repr

/-- The life of a tenure (R45, R69, R363, R372, R373). -/
inductive Phase where
  /-- Waits in admission for a region (R84). -/
  | admission
  /-- Holds a region and runs. -/
  | running
  /-- A pause is in progress. -/
  | pausing
  /-- Its context image is saved. -/
  | paused
  /-- Waits in admission, paused (R102). -/
  | pausedAdmission
  /-- Waits for a new region after RESUME (R100). -/
  | replacing
  /-- Faulted and held (R373). -/
  | held
  deriving DecidableEq, Repr

/-- A failed attempt: where it stopped and its code and detail (R85). -/
structure Failure where
  stage : Nat
  item : Nat
  code : Nat
  arg : Nat
  detail : Nat
  deriving DecidableEq, Repr

/-- A region (R74). -/
structure Region where
  b : Nat
  j : Nat
  deriving DecidableEq, Repr

/-- The header of a saved context image (R364), and the passage block the lockkeeper kept at the current pound's `enter`. -/
structure Image where
  features : Nat
  pound : Nat
  nnodes : Nat
  nchans : Nat
  lk : Lockkeeper
  /-- The bytes saved to the device-local memory that the device OS keeps for it (assumption 32). -/
  bytes : List Byte
  deriving DecidableEq, Repr

/-- A pause in progress (R363). -/
structure PauseSt where
  forced : Bool
  /-- The dies' cycle counts when it started, or became forced. -/
  since : Vector Nat 4
  /-- It was started by a fault record (R372). -/
  fault : Bool
  /-- The PAUSE that started it, and the PAUSE commands that wait for it: queue and command index. -/
  owner : Option (Nat × Nat)
  cmds : List (Nat × Nat)
  deriving DecidableEq, Repr

/-- A tenure (R45). -/
structure Tenure where
  handle : Nat
  pasid : Nat
  /-- The LAUNCH: its queue, command index and tag, priority, and whether its fin = 0 completion has been written. -/
  queue : Nat
  cmd : Nat
  fin0 : Bool
  phase : Phase
  die : Nat
  since : Nat
  objAddr : Nat
  g : Graph
  args : List Byte
  /-- Candidates already attempted, and the failures so far (R84, R85). -/
  tried : List Region
  failures : List Failure
  /-- A page of the object that is awaited: its byte offset (R381). -/
  codePage : Option (Nat × PageSt)
  region : Option Region
  gtag : Nat
  place : Option Placement
  load : Option Load
  /-- The other tenure of a shared region, whether this one's plane runs, the slots it has held, and whether it yielded
  (R361, R362). -/
  partner : Option Nat
  active : Bool
  slots : Nat
  yielded : Bool
  lk : Lockkeeper
  /-- Set while the lockkeeper waits in an instruction (`lock`, `quiet`, `settle`, `done`, `fault`): its wave has been asked
  for, and whether it has declared quiet. -/
  lkWait : WaitSt
  /-- The lockkeeper is blocked in `choose` or `waitp` (R354). -/
  lkBlocked : Bool
  binds : Map Binding
  /-- Accumulate streams that have halted (R295). -/
  haltedStreams : List Nat
  watch : Vector (Option Watchpoint) 4
  wave : Option WaveSt
  /-- The cycle at which the last wave started (R322). -/
  lastWave : Nat
  /-- Messages injected and consumed, at pound scope and in addition at graph scope; written off; suspect (R318, R319). -/
  iP : W32
  cP : W32
  iG : W32
  cG : W32
  /-- Messages that die-link endpoints have consumed by writing them off (R323); a pass at pound scope reaches no endpoint (R320). -/
  cL : W32
  wOff : W32
  suspect : Bool
  /-- The home flag registers, OR of the 32 slices kept per slice (R289). -/
  homeFlags : Vector (BitVec 5) 32
  pause : Option PauseSt
  image : Option Image
  /-- The passage block at the current pound's `enter` (R365). -/
  lkEnter : Lockkeeper
  /-- Fault records on the fault lane, as they travel; the log, and the count beyond it (R371, R372). -/
  faultLane : List Rec
  log : List FaultRec
  logOver : Nat
  /-- The cycle of the base die in which the first record of the log arrived (R372). -/
  faultAt : Nat
  heldSince : Nat
  /-- RESUME commands that wait (R65). -/
  resumes : List (Nat × Nat)
  /-- The dies' cycle counts when the current pound was entered (R159). -/
  enteredAt : Vector Nat 4
  /-- The local windows, by their wid, and the gates of the pound left by the last lock, as they settled (R366). -/
  leftWins : Map WinRt
  leftGates : List GateRt
  /-- Blocks that the stream caches of its region hold for streams with ro = 1: address and contents (R264). -/
  streamCache : List (Phys × List Byte)
  deriving DecidableEq, Repr

/-! ### Memory, messages, lighters -/

/-- A translation (R260, R265): the page of `pasid` at `va`, of `size` bytes. -/
structure Tlb where
  pasid : Nat
  va : Nat
  size : Nat
  pa : Phys
  r : Bool
  w : Bool
  deriving DecidableEq, Repr

/-- The integer atomics of R137, and the floating-point adds of R288. -/
inductive AtomOp where
  | add | min | max | minz | maxz | and | or | xor | swap | cas | faddFp32 | faddBf16
  deriving DecidableEq, Repr

/-- What a message carries. -/
inductive MsgKind where
  | load (va size : Nat) (pa : Phys) (signed : Bool) (dst : Opnd) (tok : Option Nat) (pc : Nat)
  | store (va : Nat) (bytes : List Byte) (pa : Phys) (tok : Option Nat)
  | atomic (op : AtomOp) (va size pa x e : Nat) (dst : Option Opnd) (ord : Bool) (pc : Nat)
  | loadReply (va size : Nat) (bytes : List Byte) (ue signed : Bool) (dst : Opnd) (tok : Option Nat) (pc : Nat)
  | atomicReply (req old size : Nat) (dst : Option Opnd) (ord : Bool) (watch : Option W64) (pc : Nat)
  /-- A generator's read of element `idx` of its run, and the answer to one. -/
  | genLoad (idx va size : Nat) (pa : Phys)
  | genReply (idx va : Nat) (bytes : List Byte) (ue : Bool)
  | acc (wid va : Nat) (pa : Option Nat) (part : W128) (flags : BitVec 8)
  | accAck
  | refusal (wid va : Nat) (pa : Option Nat) (part : W128) (flags : BitVec 8)
  | flush (wid va : Nat) (pa : Option Nat) (part : W128) (flags : BitVec 8)
  | gateArr (gate n : Nat) (par : Bool)
  | contrib (tree entry slot round : Nat) (vals : List W64) (miss : Option Missing)
  /-- A block write of a lighter's request: request, block, and bytes by offset from its first address (R277, R281). -/
  | block (req blk va : Nat) (segs : List (Nat × List Byte)) (pa : Phys)
  /-- A record of a channel that crosses dies, until it has crossed; the record itself is in the channel's transit (R394). -/
  | record (chan : Nat)
  deriving DecidableEq, Repr

/-- A message in flight (R78, R319): who sent it, the lighter that did if one did, its generation tag, when it left, the home
unit it goes to, and the die pair it still has to cross (R394). -/
structure Msg where
  id : Nat
  t : Nat
  node : Nat
  lighter : Option Nat
  gtag : Nat
  sent : Nat
  home : Nat
  cross : Option (Nat × Nat)
  kind : MsgKind
  deriving DecidableEq, Repr

/-- A host-shared write that has been issued to the host port and is not performed in host memory yet (R326, R337, R342). -/
structure PortWrite where
  id : Nat
  t : Nat
  node : Nat
  lighter : Option Nat
  /-- It is sent with relaxed ordering clear, and passes no earlier write. -/
  strict : Bool
  pa : Nat
  /-- Its bytes, by offset from `pa`. -/
  segs : List (Nat × List Byte)
  /-- The lighter request that it belongs to, and the token that it or its request names (R337, R339). -/
  req : Option Nat
  tok : Option Nat
  /-- The gate arrivals on their way that it comes before, by message; and the openings that counted one such, by gate node and generation (R338). -/
  arrs : List Nat
  gates : List (Nat × Nat)
  /-- Accesses of its tenure whose number is not below this one come after it: its pound has been left (R338). -/
  fenced : Option Nat
  /-- Nodes whose accesses, from a number on, come after it; `extEnd` stands for the passage program (R338, R339; assumption 36). -/
  after : List (Nat × Nat)
  /-- The requests and messages whose accesses come after it (R339). -/
  ahead : List Nat
  deriving DecidableEq, Repr

/-- A request held by a lighter (R275 to R278). A burst is numbered by the aligned 64-byte block of its destination. -/
structure LReq where
  id : Nat
  t : Nat
  node : Nat
  u0 : W64
  u1 : W64
  u2 : W64
  u3 : W64
  started : Bool
  /-- Bursts whose write is in flight, and bursts performed. -/
  out : List Nat
  done : List Nat
  /-- Source bytes read for a burst that is being gathered, by burst, or for the transform's next record. -/
  parts : Map (List Byte)
  /-- The row that is in the transform, its source bytes sent so far, and the bytes that came back for it and for earlier rows, by row
  (R279). -/
  row : Nat
  sent : Nat
  got : Map (List Byte)
  /-- It has stopped with an error; `err`: it reports an error on its token (R277). `lost`: the parts
  of its source, by burst, of which a read was written off (R396). -/
  stopped : Bool
  err : Bool
  lost : List Nat
  deriving DecidableEq, Repr

/-- A lighter (R19, R278, R297): its requests and its residual tile, each entry with the tenure and the node that sent it. -/
structure LighterRt where
  reqs : List LReq
  tile : List (Nat × Nat × Residual)
  /-- The tenure whose request started last (R278). -/
  lastTenure : Nat
  deriving DecidableEq, Repr

/-- The acceptance interval of a sparse-update unit: accumulates accepted by tenure, window and source port, and the ports seen
(R296). -/
structure QuotaRt where
  counts : List (Nat × Nat × Nat × Nat)
  seen : List (Nat × Nat × Nat)
  start : Nat
  deriving DecidableEq, Repr

/-! ### Host interface -/

/-- How far a command has come (R66): read from the ring; started, with its first accesses under way; waiting for its outcome; or
complete, with its last completion still to be written. -/
inductive CmdSt where
  | waiting | started | active | done
  deriving DecidableEq, Repr

/-- A command read from a ring (R63, R64): its index, its words, how far it has come, and the instant, in nanoseconds, at which it
reached the head of its queue (R67). It is dropped once its last completion has been written. -/
structure Cmd where
  idx : Nat
  words : List W64
  st : CmdSt
  since : Nat
  /-- The argument block that a LAUNCH copied as it started (R65). -/
  args : Option (List Byte)
  deriving DecidableEq, Repr

/-- A completion that waits to be written (R62, R66); word 0 without its phase bit. -/
structure Cpl where
  cmd : Nat
  word0 : W64
  result : W64
  detail : W64
  word3 : W64
  fin : Bool
  irq : Bool
  /-- The command whose last completion must have been written before this one is (R65). -/
  after : Option (Nat × Nat)
  /-- It is written immediately behind the completion with fin = 0 of its command (R65). -/
  joined : Bool
  deriving DecidableEq, Repr

/-- A host queue and its kick page (R59, R60). -/
structure QueueRt where
  die : Nat
  /-- Its kick-page slot (R386). -/
  slot : Nat
  cmdva : Nat
  cplva : Nat
  cmdlog : Nat
  cpllog : Nat
  pasid : Nat
  ceil : Nat
  irqen : Bool
  vector : Nat
  kickTail : W32
  head : W32
  cplHead : W32
  status : W32
  cmds : List Cmd
  /-- The free-running index of the next completion. -/
  cplNext : Nat
  pending : List Cpl
  /-- The WAIT that holds the queue: command, instant in nanoseconds at which it started, last value read (R65). -/
  waiting : Option (Nat × Nat × W64)
  deriving DecidableEq, Repr

/-- How an administrative request completes (R397, assumption 15). -/
inductive MboxStatus where
  | ok
  /-- The module's not-ready status: the stage does not allow the request. -/
  | notReady
  /-- The request breaks a rule, and nothing is made. -/
  | refused
  deriving DecidableEq, Repr

/-- A virtual queue (R70 to R73, R391). -/
structure VqRt where
  pasid : Nat
  output : Bool
  capacity : Nat
  ring : List Rec
  /-- The tenure and channel bound to it. -/
  bound : Option (Nat × Nat)
  /-- The oldest records of the ring that count as injected for the tenure bound (R71). -/
  counted : Nat
  /-- The peer queue it is linked to, and whether every path to the peer is lost. -/
  bridge : Option Nat
  bridgeLost : Bool
  deriving DecidableEq, Repr

/-- A page of host memory as the host's own tables map it (R58, R259, R387). -/
structure HostPage where
  pasid : Nat
  va : Nat
  size : Nat
  pa : Nat
  r : Bool
  w : Bool
  deriving DecidableEq, Repr

/-! ### The die links (R392 to R395) -/

/-- A packet of a die pair: its pair sequence number, its tenure, the message it carries, and its length in flits. -/
structure Packet where
  pseq : Nat
  t : Nat
  msg : Nat
  flits : Nat
  deriving DecidableEq, Repr

/-- A flit (R392); its payload is part `part` of packet `pkt`. Its CRC is computed from it. -/
structure Flit where
  fseq : BitVec 10
  ack : BitVec 10
  nak : Bool
  payload : BitVec 512
  pkt : Packet
  part : Nat
  deriving DecidableEq, Repr

/-- The state of a module of a die pair (R395), the same in both directions. -/
inductive ModState where
  | full | half | retraining | retired
  deriving DecidableEq, Repr

/-- One module in one direction: sender's replay buffer and next sequence number, the flits on the wire, and the receiver's
expected number, failure window and answer (R393, R395). -/
structure ModRt where
  st : ModState
  next : BitVec 10
  replay : List Flit
  wire : List Flit
  expect : BitVec 10
  nak : Bool
  /-- Receive counts at which a CRC failure was seen, within the last 2^20 flits. -/
  fails : List Nat
  received : Nat
  wasHalf : Bool
  deriving DecidableEq, Repr

/-- One direction of a die pair (R394). -/
structure LinkRt where
  mods : List ModRt
  nextSeq : Nat
  /-- Packets for which no replay buffer has room. -/
  queue : List Packet
  /-- The next pair sequence number to hand on, and packets that wait for it. -/
  expect : Nat
  held : List Packet
  deriving DecidableEq, Repr

/-! ### The module -/

/-- A governor block (R28). -/
structure GovRt where
  budget : W32
  now : W32
  fclk : BitVec 8
  floor : BitVec 8
  events : W32
  /-- The 50 µs interval of its last comparison (R26), and the die's cycle at which FCLK_NOW was read last (R28). -/
  last : Nat
  readAt : Option Nat
  deriving DecidableEq, Repr

/-- The state of an L4 subtree (R77). -/
inductive SubSt where
  | free | granted | draining | zeroing | reserved
  deriving DecidableEq, Repr

/-- An L4 subtree: its state, the tag of its last grant, the tenures that hold it, those that have left it since it was last FREE, each with
the number of the first message after its leaving, so that its earlier ones may be in transit, and the cycle of its die at which it began to drain
(R77, R78). -/
structure SubRt where
  st : SubSt
  tag : Nat
  owners : List Nat
  owed : List (Nat × Nat)
  since : Nat
  deriving DecidableEq, Repr

/-- A plane of a shared region that drains, and the tenure that has left it, with the number of the first message after its leaving (R79). -/
structure PlaneRt where
  region : Region
  t : Nat
  zeroing : Bool
  bound : Nat
  since : Nat
  deriving DecidableEq, Repr

/-- The power state of the module (R397, R405). -/
inductive Power where
  /-- Running. -/
  | on
  /-- Input below 40 V: every die is held in reset. -/
  | held
  /-- Switched off after a thermal trip. -/
  | off
  deriving DecidableEq, Repr

/-- Dawn, identity and management (R397 to R406). -/
structure DawnRt where
  power : Power
  /-- DAWN_STATUS (R400). -/
  status : W32
  flash : Memory
  /-- The slot accepted (0 A, 1 B) and its svn. -/
  image : Option (Nat × W32)
  /-- The identity seed, in loader-private memory and in the SPDM responder. -/
  seed : Option (BitVec 256)
  /-- The anti-rollback counter, and its value at power-on. -/
  counter : W32
  counterAtPowerOn : W32
  /-- The attestation log: digests by index 1 to 8 (R403). -/
  log : Map (BitVec 256)
  caps : W64
  /-- Channels that failed training. -/
  failedChannels : List Nat
  /-- The part record's serial number and the counts of the engines of R19 and the ports of R15 that it enables, once it has been read
  (R404). -/
  serial : Nat
  units : List Nat
  deriving DecidableEq, Repr

/-- An answer of the management controller: its MCTP type and its fields as numbers (R403, R406). -/
structure MctpOut where
  type : Nat
  code : Nat
  body : List Nat
  deriving DecidableEq, Repr

/-- A page as it travels: its address, size, permissions, and what is not 0 in it, by offset. -/
structure PageImage where
  va : Nat
  size : Nat
  r : Bool
  w : Bool
  bytes : Memory
  deriving DecidableEq, Repr

/-- What a process carries to a peer module (R367): its device-local pages, its virtual-queue rings, and its tenures. -/
structure Bundle where
  pages : List PageImage
  vqs : Map VqRt
  tenures : Map Tenure
  tasks : Map TaskRt
  opers : Map OperRt
  gens : Map GenRt
  ctrls : Map CtrlRt
  mats : Map MatRt
  chans : Map ChanRt
  gates : Map GateRt
  wins : Map WinRt
  combs : Map CombRt
  /-- Requests parked in lighters. -/
  reqs : List (Nat × LReq)
  deriving DecidableEq, Repr

/-! ### The control cores (R19, R349) -/

/-- What a control core's memory instruction does, at a device-local address. -/
inductive CoreKind where
  | load (pa size : Nat)
  | store (pa : Nat) (bytes : List Byte)
  /-- A load-reserved. -/
  | lr (pa size : Nat)
  /-- A store-conditional. -/
  | sc (pa : Nat) (bytes : List Byte)
  /-- An atomic memory operation: it reads and writes at once. -/
  | amo (op : AtomOp) (pa size x e : Nat)
  /-- FENCE: whether its predecessor set holds reads and writes, and whether its successor set does. -/
  | fence (pr pw sr sw : Bool)
  deriving DecidableEq, Repr

/-- A memory instruction of a control core: its place in the program, what it does, its acquire and release bits, the earlier ones it depends
on, those among them that its address depends on, and of a store-conditional the load-reserved it belongs to (R349). -/
structure CoreOp where
  id : Nat
  kind : CoreKind
  aq : Bool
  rl : Bool
  deps : List Nat
  adr : List Nat
  pair : Option Nat
  deriving DecidableEq, Repr

/-- A control core: its memory instructions that are not performed yet, in program order, and the values that its loads, its atomics and, 0 or 1,
its store-conditionals have returned (R349). -/
structure CoreRt where
  pending : List CoreOp
  next : Nat
  loaded : Map Nat
  /-- Loads performed before an earlier load that touches their bytes: place in the program, address and size. -/
  early : List (Nat × Nat × Nat)
  /-- The load-reserved to which the next store-conditional belongs, by its place in the program. -/
  lastLr : Option Nat
  /-- The reservations that stand, by the place of their load-reserved: address and size. -/
  held : Map (Nat × Nat)
  deriving DecidableEq, Repr

/-- An event that the device OS receives (R28, R372, R395). -/
inductive OsEvent where
  /-- Die `d` is over its budget at the floor clock. -/
  | governor (d : Nat)
  /-- A module of a die pair has changed its state. -/
  | module (src dst k : Nat) (st : ModState)
  /-- A pause that a fault record forced is complete: the tenure, and the base die of its region. -/
  | fault (t d : Nat)
  deriving DecidableEq, Repr

/-- What moves next (assumption 1). -/
inductive Turn where
  /-- The task processor of node `n` of tenure `t` issues. -/
  | issue (t n : Nat)
  /-- The lockkeeper of tenure `t` runs its next instruction. -/
  | passage (t : Nat)
  /-- An event takes place, if it can, and what it happens to. -/
  | event (i : Instr) (x : Subject)
  /-- The lockkeeper of tenure `t` reads the next word of its load (R381, R382). -/
  | loadRead (t : Nat)
  /-- Time passes: fabric cycles of each die, and nanoseconds (R20). -/
  | tick (cycles : Vector Nat 4) (ns : Nat)
  /-- Control core `c` comes to a memory instruction. -/
  | core (c : Nat) (kind : CoreKind) (aq rl : Bool) (deps adr : List Nat)
  /-- The pending memory instruction `k` of control core `c` is performed, if it can be. -/
  | corePerform (c k : Nat)
  /-- The block at an address of a tenure enters the stream caches of its region, or the block at a physical address leaves them (R264). -/
  | cacheFill (t va : Nat)
  | cacheDrop (t : Nat) (pa : Phys)
  /-- The device OS invalidates the translations of a range of pages of a device-local address space (R268). -/
  | osInvalidate (pasid va bytes : Nat)
  /-- The host, or the device OS, reads a register (R7, R28). -/
  | regRead (r : RegAddr)
  /-- The host disables a PASID, or enables it (R387). -/
  | pasid (pasid : Nat) (enabled : Bool)
  deriving DecidableEq, Repr

/-- The machine stops. -/
inductive Fault where
  /-- A task instruction was executed while no task node was issuing. Raised by `runTask`; it cannot come from a fetch. Safe. -/
  | noTask
  /-- A passage instruction was executed while no lockkeeper was running. Raised by `runPassage`; it cannot come from a fetch.
  Safe. -/
  | noLockkeeper
  deriving DecidableEq, Repr

/-- No meaning was given. -/
inductive Refusal where
  /-- The instruction has no meaning yet; raised by an arm of `exec`. Safe. -/
  | notModelled (mnemonic : String)
  deriving DecidableEq, Repr

/-- One KA4 module. -/
structure State where
  /-- Fabric cycles of each die passed, and nanoseconds (R20, assumption 3). -/
  clk : Vector Nat 4
  nowNs : Nat
  agenda : List Turn
  /-- The task node that issues: tenure and node; for a passage instruction, the tenure. -/
  cur : Nat × Nat
  /-- What the event that takes place happens to. -/
  subj : Subject
  /-- Free values taken so far (assumption 4). -/
  freeCtr : Nat
  nextMsg : Nat
  -- memory and translation
  hostMem : Memory
  devMem : Memory
  hostPages : List HostPage
  /-- PASIDs the host has disabled (R387). -/
  pasidOff : List Nat
  /-- Root tables of device-local address spaces by PASID (R266). -/
  roots : Map Nat
  tlbs : List (Layer × Tlb)
  /-- Page requests outstanding, and those answered with failure that their requester has not seen yet: requester, PASID, page
  address (R267, R387). -/
  pageReqs : List (Layer × Nat × Nat)
  pageFails : List (Layer × Nat × Nat)
  -- tenures and their parts
  tenures : Map Tenure
  /-- The number the next tenure takes inside the model. -/
  nextTenure : Nat
  tasks : Map TaskRt
  opers : Map OperRt
  gens : Map GenRt
  ctrls : Map CtrlRt
  mats : Map MatRt
  chans : Map ChanRt
  gates : Map GateRt
  wins : Map WinRt
  /-- Combine entries by `combKey`. -/
  combs : Map CombRt
  net : List Msg
  /-- Host-shared writes between the host port and host memory, in order of issue (R342). -/
  hostPort : List PortWrite
  lighters : Map LighterRt
  units : Map QuotaRt
  subtrees : Map SubRt
  /-- Planes that drain, by the first subtree of their region. -/
  planes : Map PlaneRt
  /-- The tenure for which a Gykan holds the grant token of each die (R80). -/
  tokens : Vector (Option Nat) 4
  repair : RepairMap
  -- host interface
  queues : Map QueueRt
  nextQueue : Nat
  vqs : Map VqRt
  nextVq : Nat
  /-- The next handle of each PASID (R65). -/
  handles : Map Nat
  /-- Interrupts sent: MSI-X vectors, newest last (R66). -/
  irqs : List Nat
  /-- BAR2: MBOX_REQ and the MSI-X table as bytes by offset; MBOX_DOOR; pending vectors (R386). -/
  bar2 : Memory
  mboxDoor : W32
  msixPba : List Nat
  /-- The response that MBOX_RSP holds: none written yet, or its status and a number from which its free bytes come (assumption 15). -/
  mboxRsp : Option (MboxStatus × Nat)
  -- module
  gov : Vector GovRt 4
  links : Map LinkRt
  dawn : DawnRt
  mctp : List MctpOut
  /-- Correctable errors counted for the device OS (R396). -/
  corrected : List ErrorSource
  /-- Events that the device OS has received, newest last (R28, R372, R395). -/
  osEvents : List OsEvent
  /-- The control cores that have come to a memory instruction (R349). -/
  cores : Map CoreRt
  /-- Link status of the host port: rate and width (R389). -/
  pcie : Nat × Nat
  /-- Ethernet ports that are up (R391). -/
  ethUp : Vector Bool 8
  /-- Records the bridge has sent to peers: peer queue and record. -/
  bridgeOut : List (Nat × Rec)
  ethOut : List Bundle
  ethIn : List Bundle
  deriving DecidableEq, Repr

/-- A governor block at reset (R28). -/
def GovRt.reset : GovRt := { budget := 1250, now := 0, fclk := 33, floor := 20, events := 0, last := 0, readAt := none }

/-- A module of a die pair at dawn: full width, nothing sent (R392). -/
def ModRt.reset : ModRt :=
  { st := .full, next := 0, replay := [], wire := [], expect := 0, nak := false, fails := [], received := 0, wasHalf := false }

/-- One direction of a die pair at dawn: 24 live modules (R15, R392). -/
def LinkRt.reset : LinkRt := { mods := List.replicate 24 ModRt.reset, nextSeq := 0, queue := [], expect := 0, held := [] }

/-- A format table of Raw entries and zero scales (R101, R126). -/
def Fmt.zero : Fmt :=
  { ins := Vector.replicate 16 0, outs := Vector.replicate 16 0, scl := Vector.replicate 8 0, sclkind := 0 }

/-- The lockkeeper at admission (R353). -/
def Lockkeeper.reset : Lockkeeper :=
  { lpc := 0, lpound := 0xFFFF, lstate := 0, lhint := 0xFFFF, n0 := 0, n1 := 0, n2 := 0, n3 := 0, qval := 0, qvalid := 0,
    wper := 4096, ireq := 0 }

/-- Dawn at power-on (R397, R400): nothing read yet. -/
def DawnRt.reset : DawnRt :=
  { power := .on, status := 0, flash := [], image := none, seed := none, counter := 0, counterAtPowerOn := 0, log := [],
    caps := 0, failedChannels := [], serial := 0, units := [] }

/-- The MSI-X table at reset: every vector masked, everything else 0 (R386, assumption 33). -/
def msixReset : Memory := (List.range 2048).map (fun v => (0x1000C + 16 * v, 1))

/-- The module at power-on: every register at its Reset value (R8, R28, R386, R400), no queue, no tenure, every subtree FREE,
nothing listed in memory. -/
def State.reset : State :=
  { clk := Vector.replicate 4 0, nowNs := 0, agenda := [], cur := (0, 0), subj := .none, freeCtr := 0, nextMsg := 0,
    hostMem := [], devMem := [], hostPages := [], pasidOff := [], roots := [], tlbs := [], pageReqs := [], pageFails := [],
    tenures := [], nextTenure := 0, tasks := [], opers := [], gens := [], ctrls := [], mats := [], chans := [], gates := [], wins := [],
    combs := [], net := [], hostPort := [], lighters := [], units := [], subtrees := [], planes := [], tokens := Vector.replicate 4 none,
    repair := { fenced := [], reduced := [], cutSwitch := [], cutUplink := [], pairs := [], deadChannels := [] },
    queues := [], nextQueue := 1, vqs := [], nextVq := 1, handles := [], irqs := [], bar2 := msixReset, mboxDoor := 0, msixPba := [], mboxRsp := none,
    gov := Vector.replicate 4 GovRt.reset, links := [], dawn := DawnRt.reset, mctp := [], corrected := [], osEvents := [], cores := [], pcie := (7, 16),
    ethUp := Vector.replicate 8 true, bridgeOut := [], ethOut := [], ethIn := [] }

end Sys2Proof.Machine
end

