-- ==== Sys2Proof/Machine/Ops.lean ====
section
/-! DEFINITION. Named operations over the state: record headers (R38, R39), tenures and their parts, the dusk wave's message
counters (R318, R319), fault records (R371, R372), taking a trap and returning from one (R375, R376, R378), and the monad in
which a task instruction runs (R133, R153). -/

namespace Sys2Proof.Machine

/-! ### Fault codes (R370) -/

/-- BAD_GRAPH. -/
def cBadGraph : Nat := 0x0100
/-- BAD_OPERATOR. -/
def cBadOperator : Nat := 0x0101
/-- BAD_PASSAGE. -/
def cBadPassage : Nat := 0x0102
/-- DETERMINISM_CLAIM. -/
def cDeterminism : Nat := 0x0103
/-- NOFIT_CELLS. -/
def cNofitCells : Nat := 0x0110
/-- NOFIT_BANK. -/
def cNofitBank : Nat := 0x0111
/-- NOFIT_CODE. -/
def cNofitCode : Nat := 0x0112
/-- NOFIT_LINK. -/
def cNofitLink : Nat := 0x0113
/-- NOFIT_VC. -/
def cNofitVc : Nat := 0x0114
/-- NOFIT_REGION. -/
def cNofitRegion : Nat := 0x0115
/-- PLACE_RELOC_RANGE. -/
def cRelocRange : Nat := 0x0116
/-- CONFIG_LOAD_UE. -/
def cConfigLoadUe : Nat := 0x0117
/-- ILLEGAL_INSTRUCTION. -/
def cIllegal : Nat := 0x0200
/-- CHANNEL_UNBOUND. -/
def cUnbound : Nat := 0x0201
/-- CODE_RANGE. -/
def cCodeRange : Nat := 0x0202
/-- BANK_RANGE. -/
def cBankRange : Nat := 0x0203
/-- BANK_ALIGN. -/
def cBankAlign : Nat := 0x0204
/-- RECORD_OVERRUN. -/
def cOverrun : Nat := 0x0205
/-- RECORD_STATE. -/
def cRecordState : Nat := 0x0206
/-- USER_TRAP. -/
def cUserTrap : Nat := 0x0207
/-- BREAKPOINT. -/
def cBreakpoint : Nat := 0x0208
/-- TASK_HALT. -/
def cTaskHalt : Nat := 0x0209
/-- RECORD_TYPE. -/
def cRecordType : Nat := 0x0300
/-- RECORD_LENGTH. -/
def cRecordLength : Nat := 0x0301
/-- FORMAT_MISMATCH. -/
def cFormat : Nat := 0x0302
/-- SEGMENT_ORDER. -/
def cSegment : Nat := 0x0303
/-- CONTROL_ORDER. -/
def cControlOrder : Nat := 0x0304
/-- MERGE_MISMATCH. -/
def cMerge : Nat := 0x0305
/-- OPERAND_MISMATCH. -/
def cOperand : Nat := 0x0306
/-- STEER_CONTROL. -/
def cSteer : Nat := 0x0307
/-- REORDER_RANGE. -/
def cReorder : Nat := 0x0308
/-- LOOP_ORDER. -/
def cLoop : Nat := 0x0309
/-- STREAM_ALIGN. -/
def cStreamAlign : Nat := 0x030A
/-- MATRIX_COMMAND. -/
def cMatrix : Nat := 0x030B
/-- PAGE_FAULT. -/
def cPageFault : Nat := 0x0400
/-- GLOBAL_ALIGN. -/
def cGlobalAlign : Nat := 0x0401
/-- XFER_REQUEST. -/
def cXferRequest : Nat := 0x0402
/-- XFER_RATIO. -/
def cXferRatio : Nat := 0x0403
/-- MEMORY_UE. -/
def cMemoryUe : Nat := 0x0404
/-- ACC_RANGE. -/
def cAccRange : Nat := 0x0405
/-- WATCH_HIT. -/
def cWatchHit : Nat := 0x0406
/-- CODE_PAGE. -/
def cCodePage : Nat := 0x0407
/-- GATE_RANGE. -/
def cGateRange : Nat := 0x0500
/-- GATE_OVERRUN. -/
def cGateOverrun : Nat := 0x0501
/-- GATE_TIMEOUT. -/
def cGateTimeout : Nat := 0x0502
/-- GATE_CLOBBER. -/
def cGateClobber : Nat := 0x0503
/-- COMBINE_RANGE. -/
def cCombineRange : Nat := 0x0504
/-- COMBINE_TIMEOUT. -/
def cCombineTimeout : Nat := 0x0505
/-- STALL. -/
def cStall : Nat := 0x0506
/-- LOSS. -/
def cLoss : Nat := 0x0507
/-- PASSAGE_STATE. -/
def cPassageState : Nat := 0x0600
/-- BIND_BUSY. -/
def cBindBusy : Nat := 0x0601
/-- BIND_QUEUE. -/
def cBindQueue : Nat := 0x0602
/-- USER_FAULT. -/
def cUserFault : Nat := 0x0603
/-- RESTORE_FEATURE. -/
def cRestoreFeature : Nat := 0x0604

/-! ### Records (R38, R39) -/

/-- The type of a header. -/
def hType (h : W64) : Nat := bitsOf h.toNat 56 8
/-- The format code. -/
def hFmt (h : W64) : Nat := bitsOf h.toNat 48 8
/-- The payload length in units. -/
def hLen (h : W64) : Nat := bitsOf h.toNat 32 16
/-- The sequence tag. -/
def hSeq (h : W64) : Nat := bitsOf h.toNat 16 16
/-- The null flag. -/
def hNull (h : W64) : Bool := bitOf h.toNat 8
/-- The mx flag. -/
def hMx (h : W64) : Bool := bitOf h.toNat 9
/-- The control argument. -/
def hCarg (h : W64) : Nat := bitsOf h.toNat 0 8

/-- The record type Data. -/
def tData : Nat := 0
/-- Bow. -/
def tBow : Nat := 1
/-- Stern. -/
def tStern : Nat := 2
/-- dim_end. -/
def tDimEnd : Nat := 3
/-- Null. -/
def tNull : Nat := 4
/-- Permit. -/
def tPermit : Nat := 5
/-- Done. -/
def tDone : Nat := 6
/-- Gate arrival. -/
def tGateArr : Nat := 7
/-- Fault. -/
def tFault : Nat := 8
/-- Transfer request. -/
def tXfer : Nat := 9
/-- Reply. -/
def tReply : Nat := 10

/-- A header of its fields; the null flag is that of its type. -/
def mkHdr (type fmt len seq : Nat) (mx : Bool) (carg : Nat) : W64 :=
  BitVec.ofNat 64 (type * 2 ^ 56 + fmt * 2 ^ 48 + len * 2 ^ 32 + (seq % 65536) * 2 ^ 16
    + (if mx then 512 else 0) + (if type = tNull then 256 else 0) + carg % 256)

/-- A header with another seq. -/
def hWithSeq (h : W64) (seq : Nat) : W64 := BitVec.ofNat 64 (h.toNat - hSeq h * 65536 + (seq % 65536) * 65536)

/-- A made record without payload, of fmt Raw (R417). -/
def madeRec (type seq carg : Nat) : Rec := { hdr := mkHdr type 0 0 seq false carg, units := [] }

/-- A Null made in place of a record, keeping seq and carg (R47, R417). -/
def madeNull (h : W64) : Rec := madeRec tNull (hSeq h) (hCarg h)

/-- A Data record. -/
def dataRec (fmt : Nat) (seq carg : Nat) (us : List W64) : Rec :=
  { hdr := mkHdr tData fmt us.length seq false carg, units := us }

/-- The type of a record. -/
def rType (r : Rec) : Nat := hType r.hdr

/-- A control token: types 1 to 6 other than Null, which the rules name apart (R39, R47). -/
def isToken (r : Rec) : Bool :=
  rType r == tBow || rType r == tStern || rType r == tDimEnd || rType r == tPermit || rType r == tDone

/-- The element units of an MX record of `B` blocks (R106). -/
def mxUnits (fmt b : Nat) : Nat := if fmt = 0x1A then 2 * b else 4 * b

/-- The checks 1 to 9 of R38, in order: the code of the fault that the header gives, if any. -/
def checkHeader (h : W64) : Option Nat :=
  let ty := hType h
  let fmt := hFmt h
  let len := hLen h
  let carg := hCarg h
  let isMx := decide (0x18 ≤ fmt) && decide (fmt ≤ 0x1B)
  if 10 < ty then some cRecordType
  else if bitsOf h.toNat 10 6 ≠ 0 then some cRecordType
  else if hNull h != (ty == tNull) then some cRecordType
  else if (hMx h && ty != tData) || (hMx h != isMx) then some cRecordType
  else if !fmtKnown fmt then some cRecordType
  else if !(match ty with
    | 0 => !hMx h || decide (1 ≤ carg)
    | 1 => carg == 0
    | 2 => carg == 0
    | 3 => decide (1 ≤ carg) && decide (carg ≤ 8)
    | 4 => true
    | 5 => decide (1 ≤ carg) && decide (carg ≤ 64)
    | 6 => decide (carg ≤ 15)
    | 7 => decide (1 ≤ carg)
    | 8 => true
    | 9 => decide (carg ≤ 4)
    | _ => decide (carg ≤ 7)) then some cRecordType
  else if !(match ty with
    | 0 => true
    | 7 => len == 1
    | 8 => len == 2
    | 9 => len == 4
    | 10 => decide (len ≤ 8)
    | _ => len == 0) then some cRecordType
  else if 1024 < len then some cRecordLength
  else if ty = tData ∧ hMx h = true ∧ len ≠ (carg + 7) / 8 + mxUnits fmt carg then some cRecordLength
  else if ty = tData ∧ fmt = 0x30 ∧ len % 2 = 1 then some cRecordLength
  else none

/-! ### Tenures and their parts -/

/-- The state with tenure `t` changed. -/
def State.modTenure (s : State) (t : Nat) (f : Tenure → Tenure) : State := { s with tenures := s.tenures.modify t f }

/-- A channel of a tenure. -/
def State.chan? (s : State) (t c : Nat) : Option ChanRt := s.chans.get? (key2 t c)

/-- The state with a channel of a tenure changed. -/
def State.modChan (s : State) (t c : Nat) (f : ChanRt → ChanRt) : State := { s with chans := s.chans.modify (key2 t c) f }

/-- The external end of a channel (R33). -/
def extEnd : Nat := 0xFFFFFF

/-- The kind of node `n` (R31). -/
def Tenure.kindOf (tn : Tenure) (n : Nat) : Nat := (tn.g.nodes[n]?.map NodeE.kind).getD 255

/-! ### Counting points (R318 to R320) -/

/-- The counting point of an end of channel `c`: the cell of the node there, or, at an external end, what the channel is bound to. -/
def chanPoint (n c : Nat) : Nat := if n = extEnd then 2 ^ 24 + c else n
/-- The counting point of a unit. -/
def unitPoint (u : Nat) : Nat := 2 ^ 25 + u
/-- The counting point of a lighter. -/
def lighterPoint (lt : Nat) : Nat := 2 ^ 26 + lt
/-- The counting point of the endpoints of a die pair. -/
def linkPoint (a b : Nat) : Nat := 2 ^ 27 + min a b * 4 + max a b
/-- The counting point of entry `k` of a combine tree. -/
def combPoint (tree k : Nat) : Nat := 2 ^ 28 + tree * 4096 + k
/-- The counting point of a virtual queue. -/
def vqPoint (v : Nat) : Nat := 2 ^ 30 + v

/-- No counts. -/
def Sums.zero : Sums := { i := 0, c := 0, h := 0, b := 0, e := 0, t := 0, w := 0, s := false, bmin := 0xFFFFFF, left := false }

/-- Messages counted, at graph scope alone or not, at a point: a pass that has visited the point does not find them (R320). -/
def WaveSt.count (w : WaveSt) (pt : Nat) (graphOnly : Bool) (i c : Nat) : WaveSt :=
  if w.seen.contains pt && (w.graph || !graphOnly) then
    { w with late := { w.late with i := w.late.i + BitVec.ofNat 32 i, c := w.late.c + BitVec.ofNat 32 c } }
  else w

/-- `n` more messages injected at pound scope, at a counting point (R319). -/
def Tenure.injP (tn : Tenure) (pt n : Nat) : Tenure :=
  { tn with iP := tn.iP + BitVec.ofNat 32 n, wave := tn.wave.map (fun w => w.count pt false n 0) }
/-- `n` more messages consumed at pound scope. -/
def Tenure.conP (tn : Tenure) (pt n : Nat) : Tenure :=
  { tn with cP := tn.cP + BitVec.ofNat 32 n, wave := tn.wave.map (fun w => w.count pt false 0 n) }
/-- `n` more messages injected that are counted at graph scope alone. -/
def Tenure.injG (tn : Tenure) (pt n : Nat) : Tenure :=
  { tn with iG := tn.iG + BitVec.ofNat 32 n, wave := tn.wave.map (fun w => w.count pt true n 0) }
/-- `n` more messages consumed that are counted at graph scope alone. -/
def Tenure.conG (tn : Tenure) (pt n : Nat) : Tenure :=
  { tn with cG := tn.cG + BitVec.ofNat 32 n, wave := tn.wave.map (fun w => w.count pt true 0 n) }

/-- One more message written off and consumed by a die-link endpoint, whose header it could read (R323). -/
def Tenure.conL (tn : Tenure) (pt : Nat) : Tenure :=
  { tn with
    cL := tn.cL + 1
    wOff := tn.wOff + 1
    wave := tn.wave.map (fun w =>
      let w := w.count pt true 0 1
      if w.seen.contains pt then { w with late := { w.late with w := w.late.w + 1 } } else w) }

/-- A tenure is suspect, by a die-link endpoint (R323). -/
def Tenure.doubt (tn : Tenure) (pt : Nat) : Tenure :=
  { tn with
    suspect := true
    wave := tn.wave.map (fun w => if w.seen.contains pt && !tn.suspect then { w with late := { w.late with s := true } } else w) }

/-- The die of a node: of its site, or of its slice (R14, R146). -/
def Tenure.dieOf (tn : Tenure) (n : Nat) : Nat :=
  match tn.place with
  | none => tn.die
  | some p =>
    match p.sites.get? n with
    | some site => site / 131072
    | none =>
      match p.slices.get? n with
      | some loc => bitsOf loc 27 2
      | none => tn.die

/-- The base die of a tenure's region, where its lockkeeper stands (R19). -/
def Tenure.baseDie (tn : Tenure) : Nat := tn.region.elim tn.die (fun r => r.b / 131072)

/-- Whether the parts of a tenure may move: its plane runs and it is neither stopped nor saved (R361, R363). -/
def Tenure.moves (tn : Tenure) : Bool :=
  tn.active && (match tn.phase with
    | .running => true
    | .pausing => match tn.pause with
      | some p => !p.forced
      | none => true
    | _ => false)

/-- The fabric cycles that die `d` has counted (R20). -/
def State.nowOn (s : State) (d : Nat) : Nat := s.clk[d]?.getD 0

/-- One free value more is taken. -/
def State.tookFree (s : State) : State := { s with freeCtr := s.freeCtr + 1 }

/-! ### What comes after a write of the host port (R338, R339) -/

/-- Writes of a tenure in the host port changed, where `mine` holds. -/
def modPort (s : State) (t : Nat) (mine : PortWrite → Bool) (f : PortWrite → PortWrite) : State :=
  { s with hostPort := s.hostPort.map (fun (p : PortWrite) => if p.t == t && mine p then f p else p) }

/-- Writes that the host port has issued for a tenure, and that are not performed yet, come before every access of the tenure that is issued
from now on: its pound is left (R338, assumption 36). -/
def fenceWrites (s : State) (t : Nat) (mine : PortWrite → Bool) : State :=
  modPort s t mine (fun p => { p with fenced := some (p.fenced.getD s.nextMsg) })

/-- Such writes come before every access that node `n` issues from now on (R338, R339, assumption 36). -/
def orderNode (s : State) (t n : Nat) (mine : PortWrite → Bool) : State :=
  modPort s t (fun p => mine p && !p.after.any (fun a => a.1 == n)) (fun p => { p with after := (n, s.nextMsg) :: p.after })

/-- What a record says comes before what follows on it comes before every access that node `n`, which takes it, issues from now on (R339). -/
def orderRec (s : State) (t n : Nat) (r : Rec) : State := if r.ord.isEmpty then s else orderNode s t n (fun p => r.ord.contains p.id)

/-- A record that follows on what `xs` names (R339). -/
def Rec.follow (r : Rec) (xs : List Nat) : Rec :=
  if xs.isEmpty then r else { r with ord := r.ord ++ xs.filter (fun x => !r.ord.contains x) }

/-- Writes of node `n` itself that a `wsb` of it has found complete: a record that it closes follows on them (R339). -/
def closedOrd (s : State) (t n : Nat) : List Nat :=
  (s.hostPort.filter (fun p => p.t == t && p.node == n && p.after.any (fun a => a.1 == n))).map PortWrite.id

/-- Whether two ranges overlap. -/
def overlaps (a b : Nat × Nat) : Bool := decide (a.1 < b.1 + b.2) && decide (b.1 < a.1 + a.2)

/-- The control cores once bytes of device-local memory are written: a reservation of those bytes is gone (R349). -/
def breakReservations (m : Map CoreRt) (pa n : Nat) : Map CoreRt :=
  m.map (fun (e : Nat × CoreRt) =>
    (e.1, { e.2 with held := e.2.held.filter (fun (r : Nat × Nat × Nat) => !overlaps r.2 (pa, n)) }))

/-- How many of the units of kind `k` are in use: as many as the part record enables; the lowest-numbered are (R404; which ones they are is a DESIGN
CHOICE: assumption 61). -/
def State.enabled (s : State) (k asBuilt : Nat) : Nat := s.dawn.units[k]?.getD asBuilt

/-! ### Faults (R371, R372) -/

/-- Unit 0 of a fault record (R371). -/
def FaultRec.unit0 (r : FaultRec) : Nat :=
  r.code % 2 ^ 16 + r.src % 2 ^ 4 * 2 ^ 16 + (if r.prec then 2 ^ 20 else 0) + (if r.nest then 2 ^ 21 else 0) + r.node % 2 ^ 24 * 2 ^ 24
    + r.engine % 2 ^ 8 * 2 ^ 48 + r.pc % 2 ^ 8 * 2 ^ 56

/-- A fault record as it travels on the fault lane (R371). -/
def FaultRec.packed (r : FaultRec) : Rec :=
  { hdr := mkHdr tFault 0 2 0 false (r.code % 256), units := [BitVec.ofNat 64 r.unit0, r.arg] }

/-- What a record on the fault lane says (R371). -/
def FaultRec.ofRec (x : Rec) : FaultRec :=
  let u := (x.units.headD 0).toNat
  { code := bitsOf u 0 16, src := bitsOf u 16 4, prec := bitOf u 20, nest := bitOf u 21, node := bitsOf u 24 24, engine := bitsOf u 48 8,
    pc := bitsOf u 56 8, arg := x.units[1]?.getD 0 }

/-- The src field of a fault record (R371), by node kind. -/
def srcOfKind (kind : Nat) : Nat := if kind ≤ 5 then kind else 0

/-- Drops what a task holds open on its outputs: it is never delivered (R34). -/
def dropOpen (s : State) (t : Nat) : List (Option Nat) → State
  | [] => s
  | some c :: r => dropOpen (s.modChan t c (fun ch => { ch with opn := none })) t r
  | none :: r => dropOpen s t r

/-- Node `n` enters HALTED (R372). -/
def haltNode (s : State) (t n : Nat) : State :=
  let k := key2 t n
  let s := match s.tasks.get? k with
    | some tk => dropOpen { s with tasks := s.tasks.set k { tk with st := .halted } } t tk.outCh.toList
    | none => s
  { s with
    opers := s.opers.modify k (fun x => { x with halted := true })
    gens := s.gens.modify k (fun x => { x with halted := true })
    ctrls := s.ctrls.modify k (fun x => { x with halted := true })
    mats := s.mats.modify k (fun x => { x with halted := true })
    gates := s.gates.modify k (fun x => { x with halted := true }) }

/-- The faults that records on the fault lane of a tenure report (R371). -/
def Tenure.laneFaults (tn : Tenure) : List FaultRec := tn.faultLane.map FaultRec.ofRec

/-- A fault record leaves on the tenure's fault lane, and the tenure's waves stop (R371, R372). -/
def reportFault (s : State) (t : Nat) (r : FaultRec) : State :=
  s.modTenure t (fun tn => { tn with faultLane := tn.faultLane ++ [r.packed], wave := none })

/-- An imprecise fault of node `n`: the node halts and reports (R370, R372). -/
def nodeFault (s : State) (t n code : Nat) (arg : W64) : State :=
  let kind := match s.tenures.get? t with
    | some tn => tn.kindOf n
    | none => 0
  let pc := match s.tasks.get? (key2 t n) with
    | some tk => (tk.pc % 256).toNat
    | none => 0
  reportFault (haltNode s t n) t
    { code := code, src := srcOfKind kind, prec := false, nest := false, node := n, engine := 0xFF, pc := pc, arg := arg }

/-- A fault of a source that is no node: a lighter, a unit, a switch, the lockkeeper, Gykan (R371). Nothing halts here. -/
def engineFault (s : State) (t code src node engine : Nat) (arg : W64) : State :=
  reportFault s t { code := code, src := src, prec := false, nest := false, node := node, engine := engine, pc := 0, arg := arg }

/-! ### Traps (R375, R376, R378) -/

/-- Taking a precise fault (R375): the node halts and reports when its handler is not enabled, when a handler runs already, or
for TASK_HALT; otherwise `tpc`, `tcause`, `targ`, `tsrc` and `tstat` are written and the PC goes to the handler's entry. -/
def takeTrap (s : State) (t n : Nat) (tk : TaskRt) (code : Nat) (arg : W64) (src : Int) : State :=
  if !(bitOf tk.tvec.toNat 15) || tk.tstat == 1 || code == cTaskHalt then
    reportFault (haltNode { s with tasks := s.tasks.set (key2 t n) tk } t n) t
      { code := code, src := 0, prec := true, nest := tk.tstat == 1, node := n, engine := 0xFF,
        pc := (tk.pc % 256).toNat, arg := arg }
  else
    { s with tasks := s.tasks.set (key2 t n) {
      tk with tpc := BitVec.ofInt 16 tk.pc, tcause := BitVec.ofNat 16 code, targ := arg, tsrc := BitVec.ofInt 16 src,
                tstat := 1, st := .running, pc := ((tk.tvec.toNat % 4096 : Nat) : Int) } }

/-- Returning from a trap (R378): the PC is `tpc`, and `tstat` is cleared. -/
def returnFromTrap (tk : TaskRt) : TaskRt := { tk with pc := (tk.tpc.toNat : Int), tstat := 0 }

/-! ### Running a task instruction (R133, R153) -/

/-- What a task instruction works on: the state, its node, and where the PC goes when it is done. -/
structure TCtx where
  s : State
  t : Nat
  n : Nat
  tk : TaskRt
  next : Int

/-- Why a task instruction does not complete now. -/
inductive Stop where
  /-- It waits; nothing of it has been performed (R153). `counted`: the node counts as blocked. -/
  | wait (counted : Bool)
  /-- It waits, and what it has asked for stands in the context. -/
  | hold (counted : Bool) (c : TCtx)
  /-- It waits, uncounted; nothing of it has been performed but what it asks for (R267). -/
  | ask (f : State → State)
  /-- A precise fault: nothing of it has been performed (R133). -/
  | trap (code : Nat) (arg : W64)
  /-- A precise fault that leaves one thing changed in the state it found: a record of the wrong format is discarded (R41, R182), the
  answer to a page request is used up (R267). -/
  | trapAfter (f : State → State) (code : Nat) (arg : W64)
  /-- The watch flag of an atomic (R380). -/
  | watch (f : WFlag)

/-- A task instruction as it runs: it changes its context or stops. -/
abbrev TM := StateT TCtx (Except Stop)

/-- The task node. -/
def getTk : TM TaskRt := fun c => .ok (c.tk, c)

/-- The task node changed. -/
def modTk (f : TaskRt → TaskRt) : TM Unit := fun c => .ok ((), { c with tk := f c.tk })

/-- The state changed. -/
def modS (f : State → State) : TM Unit := fun c => .ok ((), { c with s := f c.s })

/-- The state changed, given the tenure and the node. -/
def modST (f : State → Nat → Nat → State) : TM Unit := fun c => .ok ((), { c with s := f c.s c.t c.n })

/-- The node's identity. -/
def getN : TM Nat := fun c => .ok (c.n, c)

/-- The tenure's number. -/
def getT : TM Nat := fun c => .ok (c.t, c)

/-- The state. -/
def getS : TM State := fun c => .ok (c.s, c)

/-- Stops the instruction. -/
def stop {α : Type} (x : Stop) : TM α := fun _ => .error x

/-- Raises a precise fault. -/
def raise {α : Type} (code : Nat) (arg : W64) : TM α := stop (.trap code arg)

/-- Raises a fault when `b` holds. -/
def raiseIf (b : Bool) (code : Nat) (arg : W64) : TM Unit := if b then raise code arg else pure ()

/-- Waits, uncounted, unless `b` holds. -/
def stallUnless (b : Bool) : TM Unit := if b then pure () else stop (.wait false)

/-- Waits as BLOCKED unless `b` holds. -/
def blockUnless (b : Bool) : TM Unit := if b then pure () else stop (.wait true)

/-- Waits with what has been asked for so far. -/
def holdHere {α : Type} (counted : Bool) : TM α := fun c => .error (.hold counted c)

/-- The tenure of the node. -/
def getTn : TM Tenure := fun c =>
  match c.s.tenures.get? c.t with
  | some tn => .ok (tn, c)
  | none => .error (.wait false)

/-- The PC goes to `x`. -/
def setNext (x : Int) : TM Unit := fun c => .ok ((), { c with next := x })

end Sys2Proof.Machine
end

