-- ==== Sys2Proof/Machine/Window.lean ====
section
/-! DEFINITION. Accumulate windows: the window table, the word a target address names, and the words and flag bytes at their
homes (R291, R292, R293). -/

namespace Sys2Proof.Machine

/-- An 8-byte value of the argument block. -/
def Tenure.argWord (tn : Tenure) (off : Nat) : Nat := leNat ((tn.args.drop off).take 8)

/-- The base of a window: in its descriptor, or in the argument block (R291). -/
def Tenure.wbaseOf (tn : Tenure) (w : WinE) : Nat := if w.warg then tn.argWord (w.wbase % 65536) else w.wbase

/-- The base of a window's read-out. -/
def Tenure.robaseOf (tn : Tenure) (w : WinE) : Nat := if w.rarg then tn.argWord (w.robase % 65536) else w.robase

/-- The entry of `wid` in the window table of pound `pound`: every global-home window, and the local windows of that pound
(R292). -/
def Tenure.winAt? (tn : Tenure) (pound wid : Nat) : Option WinE :=
  tn.g.wins.find? (fun w => w.wid == wid && (!w.isLocal || w.pound == pound))

/-- The entry of `wid` in the current pound's window table. -/
def Tenure.win? (tn : Tenure) (wid : Nat) : Option WinE := tn.winAt? tn.lk.lpound.toNat wid

/-- The address of word `i` of a window (R291). -/
def winWordAddr (wbase i : Nat) : Nat := wbase + 256 * (i / 15) + 16 * (i % 15)

/-- The address of the flag byte of word `i`. -/
def winFlagAddr (wbase i : Nat) : Nat := wbase + 256 * (i / 15) + 240 + i % 15

/-- The word index at a 16-byte aligned address, by R293; none where the address is not a word of the window. -/
def winIndex? (wbase count va : Nat) : Option Nat :=
  if va < wbase then none
  else
    let o := va - wbase
    if 240 ≤ o % 256 then none
    else
      let i := 15 * (o / 256) + o % 256 / 16
      if count ≤ i then none else some i

/-- The slice node that holds a local window: the node of kind 5 whose word carries op 0x60 and the wid (R291). -/
def Tenure.winNode? (tn : Tenure) (w : WinE) : Option Nat :=
  (tn.g.nodes.zipIdx.find? (fun (e, n) => e.kind == 5 && e.pound == w.pound &&
    (match (tn.g.cfg.get? n).bind List.head? with
      | some c => bitsOf c 120 8 == 0x60 && bitsOf c 114 6 == w.wid
      | none => false))).map Prod.snd

/-- The flags that a flag byte holds: its bits [7:6] are Reserved, and are 0 (R9, R122). -/
def flagsOf (b : Byte) : BitVec 8 := b &&& 0x3F

/-- An aw128 word in memory at physical address `pa` of its word, with its flag byte in the same block. -/
def memAw (m : Memory) (pa : Nat) : Aw :=
  (BitVec.ofNat 128 (leNat (m.read pa 16)), flagsOf (m.get (pa / 256 * 256 + 240 + pa % 256 / 16)))

/-- Memory with an aw128 word and its flag byte written. -/
def memPutAw (m : Memory) (pa : Nat) (x : Aw) : Memory :=
  (m.write pa (leBytes x.1.toNat 16)).put (pa / 256 * 256 + 240 + pa % 256 / 16) x.2

/-- The partial `x` combined into word `i` of the slice copy of a local window. -/
def WinRt.combine (w : WinRt) (i : Nat) (x : Aw) : WinRt :=
  let y := Aw.combine (w.words.getD i 0, w.flags.getD i 0) x
  { words := w.words.set i y.1, flags := w.flags.set i y.2 }

/-- A partial performed at its home (R122, R293): at physical address `pa` for a global-home window, in the slice copy for a local
one. -/
def accPerform (s : State) (t wid va : Nat) (pa : Option Nat) (x : Aw) : State :=
  match pa with
  | some a =>
    { s with devMem := memPutAw s.devMem a (Aw.combine (memAw s.devMem a) x), cores := breakReservations s.cores (a / 256 * 256) 256 }
  | none =>
    match s.tenures.get? t with
    | none => s
    | some tn =>
      match tn.win? wid with
      | none => s
      | some w =>
        match tn.winNode? w, winIndex? (tn.wbaseOf w) w.count va with
        | some n, some i => { s with wins := s.wins.modify (key2 t n) (fun r => r.combine i x) }
        | _, _ => s

/-- A byte of a word, or its flag byte as byte 16, in the slice copy. -/
def WinRt.byte (w : WinRt) (i j : Nat) : Byte :=
  if j = 16 then w.flags.getD i 0 else BitVec.ofNat 8 ((w.words.getD i 0).toNat / 2 ^ (8 * j))

/-- A byte of a word, or its flag byte, written in the slice copy. -/
def WinRt.putByte (w : WinRt) (i j : Nat) (b : Byte) : WinRt :=
  if j = 16 then { w with flags := w.flags.set i (flagsOf b) }
  else
    let x := (w.words.getD i 0).toNat
    { w with words := w.words.set i (BitVec.ofNat 128 (x - bitsOf x (8 * j) 8 * 2 ^ (8 * j) + b.toNat * 2 ^ (8 * j))) }

/-- The byte of a local window of the current pound that an address of tenure `t` names while the slice holds the window: the slice node's
key, the word, and its byte (R291, R292, R345). -/
def localByte? (s : State) (t va : Nat) : Option (Nat × Nat × Nat) :=
  match s.tenures.get? t with
  | none => none
  | some tn => tn.g.wins.findSome? (fun w =>
      let base := tn.wbaseOf w
      if !w.isLocal || w.pound != tn.lk.lpound.toNat || !bitOf va 56 || decide (va < base) then none
      else
        match tn.winNode? w with
        | none => none
        | some n =>
          let r := (va - base) % 256
          let i := 15 * ((va - base) / 256) + (if r < 240 then r / 16 else r - 240)
          if (s.wins.get? (key2 t n)).isNone || r == 255 || decide (w.count ≤ i) then none
          else some (key2 t n, i, if r < 240 then r % 16 else 16))

/-- The bytes that memory holds at an address of tenure `t`, those of a live local window as its slice holds them (R345). -/
def viewBytes (s : State) (t va : Nat) : List Byte → List Byte
  | [] => []
  | b :: bs =>
    (match localByte? s t va with
      | some (k, i, j) => (s.wins.get? k).elim b (fun w => w.byte i j)
      | none => b) :: viewBytes s t (va + 1) bs

/-- Bytes written at an address of tenure `t`, where they belong to a live local window (R345). -/
def putView (s : State) (t va : Nat) : List Byte → State
  | [] => s
  | b :: bs =>
    putView (match localByte? s t va with
      | some (k, i, j) => { s with wins := s.wins.modify k (fun w => w.putByte i j b) }
      | none => s) t (va + 1) bs

/-- The Lost flag of a word (R122, R301, R323). -/
def awLost : Aw := (0, 0x20)

end Sys2Proof.Machine
end

