-- ==== Sys2Proof/Machine/Links.lean ====
section
/-! DEFINITION. Messages and the die links they cross (R78, R319, R323, R392 to R395): sending a message, the packets of a die pair,
and the events FLIT_RECEIVE and RETRAIN_COMPLETE. -/

namespace Sys2Proof.Machine

/-- Whether a message counts at pound scope; the others count at graph scope alone (R319). -/
def MsgKind.poundScope : MsgKind → Bool
  | .gateArr _ _ _ => true
  | .contrib _ _ _ _ _ _ => true
  | .record _ => true
  | _ => false

/-- Whether a message is a reply (R78). -/
def MsgKind.isReply : MsgKind → Bool
  | .loadReply _ _ _ _ _ _ _ _ => true
  | .genReply _ _ _ _ => true
  | .atomicReply _ _ _ _ _ _ _ => true
  | .accAck => true
  | .refusal _ _ _ _ _ => true
  | _ => false

/-- The counting point of the node or lighter that a message serves. -/
def Msg.near (x : Msg) : Nat := x.lighter.elim x.node lighterPoint

/-- The counting point that injects a message: a reply's is the home. -/
def Msg.sender (x : Msg) : Nat :=
  match x.kind with
  | .record c => chanPoint x.node c
  | _ => if x.kind.isReply then unitPoint x.home else x.near

/-- The counting point that consumes a message: a reply's is the node or lighter that it answers, an arrival's its gate. -/
def Msg.receiver (x : Msg) : Nat :=
  match x.kind with
  | .gateArr g _ _ => g
  | .contrib tree k _ _ _ _ => combPoint tree k
  | _ => if x.kind.isReply then x.near else unitPoint x.home

/-- A message counted as injected, at a counting point. -/
def countInj (s : State) (t pt : Nat) (k : MsgKind) : State :=
  s.modTenure t (fun tn => if k.poundScope then tn.injP pt 1 else tn.injG pt 1)

/-- A message counted as consumed, at a counting point. -/
def countCon (s : State) (t pt : Nat) (k : MsgKind) : State :=
  s.modTenure t (fun tn => if k.poundScope then tn.conP pt 1 else tn.conG pt 1)

/-- A message in flight. -/
def State.msg? (s : State) (m : Nat) : Option Msg := s.net.find? (fun x => x.id == m)

/-- The net without message `m`. -/
def State.dropMsg (s : State) (m : Nat) : State := { s with net := s.net.filter (fun x => x.id != m) }

/-- The key of a direction of a die pair. -/
def linkKey (src dst : Nat) : Nat := src * 4 + dst

/-- One direction of a die pair. -/
def State.linkOf (s : State) (src dst : Nat) : LinkRt := s.links.getD (linkKey src dst) LinkRt.reset

/-- Whether a module sends. -/
def ModRt.sends (m : ModRt) : Bool := m.st == .full || m.st == .half

/-- The module a new packet is given to: the sending one with the fewest unacknowledged flits, the lowest on a tie (R394). -/
def pickModule : List ModRt → Nat → Option (Nat × Nat) → Option (Nat × Nat)
  | [], _, best => best
  | m :: ms, k, best =>
    let best := if m.sends then
      match best with
      | some (_, n) => if m.replay.length < n then some (k, m.replay.length) else best
      | none => some (k, m.replay.length)
      else best
    pickModule ms (k + 1) best

/-- Bits [543:0] of a flit: payload, fseq, ack and nak (R392). -/
def Flit.body (f : Flit) : Nat :=
  f.payload.toNat + f.fseq.toNat * 2 ^ 512 + f.ack.toNat * 2 ^ 528 + (if f.nak then 2 ^ 538 else 0)

/-- The 576 bits of a flit, its CRC last (R392). -/
def Flit.bits (f : Flit) : Nat := f.body + (crc32c 544 f.body).toNat * 2 ^ 544

/-- Whether the CRC of a flit holds at the receiver, where the wire has changed the bits of `noise` (R393). -/
def Flit.crcHolds (f : Flit) (noise : BitVec 576) : Bool :=
  let got := f.bits ^^^ noise.toNat
  crc32c 544 (got % 2 ^ 544) == BitVec.ofNat 32 (got / 2 ^ 544)

/-- The fseq that the receiver reads. -/
def Flit.seqRead (f : Flit) (noise : BitVec 576) : BitVec 10 := BitVec.ofNat 10 ((f.bits ^^^ noise.toNat) / 2 ^ 512)

/-- The flits of a packet put on a module's wire and into its replay buffer, with the answer that this end has for the reverse direction
(R392, R393). -/
def sendFlits (p : Packet) (ack : BitVec 10) (nak : Bool) : Nat → ModRt → ModRt
  | 0, m => m
  | n + 1, m =>
    let part := p.flits - (n + 1)
    let f : Flit := { fseq := m.next, ack := ack, nak := nak, payload := Config.packetPart p.pseq part, pkt := p, part := part }
    sendFlits p ack nak n { m with next := m.next + 1, replay := m.replay ++ [f], wire := m.wire ++ [f] }

/-- What a written-off message takes with it (R301, R323): the record of a channel, and the Lost flag of the word an accumulate, a
refusal or a flush targets. -/
def lossEffect (s : State) (x : Msg) : State :=
  match x.kind with
  | .record c =>
    let earlier := (s.net.filter (fun y => y.t == x.t && y.kind == .record c && y.cross.isSome && decide (y.id < x.id))).length
    let all := (s.net.filter (fun y => y.t == x.t && y.kind == .record c && y.cross.isSome)).length
    s.modChan x.t c (fun ch => { ch with transit := ch.transit.eraseIdx (ch.transit.length - all + earlier) })
  | .acc wid va pa _ _ => accPerform s x.t wid va pa awLost
  | .refusal wid va pa _ _ => accPerform s x.t wid va pa awLost
  | .flush wid va pa _ _ => accPerform s x.t wid va pa awLost
  | _ => s

/-- Whether a tenure's traffic crosses a die pair: it has parts on both dies, or a message on its way between them (R323). -/
def crossesPair (s : State) (a b t : Nat) (tn : Tenure) : Bool :=
  let dies := match tn.place with
    | some p => p.sites.map (fun (e : Nat × Nat) => e.2 / 131072)
    | none => []
  (dies.contains a && dies.contains b) ||
    s.net.any (fun x => x.t == t && (x.cross == some (a, b) || x.cross == some (b, a)))

/-- Whether no module of a die pair is live, so that nothing crosses it (R395, R396). -/
def pairLost (s : State) (a b : Nat) : Bool := a != b && (s.linkOf a b).mods.all (fun m => m.st == .retired)

/-- Whether a tenure's traffic crosses a die pair without a live module (R396). -/
def spansLost (s : State) (t : Nat) (tn : Tenure) : Bool :=
  [(0, 1), (0, 2), (0, 3), (1, 2), (1, 3), (2, 3)].any (fun (p : Nat × Nat) => pairLost s p.1 p.2 && crossesPair s p.1 p.2 t tn)

/-- Every tenure whose traffic crosses a die pair is suspect (R323). -/
def suspectPair (s : State) (a b : Nat) : State :=
  { s with tenures := List.map (fun (e : Nat × Tenure) =>
      (e.1, if crossesPair s a b e.1 e.2 then e.2.doubt (linkPoint a b) else e.2)) s.tenures }

/-- An access of a tenure that has no message of its own is lost on a die pair without a live module: a message injected and written off
(R323, R396, assumption 66). -/
def loseAccess (s : State) (t a b : Nat) : State :=
  let s1 := { s with freeCtr := s.freeCtr + 1 }.modTenure t (fun tn => tn.injG (linkPoint a b) 1)
  if Config.headerRead s.freeCtr then s1.modTenure t (fun tn => tn.conL (linkPoint a b))
  else (suspectPair s1 a b).modTenure t (fun tn => tn.doubt (linkPoint a b))

/-- A packet that cannot be replayed is written off (R323). Where its header can be read, W and C of its tenure rise by 1; where it cannot,
S is set for every tenure whose traffic crosses the pair. Which of the two it is, is free (assumption 66). The message is gone. -/
def writeOff (src dst : Nat) (s : State) (p : Packet) : State :=
  match s.msg? p.msg with
  | none => s
  | some x =>
    if Config.headerRead s.freeCtr then
      let s := lossEffect { s with freeCtr := s.freeCtr + 1 } x
      (s.dropMsg x.id).modTenure x.t (fun tn => tn.conL (linkPoint src dst))
    else
      let c := suspectPair { s with freeCtr := s.freeCtr + 1 } src dst
      (match x.kind with
        | .record _ => lossEffect c x
        | _ => c).dropMsg x.id

/-- Packets written off, oldest first. -/
def writeOffAll (src dst : Nat) : List Packet → State → State
  | [], s => s
  | p :: ps, s => writeOffAll src dst ps (writeOff src dst s p)

/-- Waiting packets given to modules in order, as long as there is room (R394). -/
def pumpQueue (src dst : Nat) : List Packet → State → State
  | [], s => s
  | p :: ps, s =>
    let l := s.linkOf src dst
    match pickModule l.mods 0 none with
    | some (k, n) =>
      if n + p.flits ≤ 256 then
        let back := (s.linkOf dst src).mods[k]?.getD ModRt.reset
        let l := { l with mods := l.mods.modify k (sendFlits p back.expect back.nak p.flits) }
        pumpQueue src dst ps { s with links := s.links.set (linkKey src dst) l }
      else { s with links := s.links.set (linkKey src dst) { l with queue := p :: ps } }
    | none => { s with links := s.links.set (linkKey src dst) { l with queue := p :: ps } }

/-- Everything that waits at a sending endpoint, sent as far as there is room. Where no module of the pair is live, it is written off,
with what waits at the receiver behind a packet that will never come (R323, R395, assumption 66). -/
def pumpLink (s : State) (src dst : Nat) : State :=
  let l := s.linkOf src dst
  if l.mods.all (fun m => m.st == .retired) then
    writeOffAll src dst (l.held ++ l.queue) { s with links := s.links.set (linkKey src dst) { l with held := [], queue := [] } }
  else pumpQueue src dst l.queue { s with links := s.links.set (linkKey src dst) { l with queue := [] } }

/-- The bytes of what a message carries, where they can be more than one flit holds. -/
def State.msgBytes (s : State) (t : Nat) : MsgKind → Nat
  | .contrib _ _ _ _ vals _ => 8 * vals.length + 8
  | .record c => ((s.chan? t c).bind (fun ch => ch.transit.getLast?)).elim 8 (fun r => 8 * r.units.length + 8)
  | _ => 8

/-- The flits of a message: one for each 64 bytes of what it carries. -/
def State.flitsOf (s : State) (t : Nat) (k : MsgKind) : Nat := ceilDiv (s.msgBytes t k) 64

/-- A message leaves: it is counted as injected, takes the tenure's generation tag, and where it crosses dies a packet of it
takes the next pair sequence number (R78, R319, R394). -/
def sendMsg (s : State) (t node : Nat) (lighter : Option Nat) (srcDie dstDie home : Nat) (k : MsgKind) : State :=
  let gtag := match s.tenures.get? t with
    | some tn => tn.gtag
    | none => 0
  let id := s.nextMsg
  let cross := if srcDie = dstDie then none else some (srcDie, dstDie)
  let x : Msg := { id := id, t := t, node := node, lighter := lighter, gtag := gtag, sent := s.nowOn dstDie, home := home, cross := cross,
                   kind := k }
  let s := countInj { s with nextMsg := id + 1, net := s.net ++ [x] } t x.sender k
  if srcDie = dstDie then s
  else
    let l := s.linkOf srcDie dstDie
    let p : Packet := { pseq := l.nextSeq, t := t, msg := id, flits := s.flitsOf t k }
    let l := { l with nextSeq := (l.nextSeq + 1) % 4294967296, queue := l.queue ++ [p] }
    pumpLink { s with links := s.links.set (linkKey srcDie dstDie) l } srcDie dstDie

/-- A packet handed to the fabric: its message has crossed (R394). A crossing record's message has done its work. -/
def crossed (s : State) (m : Nat) : State :=
  match s.msg? m with
  | some x =>
    match x.kind with
    | .record _ => s.dropMsg m
    | _ => { s with net := s.net.map (fun y => if y.id == m then { y with cross := none } else y) }
  | none => s

/-- Packets that stand next in pair-sequence order are handed on (R394). -/
def handOn : Nat → LinkRt → State → LinkRt × State
  | 0, l, s => (l, s)
  | n + 1, l, s =>
    match l.held.find? (fun p => p.pseq == l.expect) with
    | some p =>
      handOn n { l with expect := (l.expect + 1) % 4294967296, held := l.held.filter (fun q => q.pseq != p.pseq) } (crossed s p.msg)
    | none => (l, s)

/-- Whether a pair sequence number lies before another in the order modulo 2^32 (R394). -/
def seqBefore (a b : Nat) : Bool :=
  let d := (b + 4294967296 - a % 4294967296) % 4294967296
  decide (0 < d) && decide (d ≤ 2147483648)

/-- A whole packet has arrived; one that was handed on or is held already is discarded (R394). -/
def packetArrives (l : LinkRt) (s : State) (p : Packet) : LinkRt × State :=
  if seqBefore p.pseq l.expect || l.held.any (fun q => q.pseq == p.pseq) then (l, s)
  else
    let l := { l with held := l.held ++ [p] }
    handOn l.held.length l s

/-- The packets of a list of flits, each once, oldest first. -/
def packetsOf : List Flit → List Packet
  | [] => []
  | f :: fs => f.pkt :: (packetsOf fs).filter (fun p => p.pseq != f.pkt.pseq)

/-- The device OS logs a change of a module's state (R395). -/
def logModule (s : State) (src dst k : Nat) (st : ModState) : State := { s with osEvents := s.osEvents ++ [.module src dst k st] }

/-- One direction of a module retired: its unacknowledged packets wait to be sent again, under their own numbers (R395). -/
def retireWay (s : State) (src dst k : Nat) : State :=
  let l := s.linkOf src dst
  match l.mods[k]? with
  | none => s
  | some m =>
    { s with links := s.links.set (linkKey src dst) { l with
        mods := l.mods.set k { m with st := .retired, replay := [], wire := [] }, queue := packetsOf m.replay ++ l.queue } }

/-- What waits on a pair, sent in both directions. -/
def pumpPair (s : State) (a b : Nat) : State := pumpLink (pumpLink s a b) b a

/-- A module is retired, in both directions (R395). -/
def retireModule (s : State) (src dst k : Nat) : State :=
  pumpPair (logModule (retireWay (retireWay s src dst k) dst src k) src dst k .retired) src dst

/-- One direction of a module changed. -/
def modWay (s : State) (src dst k : Nat) (f : ModRt → ModRt) : State :=
  let l := s.linkOf src dst
  { s with links := s.links.set (linkKey src dst) { l with mods := l.mods.modify k f } }

/-- A module changed, in both directions. -/
def modModule (s : State) (src dst k : Nat) (f : ModRt → ModRt) : State := modWay (modWay s src dst k f) dst src k f

/-- A CRC failure counted over the last 2^20 received flits (R395): at the eighth the module retrains, or is retired at half
width. -/
def crcFailure (s : State) (src dst k : Nat) : State :=
  match (s.linkOf src dst).mods[k]? with
  | none => s
  | some m =>
    let fails := (m.fails ++ [m.received]).filter (fun x => decide (m.received < x + 1048576))
    if fails.length < 8 then modWay s src dst k (fun m => { m with fails := fails })
    else if m.st == .half then retireModule s src dst k
    else logModule (modModule s src dst k (fun m => { m with st := .retraining, fails := [] })) src dst k .retraining

/-- Acknowledged flits leave the replay buffer (R393): those before `expect`, which names one of them or the next flit to be sent. -/
def ackFlits (expect : BitVec 10) (fs : List Flit) : List Flit :=
  match fs with
  | [] => []
  | f :: _ =>
    let n := (expect - f.fseq).toNat
    if n ≤ fs.length then fs.drop n else fs

/-- The answer nak = 1: the sender replays every buffered flit (R393). -/
def ModRt.replayed (m : ModRt) : ModRt := { m with nak := true, wire := m.wire ++ m.replay }

/-- The expected flit accepted and acknowledged (R393). -/
def ModRt.accepted (m : ModRt) : ModRt :=
  { m with expect := m.expect + 1, nak := false, replay := ackFlits (m.expect + 1) m.replay }

/-- FLIT_RECEIVE: the receiver of a module takes the next flit from the wire, with the bits of `noise` changed (R393 to R395). Its answer
reaches the sender at once, so the ack of a flit, which is the answer as it stood when the flit was sent, frees no flit that is not free already
(assumption 6). -/
def flitReceive (src dst k : Nat) (noise : BitVec 576) (s : State) : State :=
  match (s.linkOf src dst).mods[k]? with
  | none => s
  | some m =>
    match m.wire with
    | [] => s
    | f :: rest =>
      if !m.sends then s
      else
        let s := modWay s src dst k (fun m => { m with wire := rest, received := m.received + 1 })
        if !f.crcHolds noise then pumpLink (crcFailure (modWay s src dst k ModRt.replayed) src dst k) src dst
        else if f.seqRead noise = m.expect then
          let s := modWay s src dst k ModRt.accepted
          if f.part + 1 = f.pkt.flits then
            let (l, s) := packetArrives (s.linkOf src dst) s f.pkt
            pumpLink { s with links := s.links.set (linkKey src dst) l } src dst
          else pumpLink s src dst
        else if (m.expect - f.seqRead noise).toNat ≤ 512 then pumpLink s src dst
        else pumpLink (modWay s src dst k ModRt.replayed) src dst

/-- RETRAIN_COMPLETE: a retraining module runs at 32 lanes and replays, or is retired (R395). -/
def retrainComplete (src dst k : Nat) (ok : Bool) (s : State) : State :=
  match (s.linkOf src dst).mods[k]? with
  | none => s
  | some m =>
    if m.st != .retraining then s
    else if ok then
      let s := modModule s src dst k (fun m => { m with st := .half, wasHalf := true, nak := false, wire := m.replay })
      pumpPair (logModule s src dst k .half) src dst
    else retireModule s src dst k

/-- FLIT_RECEIVE (R393). -/
def execFlitReceive (s : State) : Host.Outcome State Fault Refusal :=
  match s.subj with
  | .flit src dst k noise => .next (flitReceive src dst k noise s)
  | _ => .next s

/-- RETRAIN_COMPLETE (R395). -/
def execRetrainComplete (s : State) : Host.Outcome State Fault Refusal :=
  match s.subj with
  | .retrain src dst k ok => .next (retrainComplete src dst k ok s)
  | _ => .next s

end Sys2Proof.Machine
end

