-- ==== Sys2Proof/Machine/Chan.lean ====
section
/-! DEFINITION. Channels (R33 to R37, R41, R42): free slots, sending a record, sticky residence, popping, and the format table's check
of an arriving record. -/

namespace Sys2Proof.Machine

/-- Records a channel holds, with those in transit and the slot an open record reserves (R35). -/
def ChanRt.held (c : ChanRt) : Nat := c.buf.length + c.transit.length + (if c.opn.isSome then 1 else 0)

/-- Free record slots (R35). -/
def ChanRt.free (c : ChanRt) : Nat := c.e.depth + 1 - c.held

/-- Whether the input is resident (R206). -/
def ChanRt.resident (c : ChanRt) : Bool := decide (1 < c.e.sticky)

/-- Whether record `r` directly behind a sticky record ends its residence (R37). -/
def endsResidence (level : Nat) (r : Rec) : Bool :=
  rType r == tBow || rType r == tStern || (rType r == tDimEnd && decide (level ≤ hCarg r.hdr))

/-- Whether the residence of the head record is over: it is a Data record of a sticky port and a bow, a stern or a high enough
dim_end stands behind it (R37, R206). -/
def ChanRt.over (c : ChanRt) : Bool :=
  match c.buf with
  | h :: r :: _ => c.resident && rType h == tData && endsResidence c.e.level r
  | _ => false

/-- The head record popped. -/
def ChanRt.pop (c : ChanRt) : ChanRt := { c with buf := c.buf.tail, used := 0, taken := false }

/-- The counting point at the consumer's end of a channel. -/
def State.chanEnd (s : State) (t c : Nat) : Nat := chanPoint ((s.chan? t c).elim extEnd (fun ch => ch.e.dst)) c

/-- The head record of a channel popped and counted as consumed (R35). -/
def popOne (s : State) (t c : Nat) : State :=
  (s.modChan t c ChanRt.pop).modTenure t (fun tn => tn.conP (s.chanEnd t c) 1)

/-- The residence of record `r` on input `port` has ended while a nest runs (R37): the nest keeps the record of `i1` that its run uses. -/
def Nest.lose (x : Nest) (port : Nat) (r : Rec) : Nest :=
  if port = 0 then { x with ended := true } else if x.asked ≠ 0 ∧ x.held = none then { x with held := some r } else x

/-- The consumer of channel `c` has lost its head `r` because its residence is over (R37): a repeat has sent no copy of the record behind it (R223), and
a matrix node fires no more with the row it took from it (R243), and uses up no other record for a drain command that it carries out (R248). -/
def headLost (s : State) (t c : Nat) (r : Rec) : State :=
  match s.chan? t c with
  | some ch =>
    { s with opers := s.opers.modify (key2 t ch.e.dst) (fun o => { o with copies := 0 })
             mats := s.mats.modify (key2 t ch.e.dst) (fun m => if ch.e.iport = 0 then
               { m with rows := [], drain := m.drain.map (fun d => { d with gone := true }) } else m)
             gens := s.gens.modify (key2 t ch.e.dst) (fun g => { g with nest := g.nest.map (fun x => x.lose ch.e.iport r) }) }
  | none => s

/-- A sticky record whose residence is over is popped (R37). -/
def settleHead (s : State) (t c : Nat) : State :=
  match s.chan? t c with
  | some ch =>
    match ch.buf with
    | h :: _ => if ch.over then headLost (popOne s t c) t c h else s
    | [] => s
  | none => s

/-- The head record of a channel popped and counted as consumed; the record that becomes the head is popped as well where what stands
behind it has ended its residence already (R35, R37). -/
def popHead (s : State) (t c : Nat) : State := settleHead (popOne s t c) t c

/-- Whether the head record has no use left once it has served `used` firings (R37). -/
def ChanRt.spent (c : ChanRt) (used : Nat) : Bool :=
  match c.buf with
  | h :: _ => c.over || !c.resident || rType h != tData || (c.e.sticky != 0xFFFF && decide (c.e.sticky ≤ used))
  | [] => false

/-- A firing of the head record (R37): it is popped, unless it is a Data record of a sticky port with firings left whose residence is
not over. -/
def useHead (s : State) (t c : Nat) : State :=
  match s.chan? t c with
  | none => s
  | some ch =>
    if ch.buf.isEmpty then s
    else if ch.spent (ch.used + 1) then popHead s t c
    else s.modChan t c (fun x => { x with used := x.used + 1 })

/-- A task's first access to the head record in an activation uses one of its firings; a later one in the same activation uses none
(R176). -/
def ChanRt.access (c : ChanRt) : ChanRt := if c.taken then c else { c with used := c.used + 1, taken := true }

/-- A task releases the head record of a channel: it is popped, unless firings of it remain (R176). -/
def releaseHead (s : State) (t c : Nat) : State :=
  match s.chan? t c with
  | none => s
  | some ch => if ch.spent ch.used then popHead s t c else s

/-- The die at an end of a channel; an external end stands on the die of the other end. -/
def chanDies (tn : Tenure) (e : ChanE) : Nat × Nat :=
  let a := if e.src = extEnd then tn.dieOf e.dst else tn.dieOf e.src
  let b := if e.dst = extEnd then a else tn.dieOf e.dst
  (a, b)

/-- A closed record leaves on a channel: it is counted as injected and in transit, and crosses the dies between its ends (R34,
R319, R394). -/
def sendRec (s : State) (t c : Nat) (r : Rec) : State :=
  match s.chan? t c, s.tenures.get? t with
  | some ch, some tn =>
    let s := s.modChan t c (fun x => { x with transit := x.transit ++ [r] })
    let (a, b) := chanDies tn ch.e
    if a = b then s.modTenure t (fun x => x.injP (chanPoint ch.e.src c) 1)
    else sendMsg s t ch.e.src none a b 0 (.record c)
  | _, _ => s

/-- Records sent on a channel in order. -/
def sendRecs (s : State) (t c : Nat) : List Rec → State
  | [] => s
  | r :: rs => sendRecs (sendRec s t c r) t c rs

/-- The format-table entry of an input port of node `n` (R41, R125): a slice object's entries hold Raw. -/
def inFmt (s : State) (t n port : Nat) : W32 :=
  let k := key2 t n
  let get (f : Fmt) : W32 := f.ins[port]?.getD 0
  match s.tasks.get? k with
  | some x => get x.fmt
  | none =>
    match s.opers.get? k with
    | some x => get x.fmt
    | none =>
      match s.gens.get? k with
      | some x => get x.fmt
      | none =>
        match s.mats.get? k with
        | some x => get x.fmt
        | none => ((s.ctrls.get? k).map (fun x => get x.fmt)).getD 0

/-- Whether a record is accepted by a format-table entry (R41). -/
def fmtAccepts (entry : W32) (h : W64) : Bool :=
  let f := entry.toNat % 256
  hFmt h == 0 || f == 0 || hFmt h == f

/-- Records of a channel that are still on their way between dies (R394). -/
def crossing (s : State) (t c : Nat) : Nat :=
  (s.net.filter (fun x => x.t == t && x.kind == .record c && x.cross.isSome)).length

/-- Records of a bound argument range that enter the channel, as slots free (R233). They were counted as injected at `enter`. -/
def ChanRt.takeFeed (c : ChanRt) : ChanRt :=
  { c with transit := c.transit ++ c.feed.take c.free, feed := c.feed.drop c.free }

/-- RECORD_VISIBLE: the oldest record in transit arrives whole at the consumer (R34). The consumer's interface discards it when its
format is not accepted, unless the consumer is a task, which finds it at the head (R41, R182); and when it breaks the order of
segments, for which the producer halts (R42). -/
def recordVisible (t c : Nat) (s : State) : State :=
  let s := s.modChan t c ChanRt.takeFeed
  match s.chan? t c, s.tenures.get? t with
  | some ch, some tn =>
    match ch.transit with
    | [] => s
    | r :: rest =>
      if ch.transit.length ≤ crossing s t c then s
      else
        let arrived := s.modChan t c (fun x => { x with transit := rest })
        let consumed := arrived.modTenure t (fun x => x.conP (chanPoint ch.e.dst c) 1)
        let isTask := ch.e.dst != extEnd && tn.kindOf ch.e.dst == 0
        let ok := ch.e.dst == extEnd || fmtAccepts (inFmt s t ch.e.dst ch.e.iport) r.hdr
        if !ok && !isTask then nodeFault consumed t ch.e.dst cFormat (BitVec.ofNat 64 c)
        else if ok && (rType r == tBow || rType r == tStern) && ((rType r == tBow) == ch.seg) then
          if ch.e.src = extEnd then engineFault consumed t cSegment 0 extEnd 0xFF (BitVec.ofNat 64 c)
          else nodeFault consumed t ch.e.src cSegment (BitVec.ofNat 64 c)
        else
          let seg := if ok && rType r == tBow then true else if ok && rType r == tStern then false else ch.seg
          let s := arrived.modChan t c (fun x => { x with buf := x.buf ++ [r], seg := seg })
          -- a task's current record is not taken from under it (R182)
          let inUse := match s.tasks.get? (key2 t ch.e.dst) with
            | some tk => (tk.inp[ch.e.iport]?.map InPort.cur).getD false
            | none => false
          if inUse then s else settleHead s t c
  | _, _ => s

/-- RECORD_VISIBLE (R34). -/
def execRecordVisible (s : State) : Host.Outcome State Fault Refusal :=
  match s.subj with
  | .chan t c => .next (recordVisible t c s)
  | _ => .next s

end Sys2Proof.Machine
end

