-- ==== Sys2Proof/Machine/Operands.lean ====
section
/-! DEFINITION. Operands of task instructions (R132, R133): registers that wait for a reply, ports and their records (R176 to R181),
reading and writing operands of every class, the checks made at decode (R55, R147), and running a task instruction whole. -/

namespace Sys2Proof.Machine

/-- The operands of a task instruction, in the order in which their ports are checked: sources first, then the destination. -/
def operands : Instr → List Opnd
  | .addW d a b | .subW d a b | .andW d a b | .orW d a b | .xorW d a b | .sllW d a b | .srlW d a b | .sraW d a b
  | .mulW d a b | .mulhsW d a b | .mulhzW d a b | .divsW d a b | .divzW d a b | .remsW d a b | .remzW d a b
  | .minsW d a b | .maxsW d a b | .minzW d a b | .maxzW d a b | .addsW d a b | .subsW d a b | .addA d a b
  | .addzA d a b | .subA d a b | .catA d a b | .cpy d a b | .atomAddF d a b _ _ | .atomMinF d a b _ _
  | .atomMaxF d a b _ _ | .atomMinzF d a b _ _ | .atomMaxzF d a b _ _ | .atomAndF d a b _ _ | .atomOrF d a b _ _
  | .atomXorF d a b _ _ | .atomSwap d a b _ _ | .atomCas d a b _ _ | .atomFaddFp32F d a b | .atomFaddBf16F d a b
  | .vAdd d a b _ | .vSub d a b _ | .vMul d a b _ | .vMin d a b _ | .vMax d a b _ | .vAdds d a b _ | .vSubs d a b _
  | .vAnd d a b _ | .vOr d a b _ | .vXor d a b _ | .vSll d a b _ | .vSrl d a b _ | .vSra d a b _ | .vFma d a b _
  | .vFms d a b _ | .vFnma d a b _ | .vFmab d a b _ | .vDot d a b _ | .vCmpEq d a b _ | .vCmpLt d a b _
  | .vCmpLe d a b _ | .vCmpUn d a b _ | .vSel d a b _ | .vShuf d a b _ | .vZip d a b _ | .vUnzip d a b _
  | .vRdot d a b _ | .vSclx d a b _ | .vMxpack d a b _ | .vMxunpack d a b _ | .vLdexp d a b _ => [a, b, d]
  | .clzW d a | .cntW d a | .movW d a | .addiW d a _ | .andiW d a _ | .oriW d a _ | .xoriW d a _ | .slliW d a _
  | .srliW d a _ | .sraiW d a _ | .movA d a | .loA d a | .hiA d a | .addiA d a _ | .open_ d a | .hdr d a | .send d a
  | .left d a | .gldS8 d a _ _ | .gldZ8 d a _ _ | .gldS16 d a _ _ | .gldZ16 d a _ _ | .gldW d a _ _ | .gldD d a _ _
  | .gstB d a _ _ | .gstH d a _ _ | .gstW d a _ _ | .gstD d a _ _ | .vAbs d a _ | .vNeg d a _ | .vBcast d a _ _
  | .vRot d a _ _ | .vIns d a _ _ | .vExt d a _ _ | .cmpr2of4 d a _ _ | .vCvt d a _ _ _ _ | .vRsum d a _
  | .vRmax d a _ | .vRmin d a _ | .vScl d a _ _ => [a, d]
  | .cmpEqW _ a b | .cmpNeW _ a b | .cmpLtsW _ a b | .cmpLtzW _ a b | .cmpGesW _ a b | .cmpGezW _ a b | .cmpEqA _ a b
  | .cmpLtzA _ a b | .accFp32 _ a b | .accBf16 _ a b | .accFp16 _ a b | .accS8 _ a b | .accZ8 _ a b | .accS16 _ a b
  | .accZ16 _ a b | .accS32 _ a b | .accZ32 _ a b | .accS64 _ a b | .atomAdd a b _ | .atomMin a b _ | .atomMax a b _
  | .atomMinz a b _ | .atomMaxz a b _ | .atomAnd a b _ | .atomOr a b _ | .atomXor a b _ | .atomFaddFp32 a b
  | .atomFaddBf16 a b | .combSend a b | .waita a b => [a, b]
  | .pset _ a | .brz a _ _ | .brnz a _ _ | .brneg a _ _ | .brzNp a _ _ | .brnzNp a _ _ | .brnegNp a _ _ | .jr a
  | .callr a | .next_ a | .xfer a _ | .gateArr _ a | .gateWait _ a | .trap a => [a]
  | .pget d _ | .liW d _ | .luiW d _ | .dbnz d _ | .close d | .sysr d _ | .sysw d _ => [d]
  | .ldS8 d b _ | .ldZ8 d b _ | .ldS16 d b _ | .ldZ16 d b _ | .ldW d b _ | .ldD d b _ | .stB d b _ | .stH d b _
  | .stW d b _ | .stD d b _ => [b, d]
  | .pand _ _ _ | .por _ _ _ | .pxor _ _ _ | .pandn _ _ _ | .br _ _ | .brNp _ _ | .call _ | .flushr _ | .wsb _
  | .longImmediatePrefix _ _ | .enter _ | .lock _ _ | .bindArg _ _ _ | .bindVq _ _ | .bindXfer _ _ | .bindAccs _ _ _
  | .bindXf _ _ _ _ | .bindPred _ _ | .choose _ _ _ | .jmp _ | .watch _ _ _ _ _ _ _ _ | .unwatch _ | .fault _
  | .wave _ | .quiet _ | .setp _ _ | .waitp _ | .count _ _ | .decJnz _ _ | .settle _ | .illegalInstruction _
  | .codeRangeFetch _ | .kickTailWrite | .cplHeadWrite | .completionWrite | .launch | .push | .pull | .signalSet
  | .signalAdd | .wait | .waitSatisfied | .waitTimeout | .pausePreferred | .pauseForced | .resume | .kill
  | .queryCapabilities | .queryTenure | .queryCounts | .queryGovernor | .queryVirtualQueue | .mboxDoorWrite
  | .createQueue | .destroyQueue | .registerWrite | .pwrBudgetWrite | .governorTick | .candidateAttempt | .loadCommit
  | .codePageResolved | .planeGrant | .drainComplete | .drainTimeout | .zeroingComplete | .reserveSubtree
  | .releaseSubtree | .replyExpiry | .replyArrival | .recordVisible | .vqAgentMove | .vqAgentAppend
  | .activationStart | .nullTrigger | .end_ | .nop | .loadReply | .storePerformed | .translationRefill | .priResponse
  | .osPageResponse | .atsInvalidation | .transferRequestRecord | .lighterRequest | .lighterComplete | .transformRow
  | .accumulateStreamRecord | .flushrAll | .accumulateArrival | .flushDelivery | .refusalReply | .residualAgeExpiry
  | .acceptanceIntervalEnd | .atomicPerform | .atomicReply | .quietP | .quietG | .fenceG | .fenceS | .rte | .halt
  | .brk | .arithmeticFiring | .controlTokenFiring | .nullFiring | .convert | .mxPack | .mxUnpack | .fork | .steer
  | .filter | .merge | .nullMerge | .fairMerge | .sequenceTag | .reorder | .tap | .combineSend | .compareExchange
  | .loopExitDrain | .constantSource | .sink | .repeat_ | .bankStream | .globalStream | .globalGather
  | .generatorCompletion | .controllerPermit | .controllerDone | .weightColumn | .activationRow | .rowFiring
  | .mmDrain | .mmClear | .nullRow | .matrixControlToken | .sort | .gateArrival | .gatePermit | .gateTimeout
  | .contributionArrival | .combineTimeout | .wavePeriod | .wavePass | .yield_ | .ireload | .done | .predicateRecord
  | .segmentBoundarySwitch | .segmaxExpiry | .pauseComplete | .faultRecordArrival | .holdTimeout | .processMigration
  | .functionLevelReset | .linkDown | .pcieRetrain | .ethernetPortDown | .flitReceive | .retrainComplete | .powerGood
  | .hbmTrainingComplete | .selfTestComplete | .undervoltage | .thermalTrip | .counterRaise | .readStatus
  | .setBudget | .powerCycleRequest | .getVersion | .getCapabilities | .negotiateAlgorithms | .getDigests
  | .getCertificate | .challenge | .getMeasurements | .accumulateAcknowledgement | .confirmingReadCompletion
  | .virtualQueueAssign | .regionReclaim | .replacementFallback | .migrationReceive | .ethernetPortUp
  | .bridgedRecordArrival | .mctpControlMessage | .correctableError => []

/-- Whether a system register belongs to class 3 (R159, R270, R290). -/
def sysRegTiming (r : Nat) : Bool :=
  r == 8 || r == 9 || (0x10 ≤ r && r ≤ 0x2F) || r == 0x300 || (0x308 ≤ r && r ≤ 0x30F) || r == 0x401 || r == 0x402

/-- The operation classes 0 to 3 of a task instruction, as bits (R32, R159, R287, R288). -/
def classBits : Instr → Nat
  | .atomAddF _ _ _ _ _ | .atomMinF _ _ _ _ _ | .atomMaxF _ _ _ _ _ | .atomMinzF _ _ _ _ _ | .atomMaxzF _ _ _ _ _
  | .atomAndF _ _ _ _ _ | .atomOrF _ _ _ _ _ | .atomXorF _ _ _ _ _ => 1
  | .atomSwap _ _ _ _ _ | .atomCas _ _ _ _ _ => 3
  | .atomFaddFp32 _ _ | .atomFaddBf16 _ _ => 4
  | .atomFaddFp32F _ _ _ | .atomFaddBf16F _ _ _ => 5
  | .sysr _ r => if sysRegTiming r.toNat then 8 else 0
  | _ => 0

/-- A register that waits for a reply makes a later instruction that reads or writes it wait (R272, R286); one that an atomic brought
a watch flag for makes it trap (R380). -/
def useReg (o : Opnd) : TM Unit := fun c =>
  match c.tk.wflags.find? (fun f => f.dst == some o) with
  | some f => .error (.watch f)
  | none => if c.tk.pend.contains o then .error (.wait false) else .ok ((), c)

/-- The channel of an input port; CHANNEL_UNBOUND where there is none (R132). -/
def inChan (p : Fin 16) : TM Nat := do
  match (← getTk).inCh[p] with
  | some c => pure c
  | none => raise cUnbound (BitVec.ofNat 64 (32 + p.val))

/-- The channel of an output port; CHANNEL_UNBOUND where there is none (R132). -/
def outChan (p : Fin 16) : TM Nat := do
  match (← getTk).outCh[p] with
  | some c => pure c
  | none => raise cUnbound (BitVec.ofNat 64 (48 + p.val))

/-- A channel as it runs. -/
def getChan (c : Nat) : TM ChanRt := fun x =>
  match x.s.chan? x.t c with
  | some ch => .ok (ch, x)
  | none => .error (.wait false)

/-- The current record of an input port, made current where there is none: waits for a visible record, and uses one of the firings of a
sticky one (R153, R176). A record of the wrong format is discarded (R41, R182). -/
def currentRec (p : Fin 16) : TM Rec := do
  let c ← inChan p
  let tk ← getTk
  let t ← getT
  if !tk.inp[p].cur then modST (fun s t _ => settleHead s t c)
  let ch ← getChan c
  match ch.buf with
  | [] => stop (.wait true)
  | r :: _ =>
    if tk.inp[p].cur then pure r
    else if !fmtAccepts tk.fmt.ins[p] r.hdr then
      stop (.trapAfter (fun s => popHead (settleHead s t c) t c) cFormat (BitVec.ofNat 64 c))
    else
      modST (fun s t n => orderRec (s.modChan t c ChanRt.access) t n r)
      modTk (fun k => { k with inp := k.inp.set p { cur := true, idx := 0 } })
      pure r

/-- A pop: the unit at the current index (R177). -/
def popUnit (p : Fin 16) : TM W64 := do
  let r ← currentRec p
  let k := (← getTk).inp[p].idx
  match r.units[k]? with
  | some u =>
    modTk (fun x => { x with inp := x.inp.set p { cur := true, idx := k + 1 } })
    pure u
  | none => raise cOverrun (BitVec.ofNat 64 p.val)

/-- A push: one unit into the open record (R179). -/
def pushUnit (p : Fin 16) (u : W64) : TM Unit := do
  let c ← outChan p
  let ch ← getChan c
  match ch.opn with
  | none => raise cRecordState (BitVec.ofNat 64 p.val)
  | some r =>
    if hLen r.hdr ≤ r.units.length then raise cRecordLength r.hdr
    else modST (fun s t _ => s.modChan t c (fun ch => { ch with opn := some { r with units := r.units ++ [u] } }))

/-- An operand read at 64 bits: a G register is sign-extended (R133). -/
def read64 (o : Opnd) : TM W64 :=
  match o with
  | .g n => do useReg o; pure ((← getTk).g[n].signExtend 64)
  | .a n => do useReg o; pure (← getTk).a[n]
  | .v n => do useReg o; pure (← getTk).v[n]
  | .i p => popUnit p
  | .o _ => raise cIllegal 0

/-- An operand read at 32 bits: bits [31:0] of a 64-bit source (R133). -/
def read32 (o : Opnd) : TM W32 :=
  match o with
  | .g n => do useReg o; pure (← getTk).g[n]
  | .a n => do useReg o; pure ((← getTk).a[n].truncate 32)
  | .v n => do useReg o; pure ((← getTk).v[n].truncate 32)
  | .i p => do pure ((← popUnit p).truncate 32)
  | .o _ => raise cIllegal 0

/-- A register of the task written, a G register with the low 32 bits. -/
def TaskRt.setReg (k : TaskRt) (o : Opnd) (x : W64) : TaskRt :=
  match o with
  | .g n => { k with g := k.g.set n (x.truncate 32) }
  | .a n => { k with a := k.a.set n x }
  | .v n => { k with v := k.v.set n x }
  | .i _ => k
  | .o _ => k

/-- A 64-bit result written: a G register takes bits [31:0], an O specifier pushes (R133). -/
def write64 (o : Opnd) (x : W64) : TM Unit :=
  match o with
  | .o p => pushUnit p x
  | .i _ => raise cIllegal 0
  | r => do useReg r; modTk (fun k => k.setReg r x)

/-- A 32-bit result written: sign-extended into a 64-bit destination (R133). -/
def write32 (o : Opnd) (x : W32) : TM Unit := write64 o (x.signExtend 64)

/-- The word of an instruction, as the argument of ILLEGAL_INSTRUCTION and DETERMINISM_CLAIM (R370): of a prefix group, the third
word. -/
def instrWord (i : Instr) : W32 :=
  match i with
  | .longImmediatePrefix _ third => third
  | .illegalInstruction w => w
  | j => match encode j with
    | some (w :: _) => w
    | _ => 0

/-- The first operand that names a port without a channel (R132). -/
def unboundPort (tk : TaskRt) : List Opnd → Option Opnd
  | [] => none
  | .i p :: r => if tk.inCh[p].isNone then some (.i p) else unboundPort tk r
  | .o p :: r => if tk.outCh[p].isNone then some (.o p) else unboundPort tk r
  | _ :: r => unboundPort tk r

/-- The checks made at decode, in the order of R147: ILLEGAL_INSTRUCTION, DETERMINISM_CLAIM (R55), CHANNEL_UNBOUND. -/
def decodeChecks (i : Instr) (w : W32) : TM Unit := do
  let tk ← getTk
  let tn ← getTn
  let n ← getN
  raiseIf (!i.wf) cIllegal (w.setWidth 64)
  raiseIf (tn.g.det && classBits i &&& ((tn.g.nodes[n]?.map NodeE.cls).getD 0) != classBits i) cDeterminism (w.setWidth 64)
  match unboundPort tk (operands i) with
  | some o => raise cUnbound (o.bits.setWidth 64)
  | none => pure ()

/-- While a tenure has a watchpoint armed for atomics, a task issues at most eight instructions after an atomic before it stalls for
its reply, and takes the trap of a flagged one then (R380). -/
def atomicStall : TM Unit := do
  let tn ← getTn
  let tk ← getTk
  match tk.wflags.find? (fun f => decide (8 ≤ f.issued)) with
  | some f => stop (.watch f)
  | none =>
    stallUnless (!(tn.watch.toList.any (fun w => (w.map Watchpoint.at_).getD false) && tk.atoms.any (fun x => decide (8 ≤ x.2))))

/-- An instruction has issued: the counts since each atomic rise (R380). -/
def TaskRt.issued (k : TaskRt) : TaskRt :=
  { k with atoms := k.atoms.map (fun x => (x.1, x.2 + 1)), wflags := k.wflags.map (fun f => { f with issued := f.issued + 1 }) }

/-- Runs a task instruction at the node that issues (R133, R153): it completes whole, or waits, or takes its fault with nothing of it
performed. `len` is the number of words it takes. -/
def runTask (i : Instr) (w : W32) (len : Nat) (body : TM Unit) (s : State) : Host.Outcome State Fault Refusal :=
  let t := s.cur.1
  let n := s.cur.2
  match s.tasks.get? (key2 t n) with
  | none => .fault .noTask
  | some tk =>
    let c : TCtx := { s := s, t := t, n := n, tk := { tk with st := .running }, next := tk.pc + len }
    match (do decodeChecks i w; atomicStall; body : TM Unit) c with
    | .ok (_, c') => .next { c'.s with tasks := c'.s.tasks.set (key2 t n) { c'.tk.issued with pc := c'.next } }
    | .error (.wait b) => .next { s with tasks := s.tasks.set (key2 t n) { tk with st := if b then .blocked else .running } }
    | .error (.ask f) => .next (let s := f s; { s with tasks := s.tasks.set (key2 t n) { tk with st := .running } })
    | .error (.hold b c') =>
      .next { c'.s with tasks := c'.s.tasks.set (key2 t n) { c'.tk with st := if b then .blocked else .running } }
    | .error (.trap code arg) => .next (takeTrap s t n { tk with st := .running } code arg tk.pc)
    | .error (.trapAfter f code arg) => .next (takeTrap (f s) t n { tk with st := .running } code arg tk.pc)
    | .error (.watch f) =>
      .next (takeTrap s t n { tk with st := .running, wflags := tk.wflags.filter (fun g => g != f) } cWatchHit f.arg f.pc)

/-- Runs a task instruction of one word. -/
def run1 (i : Instr) (body : TM Unit) (s : State) : Host.Outcome State Fault Refusal := runTask i (instrWord i) 1 body s

end Sys2Proof.Machine
end

