-- ==== Sys2Proof/Machine/Flags.lean ====
section
/-! DEFINITION. Predicates (R158, R165) and the sticky floating-point flags of a task (R110, R187). -/

namespace Sys2Proof.Machine

/-- Reading a predicate: `p0` reads as all true (R158). -/
def readPred (p : Fin 4) : TM (BitVec 4) := do
  if p = 0 then pure 0b1111#4 else pure (← getTk).p[p]

/-- Writing a predicate other than `p0` (R132, R158). -/
def writePred (p : Fin 4) (x : BitVec 4) : TM Unit := do
  if p = 0 then raise cIllegal 0 else modTk (fun k => { k with p := k.p.set p x })

/-- A scalar truth as a predicate (R158). -/
def predOf (b : Bool) : BitVec 4 := if b then 0b1111#4 else 0#4

/-- The flags an instruction raises, set in `fflags` (R187). -/
def setFlags (f : Flags) : TM Unit := modTk (fun k => { k with fflags := k.fflags ||| f })

end Sys2Proof.Machine
end

