-- ==== Sys2Proof/Machine/Scalar.lean ====
section
/-! DEFINITION. Scalar integer, compare, predicate and immediate instructions (R161 to R167). -/

namespace Sys2Proof.Machine

/-- Signed division (R163). -/
def divs (x y : W32) : W32 :=
  if y = 0 then 0xFFFFFFFF
  else if x = 0x80000000 ∧ y = 0xFFFFFFFF then 0x80000000
  else BitVec.ofInt 32 (x.toInt.tdiv y.toInt)

/-- Signed remainder (R163). -/
def rems (x y : W32) : W32 :=
  if y = 0 then x
  else if x = 0x80000000 ∧ y = 0xFFFFFFFF then 0
  else BitVec.ofInt 32 (x.toInt - y.toInt * x.toInt.tdiv y.toInt)

/-- Unsigned division (R163). -/
def divz (x y : W32) : W32 := if y = 0 then 0xFFFFFFFF else BitVec.ofNat 32 (x.toNat / y.toNat)

/-- Unsigned remainder (R163). -/
def remz (x y : W32) : W32 := if y = 0 then x else BitVec.ofNat 32 (x.toNat % y.toNat)

/-- An integer clamped to 32 signed bits (R162). -/
def clamp32 (x : Int) : W32 := BitVec.ofInt 32 (clampInt true 32 x).1

/-- Leading zero bits (R162). -/
def clz32 (x : W32) : W32 := BitVec.ofNat 32 ((List.range 32).takeWhile (fun i => !bitOf x.toNat (31 - i))).length

/-- The number of 1 bits (R162). -/
def cnt32 (x : W32) : W32 := BitVec.ofNat 32 ((List.range 32).filter (fun i => bitOf x.toNat i)).length

/-- d := f(s1, s2) in 32 bits (R161, R162). -/
def scalar2 (f : W32 → W32 → W32) (d a b : Opnd) : TM Unit := do
  let x ← read32 a
  let y ← read32 b
  write32 d (f x y)

/-- d := f(s1) in 32 bits (R161, R162, R166). -/
def scalar1 (f : W32 → W32) (d a : Opnd) : TM Unit := do
  let x ← read32 a
  write32 d (f x)

/-- pd := (s1 cc s2) (R164). -/
def compare2 (f : W32 → W32 → Bool) (p : Fin 4) (a b : Opnd) : TM Unit := do
  let x ← read32 a
  let y ← read32 b
  writePred p (predOf (f x y))

/-- pd := f(pa, pb) on whole predicates (R165). -/
def pred2 (f : BitVec 4 → BitVec 4 → BitVec 4) (p q r : Fin 4) : TM Unit := do
  let x ← readPred q
  let y ← readPred r
  writePred p (f x y)

/-- The function of addW: x + y modulo 2^32 (R162). -/
def fAddW (x y : W32) : W32 := x + y

/-- The function of subW: x − y modulo 2^32 (R162). -/
def fSubW (x y : W32) : W32 := x - y

/-- The function of andW: bitwise and (R162). -/
def fAndW (x y : W32) : W32 := x &&& y

/-- The function of orW: bitwise or (R162). -/
def fOrW (x y : W32) : W32 := x ||| y

/-- The function of xorW: bitwise exclusive or (R162). -/
def fXorW (x y : W32) : W32 := x ^^^ y

/-- The function of sllW: left shift by y[4:0] (R162). -/
def fSllW (x y : W32) : W32 := x <<< (y.toNat % 32)

/-- The function of srlW: logical right shift by y[4:0] (R162). -/
def fSrlW (x y : W32) : W32 := x >>> (y.toNat % 32)

/-- The function of sraW: arithmetic right shift by y[4:0] (R162). -/
def fSraW (x y : W32) : W32 := x.sshiftRight (y.toNat % 32)

/-- The function of mulW: the low half of the product (R162). -/
def fMulW (x y : W32) : W32 := x * y

/-- The function of mulhsW: the high half of the signed product (R162). -/
def fMulhsW (x y : W32) : W32 := BitVec.ofInt 32 ((x.toInt * y.toInt) >>> 32)

/-- The function of mulhzW: the high half of the unsigned product (R162). -/
def fMulhzW (x y : W32) : W32 := BitVec.ofNat 32 ((x.toNat * y.toNat) >>> 32)

/-- The function of divsW: signed division (R163) (R162). -/
def fDivsW (x y : W32) : W32 := divs x y

/-- The function of divzW: unsigned division (R163) (R162). -/
def fDivzW (x y : W32) : W32 := divz x y

/-- The function of remsW: signed remainder (R163) (R162). -/
def fRemsW (x y : W32) : W32 := rems x y

/-- The function of remzW: unsigned remainder (R163) (R162). -/
def fRemzW (x y : W32) : W32 := remz x y

/-- The function of minsW: signed minimum (R162). -/
def fMinsW (x y : W32) : W32 := if y.slt x then y else x

/-- The function of maxsW: signed maximum (R162). -/
def fMaxsW (x y : W32) : W32 := if x.slt y then y else x

/-- The function of minzW: unsigned minimum (R162). -/
def fMinzW (x y : W32) : W32 := if y.ult x then y else x

/-- The function of maxzW: unsigned maximum (R162). -/
def fMaxzW (x y : W32) : W32 := if x.ult y then y else x

/-- The function of addsW: signed saturating add (R162). -/
def fAddsW (x y : W32) : W32 := clamp32 (x.toInt + y.toInt)

/-- The function of subsW: signed saturating subtract (R162). -/
def fSubsW (x y : W32) : W32 := clamp32 (x.toInt - y.toInt)

/-- `add.w` (R162). -/
def execAddW (d a b : Opnd) (s : State) : Host.Outcome State Fault Refusal :=
  run1 (.addW d a b) (scalar2 fAddW d a b) s

/-- `sub.w` (R162). -/
def execSubW (d a b : Opnd) (s : State) : Host.Outcome State Fault Refusal :=
  run1 (.subW d a b) (scalar2 fSubW d a b) s

/-- `and.w` (R162). -/
def execAndW (d a b : Opnd) (s : State) : Host.Outcome State Fault Refusal :=
  run1 (.andW d a b) (scalar2 fAndW d a b) s

/-- `or.w` (R162). -/
def execOrW (d a b : Opnd) (s : State) : Host.Outcome State Fault Refusal :=
  run1 (.orW d a b) (scalar2 fOrW d a b) s

/-- `xor.w` (R162). -/
def execXorW (d a b : Opnd) (s : State) : Host.Outcome State Fault Refusal :=
  run1 (.xorW d a b) (scalar2 fXorW d a b) s

/-- `sll.w` (R162). -/
def execSllW (d a b : Opnd) (s : State) : Host.Outcome State Fault Refusal :=
  run1 (.sllW d a b) (scalar2 fSllW d a b) s

/-- `srl.w` (R162). -/
def execSrlW (d a b : Opnd) (s : State) : Host.Outcome State Fault Refusal :=
  run1 (.srlW d a b) (scalar2 fSrlW d a b) s

/-- `sra.w` (R162). -/
def execSraW (d a b : Opnd) (s : State) : Host.Outcome State Fault Refusal :=
  run1 (.sraW d a b) (scalar2 fSraW d a b) s

/-- `mul.w` (R162). -/
def execMulW (d a b : Opnd) (s : State) : Host.Outcome State Fault Refusal :=
  run1 (.mulW d a b) (scalar2 fMulW d a b) s

/-- `mulhs.w` (R162). -/
def execMulhsW (d a b : Opnd) (s : State) : Host.Outcome State Fault Refusal :=
  run1 (.mulhsW d a b) (scalar2 fMulhsW d a b) s

/-- `mulhz.w` (R162). -/
def execMulhzW (d a b : Opnd) (s : State) : Host.Outcome State Fault Refusal :=
  run1 (.mulhzW d a b) (scalar2 fMulhzW d a b) s

/-- `divs.w` (R162). -/
def execDivsW (d a b : Opnd) (s : State) : Host.Outcome State Fault Refusal :=
  run1 (.divsW d a b) (scalar2 fDivsW d a b) s

/-- `divz.w` (R162). -/
def execDivzW (d a b : Opnd) (s : State) : Host.Outcome State Fault Refusal :=
  run1 (.divzW d a b) (scalar2 fDivzW d a b) s

/-- `rems.w` (R162). -/
def execRemsW (d a b : Opnd) (s : State) : Host.Outcome State Fault Refusal :=
  run1 (.remsW d a b) (scalar2 fRemsW d a b) s

/-- `remz.w` (R162). -/
def execRemzW (d a b : Opnd) (s : State) : Host.Outcome State Fault Refusal :=
  run1 (.remzW d a b) (scalar2 fRemzW d a b) s

/-- `mins.w` (R162). -/
def execMinsW (d a b : Opnd) (s : State) : Host.Outcome State Fault Refusal :=
  run1 (.minsW d a b) (scalar2 fMinsW d a b) s

/-- `maxs.w` (R162). -/
def execMaxsW (d a b : Opnd) (s : State) : Host.Outcome State Fault Refusal :=
  run1 (.maxsW d a b) (scalar2 fMaxsW d a b) s

/-- `minz.w` (R162). -/
def execMinzW (d a b : Opnd) (s : State) : Host.Outcome State Fault Refusal :=
  run1 (.minzW d a b) (scalar2 fMinzW d a b) s

/-- `maxz.w` (R162). -/
def execMaxzW (d a b : Opnd) (s : State) : Host.Outcome State Fault Refusal :=
  run1 (.maxzW d a b) (scalar2 fMaxzW d a b) s

/-- `adds.w` (R162). -/
def execAddsW (d a b : Opnd) (s : State) : Host.Outcome State Fault Refusal :=
  run1 (.addsW d a b) (scalar2 fAddsW d a b) s

/-- `subs.w` (R162). -/
def execSubsW (d a b : Opnd) (s : State) : Host.Outcome State Fault Refusal :=
  run1 (.subsW d a b) (scalar2 fSubsW d a b) s

/-- `clz.w` (R162). -/
def execClzW (d a : Opnd) (s : State) : Host.Outcome State Fault Refusal :=
  run1 (.clzW d a) (scalar1 clz32 d a) s

/-- `cnt.w` (R162). -/
def execCntW (d a : Opnd) (s : State) : Host.Outcome State Fault Refusal :=
  run1 (.cntW d a) (scalar1 cnt32 d a) s

/-- `mov.w` (R162). -/
def execMovW (d a : Opnd) (s : State) : Host.Outcome State Fault Refusal :=
  run1 (.movW d a) (scalar1 id d a) s

/-- `cmp.eq.w` (R164). -/
def execCmpEqW (p : Fin 4) (a b : Opnd) (s : State) : Host.Outcome State Fault Refusal :=
  run1 (.cmpEqW p a b) (compare2 (fun x y => x == y) p a b) s

/-- `cmp.ne.w` (R164). -/
def execCmpNeW (p : Fin 4) (a b : Opnd) (s : State) : Host.Outcome State Fault Refusal :=
  run1 (.cmpNeW p a b) (compare2 (fun x y => x != y) p a b) s

/-- `cmp.lts.w` (R164). -/
def execCmpLtsW (p : Fin 4) (a b : Opnd) (s : State) : Host.Outcome State Fault Refusal :=
  run1 (.cmpLtsW p a b) (compare2 (fun x y => x.slt y) p a b) s

/-- `cmp.ltz.w` (R164). -/
def execCmpLtzW (p : Fin 4) (a b : Opnd) (s : State) : Host.Outcome State Fault Refusal :=
  run1 (.cmpLtzW p a b) (compare2 (fun x y => x.ult y) p a b) s

/-- `cmp.ges.w` (R164). -/
def execCmpGesW (p : Fin 4) (a b : Opnd) (s : State) : Host.Outcome State Fault Refusal :=
  run1 (.cmpGesW p a b) (compare2 (fun x y => !x.slt y) p a b) s

/-- `cmp.gez.w` (R164). -/
def execCmpGezW (p : Fin 4) (a b : Opnd) (s : State) : Host.Outcome State Fault Refusal :=
  run1 (.cmpGezW p a b) (compare2 (fun x y => !x.ult y) p a b) s

/-- `pand` (R165). -/
def execPand (p q r : Fin 4) (s : State) : Host.Outcome State Fault Refusal :=
  run1 (.pand p q r) (pred2 (fun x y => x &&& y) p q r) s

/-- `por` (R165). -/
def execPor (p q r : Fin 4) (s : State) : Host.Outcome State Fault Refusal :=
  run1 (.por p q r) (pred2 (fun x y => x ||| y) p q r) s

/-- `pxor` (R165). -/
def execPxor (p q r : Fin 4) (s : State) : Host.Outcome State Fault Refusal :=
  run1 (.pxor p q r) (pred2 (fun x y => x ^^^ y) p q r) s

/-- `pandn` (R165). -/
def execPandn (p q r : Fin 4) (s : State) : Host.Outcome State Fault Refusal :=
  run1 (.pandn p q r) (pred2 (fun x y => x &&& ~~~y) p q r) s

/-- `pset` (R165). -/
def execPset (p : Fin 4) (a : Opnd) (s : State) : Host.Outcome State Fault Refusal :=
  run1 (.pset p a) (do writePred p ((← read32 a).truncate 4)) s

/-- `pget` (R165). -/
def execPget (d : Opnd) (q : Fin 4) (s : State) : Host.Outcome State Fault Refusal :=
  run1 (.pget d q) (do write32 d ((← readPred q).setWidth 32)) s

/-- The effect of `addi.w` with its 32-bit immediate (R166). -/
def bodyAddiW (d a : Opnd) (imm : W32) : TM Unit := scalar1 (fun x => x + imm) d a

/-- `addi.w` (R166). -/
def execAddiW (d a : Opnd) (imm : BitVec 14) (s : State) : Host.Outcome State Fault Refusal :=
  run1 (.addiW d a imm) (bodyAddiW d a (imm.signExtend 32)) s

/-- The effect of `andi.w` with its 32-bit immediate (R166). -/
def bodyAndiW (d a : Opnd) (imm : W32) : TM Unit := scalar1 (fun x => x &&& imm) d a

/-- `andi.w` (R166). -/
def execAndiW (d a : Opnd) (imm : BitVec 14) (s : State) : Host.Outcome State Fault Refusal :=
  run1 (.andiW d a imm) (bodyAndiW d a (imm.setWidth 32)) s

/-- The effect of `ori.w` with its 32-bit immediate (R166). -/
def bodyOriW (d a : Opnd) (imm : W32) : TM Unit := scalar1 (fun x => x ||| imm) d a

/-- `ori.w` (R166). -/
def execOriW (d a : Opnd) (imm : BitVec 14) (s : State) : Host.Outcome State Fault Refusal :=
  run1 (.oriW d a imm) (bodyOriW d a (imm.setWidth 32)) s

/-- The effect of `xori.w` with its 32-bit immediate (R166). -/
def bodyXoriW (d a : Opnd) (imm : W32) : TM Unit := scalar1 (fun x => x ^^^ imm) d a

/-- `xori.w` (R166). -/
def execXoriW (d a : Opnd) (imm : BitVec 14) (s : State) : Host.Outcome State Fault Refusal :=
  run1 (.xoriW d a imm) (bodyXoriW d a (imm.setWidth 32)) s

/-- `slli.w` (R166). -/
def execSlliW (d a : Opnd) (sh : BitVec 5) (s : State) : Host.Outcome State Fault Refusal :=
  run1 (.slliW d a sh) (scalar1 (fun x => x <<< sh.toNat) d a) s

/-- `srli.w` (R166). -/
def execSrliW (d a : Opnd) (sh : BitVec 5) (s : State) : Host.Outcome State Fault Refusal :=
  run1 (.srliW d a sh) (scalar1 (fun x => x >>> sh.toNat) d a) s

/-- `srai.w` (R166). -/
def execSraiW (d a : Opnd) (sh : BitVec 5) (s : State) : Host.Outcome State Fault Refusal :=
  run1 (.sraiW d a sh) (scalar1 (fun x => x.sshiftRight sh.toNat) d a) s

/-- `li.w` (R167). -/
def execLiW (d : Opnd) (imm : BitVec 20) (s : State) : Host.Outcome State Fault Refusal :=
  run1 (.liW d imm) (write32 d (imm.signExtend 32)) s

/-- `lui.w` (R167). -/
def execLuiW (d : Opnd) (imm : BitVec 20) (s : State) : Host.Outcome State Fault Refusal :=
  run1 (.luiW d imm) (write32 d (imm.setWidth 32 <<< 12)) s

end Sys2Proof.Machine
end

