-- ==== Sys2Proof/Machine/Address.lean ====
section
/-! DEFINITION. Address instructions (R168). -/

namespace Sys2Proof.Machine

/-- d := f(s1, s2) in 64 bits (R168). -/
def addr2 (f : W64 → W64 → W64) (d a b : Opnd) : TM Unit := do
  let x ← read64 a
  let y ← read64 b
  write64 d (f x y)

/-- `add.a`: s2 is a G register, sign-extended (R168). -/
def execAddA (d a b : Opnd) (s : State) : Host.Outcome State Fault Refusal :=
  run1 (.addA d a b) (addr2 (fun x y => x + y) d a b) s

/-- `addz.a`: s2 is a G register, zero-extended (R168). -/
def execAddzA (d a b : Opnd) (s : State) : Host.Outcome State Fault Refusal :=
  run1 (.addzA d a b) (do
    let x ← read64 a
    let y ← read32 b
    write64 d (x + y.setWidth 64)) s

/-- `sub.a` (R168). -/
def execSubA (d a b : Opnd) (s : State) : Host.Outcome State Fault Refusal :=
  run1 (.subA d a b) (addr2 (fun x y => x - y) d a b) s

/-- `mov.a` (R168). -/
def execMovA (d a : Opnd) (s : State) : Host.Outcome State Fault Refusal :=
  run1 (.movA d a) (do write64 d (← read64 a)) s

/-- `lo.a` (R168). -/
def execLoA (d a : Opnd) (s : State) : Host.Outcome State Fault Refusal :=
  run1 (.loA d a) (do write32 d ((← read64 a).extractLsb' 0 32)) s

/-- `hi.a` (R168). -/
def execHiA (d a : Opnd) (s : State) : Host.Outcome State Fault Refusal :=
  run1 (.hiA d a) (do write32 d ((← read64 a).extractLsb' 32 32)) s

/-- `cat.a` (R168). -/
def execCatA (d a b : Opnd) (s : State) : Host.Outcome State Fault Refusal :=
  run1 (.catA d a b) (do
    let x ← read32 a
    let y ← read32 b
    write64 d (x ++ y)) s

/-- pd := (s1 cc s2) in 64 bits (R168). -/
def compareA (f : W64 → W64 → Bool) (p : Fin 4) (a b : Opnd) : TM Unit := do
  let x ← read64 a
  let y ← read64 b
  writePred p (predOf (f x y))

/-- `cmp.eq.a` (R168). -/
def execCmpEqA (p : Fin 4) (a b : Opnd) (s : State) : Host.Outcome State Fault Refusal :=
  run1 (.cmpEqA p a b) (compareA (fun x y => x == y) p a b) s

/-- `cmp.ltz.a` (R168). -/
def execCmpLtzA (p : Fin 4) (a b : Opnd) (s : State) : Host.Outcome State Fault Refusal :=
  run1 (.cmpLtzA p a b) (compareA (fun x y => x.ult y) p a b) s

/-- The effect of `addi.a` with its immediate (R168). -/
def bodyAddiA (d a : Opnd) (imm : W64) : TM Unit := do write64 d ((← read64 a) + imm)

/-- `addi.a` (R168). -/
def execAddiA (d a : Opnd) (imm : BitVec 14) (s : State) : Host.Outcome State Fault Refusal :=
  run1 (.addiA d a imm) (bodyAddiA d a (imm.signExtend 64)) s

end Sys2Proof.Machine
end

