-- ==== Sys2Proof/Machine/Control.lean ====
section
/-! DEFINITION. Control flow (R135, R169 to R172). -/

namespace Sys2Proof.Machine

/-- A branch condition on `g(s1)` (R136). -/
def condZero (x : W32) : Bool := x == 0
/-- `g(s1) ≠ 0`. -/
def condNonzero (x : W32) : Bool := x != 0
/-- `g(s1) < 0` as a signed value. -/
def condNeg (x : W32) : Bool := x.msb

/-- A branch (R169): taken when the predicate agrees and the condition holds; the target is the branch's own index, or its prefix's,
plus the displacement. -/
def branch (sense : Bool) (p : Fin 4) (cond : TM Bool) (disp : Int) : TM Unit := do
  let pv ← readPred p
  let c ← cond
  if (pv != 0) == sense && c then
    let k ← getTk
    setNext (k.pc + disp)

/-- The condition of a branch on a register (R169). -/
def condOn (f : W32 → Bool) (a : Opnd) : TM Bool := do pure (f (← read32 a))

/-- `br`, major 0x10 (R169). -/
def execBr (p : Fin 4) (imm : BitVec 16) (s : State) : Host.Outcome State Fault Refusal :=
  run1 (.br p imm) (branch true p (pure true) imm.toInt) s

/-- `brz`, major 0x10 (R169). -/
def execBrz (a : Opnd) (p : Fin 4) (imm : BitVec 16) (s : State) : Host.Outcome State Fault Refusal :=
  run1 (.brz a p imm) (branch true p (condOn condZero a) imm.toInt) s

/-- `brnz`, major 0x10 (R169). -/
def execBrnz (a : Opnd) (p : Fin 4) (imm : BitVec 16) (s : State) : Host.Outcome State Fault Refusal :=
  run1 (.brnz a p imm) (branch true p (condOn condNonzero a) imm.toInt) s

/-- `brneg`, major 0x10 (R169). -/
def execBrneg (a : Opnd) (p : Fin 4) (imm : BitVec 16) (s : State) : Host.Outcome State Fault Refusal :=
  run1 (.brneg a p imm) (branch true p (condOn condNeg a) imm.toInt) s

/-- `br`, major 0x11 (R169). -/
def execBrNp (p : Fin 4) (imm : BitVec 16) (s : State) : Host.Outcome State Fault Refusal :=
  run1 (.brNp p imm) (branch false p (pure true) imm.toInt) s

/-- `brz`, major 0x11 (R169). -/
def execBrzNp (a : Opnd) (p : Fin 4) (imm : BitVec 16) (s : State) : Host.Outcome State Fault Refusal :=
  run1 (.brzNp a p imm) (branch false p (condOn condZero a) imm.toInt) s

/-- `brnz`, major 0x11 (R169). -/
def execBrnzNp (a : Opnd) (p : Fin 4) (imm : BitVec 16) (s : State) : Host.Outcome State Fault Refusal :=
  run1 (.brnzNp a p imm) (branch false p (condOn condNonzero a) imm.toInt) s

/-- `brneg`, major 0x11 (R169). -/
def execBrnegNp (a : Opnd) (p : Fin 4) (imm : BitVec 16) (s : State) : Host.Outcome State Fault Refusal :=
  run1 (.brnegNp a p imm) (branch false p (condOn condNeg a) imm.toInt) s

/-- The link register (R157, R170). -/
def linkReg : Opnd := .g 15

/-- A call (R170): `g15` := the PC after the group, and the PC moves by `disp`. -/
def bodyCall (len : Nat) (disp : Int) : TM Unit := do
  let k ← getTk
  write32 linkReg (BitVec.ofInt 32 (k.pc + len))
  setNext (k.pc + disp)

/-- `call` (R170). -/
def execCall (imm : BitVec 16) (s : State) : Host.Outcome State Fault Refusal :=
  run1 (.call imm) (bodyCall 1 imm.toInt) s

/-- `jr` (R170). -/
def execJr (a : Opnd) (s : State) : Host.Outcome State Fault Refusal :=
  run1 (.jr a) (do
    let x ← read32 a
    setNext (x.toNat : Int)) s

/-- `callr`: s1 is read first (R170). -/
def execCallr (a : Opnd) (s : State) : Host.Outcome State Fault Refusal :=
  run1 (.callr a) (do
    let x ← read32 a
    let k ← getTk
    write32 linkReg (BitVec.ofInt 32 (k.pc + 1))
    setNext (x.toNat : Int)) s

/-- The lowest output port with an open record. -/
def openPort (s : State) (t : Nat) : List (Option Nat) → Nat → Option Nat
  | [], _ => none
  | some c :: r, k =>
    if ((s.chan? t c).bind ChanRt.opn).isSome then some k else openPort s t r (k + 1)
  | none :: r, k => openPort s t r (k + 1)

/-- The current records of input ports other than the trigger port released (R154, R176). -/
def releasePorts (s : State) (t trigp : Nat) (inp : Vector InPort 16) : List (Option Nat) → Nat → State
  | [], _ => s
  | some c :: r, k =>
    let cur := (inp[k]?.map InPort.cur).getD false
    releasePorts (if cur && k != trigp then releaseHead s t c else s) t trigp inp r (k + 1)
  | none :: r, k => releasePorts s t trigp inp r (k + 1)

/-- The activation is over: no firing of a resident record has been used in the next one (R176). -/
def newActivation (s : State) (t : Nat) : List (Option Nat) → State
  | [] => s
  | some c :: r => newActivation (s.modChan t c (fun x => { x with taken := false })) t r
  | none :: r => newActivation s t r

/-- No current record on any port. -/
def noInputs : Vector InPort 16 := Vector.replicate 16 { cur := false, idx := 0 }

/-- Retirement of an activation (R154): it waits until every register that awaits a reply is written, and takes the trap of a flagged fetch
that wrote one (R380); then the input records are
released, the trigger record last, `acts` rises, and the node is IDLE; `tstat` is cleared (R376). -/
def bodyEnd : TM Unit := do
  let k ← getTk
  let s ← getS
  let t ← getT
  match openPort s t k.outCh.toList 0 with
  | some p => raise cRecordState (BitVec.ofNat 64 p)
  | none => pure ()
  match k.wflags.find? (fun f => f.dst.isSome) with
  | some f => stop (.watch f)
  | none => pure ()
  stallUnless (k.pend.isEmpty)
  modS (fun s => releasePorts s t k.trigp k.inp k.inCh.toList 0)
  match k.inCh[k.trigp]? with
  | some (some c) => modS (fun s => useHead s t c)
  | _ => pure ()
  modS (fun s => newActivation s t k.inCh.toList)
  modTk (fun k => { k with st := .idle, acts := k.acts + 1, tstat := 0, inp := noInputs })
  setNext 0

/-- `end` (R154, R171). -/
def execEnd_ (s : State) : Host.Outcome State Fault Refusal := run1 .end_ bodyEnd s

/-- `nop` (R171). -/
def execNop (s : State) : Host.Outcome State Fault Refusal := run1 .nop (pure ()) s

/-- `dbnz` (R172). -/
def execDbnz (d : Opnd) (imm : BitVec 14) (s : State) : Host.Outcome State Fault Refusal :=
  run1 (.dbnz d imm) (do
    let x ← read32 d
    write32 d (x - 1)
    let k ← getTk
    if x - 1 != 0 then setNext (k.pc + imm.toInt)) s

/-- CODE_RANGE: a fetch outside the code partition (R135). Of a prefix group that runs off the end, R135 makes `tpc` the index modulo 2^16, which can be
read as that of the word fetched, and R134 makes the trap PC of a fault anywhere in a group that of the prefix; the model's choice is the prefix's index,
with the fetched word's as the argument (DESIGN CHOICE, assumption 89). -/
def execCodeRangeFetch (index : Int) (s : State) : Host.Outcome State Fault Refusal :=
  runTask (.codeRangeFetch index) 0 1 (raise cCodeRange (BitVec.ofInt 64 index)) s

/-- ILLEGAL_INSTRUCTION: a word that is no instruction (R131, R136). -/
def execIllegalInstruction (word : BitVec 32) (s : State) : Host.Outcome State Fault Refusal :=
  runTask (.illegalInstruction word) word 1 (raise cIllegal (word.setWidth 64)) s

end Sys2Proof.Machine
end

