-- ==== Sys2Proof/Machine/Home.lean ====
section
/-! DEFINITION. Global memory: homes (R262), page tables and translations (R259 to R268), data watchpoints (R379), live gate words
(R305), and a task's requests (R272). -/

namespace Sys2Proof.Machine

/-! ### Homes (R262, R263) -/

/-- Live capacity of slice `h`: 1.5 GB for each live channel of its sixteen (R262). -/
def sliceLive (r : RepairMap) (h : Nat) : Nat :=
  (16 - (r.deadChannels.filter (fun c => c / 16 == h)).length) * 1500000000

/-- The least live capacity of slices below `n`. -/
def leastLive (r : RepairMap) : Nat → Nat
  | 0 => 24000000000
  | n + 1 => min (sliceLive r n) (leastLive r n)

/-- The bytes `C` each S7 slice exposes: the largest multiple of 512 MiB at most 20.5 GiB and any slice's live capacity (R262). -/
def sliceBytes (r : RepairMap) : Nat := min 41 (leastLive r 32 / 536870912) * 536870912

/-- Whether a physical address lies in the device physical space (R262). -/
def paInSpace (r : RepairMap) (pa : Nat) : Bool := decide (pa < 32 * sliceBytes r)

/-- The home slice of a physical address and the offset within it (R262). -/
def homePa (pa : Nat) : Nat × Nat :=
  let b := pa >>> 8
  let h := (b ^^^ (b >>> 5) ^^^ (b >>> 10) ^^^ (b >>> 15) ^^^ (b >>> 20) ^^^ (b >>> 25) ^^^ (b >>> 30)) % 32
  (h, (b >>> 5) * 256 + pa % 256)

/-- The number of a sparse-update unit: level, die and slice index as in a slice locator (R146, R283). -/
def unitOf (level die idx : Nat) : Nat := level * 8192 + die * 2048 + idx

/-- The unit of S7 slice `h` (R262, R283). -/
def unitS7 (h : Nat) : Nat := unitOf 2 (h / 8) (h % 8)

/-- The die of a unit. -/
def unitDie (u : Nat) : Nat := u / 2048 % 4

/-- The unit that is home to a physical address. -/
def homeUnit (pa : Nat) : Nat := unitS7 (homePa pa).1

/-! ### Addresses and page tables (R259, R260, R266) -/

/-- Whether an address is canonical (R259). -/
def canonical (va : Nat) : Bool := decide (va < 2 ^ 57)

/-- Whether an address is device-local (R259). -/
def isDevice (va : Nat) : Bool := bitOf va 56

/-- The outcome of a table walk, or of the host's own tables. -/
inductive Walk where
  | ok (e : Tlb)
  /-- Not mapped: a page request follows (R267). -/
  | invalid
  /-- PAGE_FAULT with this cause: 4 outside the device physical space, 5 malformed (R267). -/
  | bad (cause : Nat)

/-- A page-table entry in device memory. -/
def pte (s : State) (table idx : Nat) : Nat := leNat (s.devMem.read (table + 8 * idx) 8)

/-- The index bits of a level (R266). -/
def pteIndex (level va : Nat) : Nat :=
  match level with
  | 4 => bitsOf va 48 8
  | 3 => bitsOf va 39 9
  | 2 => bitsOf va 30 9
  | 1 => bitsOf va 21 9
  | _ => bitsOf va 12 9

/-- The page size of a leaf (R266). -/
def leafSize (level : Nat) : Nat := match level with | 2 => 2 ^ 30 | 1 => 2 ^ 21 | _ => 4096

/-- Whether an entry is malformed at its level, by its own bits (R266). -/
def pteMalformed (level e : Nat) : Bool :=
  let l := bitOf e 1
  bitsOf e 5 7 != 0 || bitsOf e 40 24 != 0 || (l && decide (3 ≤ level)) || (!l && level == 0)
    || (!l && (bitOf e 2 || bitOf e 3 || bitOf e 4)) || (l && bitOf e 4 && level != 0)
    || (l && bitsOf e 12 28 * 4096 % leafSize level != 0)

/-- Whether the sixteen entries around index `idx` form one 64 KiB page with entry `e` (R266). -/
def pteGroup (s : State) (table idx e : Nat) : Bool :=
  let base := idx / 16 * 16
  let pa0 := bitsOf e 12 28 * 4096 - (idx - base) * 4096
  pa0 % 65536 == 0 && (List.range 16).all (fun k =>
    let x := pte s table (base + k)
    bitOf x 0 && bitOf x 1 && bitOf x 4 && bitOf x 2 == bitOf e 2 && bitOf x 3 == bitOf e 3
      && bitsOf x 12 28 * 4096 == pa0 + k * 4096 && bitsOf x 5 7 == 0 && bitsOf x 40 24 == 0)

/-- The walk from a table at `level` (R266). -/
def walkFrom (s : State) (pasid va : Nat) : Nat → Nat → Walk
  | level, table =>
    match level with
    | 0 =>
      let idx := pteIndex 0 va
      let e := pte s table idx
      let pa := bitsOf e 12 28 * 4096
      if !bitOf e 0 then .invalid
      else if pteMalformed 0 e then .bad 5
      else if bitOf e 4 then
        if !pteGroup s table idx e then .bad 5
        else
          let pa0 := pa / 65536 * 65536
          if !paInSpace s.repair (pa0 + 65535) then .bad 4
          else .ok { pasid := pasid, va := va / 65536 * 65536, size := 65536, pa := .dev pa0, r := bitOf e 2, w := bitOf e 3 }
      else if !paInSpace s.repair (pa + 4095) then .bad 4
      else .ok { pasid := pasid, va := va / 4096 * 4096, size := 4096, pa := .dev pa, r := bitOf e 2, w := bitOf e 3 }
    | l + 1 =>
      let e := pte s table (pteIndex (l + 1) va)
      let pa := bitsOf e 12 28 * 4096
      let size := leafSize (l + 1)
      if !bitOf e 0 then .invalid
      else if pteMalformed (l + 1) e then .bad 5
      else if bitOf e 1 then
        if !paInSpace s.repair (pa + size - 1) then .bad 4
        else .ok { pasid := pasid, va := va / size * size, size := size, pa := .dev pa, r := bitOf e 2, w := bitOf e 3 }
      else if !paInSpace s.repair (pa + 4095) then .bad 4
      else walkFrom s pasid va l pa

/-- A translation from the tables: the device OS's for device-local addresses, the host's through ATS (R259, R265, R266). -/
def walk (s : State) (pasid va : Nat) : Walk :=
  if isDevice va then
    match s.roots.get? pasid with
    | some root => walkFrom s pasid va 4 root
    | none => .invalid
  else
    match s.hostPages.find? (fun p => p.pasid == pasid && decide (p.va ≤ va) && decide (va < p.va + p.size)) with
    | some p => .ok { pasid := pasid, va := p.va, size := p.size, pa := .host p.pa, r := p.r, w := p.w }
    | none => .invalid

/-- Whether a translation covers an address of a PASID. -/
def Tlb.covers (e : Tlb) (pasid va : Nat) : Bool := e.pasid == pasid && decide (e.va ≤ va) && decide (va < e.va + e.size)

/-- The physical address under a translation. -/
def Tlb.phys (e : Tlb) (va : Nat) : Phys :=
  match e.pa with
  | .dev a => .dev (a + (va - e.va))
  | .host a => .host (a + (va - e.va))

/-- The translation a place holds (R265). -/
def State.tlb? (s : State) (l : Layer) (pasid va : Nat) : Option Tlb :=
  (s.tlbs.find? (fun x => x.1 == l && x.2.covers pasid va)).map Prod.snd

/-- The 4 KiB page of an address, which a page request names. -/
def pageOf (va : Nat) : Nat := va / 4096 * 4096

/-- What a translation gives its requester. -/
inductive Xlate where
  | hit (e : Tlb)
  /-- PAGE_FAULT, with its cause. `final`: it is the failure of a page request, which is used up (R267). -/
  | fail (cause : Nat) (final : Bool)
  /-- A refill is awaited (R265). -/
  | miss
  /-- A page request goes out (R267). -/
  | ask

/-- Whether ATS and PRI serve no host-shared access of a process: the module lacks HOSTSHARED, or the host has disabled the PASID (R68, R387;
assumption 55). -/
def State.noHost (s : State) (pasid : Nat) : Bool := !bitOf s.dawn.caps.toNat 0 || s.pasidOff.contains pasid

/-- A translation as its requester meets it: an entry of its own place, or what stands in the way (R68, R265, R267, R387). -/
def translate (s : State) (l : Layer) (pasid va : Nat) : Xlate :=
  if !isDevice va && s.noHost pasid then .fail 1 false
  else
    match s.tlb? l pasid va with
    | some e => .hit e
    | none =>
      match walk s pasid va with
      | .ok _ => .miss
      | .bad c => .fail c false
      | .invalid =>
        if s.pageFails.contains (l, pasid, pageOf va) then .fail 1 true
        else if s.pageReqs.contains (l, pasid, pageOf va) then .miss
        else .ask

/-- A page request sent; beyond 512 from the host port it waits (R267, R387). -/
def askPage (s : State) (l : Layer) (pasid va : Nat) : State :=
  if !isDevice va && decide (512 ≤ (s.pageReqs.filter (fun r => !isDevice r.2.2)).length) then s
  else { s with pageReqs := s.pageReqs ++ [(l, pasid, pageOf va)] }

/-- The answer to a page request used up. -/
def dropPageFail (l : Layer) (pasid va : Nat) (s : State) : State :=
  { s with pageFails := s.pageFails.filter (fun r => r != (l, pasid, pageOf va)) }

/-- The argument of PAGE_FAULT: the address and the cause (R370). -/
def pageArg (va cause : Nat) : W64 := BitVec.ofNat 64 (va % 2 ^ 57 + cause * 2 ^ 57)

/-! ### Watchpoints (R379) and live gate words (R305) -/

/-- The first byte of a range that lies in a watchpoint (R379). -/
def watchByte (w : Watchpoint) : Nat → Nat → Option Nat
  | _, 0 => none
  | a, n + 1 =>
    if w.base ≤ a ∧ a < w.base + 8 * w.units ∧ bitOf w.mask.toNat (a % 8) = true then some a else watchByte w (a + 1) n

/-- The argument of WATCH_HIT for an access of `len` bytes of a kind code: the lowest-numbered matching watchpoint and its first
matched byte (R370, R379, R380). Kind 6 is a generator's read, and 7 stands for its write, which has the same code. -/
def watchFrom (kind a len : Nat) : List (Option Watchpoint) → Nat → Option W64
  | [], _ => none
  | none :: r, k => watchFrom kind a len r (k + 1)
  | some w :: r, k =>
    let armed := match kind with
      | 0 => w.rd | 4 => w.rd | 1 => w.wr | 5 => w.wr | 2 => w.at_ | 3 => w.at_ | 6 => w.rd | _ => w.wr
    match (if armed then watchByte w a len else none) with
    | some b => some (BitVec.ofNat 64 (b % 2 ^ 57 + k * 2 ^ 57 + min kind 6 * 2 ^ 59))
    | none => watchFrom kind a len r (k + 1)

/-- The data-watch check of an access (R379). -/
def Tenure.watchHit (tn : Tenure) (kind a len : Nat) : Option W64 := watchFrom kind a len tn.watch.toList 0

/-- Whether physical bytes are among those of the word of a gate of tenure `t` (R305). -/
def gateUnder (s : State) (t : Nat) (g : GateRt) (pa : Phys) (len : Nat) : Bool :=
  match s.tenures.get? t, pa with
  | some tn, .dev a =>
    g.gaddr != 0 && (match walk s tn.pasid g.gaddr with
      | .ok e => match e.phys g.gaddr with
        | .dev w => decide (a < w + 16) && decide (w < a + len)
        | .host _ => false
      | _ => false)
  | _, _ => false

/-- The gates of the current pound of a tenure, with their node numbers. -/
def gatesOf (s : State) (t : Nat) : List (Nat × GateRt) :=
  (s.gates.filter (fun x => keyT x.1 == t)).map (fun x => (keyN x.1, x.2))

/-- Whether an access touches a word of any live gate: the cell interface turns such a write of a task away, and a home refuses it where the gate has
come to live since (R272, R286, R301, R305, assumption 68). -/
def clobbers (s : State) (pa : Phys) (len : Nat) : Bool := s.gates.any (fun x => gateUnder s (keyT x.1) x.2 pa len)

/-! ### Physical memory -/

/-- Bytes of physical memory. -/
def physRead (s : State) (p : Phys) (n : Nat) : List Byte :=
  match p with
  | .dev a => s.devMem.read a n
  | .host a => s.hostMem.read a n

/-- Bytes written to physical memory, which end a control core's reservation of them (R349). -/
def physWrite (s : State) (p : Phys) (bs : List Byte) : State :=
  match p with
  | .dev a => { s with devMem := s.devMem.write a bs, cores := breakReservations s.cores a bs.length }
  | .host a => { s with hostMem := s.hostMem.write a bs }

/-- The bytes that an access of tenure `t` finds at an address (R345). -/
def memRead (s : State) (t va : Nat) (p : Phys) (n : Nat) : List Byte := viewBytes s t va (physRead s p n)

/-- The bytes that an access of tenure `t` writes at an address (R345). -/
def memWrite (s : State) (t va : Nat) (p : Phys) (bs : List Byte) : State := putView (physWrite s p bs) t va bs

/-- The home unit of a physical address; for host memory the host port, which is on die 0 (R260). -/
def physUnit : Phys → Nat
  | .dev a => homeUnit a
  | .host _ => unitOf 3 0 0

/-- A device physical address, where there is one. -/
def Phys.dev? : Phys → Option Nat
  | .dev a => some a
  | .host _ => none

/-! ### A task's requests (R272) -/

/-- An address is checked to be canonical and aligned (R272, R286). -/
def checkAddr (va : W64) (align : Nat) : TM Unit := do
  raiseIf (!canonical va.toNat) cPageFault (pageArg va.toNat 0)
  raiseIf (va.toNat % align != 0) cGlobalAlign va

/-- The translation of a task's access (R265, R267): waits, or raises PAGE_FAULT; `home`: the operation needs a home slice (R261). -/
def taskXlate (va : Nat) (needR needW home : Bool) : TM Phys := do
  let tn ← getTn
  let s ← getS
  let t ← getT
  let n ← getN
  let l : Layer := .cell t n
  match translate s l tn.pasid va with
  | .hit e =>
    raiseIf (home && !isDevice va) cPageFault (pageArg va 3)
    raiseIf ((needR && !e.r) || (needW && !e.w)) cPageFault (pageArg va 2)
    pure (e.phys va)
  | .fail c fin =>
    if fin then stop (.trapAfter (dropPageFail l tn.pasid va) cPageFault (pageArg va c)) else raise cPageFault (pageArg va c)
  | .miss => stop (.wait false)
  | .ask => stop (.ask (fun s => askPage s l tn.pasid va))

/-- The data-watch check at the cell interface (R380). -/
def taskWatch (kind va len : Nat) : TM Unit := do
  match (← getTn).watchHit kind va len with
  | some a => raise cWatchHit a
  | none => pure ()

/-- A message of the task leaves for the home of an access; its number is returned (R272). -/
def taskSend (unit : Nat) (k : MsgKind) : TM Nat := do
  let tn ← getTn
  let m := (← getS).nextMsg
  modST (fun s t n => sendMsg s t n none (tn.dieOf n) (unitDie unit) unit k)
  pure m

/-- A task counts one more operation on a scoreboard token; it waits while the count is 255 (R269). -/
def takeToken (tok : BitVec 3) : TM Unit := do
  let k ← getTk
  let n := tok.toFin
  stallUnless (k.sbcnt[n] != 255)
  modTk (fun k => { k with sbcnt := k.sbcnt.set n (k.sbcnt[n] + 1) })

/-- `updpend` rises by 1; the task waits while it is 255 (R286, R290, R293). -/
def takeUpd : TM Unit := do
  stallUnless ((← getTk).updpend != 255)
  modTk (fun k => { k with updpend := k.updpend + 1 })

/-- The home unit of a window's word: the home of its physical address, or the slice of a local window. -/
def Tenure.winUnit (tn : Tenure) (w : WinE) (pa : Option Nat) : Nat :=
  match pa with
  | some a => homeUnit a
  | none =>
    match (tn.winNode? w).bind (fun n => tn.place.bind (fun p => p.slices.get? n)) with
    | some loc => loc / 65536
    | none => 0

/-! ### Which lighter (R19, R276) -/

/-- The S7 slice of the die above a node, and its die (R17, R146). -/
def Tenure.s7Of (tn : Tenure) (n : Nat) : Nat × Nat :=
  match tn.place with
  | none => (tn.die, 0)
  | some p =>
    match p.sites.get? n with
    | some site => (site / 131072, site / 16384 % 8)
    | none =>
      match p.slices.get? n with
      | some loc =>
        let idx := bitsOf loc 16 11
        (bitsOf loc 27 2, match bitsOf loc 29 2 with | 0 => idx / 256 | 1 => idx / 16 | 2 => idx | _ => 0)
      | none => (tn.die, 0)

/-- The lighter that port `port` names for a node (R276). -/
def Tenure.lighterOf (tn : Tenure) (n port : Nat) : Nat :=
  let (d, s7) := tn.s7Of n
  if port = 0 then 12 * d + s7 else 12 * d + 7 + port

/-- The lighter that serves port `port` of a node: the one the port names, or, where the part record does not enable that one, another that it does
(R276, R404; which one is a DESIGN CHOICE, assumption 61, and changes no result, R276). -/
def State.lighterOf (s : State) (tn : Tenure) (n port : Nat) : Nat :=
  let k := tn.lighterOf n port
  let m := s.enabled 4 48
  if k < m ∨ m = 0 then k else k % m

/-! ### Residual tiles (R297, R298) -/

/-- Whether a translation of a window word is at hand, without a fault: the physical address of a global-home window's word. -/
def winPa? (s : State) (tn : Tenure) (w : WinE) (va : Nat) : Option Nat :=
  if w.isLocal then none
  else
    match walk s tn.pasid va with
    | .ok e => (e.phys va).dev?
    | _ => none

/-- A residual leaves on the flush lane (R298): from the cell of node `n`, or from a lighter. -/
def flushOne (s : State) (t n : Nat) (lighter : Option Nat) (srcDie : Nat) (r : Residual) : State :=
  match s.tenures.get? t with
  | none => s
  | some tn =>
    match tn.win? r.wid with
    | none => s
    | some w =>
      let pa := winPa? s tn w r.addr
      let u := tn.winUnit w pa
      sendMsg s t n lighter srcDie (unitDie u) u (.flush r.wid r.addr pa r.part r.flags)

/-- Residuals leave on the flush lane in order. -/
def flushList (s : State) (t n : Nat) (lighter : Option Nat) (srcDie : Nat) : List Residual → State
  | [] => s
  | r :: rs => flushList (flushOne s t n lighter srcDie r) t n lighter srcDie rs

/-- The task flushes the entries of its tile that satisfy `p`, each adding 1 to `updpend` (R294, R298). It waits while `updpend` has
no room. -/
def taskFlush (p : Residual → Bool) : TM Unit := do
  let k ← getTk
  let go := k.tile.filter p
  let tn ← getTn
  stallUnless (decide (k.updpend.toNat + go.length ≤ 255))
  modST (fun s t n => flushList s t n none (tn.dieOf n) go)
  modTk (fun k => { k with tile := k.tile.filter (fun r => !p r), updpend := k.updpend + BitVec.ofNat 8 go.length })

end Sys2Proof.Machine
end

