-- ==== Sys2Proof/Machine/Ports.lean ====
section
/-! DEFINITION. The task's channel and record instructions (R176 to R181), the activation's start (R150 to R152), and bank memory
(R173 to R175). -/

namespace Sys2Proof.Machine

/-- The port of an O or I specifier. -/
def Opnd.port16 : Opnd → Fin 16
  | .i p => p
  | .o p => p
  | .g n => n
  | .a n => ⟨n.val, by omega⟩
  | .v n => ⟨n.val, by omega⟩

/-- The checks of `open`: none open, a sound header, a length within the channel's width (R35, R179). -/
def openChecks (p : Fin 16) (h : W64) : TM Nat := do
  let c ← outChan p
  let ch ← getChan c
  raiseIf ch.opn.isSome cRecordState (BitVec.ofNat 64 p.val)
  match checkHeader h with
  | some code => raise code h
  | none => pure ()
  raiseIf (decide (ch.e.width < hLen h)) cRecordLength h
  pure c

/-- Waits for a free slot and reserves it for a record (R35, R153, R179). -/
def openSlot (c : Nat) (h : W64) : TM Unit := do
  let ch ← getChan c
  blockUnless (decide (0 < ch.free))
  modST (fun s t _ => s.modChan t c (fun x => { x with opn := some { hdr := h, units := [] } }))

/-- `close` on a port (R179): the record is complete and leaves. A stern follows the cell's residuals (R298). -/
def closePort (p : Fin 16) : TM Unit := do
  let c ← outChan p
  let ch ← getChan c
  match ch.opn with
  | none => raise cRecordState (BitVec.ofNat 64 p.val)
  | some r =>
    raiseIf (r.units.length != hLen r.hdr) cRecordLength r.hdr
    if rType r == tStern then taskFlush (fun _ => true)
    modST (fun s t n => sendRec (s.modChan t c (fun x => { x with opn := none })) t c (Rec.follow r (closedOrd s t n)))

/-- `open` (R179). An I source is a unit popped from the current record, for which it waits as R178 has it (R132; assumption 67). -/
def execOpen_ (d a : Opnd) (s : State) : Host.Outcome State Fault Refusal :=
  run1 (.open_ d a) (do
    let h ← read64 a
    let c ← openChecks (Opnd.port16 d) h
    openSlot c h) s

/-- `close` (R179). -/
def execClose (d : Opnd) (s : State) : Host.Outcome State Fault Refusal := run1 (.close d) (closePort (Opnd.port16 d)) s

/-- `send`: `open` followed at once by `close`, with a header of len 0 (R180). An I source is a unit popped (assumption 67). -/
def execSend (d a : Opnd) (s : State) : Host.Outcome State Fault Refusal :=
  run1 (.send d a) (do
    let h ← read64 a
    let c ← openChecks (Opnd.port16 d) h
    raiseIf (hLen h != 0) cRecordLength h
    openSlot c h
    closePort (Opnd.port16 d)) s

/-- `next`: releases the current record, whatever units remain (R176, R178). -/
def execNext_ (a : Opnd) (s : State) : Host.Outcome State Fault Refusal :=
  run1 (.next_ a) (do
    let p := Opnd.port16 a
    let k ← getTk
    raiseIf (p.val == k.trigp) cRecordState (BitVec.ofNat 64 p.val)
    let _ ← currentRec p
    let c ← inChan p
    modST (fun s t _ => releaseHead s t c)
    modTk (fun k => { k with inp := k.inp.set p { cur := false, idx := 0 } })) s

/-- `hdr` (R178). -/
def execHdr (d a : Opnd) (s : State) : Host.Outcome State Fault Refusal :=
  run1 (.hdr d a) (do write64 d (← currentRec (Opnd.port16 a)).hdr) s

/-- `left` (R178). -/
def execLeft (d a : Opnd) (s : State) : Host.Outcome State Fault Refusal :=
  run1 (.left d a) (do
    let p := Opnd.port16 a
    let r ← currentRec p
    write32 d (BitVec.ofNat 32 (hLen r.hdr - (← getTk).inp[p].idx))) s

/-- Raises a fault whose argument the spec does not state: a free value (assumption 67). -/
def raiseFree {α : Type} (code : Nat) : TM α := do
  let s ← getS
  stop (.trapAfter State.tookFree code (Config.freeWord s.freeCtr))

/-- `cpy` (R181). The argument of RECORD_LENGTH for a count over 1,024 is the open record's header, and free where no record is open, for
which no rule states one (assumption 67). -/
def execCpy (d a b : Opnd) (s : State) : Host.Outcome State Fault Refusal :=
  run1 (.cpy d a b) (do
    let p := Opnd.port16 a
    let r ← currentRec p
    let n := (← read32 b).toNat
    let c ← outChan (Opnd.port16 d)
    let ch ← getChan c
    if 1024 < n then
      match ch.opn with
      | some o => raise cRecordLength o.hdr
      | none => raiseFree cRecordLength
    let k := (← getTk).inp[p].idx
    raiseIf (decide (hLen r.hdr < k + n)) cOverrun (BitVec.ofNat 64 p.val)
    match ch.opn with
    | none => raise cRecordState (BitVec.ofNat 64 (Opnd.port16 d).val)
    | some o =>
      raiseIf (decide (hLen o.hdr < o.units.length + n)) cRecordLength o.hdr
      let us := (r.units.drop k).take n
      modTk (fun x => { x with inp := x.inp.set p { cur := true, idx := k + n } })
      modST (fun s t _ => s.modChan t c (fun x => { x with opn := some { o with units := o.units ++ us } }))) s

/-! ### Activations (R150 to R152) -/

/-- The head of a task's trigger channel, with its channel. -/
def trigHead (s : State) (t : Nat) (tk : TaskRt) : Option (Nat × Rec) :=
  match tk.inCh[tk.trigp]? with
  | some (some c) => (s.chan? t c).bind (fun ch => ch.buf.head?.map (fun r => (c, r)))
  | _ => none

/-- A trigger record of the wrong format is discarded before it starts anything, and the node halts (R41). -/
def trigMismatch (s : State) (t n c : Nat) : State := nodeFault (popHead s t c) t n cFormat (BitVec.ofNat 64 c)

/-- ACTIVATION_START: with an idle task and a Data or control-token record at the head of its trigger channel, an activation starts at
PC 0 (R150, R151, R176). -/
def activationStart (t n : Nat) (s : State) : State :=
  match s.tasks.get? (key2 t n), s.tenures.get? t with
  | some tk, some tn =>
    if tk.st != .idle || tk.nullLeft.isSome || !tn.moves then s
    else
      match trigHead s t tk with
      | none => s
      | some (c, r) =>
        if !fmtAccepts (tk.fmt.ins[tk.trigp]?.getD 0) r.hdr then trigMismatch s t n c
        else if rType r == tNull then s
        else
          let inp := if h : tk.trigp < 16 then tk.inp.set tk.trigp { cur := true, idx := 0 } h else tk.inp
          let tk := { tk with st := .running, pc := 0, inp := inp, trigSeq := hSeq r.hdr, srCount := 0 }
          orderRec { s with tasks := s.tasks.set (key2 t n) tk } t n r
  | _, _ => s

/-- ACTIVATION_START (R151). -/
def execActivationStart (s : State) : Host.Outcome State Fault Refusal :=
  match s.subj with
  | .node t n => .next (activationStart t n s)
  | _ => .next s

/-- Output ports that forward Nulls: the bit in `nullfwd` is 1 and there is a channel (R152). -/
def forwardPorts (tk : TaskRt) : List Nat :=
  (List.range 16).filter (fun p => bitOf tk.nullfwd.toNat p && (tk.outCh[p]?.bind id).isSome)

/-- Nulls sent on those ports of a list that have a free slot; the ports left (R152). Each Null waits for its own port alone (assumption
67). -/
def forwardNulls (s : State) (t : Nat) (tk : TaskRt) (r : Rec) : List Nat → State × List Nat
  | [] => (s, [])
  | p :: ps =>
    match tk.outCh[p]?.bind id with
    | none => forwardNulls s t tk r ps
    | some c =>
      match s.chan? t c with
      | none => forwardNulls s t tk r ps
      | some ch =>
        if 0 < ch.free then forwardNulls (sendRec s t c (madeNull r.hdr)) t tk r ps
        else
          let (s, left) := forwardNulls s t tk r ps
          (s, p :: left)

/-- NULL_TRIGGER: a Null at the head of the trigger channel of an idle task is taken without an activation; a made Null goes to each
null-forwarding output as its slot frees, the node counting as BLOCKED until then, and the Null is released (R152, R417). -/
def nullTrigger (t n : Nat) (s : State) : State :=
  match s.tasks.get? (key2 t n), s.tenures.get? t with
  | some tk, some tn =>
    if (tk.st != .idle && tk.nullLeft.isNone) || tk.st == .halted || !tn.moves then s
    else
      match trigHead s t tk with
      | none => s
      | some (c, r) =>
        if !fmtAccepts (tk.fmt.ins[tk.trigp]?.getD 0) r.hdr then trigMismatch s t n c
        else if rType r != tNull then s
        else
          let ports := match tk.nullLeft with
            | some (_, ps) => ps
            | none => forwardPorts tk
          let (s, left) := forwardNulls s t tk r ports
          if left.isEmpty then
            let s := useHead s t c
            { s with tasks := s.tasks.set (key2 t n) { tk with nullLeft := none, st := .idle } }
          else { s with tasks := s.tasks.set (key2 t n) { tk with nullLeft := some (r, left), st := .blocked } }
  | _, _ => s

/-- NULL_TRIGGER (R152). -/
def execNullTrigger (s : State) : Host.Outcome State Fault Refusal :=
  match s.subj with
  | .node t n => .next (nullTrigger t n s)
  | _ => .next s

/-! ### Bank memory (R173 to R175) -/

/-- The bank address of a base and an offset, checked for range and alignment (R173). R173 states the sign extension of a G base and does not say whether a
64-bit A base is signed before the offset is added; the model's choice is that it is (DESIGN CHOICE, assumption 90). -/
def bankAddr (base : Opnd) (off : Int) (size : Nat) : TM Nat := do
  let b ← read64 base
  let ea := b.toInt + off
  let k ← getTk
  raiseIf (decide (ea < 0) || decide ((k.bankBytes : Int) < ea + size)) cBankRange (BitVec.ofInt 64 ea)
  raiseIf (decide (ea % size ≠ 0)) cBankAlign (BitVec.ofInt 64 ea)
  pure ea.toNat

/-- The bytes of an access to the bank as a number, sign-extended to 32 bits or not (R173). -/
def extendTo32 (signed : Bool) (size : Nat) (x : Nat) : W32 := if signed then BitVec.ofInt 32 (sextInt x (8 * size)) else BitVec.ofNat 32 x

/-- A bank load of at most 4 bytes (R173). -/
def bodyLd (signed : Bool) (size : Nat) (d b : Opnd) (off : Int) : TM Unit := do
  let ea ← bankAddr b off size
  let x := leNat ((← getTk).bank.read ea size)
  write32 d (extendTo32 signed size x)

/-- `ld.d` (R173). -/
def bodyLdD (d b : Opnd) (off : Int) : TM Unit := do
  let ea ← bankAddr b off 8
  let x := leNat ((← getTk).bank.read ea 8)
  write64 d (BitVec.ofNat 64 x)

/-- A bank store: the address is checked before the data is read (R174). -/
def bodySt (size : Nat) (d b : Opnd) (off : BitVec 12) : TM Unit := do
  let ea ← bankAddr b off.toInt size
  let x ← if size = 8 then read64 d else do pure ((← read32 d).setWidth 64)
  modTk (fun k => { k with bank := k.bank.write ea (leBytes x.toNat size) })

/-- `ld.s8` (R173). -/
def execLdS8 (d b : Opnd) (off : BitVec 14) (s : State) : Host.Outcome State Fault Refusal :=
  run1 (.ldS8 d b off) (bodyLd true 1 d b off.toInt) s
/-- `ld.z8` (R173). -/
def execLdZ8 (d b : Opnd) (off : BitVec 14) (s : State) : Host.Outcome State Fault Refusal :=
  run1 (.ldZ8 d b off) (bodyLd false 1 d b off.toInt) s
/-- `ld.s16` (R173). -/
def execLdS16 (d b : Opnd) (off : BitVec 14) (s : State) : Host.Outcome State Fault Refusal :=
  run1 (.ldS16 d b off) (bodyLd true 2 d b off.toInt) s
/-- `ld.z16` (R173). -/
def execLdZ16 (d b : Opnd) (off : BitVec 14) (s : State) : Host.Outcome State Fault Refusal :=
  run1 (.ldZ16 d b off) (bodyLd false 2 d b off.toInt) s
/-- `ld.w` (R173). -/
def execLdW (d b : Opnd) (off : BitVec 14) (s : State) : Host.Outcome State Fault Refusal :=
  run1 (.ldW d b off) (bodyLd false 4 d b off.toInt) s
/-- `ld.d` (R173). -/
def execLdD (d b : Opnd) (off : BitVec 14) (s : State) : Host.Outcome State Fault Refusal :=
  run1 (.ldD d b off) (bodyLdD d b off.toInt) s
/-- `st.b` (R174). -/
def execStB (d b : Opnd) (off : BitVec 12) (s : State) : Host.Outcome State Fault Refusal := run1 (.stB d b off) (bodySt 1 d b off) s
/-- `st.h` (R174). -/
def execStH (d b : Opnd) (off : BitVec 12) (s : State) : Host.Outcome State Fault Refusal := run1 (.stH d b off) (bodySt 2 d b off) s
/-- `st.w` (R174). -/
def execStW (d b : Opnd) (off : BitVec 12) (s : State) : Host.Outcome State Fault Refusal := run1 (.stW d b off) (bodySt 4 d b off) s
/-- `st.d` (R174). -/
def execStD (d b : Opnd) (off : BitVec 12) (s : State) : Host.Outcome State Fault Refusal := run1 (.stD d b off) (bodySt 8 d b off) s

end Sys2Proof.Machine
end

