-- ==== Sys2Proof/Machine/System.lean ====
section
/-! DEFINITION. System registers, traps and the long-immediate prefix (R134, R159, R270, R290, R374 to R378). -/

namespace Sys2Proof.Machine

/-- The OR of a tenure's home flag registers (R289). -/
def Tenure.homeOr (tn : Tenure) : BitVec 5 := tn.homeFlags.toList.foldl (fun x y => x ||| y) 0

/-- Whether a floating-point atomic of the node has not been performed yet (R289). -/
def faddPending (s : State) (t n : Nat) : Bool :=
  s.net.any (fun x => x.t == t && x.node == n && x.lighter.isNone && (match x.kind with
    | .atomic .faddFp32 _ _ _ _ _ _ _ _ => true
    | .atomic .faddBf16 _ _ _ _ _ _ _ _ => true
    | _ => false))

/-- Visible records of a port's channel, or none (R159). -/
def visible (s : State) (t : Nat) (c : Option Nat) : Nat := ((c.bind (s.chan? t)).map (fun ch => ch.buf.length)).getD 0

/-- Free slots of a port's channel; 0 without a channel (R159). -/
def freeSlots (s : State) (t : Nat) (c : Option Nat) : Nat := ((c.bind (s.chan? t)).map ChanRt.free).getD 0

/-- The bits of the tokens whose count is nonzero (R270). -/
def busyBits (k : TaskRt) : Nat := (List.range 8).foldl (fun x n => if (k.sbcnt[n]?.getD 0) != 0 then x + 2 ^ n else x) 0

/-- A value in scale register `m`: with its bit of `sclkind` 1, bits [31:8] are Reserved and read 0 (R9, R126). -/
def sclField (f : Fmt) (m : Nat) (x : W32) : W32 := if bitOf f.sclkind.toNat m then x &&& 0xFF else x

/-- The value of a system register, zero-extended (R159, R126, R374, R270, R290). -/
def sysRead (s : State) (t n : Nat) (tn : Tenure) (k : TaskRt) (r : Nat) : W64 :=
  let ofN (x : Nat) : W64 := BitVec.ofNat 64 x
  let die := tn.dieOf n
  let cycle := s.nowOn die - tn.enteredAt[die]?.getD 0
  if r = 0 then ofN n
  else if r = 1 then tn.lk.lpound.setWidth 64
  else if r = 2 then k.acts.setWidth 64
  else if r = 3 then ofN k.trigp
  else if r = 4 then k.fflags.setWidth 64
  else if r = 5 then k.srseed.setWidth 64
  else if r = 6 then k.nullfwd.setWidth 64
  else if r = 8 then ofN (cycle % 4294967296)
  else if r = 9 then ofN (cycle / 4294967296 % 4294967296)
  else if r < 0x20 then ofN (visible s t (k.inCh[r - 0x10]?.bind id))
  else if r < 0x30 then ofN (freeSlots s t (k.outCh[r - 0x20]?.bind id))
  else if r < 0x110 then ((k.fmt.ins[r - 0x100]?.getD 0)).setWidth 64
  else if r < 0x120 then ((k.fmt.outs[r - 0x110]?.getD 0)).setWidth 64
  else if r < 0x128 then (sclField k.fmt (r - 0x120) (k.fmt.scl[r - 0x120]?.getD 0)).setWidth 64
  else if r = 0x128 then k.fmt.sclkind.setWidth 64
  else if r = 0x200 then k.tvec.setWidth 64
  else if r = 0x201 then k.tpc.setWidth 64
  else if r = 0x202 then k.tcause.setWidth 64
  else if r = 0x203 then (k.targ.extractLsb' 0 32).setWidth 64
  else if r = 0x204 then (k.targ.extractLsb' 32 32).setWidth 64
  else if r = 0x205 then k.tsrc.setWidth 64
  else if r = 0x206 then k.tstat.setWidth 64
  else if r = 0x300 then ofN (busyBits k)
  else if r = 0x301 then k.sberr.setWidth 64
  else if r < 0x310 then ((k.sbcnt[r - 0x308]?.getD 0)).setWidth 64
  else if r = 0x400 then tn.homeOr.setWidth 64
  else if r = 0x401 then k.updpend.setWidth 64
  else ofN k.tile.length

/-- The task after a write to one of its system registers, by the register's access code (R7, R159, R374): bits above the width, and
Reserved bits, are ignored; a write to an RO register changes nothing. -/
def sysWrite (k : TaskRt) (r : Nat) (x : W32) : TaskRt :=
  if r = 4 then { k with fflags := x.truncate 5 }
  else if r = 5 then { k with srseed := x }
  else if r = 6 then { k with nullfwd := x.truncate 16 }
  else if h : 0x120 ≤ r ∧ r < 0x128 then { k with fmt := { k.fmt with scl := k.fmt.scl.set (r - 0x120) (sclField k.fmt (r - 0x120) x) (by omega) } }
  else if r = 0x128 then { k with fmt := { k.fmt with sclkind := x.truncate 8 } }
  else if r = 0x200 then { k with tvec := x.truncate 16 &&& 0x8FFF }
  else if r = 0x201 then { k with tpc := x.truncate 16 }
  else if r = 0x301 then { k with sberr := k.sberr &&& ~~~(x.truncate 8) }
  else k

/-- Every home flag that `x` holds as 1, cleared in every slice (R289). -/
def Tenure.clearHome (tn : Tenure) (x : BitVec 5) : Tenure := { tn with homeFlags := tn.homeFlags.map (fun f => f &&& ~~~x) }

/-- Reading a system register (R377). -/
def bodySysr (d : Opnd) (r : Nat) : TM Unit := do
  let s ← getS
  let t ← getT
  let n ← getN
  if r = 0x400 then stallUnless (!faddPending s t n)
  write64 d (sysRead s t n (← getTn) (← getTk) r)

/-- Writing a system register (R377). -/
def bodySysw (d : Opnd) (r : Nat) : TM Unit := do
  let x ← read32 d
  if r = 0x400 then
    let s ← getS
    stallUnless (!faddPending s (← getT) (← getN))
    modST (fun s t _ => s.modTenure t (fun tn => tn.clearHome (x.truncate 5)))
  else modTk (fun k => sysWrite k r x)

/-- `sysr` (R377). -/
def execSysr (d : Opnd) (reg : BitVec 20) (s : State) : Host.Outcome State Fault Refusal :=
  run1 (.sysr d reg) (bodySysr d reg.toNat) s

/-- `sysw` (R377). -/
def execSysw (d : Opnd) (reg : BitVec 20) (s : State) : Host.Outcome State Fault Refusal :=
  run1 (.sysw d reg) (bodySysw d reg.toNat) s

/-- `trap` (R378). -/
def execTrap (a : Opnd) (s : State) : Host.Outcome State Fault Refusal :=
  run1 (.trap a) (do raise cUserTrap ((← read32 a).setWidth 64)) s

/-- `rte`: resumes at `tpc`; ILLEGAL_INSTRUCTION outside a handler (R376, R378). -/
def execRte (s : State) : Host.Outcome State Fault Refusal :=
  run1 .rte (do
    let k ← getTk
    raiseIf (k.tstat != 1) cIllegal ((instrWord .rte).setWidth 64)
    modTk returnFromTrap
    setNext (k.tpc.toNat : Int)) s

/-- `halt` (R378). -/
def execHalt (s : State) : Host.Outcome State Fault Refusal := run1 .halt (raise cTaskHalt 0) s

/-- `brk` (R378). -/
def execBrk (s : State) : Host.Outcome State Fault Refusal := run1 .brk (raise cBreakpoint 0) s

/-- A prefix group with an instruction that takes no prefix, or whose short field is not 0: nothing of it is performed (R134). -/
def illegalGroup (third : W32) (s : State) : Host.Outcome State Fault Refusal :=
  runTask (.illegalInstruction third) third 3 (raise cIllegal (third.setWidth 64)) s

/-- A prefix group: the third word issues with the 32-bit immediate in place of its own field, which must be 0, and the group takes
three words (R134). -/
def execLongImmediatePrefix (imm third : BitVec 32) (s : State) : Host.Outcome State Fault Refusal :=
  let run (i : Instr) (body : TM Unit) := runTask i third 3 body s
  let i := decodeTaskWord third
  match i with
  | .addiW d a k => if k = 0 then run i (bodyAddiW d a imm) else illegalGroup third s
  | .andiW d a k => if k = 0 then run i (bodyAndiW d a imm) else illegalGroup third s
  | .oriW d a k => if k = 0 then run i (bodyOriW d a imm) else illegalGroup third s
  | .xoriW d a k => if k = 0 then run i (bodyXoriW d a imm) else illegalGroup third s
  | .addiA d a k => if k = 0 then run i (bodyAddiA d a (imm.signExtend 64)) else illegalGroup third s
  | .ldS8 d b k => if k = 0 then run i (bodyLd true 1 d b imm.toInt) else illegalGroup third s
  | .ldZ8 d b k => if k = 0 then run i (bodyLd false 1 d b imm.toInt) else illegalGroup third s
  | .ldS16 d b k => if k = 0 then run i (bodyLd true 2 d b imm.toInt) else illegalGroup third s
  | .ldZ16 d b k => if k = 0 then run i (bodyLd false 2 d b imm.toInt) else illegalGroup third s
  | .ldW d b k => if k = 0 then run i (bodyLd false 4 d b imm.toInt) else illegalGroup third s
  | .ldD d b k => if k = 0 then run i (bodyLdD d b imm.toInt) else illegalGroup third s
  | .liW d k => if k = 0 then run i (write32 d imm) else illegalGroup third s
  | .luiW d k => if k = 0 then run i (write32 d (imm <<< 12)) else illegalGroup third s
  | .sysr d k =>
    if k = 0 ∧ imm.toNat < 1048576 then run (.sysr d (imm.truncate 20)) (bodySysr d imm.toNat) else illegalGroup third s
  | .sysw d k =>
    if k = 0 ∧ imm.toNat < 1048576 then run (.sysw d (imm.truncate 20)) (bodySysw d imm.toNat) else illegalGroup third s
  | .br p k => if k = 0 then run i (branch true p (pure true) imm.toInt) else illegalGroup third s
  | .brz a p k => if k = 0 then run i (branch true p (condOn condZero a) imm.toInt) else illegalGroup third s
  | .brnz a p k => if k = 0 then run i (branch true p (condOn condNonzero a) imm.toInt) else illegalGroup third s
  | .brneg a p k => if k = 0 then run i (branch true p (condOn condNeg a) imm.toInt) else illegalGroup third s
  | .brNp p k => if k = 0 then run i (branch false p (pure true) imm.toInt) else illegalGroup third s
  | .brzNp a p k => if k = 0 then run i (branch false p (condOn condZero a) imm.toInt) else illegalGroup third s
  | .brnzNp a p k => if k = 0 then run i (branch false p (condOn condNonzero a) imm.toInt) else illegalGroup third s
  | .brnegNp a p k => if k = 0 then run i (branch false p (condOn condNeg a) imm.toInt) else illegalGroup third s
  | .call k => if k = 0 then run i (bodyCall 3 imm.toInt) else illegalGroup third s
  | _ => illegalGroup third s

end Sys2Proof.Machine
end

