-- ==== Sys2Proof/Machine/Global.lean ====
section
/-! DEFINITION. Global loads and stores, `waita`, and the arrival of replies (R78, R272 to R274, R280). -/

namespace Sys2Proof.Machine

/-! ### Requests in flight -/

/-- The bytes a request touches at its home: address and length. -/
def MsgKind.range : MsgKind → Option (Nat × Nat)
  | .load va size _ _ _ _ _ => some (va, size)
  | .genLoad _ va size _ => some (va, size)
  | .store va bs _ _ => some (va, bs.length)
  | .atomic _ va size _ _ _ _ _ _ => some (va, size)
  | _ => none

/-- The physical bytes a request touches: address and length. -/
def MsgKind.physRange : MsgKind → Option (Phys × Nat)
  | .load _ size pa _ _ _ _ => some (pa, size)
  | .genLoad _ _ size pa => some (pa, size)
  | .store _ bs pa _ => some (pa, bs.length)
  | .atomic _ _ size pa _ _ _ _ _ => some (.dev pa, size)
  | _ => none

/-- Whether two ranges of physical bytes overlap. -/
def physOverlap (a b : Phys × Nat) : Bool :=
  match a.1, b.1 with
  | .dev x, .dev y => overlaps (x, a.2) (y, b.2)
  | .host x, .host y => overlaps (x, a.2) (y, b.2)
  | _, _ => false

/-- Whether a request of node `n` with a number below `m`, to bytes of `r`, has not been performed or issued to the host port. -/
def earlierIn (s : State) (t n m : Nat) (r : Phys × Nat) : Bool :=
  s.net.any (fun y => y.t == t && y.node == n && y.lighter.isNone && decide (y.id < m) &&
    (match y.kind.physRange with
      | some q => physOverlap r q
      | none => false))

/-- Whether an earlier request of the same node to overlapping bytes has not been performed: a task's global accesses to overlapping
bytes take effect in program order (R273, R286). -/
def earlierOverlap (s : State) (x : Msg) : Bool :=
  match x.kind.physRange with
  | none => false
  | some r => earlierIn s x.t x.node x.id r

/-- Whether a write touches bytes of a range in host memory. -/
def PortWrite.touches (p : PortWrite) (r : Phys × Nat) : Bool :=
  p.segs.any (fun g => physOverlap (.host (p.pa + g.1), g.2.length) r)

/-- Whether a write of a node to bytes of a range is on its way from the host port to host memory (R273, R342). -/
def portHolds (s : State) (t n : Nat) (r : Phys × Nat) : Bool :=
  s.hostPort.any (fun p => p.t == t && p.node == n && p.lighter.isNone && p.touches r)

/-- Whether an access of a tenure with this number, of a node where one is given, comes after a write of the host port (R338, R339). -/
def PortWrite.precedes (p : PortWrite) (n : Option Nat) (id : Nat) : Bool :=
  p.fenced.any (fun b => decide (b ≤ id)) || p.ahead.contains id || p.after.any (fun a => n == some a.1 && decide (a.2 ≤ id))

/-- Whether an access of a tenure has to wait for a write that the host port has issued and that is not performed in host memory: one that is
ordered before it (R338, R339, R340, assumption 36). -/
def fencedOut (s : State) (t : Nat) (n : Option Nat) (id : Nat) : Bool := s.hostPort.any (fun p => p.t == t && p.precedes n id)

/-- The node whose access a message is: none for a lighter's. -/
def Msg.issuer (x : Msg) : Option Nat := if x.lighter.isNone then some x.node else none

/-- Whether a read of a node has to wait for its own earlier writes to bytes of a range, or for what is ordered before it (R273, R340). -/
def readWaits (s : State) (x : Msg) : Bool :=
  match x.kind.physRange with
  | none => false
  | some r => earlierIn s x.t x.node x.id r || portHolds s x.t x.node r || fencedOut s x.t x.issuer x.id

/-- Whether a message's tag is the current tag of its tenure's plane (R78). -/
def tagCurrent (s : State) (x : Msg) : Bool :=
  match s.tenures.get? x.t with
  | some tn => tn.gtag == x.gtag
  | none => false

/-- The die to which the answer to a message of a node, or of a lighter, goes. -/
def replyDie (s : State) (x : Msg) : Nat :=
  match x.lighter with
  | some lt => lt / 12
  | none => (s.tenures.get? x.t).elim 0 (fun tn => tn.dieOf x.node)

/-- Whether a reply has been in transit for more than 2^20 cycles of the die it goes to (R78). -/
def expired (s : State) (x : Msg) : Bool := x.kind.isReply && decide (x.sent + 1048576 < s.nowOn (replyDie s x))

/-- Whether what arrives is delivered: its tag is current, and it is no reply too long in transit (R78). -/
def delivered (s : State) (x : Msg) : Bool := tagCurrent s x && !expired s x

/-- A message consumed where it arrives. -/
def consume (s : State) (x : Msg) : State := countCon (s.dropMsg x.id) x.t x.receiver x.kind

/-- A node's task changed. -/
def State.modTask (s : State) (t n : Nat) (f : TaskRt → TaskRt) : State := { s with tasks := s.tasks.modify (key2 t n) f }

/-- A token's count lowered (R269). -/
def TaskRt.dropToken (k : TaskRt) (tok : Option Nat) : TaskRt :=
  match tok with
  | some n => if h : n < 8 then { k with sbcnt := k.sbcnt.set n (k.sbcnt[n] - 1) } else k
  | none => k

/-- After a write to device memory, each waiter whose word now meets its condition is woken (R280). -/
def wakeWaiters (s : State) : State :=
  { s with tasks := s.tasks.map (fun x =>
      match x.2.wait with
      | .word va pa least false =>
        if least ≤ leNat (memRead s (keyT x.1) va (.dev pa) 8) then (x.1, { x.2 with wait := .word va pa least true }) else x
      | _ => x) }

/-- Bytes performed in physical memory. -/
def perform (s : State) (p : Phys) (bs : List Byte) : State := wakeWaiters (physWrite s p bs)

/-- Bytes performed by an access of tenure `t` (R345). -/
def performAt (s : State) (t va : Nat) (p : Phys) (bs : List Byte) : State := wakeWaiters (memWrite s t va p bs)

/-- A reply sent back to the node that issued `x` (R285). -/
def reply (s : State) (x : Msg) (k : MsgKind) : State :=
  if (s.tenures.get? x.t).isSome then sendMsg s x.t x.node x.lighter (unitDie x.home) (replyDie s x) x.home k else s

/-! ### `gld` and `gst` (R272) -/

/-- The token of an access: none without tk (R272). -/
def tokenOf (tk : Bool) (tok : BitVec 3) : Option Nat := if tk then some tok.toNat else none

/-- A global load (R272): translated and checked, then injected; its destination waits for the reply. -/
def bodyGld (signed : Bool) (size : Nat) (d a : Opnd) (tk : Bool) (tok : BitVec 3) : TM Unit := do
  let va ← read64 a
  checkAddr va size
  let pa ← taskXlate va.toNat true false false
  taskWatch 0 va.toNat size
  useReg d
  if tk then takeToken tok
  let k ← getTk
  let _ ← taskSend (physUnit pa) (.load va.toNat size pa signed d (tokenOf tk tok) (k.pc % 65536).toNat)
  modTk (fun k => { k with pend := k.pend ++ [d] })

/-- A global store (R272). -/
def bodyGst (size : Nat) (d a : Opnd) (tk : Bool) (tok : BitVec 3) : TM Unit := do
  let va ← read64 a
  checkAddr va size
  let x ← if size = 8 then read64 d else do pure ((← read32 d).setWidth 64)
  let pa ← taskXlate va.toNat false true false
  let s ← getS
  raiseIf (clobbers s pa size) cGateClobber va
  taskWatch 1 va.toNat size
  if tk then takeToken tok
  let _ ← taskSend (physUnit pa) (.store va.toNat (leBytes x.toNat size) pa (tokenOf tk tok))
  if !isDevice va.toNat then modTk (fun k => { k with hostDirty := true })

/-- `gld.s8` (R272). -/
def execGldS8 (d a : Opnd) (tk : Bool) (tok : BitVec 3) (s : State) : Host.Outcome State Fault Refusal :=
  run1 (.gldS8 d a tk tok) (bodyGld true 1 d a tk tok) s
/-- `gld.z8` (R272). -/
def execGldZ8 (d a : Opnd) (tk : Bool) (tok : BitVec 3) (s : State) : Host.Outcome State Fault Refusal :=
  run1 (.gldZ8 d a tk tok) (bodyGld false 1 d a tk tok) s
/-- `gld.s16` (R272). -/
def execGldS16 (d a : Opnd) (tk : Bool) (tok : BitVec 3) (s : State) : Host.Outcome State Fault Refusal :=
  run1 (.gldS16 d a tk tok) (bodyGld true 2 d a tk tok) s
/-- `gld.z16` (R272). -/
def execGldZ16 (d a : Opnd) (tk : Bool) (tok : BitVec 3) (s : State) : Host.Outcome State Fault Refusal :=
  run1 (.gldZ16 d a tk tok) (bodyGld false 2 d a tk tok) s
/-- `gld.w` (R272). -/
def execGldW (d a : Opnd) (tk : Bool) (tok : BitVec 3) (s : State) : Host.Outcome State Fault Refusal :=
  run1 (.gldW d a tk tok) (bodyGld false 4 d a tk tok) s
/-- `gld.d` (R272). -/
def execGldD (d a : Opnd) (tk : Bool) (tok : BitVec 3) (s : State) : Host.Outcome State Fault Refusal :=
  run1 (.gldD d a tk tok) (bodyGld false 8 d a tk tok) s
/-- `gst.b` (R272). -/
def execGstB (d a : Opnd) (tk : Bool) (tok : BitVec 3) (s : State) : Host.Outcome State Fault Refusal :=
  run1 (.gstB d a tk tok) (bodyGst 1 d a tk tok) s
/-- `gst.h` (R272). -/
def execGstH (d a : Opnd) (tk : Bool) (tok : BitVec 3) (s : State) : Host.Outcome State Fault Refusal :=
  run1 (.gstH d a tk tok) (bodyGst 2 d a tk tok) s
/-- `gst.w` (R272). -/
def execGstW (d a : Opnd) (tk : Bool) (tok : BitVec 3) (s : State) : Host.Outcome State Fault Refusal :=
  run1 (.gstW d a tk tok) (bodyGst 4 d a tk tok) s
/-- `gst.d` (R272). -/
def execGstD (d a : Opnd) (tk : Bool) (tok : BitVec 3) (s : State) : Host.Outcome State Fault Refusal :=
  run1 (.gstD d a tk tok) (bodyGst 8 d a tk tok) s

/-- A wait whose request or answer, on its way between two dies, is lost on a pair without a live module: the node waits for good (R323, R396). -/
def waitLost (src dst : Nat) : TM Unit := do
  modST (fun s t _ => loseAccess s t src dst)
  modTk (fun k => { k with wait := .lost })
  holdHere true

/-- A request and its answer counted, both injected and consumed (R319): of an access that the model performs in one step. -/
def countBoth (s : State) (t n : Nat) : State := s.modTenure t (fun tn => (tn.injG n 1).conG n 1)

/-- The word of a `waita` looked up (R280): translated, checked and, behind the task's own earlier accesses to it and behind what is ordered
before it (R273, R340), read; where it is below the least value, a waiter is kept at the home and the node counts as blocked until a write meets
the condition. Its request and the notice that answers it are counted (R319, assumption 23); over a die pair without a live module the request is
lost, and the node waits for good (R396). -/
def waitaLookup (va : W64) (least : Nat) : TM Unit := do
  checkAddr va 8
  let pa ← taskXlate va.toNat true false true
  taskWatch 0 va.toNat 8
  let s ← getS
  let t ← getT
  let n ← getN
  stallUnless (!earlierIn s t n s.nextMsg (pa, 8) && !fencedOut s t (some n) s.nextMsg)
  let here := (← getTn).dieOf n
  let home := unitDie (physUnit pa)
  if pairLost s here home then waitLost here home
  else do
    modS (fun s => countBoth s t n)
    if leNat (memRead s t va.toNat pa 8) < least then
      -- what the instruction popped is popped once: it waits with its waiter registered
      modTk (fun k => { k with wait := .word va.toNat ((pa.dev?).getD 0) least false })
      holdHere true
    else do
      modS (fun s => countBoth s t n)
      modTk (fun k => { k with wait := .none })

/-- The notice that a waiter's word meets its condition reaches the node: it is counted (R319), or lost on a die pair without a live module
(R396). -/
def waitaNotice (pa : Nat) : TM Unit := do
  let s ← getS
  let t ← getT
  let n ← getN
  let here := (← getTn).dieOf n
  let home := unitDie (homeUnit pa)
  if pairLost s home here then waitLost home here
  else do
    modS (fun s => countBoth s t n)
    modTk (fun k => { k with wait := .none })

/-- `waita` (R280). After an invalidation it looks its word up again, with the operands it has read (R268). -/
def bodyWaita (a b : Opnd) : TM Unit := do
  match (← getTk).wait with
  | .word _ pa _ true => waitaNotice pa
  | .word _ _ _ false => stop (.wait true)
  | .lost => stop (.wait true)
  | .lookup va least => waitaLookup (BitVec.ofNat 64 va) least
  | _ => do
    let va ← read64 a
    let least ← read32 b
    waitaLookup va least.toNat

/-- `waita` (R280). -/
def execWaita (a b : Opnd) (s : State) : Host.Outcome State Fault Refusal := run1 (.waita a b) (bodyWaita a b) s

/-! ### Replies -/

/-- The value a load writes into its destination (R272): sign- or zero-extended to 32 bits, or 64 bits whole. -/
def loadValue (signed : Bool) (size : Nat) (bs : List Byte) : W64 :=
  if size = 8 then BitVec.ofNat 64 (leNat bs) else (extendTo32 signed size (leNat bs)).signExtend 64

/-- A load's reply reaches its cell (R272, R274): the destination is written, or, where the data has an uncorrectable error, the node
halts with MEMORY_UE against the load's PC; the token's count is lowered either way. -/
def loadArrives (s : State) (x : Msg) (va size : Nat) (bs : List Byte) (ue signed : Bool) (dst : Opnd) (tok : Option Nat)
    (pc : Nat) : State :=
  let s := s.modTask x.t x.node (fun k =>
    let k := { k with pend := k.pend.filter (fun p => p != dst) }
    let k := if ue then k else k.setReg dst (loadValue signed size bs)
    k.dropToken tok)
  if ue then
    reportFault (haltNode s x.t x.node) x.t
      { code := cMemoryUe, src := 0, prec := false, nest := false, node := x.node, engine := 0xFF, pc := pc % 256,
        arg := BitVec.ofNat 64 va }
  else s

/-- A physical address `n` bytes on. -/
def Phys.plus : Phys → Nat → Phys
  | .dev a, n => .dev (a + n)
  | .host a, n => .host (a + n)

/-- The 64-byte block of a physical address. -/
def Phys.block : Phys → Phys
  | .dev a => .dev (a / 64 * 64)
  | .host a => .host (a / 64 * 64)

/-- A physical address within its 64-byte block. -/
def Phys.inBlock : Phys → Nat
  | .dev a => a % 64
  | .host a => a % 64

/-- Bytes at a physical address, those of blocks that the stream caches of a tenure's region hold as they hold them (R264). -/
def cachedBytes (tn : Tenure) (pa : Phys) : List Byte → List Byte
  | [] => []
  | b :: bs =>
    (match tn.streamCache.find? (fun e => e.1 == pa.block) with
      | some e => e.2[pa.inBlock]?.getD b
      | none => b) :: cachedBytes tn (pa.plus 1) bs

/-- Whether the data is declared read-only within the pound, so that stream caches may serve it (R224, R264). -/
def GenRt.ro (g : GenRt) : Bool := bitOf (g.words.headD 0) 106

/-- The `size` bytes that a read stream finds (R264). -/
def streamRead (s : State) (t n va : Nat) (pa : Phys) (size : Nat) : List Byte :=
  let bs := memRead s t va pa size
  match s.gens.get? (key2 t n), s.tenures.get? t with
  | some g, some tn => if g.ro then cachedBytes tn pa bs else bs
  | _, _ => bs

/-- The answer to a generator's read reaches it (R225): the element stands in its place of the run, or, where the data has an uncorrectable
error, the generator halts with MEMORY_UE (R274). -/
def genArrives (s : State) (x : Msg) (idx va : Nat) (bs : List Byte) (ue : Bool) : State :=
  if ue then nodeFault s x.t x.node cMemoryUe (BitVec.ofNat 64 va)
  else { s with gens := s.gens.modify (key2 x.t x.node) (fun g =>
      { g with nest := g.nest.map (fun (y : Nest) => { y with got := y.got.set idx (leNat bs) }) }) }

/-- A read performed at its home: its answer crosses to the reader's die as `k`, or, where home and reader stand on one die, `here` takes it at
once; the answer is counted either way (R319, R394). -/
def answerRead (s : State) (x : Msg) (k : MsgKind) (here : State → State) : State :=
  let s := consume s x
  if replyDie s x = unitDie x.home then here (countCon (countInj s x.t (unitPoint x.home) k) x.t x.near k) else reply s x k

/-- LOAD_REPLY: a load, or a generator's read, is performed at its home, and its reply reaches the cell; where home and cell stand on different
dies the reply crosses first (R225, R272 to R274, R344, R394). -/
def loadReply (m : Nat) (ue : Bool) (s : State) : State :=
  match s.msg? m with
  | none => s
  | some x =>
    if x.cross.isSome then s
    else if !delivered s x then s.dropMsg m
    else
      match x.kind with
      | .load va size pa signed dst tok pc =>
        if readWaits s x then s
        else
          let bs := memRead s x.t va pa size
          answerRead s x (.loadReply va size bs ue signed dst tok pc) (fun s => loadArrives s x va size bs ue signed dst tok pc)
      | .genLoad idx va size pa =>
        if readWaits s x then s
        else
          let bs := streamRead s x.t x.node va pa size
          answerRead s x (.genReply idx va bs ue) (fun s => genArrives s x idx va bs ue)
      | .loadReply va size bs ue' signed dst tok pc => loadArrives (consume s x) x va size bs (ue || ue') signed dst tok pc
      | .genReply idx va bs ue' => genArrives (consume s x) x idx va bs (ue || ue')
      | _ => s

/-- LOAD_REPLY (R272). -/
def execLoadReply (s : State) : Host.Outcome State Fault Refusal :=
  match s.subj with
  | .reply m ue => .next (loadReply m ue s)
  | .msg m => .next (loadReply m false s)
  | _ => .next s

/-- A write to host memory leaves the host port (R337, R342): with relaxed ordering clear where it is told to, and where an earlier write of
the node to its bytes is on its way. `req`: the lighter request it belongs to; `tok`: the token that it, or that request, names. -/
def portIssue (s : State) (x : Msg) (strict : Bool) (req tok : Option Nat) (pa : Nat) (segs : List (Nat × List Byte)) : State :=
  let behind := segs.any (fun g => portHolds s x.t x.node (.host (pa + g.1), g.2.length))
  { s with hostPort := s.hostPort ++ [{ id := x.id, t := x.t, node := x.node, lighter := x.lighter, strict := strict || behind, pa := pa,
                                        segs := segs, req := req, tok := tok, arrs := [], gates := [], fenced := none, after := [], ahead := [] }] }

/-- Bytes written at offsets from an address. -/
def writeSegs (m : Memory) (a : Nat) : List (Nat × List Byte) → Memory
  | [] => m
  | g :: gs => writeSegs (m.write (a + g.1) g.2) a gs

/-- A write of the host port performed in host memory, behind every earlier one where it was sent with relaxed ordering clear (R342). -/
def portPerform (m : Nat) (s : State) : State :=
  match s.hostPort.find? (fun p => p.id == m) with
  | none => s
  | some p =>
    if p.strict && (s.hostPort.head?).map PortWrite.id != some m then s
    else { s with hostMem := writeSegs s.hostMem p.pa p.segs, hostPort := s.hostPort.filter (fun q => q.id != m) }

/-- A store performed at its home, or issued to the host port (R337). -/
def storeOut (s : State) (x : Msg) (va : Nat) (bs : List Byte) (tok : Option Nat) : Phys → State
  | .host a => portIssue s x false none tok a [(0, bs)]
  | .dev a => performAt s x.t va (.dev a) bs

/-- Messages of a node that have not been performed, gone and counted: nothing it has in flight is performed any more (R380). -/
def dropInFlight (s : State) (mine : Msg → Bool) : State :=
  (s.net.filter mine).foldl (fun s y => countCon (s.dropMsg y.id) y.t y.receiver y.kind) s

/-- A generator's store at its home: refused under a live gate word (R305), else performed and its 64-byte block checked against the
watchpoints (R385, assumption 26); at a match the generator halts, and nothing it has still in flight is performed (R379, R380). -/
def genStorePerformed (s : State) (x : Msg) (va : Nat) (pa : Phys) (bs : List Byte) : State :=
  if clobbers s pa bs.length then nodeFault s x.t x.node cGateClobber (BitVec.ofNat 64 va)
  else
    let s := storeOut s x va bs none pa
    match (s.tenures.get? x.t).bind (fun tn => tn.watchHit 7 (va / 64 * 64) 64) with
    | none => s
    | some arg =>
      nodeFault (dropInFlight s (fun y => y.t == x.t && y.node == x.node && y.lighter.isNone)) x.t x.node cWatchHit arg

/-- An imprecise fault that a home raises against the node that issued an access, which halts (R301, R371). -/
def homeFault (s : State) (x : Msg) (code : Nat) (arg : W64) : State := engineFault (haltNode s x.t x.node) x.t code 7 x.node 0xFF arg

/-- A task's store at its home, or at the host port. The home refuses one that touches the word of a gate which was not live yet
when it was issued (R305, assumption 68). -/
def taskStorePerformed (s : State) (x : Msg) (va : Nat) (pa : Phys) (bs : List Byte) (tok : Option Nat) : State :=
  if clobbers s pa bs.length then
    homeFault (s.modTask x.t x.node (fun k => k.dropToken tok)) x cGateClobber (BitVec.ofNat 64 va)
  else (storeOut s x va bs tok pa).modTask x.t x.node (fun k => k.dropToken tok)

/-- Bytes performed but for those of live gate words, which are refused (R277, R305); the first refused address. -/
def performAround (s : State) (t va : Nat) (pa : Phys) : List Byte → State × Option Nat
  | [] => (s, none)
  | b :: bs =>
    if clobbers s pa 1 then ((performAround s t (va + 1) (pa.plus 1) bs).1, some va)
    else performAround (memWrite s t va pa [b]) t (va + 1) (pa.plus 1) bs

/-- The pieces of a block performed around live gate words; the first refused address. -/
def segsAround (s : State) (t va : Nat) (pa : Phys) : List (Nat × List Byte) → State × Option Nat
  | [] => (s, none)
  | g :: gs =>
    let (s, a) := performAround s t (va + g.1) (pa.plus g.1) g.2
    let (s, b) := segsAround s t va pa gs
    (s, a.or b)

/-- A request of a lighter changed. -/
def modReq (s : State) (lt k : Nat) (f : LReq → LReq) : State :=
  { s with lighters := s.lighters.modify lt (fun l => { l with reqs := l.reqs.map (fun (q : LReq) => if q.id == k then f q else q) }) }

/-- A request of a lighter. -/
def req? (s : State) (lt k : Nat) : Option LReq := (s.lighters.get? lt).bind (fun l => l.reqs.find? (fun q => q.id == k))

/-- A request stops at an error and reports it, once (R277). -/
def stopReq (s : State) (lt k code : Nat) (arg : W64) : State :=
  match req? s lt k with
  | some q =>
    if q.stopped then s
    else engineFault (modReq s lt k (fun q => { q with stopped := true, err := true })) q.t code 6 q.node lt arg
  | none => s

/-- A completion word is written (R275). -/
def LReq.cwen (q : LReq) : Bool := bitOf q.u0.toNat 61
/-- The scoreboard token of a request, where it is counted on one (R275). -/
def LReq.token (q : LReq) : Option Nat := if bitOf q.u0.toNat 60 then some (bitsOf q.u0.toNat 57 3) else none

/-- The block number that stands for a completion word. -/
def cwBurst : Nat := 2 ^ 60

/-- A block write of a lighter at its home, or at the host port, where a completion word, and the payload of a request that writes one, are sent
with relaxed ordering clear (R277, R342): gate words under it are refused and reported once, and a watchpoint that its 64-byte block matches stops the request (R277, R305, R379, R380, R385,
assumption 26). -/
def blockPerformed (s : State) (x : Msg) (lt k blk va : Nat) (pa : Phys) (segs : List (Nat × List Byte)) : State :=
  let t := x.t
  let (s, clob) := match pa with
    | .host a => (portIssue s x ((req? s lt k).any LReq.cwen) (some k) ((req? s lt k).bind LReq.token) a segs, none)
    | .dev _ => segsAround s t va pa segs
  let s := modReq (wakeWaiters s) lt k (fun q => { q with out := q.out.filter (fun b => b != blk), done := blk :: q.done })
  let s := match clob, req? s lt k with
    | some a, some q =>
      if q.err then s
      else engineFault (modReq s lt k (fun q => { q with err := true })) t cGateClobber 6 q.node lt (BitVec.ofNat 64 a)
    | _, _ => s
  match (s.tenures.get? t).bind (fun tn => tn.watchHit 5 (va / 64 * 64) 64) with
  | none => s
  | some arg => stopReq s lt k cWatchHit arg

/-- STORE_PERFORMED: a store, or a lighter's block write, is performed at its home, or issued to the host port, after the node's earlier
overlapping accesses; its token's count is lowered (R272, R273, R337). A write that has been issued is performed in host memory (R342). -/
def storePerformed (m : Nat) (s : State) : State :=
  match s.msg? m with
  | none => portPerform m s
  | some x =>
    if x.cross.isSome then s
    else
      match x.kind with
      | .store va bs pa tok =>
        if !tagCurrent s x then s.dropMsg m
        else if earlierOverlap s x || fencedOut s x.t x.issuer x.id then s
        else if (s.gens.get? (key2 x.t x.node)).isSome then genStorePerformed (consume s x) x va pa bs
        else taskStorePerformed (consume s x) x va pa bs tok
      | .block k blk va segs pa =>
        if !tagCurrent s x then s.dropMsg m
        else
          match x.lighter with
          | some lt => if fencedOut s x.t none k then s else blockPerformed (consume s x) x lt k blk va pa segs
          | none => s
      | _ => s

/-- STORE_PERFORMED (R272). -/
def execStorePerformed (s : State) : Host.Outcome State Fault Refusal :=
  match s.subj with
  | .msg m => .next (storePerformed m s)
  | _ => .next s

/-- REPLY_EXPIRY: the fabric discards a reply that has been in transit for more than 2^20 cycles; it changes no state of a tenure and is
counted in none (R78). -/
def replyExpiry (m : Nat) (s : State) : State :=
  match s.msg? m with
  | some x => if expired s x then s.dropMsg m else s
  | none => s

/-- REPLY_EXPIRY (R78). -/
def execReplyExpiry (s : State) : Host.Outcome State Fault Refusal :=
  match s.subj with
  | .msg m => .next (replyExpiry m s)
  | _ => .next s

end Sys2Proof.Machine
end

