-- ==== Sys2Proof/Machine/Accumulate.lean ====
section
/-! DEFINITION. Accumulates, refusals and residuals (R283 to R285, R291 to R301). -/

namespace Sys2Proof.Machine

/-! ### Instructions (R293, R294) -/

/-- The argument of ACC_RANGE (R370). -/
def accArg (wid va : Nat) : W64 := BitVec.ofNat 64 (wid % 64 + va % 2 ^ 58 * 64)

/-- The word a target address names in a window, by the checks of R293 in their order; and its physical address, for a global-home
window. -/
def accTarget (wid : Nat) (va : W64) : TM (WinE × Option Nat) := do
  let tn ← getTn
  match tn.win? wid with
  | none => raise cAccRange (accArg wid va.toNat)
  | some w => do
    checkAddr va 16
    match winIndex? (tn.wbaseOf w) w.count va.toNat with
    | none => raise cAccRange (accArg wid va.toNat)
    | some _ =>
      if w.isLocal then pure (w, none)
      else do
        let pa ← taskXlate va.toNat true true true
        raiseIf (clobbers (← getS) pa 16) cGateClobber va
        pure (w, pa.dev?)

/-- An accumulate (R293): the partial of the addend, with the residual that the tile holds for its word, leaves for the window's
home. -/
def bodyAcc (f : EFmt) (wid : BitVec 6) (a b : Opnd) : TM Unit := do
  let va ← read64 a
  let x ← if f = .int true 64 then read64 b else do pure ((← read32 b).setWidth 64)
  let (w, pa) ← accTarget wid.toNat va
  let part := accPartial w.e0 (f.decode x.toNat)
  let k ← getTk
  let mine (r : Residual) : Bool := r.wid == wid.toNat && r.addr == va.toNat
  let part := match k.tile.find? mine with
    | some r => Aw.combine part (r.part, r.flags)
    | none => part
  let now := (← getS).nowOn ((← getTn).dieOf (← getN))
  modTk (fun k => { k with
    tile := k.tile.filter (fun r => !mine r)
    accNow := (now, (wid.toNat, va.toNat) :: (if k.accNow.1 = now then k.accNow.2 else [])) })
  takeUpd
  let _ ← taskSend ((← getTn).winUnit w pa) (.acc wid.toNat va.toNat pa part.1 part.2)

/-- `acc.fp32` (R293). -/
def execAccFp32 (wid : BitVec 6) (a b : Opnd) (s : State) : Host.Outcome State Fault Refusal :=
  run1 (.accFp32 wid a b) (bodyAcc (.flt .fp32) wid a b) s
/-- `acc.bf16` (R293). -/
def execAccBf16 (wid : BitVec 6) (a b : Opnd) (s : State) : Host.Outcome State Fault Refusal :=
  run1 (.accBf16 wid a b) (bodyAcc (.flt .bf16) wid a b) s
/-- `acc.fp16` (R293). -/
def execAccFp16 (wid : BitVec 6) (a b : Opnd) (s : State) : Host.Outcome State Fault Refusal :=
  run1 (.accFp16 wid a b) (bodyAcc (.flt .fp16) wid a b) s
/-- `acc.s8` (R293). -/
def execAccS8 (wid : BitVec 6) (a b : Opnd) (s : State) : Host.Outcome State Fault Refusal :=
  run1 (.accS8 wid a b) (bodyAcc (.int true 8) wid a b) s
/-- `acc.z8` (R293). -/
def execAccZ8 (wid : BitVec 6) (a b : Opnd) (s : State) : Host.Outcome State Fault Refusal :=
  run1 (.accZ8 wid a b) (bodyAcc (.int false 8) wid a b) s
/-- `acc.s16` (R293). -/
def execAccS16 (wid : BitVec 6) (a b : Opnd) (s : State) : Host.Outcome State Fault Refusal :=
  run1 (.accS16 wid a b) (bodyAcc (.int true 16) wid a b) s
/-- `acc.z16` (R293). -/
def execAccZ16 (wid : BitVec 6) (a b : Opnd) (s : State) : Host.Outcome State Fault Refusal :=
  run1 (.accZ16 wid a b) (bodyAcc (.int false 16) wid a b) s
/-- `acc.s32` (R293). -/
def execAccS32 (wid : BitVec 6) (a b : Opnd) (s : State) : Host.Outcome State Fault Refusal :=
  run1 (.accS32 wid a b) (bodyAcc (.int true 32) wid a b) s
/-- `acc.z32` (R293). -/
def execAccZ32 (wid : BitVec 6) (a b : Opnd) (s : State) : Host.Outcome State Fault Refusal :=
  run1 (.accZ32 wid a b) (bodyAcc (.int false 32) wid a b) s
/-- `acc.s64` (R293). -/
def execAccS64 (wid : BitVec 6) (a b : Opnd) (s : State) : Host.Outcome State Fault Refusal :=
  run1 (.accS64 wid a b) (bodyAcc (.int true 64) wid a b) s

/-- `flushr` (R294). -/
def execFlushr (wid : BitVec 6) (s : State) : Host.Outcome State Fault Refusal :=
  run1 (.flushr wid) (do
    raiseIf ((← getTn).win? wid.toNat).isNone cAccRange (accArg wid.toNat 0)
    taskFlush (fun r => r.wid == wid.toNat)) s

/-- `flushr.all` (R294). -/
def execFlushrAll (s : State) : Host.Outcome State Fault Refusal := run1 .flushrAll (taskFlush (fun _ => true)) s

/-! ### At the home (R283, R285, R296) -/

/-- The source port of a message: a cell interface, or a lighter (R296). -/
def sourcePort (x : Msg) : Nat :=
  match x.lighter with
  | some lt => 16777216 + lt
  | none => x.node

/-- A unit with nothing counted. -/
def QuotaRt.fresh (now : Nat) : QuotaRt := { counts := [], seen := [], start := now / 256 * 256 }

/-- A unit at a cycle of its own: with nothing counted, once its interval has ended (R296). -/
def QuotaRt.at_ (q : QuotaRt) (now : Nat) : QuotaRt := if q.start + 256 ≤ now then QuotaRt.fresh now else q

/-- Accumulates accepted from a port to a window in this interval. -/
def QuotaRt.countOf (q : QuotaRt) (t wid port : Nat) : Nat :=
  ((q.counts.find? (fun c => c.1 == t && c.2.1 == wid && c.2.2.1 == port)).map (fun c => c.2.2.2)).getD 0

/-- One more accumulate accepted. -/
def QuotaRt.accept (q : QuotaRt) (t wid port : Nat) : QuotaRt :=
  { q with counts := (t, wid, port, q.countOf t wid port + 1) ::
      q.counts.filter (fun c => !(c.1 == t && c.2.1 == wid && c.2.2.1 == port)) }

/-- A port seen to send to a window in this interval. -/
def QuotaRt.see (q : QuotaRt) (t wid port : Nat) : QuotaRt :=
  if q.seen.contains (t, wid, port) then q else { q with seen := (t, wid, port) :: q.seen }

/-- Whether an accumulate is refused (R296): the port is at the window's quota and another port has sent to the window. -/
def QuotaRt.refuses (q : QuotaRt) (t wid port quota : Nat) : Bool :=
  quota != 0 && decide (quota ≤ q.countOf t wid port) && q.seen.any (fun x => x.1 == t && x.2.1 == wid && x.2.2 != port)

/-- The accumulate streams by which node `n` feeds lighter `lt` for a window (R295). -/
def Tenure.streamsOf (s : State) (tn : Tenure) (n lt wid : Nat) : List Nat :=
  (tn.binds.filter (fun b => match b.2, tn.g.chans[b.1]? with
    | .accs port w, some e => e.src == n && w == wid && s.lighterOf tn n port == lt
    | _, _ => false)).map Prod.fst

/-- An imprecise report against what sent a partial (R301, R302, R380): a cell's node, which halts, or a lighter and the node it served,
whose stream halts. What the sender has still in flight to the window is not performed where `skid0` says so. -/
def partialFault (s : State) (x : Msg) (wid code src : Nat) (arg : W64) (skid0 : Bool) : State :=
  let mine (y : Msg) : Bool := y.t == x.t && y.node == x.node && y.lighter == x.lighter && (match y.kind with
    | .acc w _ _ _ _ => w == wid
    | .flush w _ _ _ _ => w == wid
    | _ => false)
  let s := if skid0 then dropInFlight s mine else s
  match x.lighter with
  | some lt =>
    let s := s.modTenure x.t (fun tn => { tn with haltedStreams := tn.streamsOf s x.node lt wid ++ tn.haltedStreams })
    engineFault s x.t code 6 x.node lt arg
  | none => engineFault (haltNode s x.t x.node) x.t code src x.node 0xFF arg

/-- The data-watch check of a partial (R379): of its word and of the word's flag byte, the lowest-numbered watchpoint first. -/
def Tenure.accHit (tn : Tenure) (va : Nat) : Option W64 :=
  match tn.watchHit 3 va 16, tn.watchHit 3 (va / 256 * 256 + 240 + va % 256 / 16) 1 with
  | some x, some y => some (if bitsOf y.toNat 57 2 < bitsOf x.toNat 57 2 then y else x)
  | x, y => x.or y

/-- The report of a watchpoint that an accumulate or a flush matches where it is performed, with skid 0 (R379, R380). -/
def accWatch (s : State) (x : Msg) (wid va : Nat) : State :=
  match (s.tenures.get? x.t).bind (fun tn => tn.accHit va) with
  | none => s
  | some arg => partialFault s x wid cWatchHit 0 arg true

/-- A partial that reaches a word under a live gate, or with an uncorrectable error, is not performed; the unit reports it (R301, R302,
R305). -/
def accRefusedAtWord (s : State) (x : Msg) (wid va : Nat) (pa : Option Nat) (ue : Bool) : Option State :=
  if ue then some (partialFault s x wid cMemoryUe 7 (BitVec.ofNat 64 va) false)
  else if pa.any (fun a => clobbers s (.dev a) 16) then some (partialFault s x wid cGateClobber 7 (BitVec.ofNat 64 va) false)
  else none

/-- ACCUMULATE_ARRIVAL: an accumulate is performed at its home and acknowledged, or refused with its whole partial (R285, R293, R296). -/
def accumulateArrival (m : Nat) (ue : Bool) (s : State) : State :=
  match s.msg? m with
  | none => s
  | some x =>
    if x.cross.isSome then s
    else
      match x.kind with
      | .acc wid va pa part flags =>
        if !tagCurrent s x then s.dropMsg m
        else if fencedOut s x.t x.issuer m then s
        else
          let quota := ((s.tenures.get? x.t).bind (fun tn => tn.win? wid)).elim 0 WinE.quota
          let now := s.nowOn (unitDie x.home)
          let q := ((s.units.getD x.home (QuotaRt.fresh now)).at_ now).see x.t wid (sourcePort x)
          let s := consume s x
          if q.refuses x.t wid (sourcePort x) quota then
            reply { s with units := s.units.set x.home q } x (.refusal wid va pa part flags)
          else
            let s := { s with units := s.units.set x.home (q.accept x.t wid (sourcePort x)) }
            match accRefusedAtWord s x wid va pa ue with
            | some s => reply s x .accAck
            | none => accWatch (reply (wakeWaiters (accPerform s x.t wid va pa (part, flags))) x .accAck) x wid va
      | _ => s

/-- ACCUMULATE_ARRIVAL (R293). -/
def execAccumulateArrival (s : State) : Host.Outcome State Fault Refusal :=
  match s.subj with
  | .msg m => .next (accumulateArrival m false s)
  | .reply m ue => .next (accumulateArrival m ue s)
  | _ => .next s

/-- FLUSH_DELIVERY: a residual on the flush lane is always performed and acknowledged (R296, R298). -/
def flushDelivery (m : Nat) (ue : Bool) (s : State) : State :=
  match s.msg? m with
  | none => s
  | some x =>
    if x.cross.isSome then s
    else
      match x.kind with
      | .flush wid va pa part flags =>
        if !tagCurrent s x then s.dropMsg m
        else if fencedOut s x.t x.issuer m then s
        else
          let s := consume s x
          match accRefusedAtWord s x wid va pa ue with
          | some s => reply s x .accAck
          | none => accWatch (reply (wakeWaiters (accPerform s x.t wid va pa (part, flags))) x .accAck) x wid va
      | _ => s

/-- FLUSH_DELIVERY (R298). -/
def execFlushDelivery (s : State) : Host.Outcome State Fault Refusal :=
  match s.subj with
  | .msg m => .next (flushDelivery m false s)
  | .reply m ue => .next (flushDelivery m ue s)
  | _ => .next s

/-- ACCEPTANCE_INTERVAL_END: a unit's interval of 256 cycles ends, and its counts begin again (R296). -/
def acceptanceIntervalEnd (u : Nat) (s : State) : State :=
  let now := s.nowOn (unitDie u)
  { s with units := s.units.set u ((s.units.getD u (QuotaRt.fresh now)).at_ now) }

/-- ACCEPTANCE_INTERVAL_END (R296). -/
def execAcceptanceIntervalEnd (s : State) : Host.Outcome State Fault Refusal :=
  match s.subj with
  | .unit u => .next (acceptanceIntervalEnd u s)
  | _ => .next s

/-! ### Residual tiles (R297, R298) -/

/-- The set of a cell tile's entry (R297). -/
def cellSet (va : Nat) : Nat :=
  let b := bitsOf va 4 6
  bitsOf b 0 2 ^^^ bitsOf b 2 2 ^^^ bitsOf b 4 2

/-- The set of a lighter tile's entry (R297). -/
def lighterSet (va : Nat) : Nat :=
  let b := bitsOf va 4 6
  bitsOf b 0 4 ^^^ bitsOf b 4 2

/-- A refused partial put into a tile (R297): combined with the entry of its word, or in a free way of its set, or in place of the set's
older entry, which is returned. -/
def tilePut (setOf : Nat → Nat) (tile : List Residual) (r : Residual) : List Residual × Option Residual :=
  match tile.find? (fun e => e.wid == r.wid && e.addr == r.addr) with
  | some _ =>
    (tile.map (fun e => if e.wid == r.wid && e.addr == r.addr then
      let y := Aw.combine (e.part, e.flags) (r.part, r.flags)
      { e with part := y.1, flags := y.2 } else e), none)
  | none =>
    match tile.filter (fun e => setOf e.addr == setOf r.addr) with
    | a :: b :: _ =>
      let old := if b.born < a.born then b else a
      (tile.filter (fun e => e != old) ++ [r], some old)
    | _ => (tile ++ [r], none)

/-- A refused partial enters the tile of a cell; an evicted entry leaves on the flush lane (R297, R298). -/
def cellRefusal (s : State) (x : Msg) (r : Residual) : State :=
  match s.tasks.get? (key2 x.t x.node), s.tenures.get? x.t with
  | some k, some tn =>
    let (tile, old) := tilePut cellSet k.tile r
    let k := { k with tile := tile, updpend := k.updpend - 1 }
    match old with
    | none => { s with tasks := s.tasks.set (key2 x.t x.node) k }
    | some e =>
      let s := { s with tasks := s.tasks.set (key2 x.t x.node) { k with updpend := k.updpend + 1 } }
      flushOne s x.t x.node none (tn.dieOf x.node) e
  | _, _ => s

/-- A lighter with nothing in it. -/
def LighterRt.empty : LighterRt := { reqs := [], tile := [], lastTenure := 0 }

/-- A refused partial enters the tile of a lighter, which its tenures share; an evicted entry leaves for the tenure and the node that sent it
(R295, R297, R298). -/
def lighterRefusal (s : State) (x : Msg) (lt : Nat) (r : Residual) : State :=
  let l := s.lighters.getD lt LighterRt.empty
  let put (tile : List (Nat × Nat × Residual)) : State := { s with lighters := s.lighters.set lt { l with tile := tile } }
  let same (e : Nat × Nat × Residual) : Bool := e.1 == x.t && e.2.2.wid == r.wid && e.2.2.addr == r.addr
  if l.tile.any same then
    put (l.tile.map (fun e =>
      if same e then
        let y := Aw.combine (e.2.2.part, e.2.2.flags) (r.part, r.flags)
        (e.1, e.2.1, { e.2.2 with part := y.1, flags := y.2 })
      else e))
  else
    match l.tile.filter (fun e => lighterSet e.2.2.addr == lighterSet r.addr) with
    | a :: b :: _ =>
      let old := if b.2.2.born < a.2.2.born then b else a
      flushOne (put (l.tile.filter (fun e => e != old) ++ [(x.t, x.node, r)])) old.1 old.2.1 (some lt) (lt / 12) old.2.2
    | _ => put (l.tile ++ [(x.t, x.node, r)])

/-- Whether a refusal reply to a cell would enter its tile in a cycle in which an accumulate to its word has issued: a reply of that cycle enters
the tile first, so this one is of a later cycle (R301). -/
def lateRefusal (s : State) (x : Msg) (wid va : Nat) : Bool :=
  x.lighter.isNone && (s.tasks.get? (key2 x.t x.node)).any (fun k =>
    k.accNow.1 == s.nowOn (replyDie s x) && k.accNow.2.contains (wid, va))

/-- REFUSAL_REPLY: a refused partial reaches its sender's tile, and `updpend` drops by 1 (R296, R297). -/
def refusalReply (m : Nat) (s : State) : State :=
  match s.msg? m with
  | none => s
  | some x =>
    if x.cross.isSome then s
    else
      match x.kind with
      | .refusal wid va _ part flags =>
        if !delivered s x then s.dropMsg m
        else if lateRefusal s x wid va then s
        else
          let r : Residual := { wid := wid, addr := va, part := part, flags := flags, born := s.nowOn (replyDie s x) }
          let s := consume s x
          match x.lighter with
          | none => cellRefusal s x r
          | some lt => lighterRefusal s x lt r
      | _ => s

/-- REFUSAL_REPLY (R296). -/
def execRefusalReply (s : State) : Host.Outcome State Fault Refusal :=
  match s.subj with
  | .msg m => .next (refusalReply m s)
  | _ => .next s

/-- ACCUMULATE_ACKNOWLEDGEMENT: the acknowledgement of an accepted accumulate or flush reaches its cell and lowers `updpend` (R285,
R290). -/
def accumulateAcknowledgement (m : Nat) (s : State) : State :=
  match s.msg? m with
  | none => s
  | some x =>
    if x.cross.isSome then s
    else
      match x.kind with
      | .accAck =>
        if !delivered s x then s.dropMsg m
        else
          let s := consume s x
          match x.lighter with
          | none => s.modTask x.t x.node (fun k => { k with updpend := k.updpend - 1 })
          | some _ => s
      | _ => s

/-- ACCUMULATE_ACKNOWLEDGEMENT (R285). -/
def execAccumulateAcknowledgement (s : State) : Host.Outcome State Fault Refusal :=
  match s.subj with
  | .msg m => .next (accumulateAcknowledgement m s)
  | _ => .next s

/-- RESIDUAL_AGE_EXPIRY: a residual whose age reaches 65,536 cycles leaves on the flush lane (R298). A cell waits while its `updpend`
has no room. -/
def residualAgeExpiry (tile : TileRef) (addr : Nat) (s : State) : State :=
  let old (die : Nat) (r : Residual) : Bool := r.addr == addr && decide (r.born + 65536 ≤ s.nowOn die)
  match tile with
  | .cell t n =>
    match s.tasks.get? (key2 t n), s.tenures.get? t with
    | some k, some tn =>
      match k.tile.find? (old (tn.dieOf n)) with
      | none => s
      | some r =>
        if k.updpend = 255 then s
        else
          let k := { k with tile := k.tile.filter (fun e => e != r), updpend := k.updpend + 1 }
          flushOne { s with tasks := s.tasks.set (key2 t n) k } t n none (tn.dieOf n) r
    | _, _ => s
  | .lighter lt t =>
    let l := s.lighters.getD lt LighterRt.empty
    match l.tile.find? (fun e => e.1 == t && old (lt / 12) e.2.2) with
    | none => s
    | some e =>
      let s := { s with lighters := s.lighters.set lt { l with tile := l.tile.filter (fun x => x != e) } }
      flushOne s t e.2.1 (some lt) (lt / 12) e.2.2

/-- RESIDUAL_AGE_EXPIRY (R298). -/
def execResidualAgeExpiry (s : State) : Host.Outcome State Fault Refusal :=
  match s.subj with
  | .residual tile addr => .next (residualAgeExpiry tile addr s)
  | _ => .next s

end Sys2Proof.Machine
end

