-- ==== Sys2Proof/Machine/Atomic.lean ====
section
/-! DEFINITION. Atomics, at the cell and at their home (R283, R285 to R289), and REPLY_ARRIVAL (R78). -/

namespace Sys2Proof.Machine

/-- An atomic injected (R286): a fetch form makes its destination wait for the reply, a non-fetch form adds 1 to `updpend`. -/
def sendAtomic (op : AtomOp) (size : Nat) (dst : Option Opnd) (ord : Bool) (va : W64) (x e : Nat) : TM Unit := do
  checkAddr va size
  let pa ← taskXlate va.toNat true true true
  let s ← getS
  raiseIf (clobbers s pa size) cGateClobber va
  match dst with
  | some d => useReg d
  | none => takeUpd
  let a := (pa.dev?).getD 0
  let k ← getTk
  let m ← taskSend (homeUnit a) (.atomic op va.toNat size a x e dst ord (k.pc % 65536).toNat)
  modTk (fun k => { k with atoms := k.atoms ++ [(m, 0)], pend := k.pend ++ dst.toList })

/-- An operand of an atomic, read at its size (R286). -/
def atomOperand (b : Opnd) (dbl : Bool) : TM Nat := do
  if dbl then pure (← read64 b).toNat else pure (← read32 b).toNat

/-- An integer atomic other than `cas` (R286). -/
def bodyAtom (op : AtomOp) (dst : Option Opnd) (a b : Opnd) (ord dbl : Bool) : TM Unit := do
  let va ← read64 a
  let x ← atomOperand b dbl
  sendAtomic op (if dbl then 8 else 4) dst ord va x 0

/-- The register after an even-numbered one (R286). -/
def nextReg : Opnd → Opnd
  | .g n => .g (n + 1)
  | .a n => .a (n + 1)
  | .v n => .v (n + 1)
  | .i n => .i n
  | .o n => .o n

/-- `atom.cas`: the pair of s2 holds the expected value and the new one (R286). -/
def bodyCas (d a b : Opnd) (ord dbl : Bool) : TM Unit := do
  let va ← read64 a
  let e ← atomOperand b dbl
  let x ← atomOperand (nextReg b) dbl
  sendAtomic .cas (if dbl then 8 else 4) (some d) ord va x e

/-- A floating-point atomic add (R288). -/
def bodyFadd (op : AtomOp) (size : Nat) (dst : Option Opnd) (a b : Opnd) : TM Unit := do
  let va ← read64 a
  let x ← read32 b
  sendAtomic op size dst false va (x.toNat % 2 ^ (8 * size)) 0

/-- `atom.add` (R286). -/
def execAtomAdd (a b : Opnd) (dbl : Bool) (s : State) : Host.Outcome State Fault Refusal :=
  run1 (.atomAdd a b dbl) (bodyAtom .add none a b false dbl) s
/-- `atom.add.f` (R286). -/
def execAtomAddF (d a b : Opnd) (ord dbl : Bool) (s : State) : Host.Outcome State Fault Refusal :=
  run1 (.atomAddF d a b ord dbl) (bodyAtom .add (some d) a b ord dbl) s
/-- `atom.min` (R286). -/
def execAtomMin (a b : Opnd) (dbl : Bool) (s : State) : Host.Outcome State Fault Refusal :=
  run1 (.atomMin a b dbl) (bodyAtom .min none a b false dbl) s
/-- `atom.min.f` (R286). -/
def execAtomMinF (d a b : Opnd) (ord dbl : Bool) (s : State) : Host.Outcome State Fault Refusal :=
  run1 (.atomMinF d a b ord dbl) (bodyAtom .min (some d) a b ord dbl) s
/-- `atom.max` (R286). -/
def execAtomMax (a b : Opnd) (dbl : Bool) (s : State) : Host.Outcome State Fault Refusal :=
  run1 (.atomMax a b dbl) (bodyAtom .max none a b false dbl) s
/-- `atom.max.f` (R286). -/
def execAtomMaxF (d a b : Opnd) (ord dbl : Bool) (s : State) : Host.Outcome State Fault Refusal :=
  run1 (.atomMaxF d a b ord dbl) (bodyAtom .max (some d) a b ord dbl) s
/-- `atom.minz` (R286). -/
def execAtomMinz (a b : Opnd) (dbl : Bool) (s : State) : Host.Outcome State Fault Refusal :=
  run1 (.atomMinz a b dbl) (bodyAtom .minz none a b false dbl) s
/-- `atom.minz.f` (R286). -/
def execAtomMinzF (d a b : Opnd) (ord dbl : Bool) (s : State) : Host.Outcome State Fault Refusal :=
  run1 (.atomMinzF d a b ord dbl) (bodyAtom .minz (some d) a b ord dbl) s
/-- `atom.maxz` (R286). -/
def execAtomMaxz (a b : Opnd) (dbl : Bool) (s : State) : Host.Outcome State Fault Refusal :=
  run1 (.atomMaxz a b dbl) (bodyAtom .maxz none a b false dbl) s
/-- `atom.maxz.f` (R286). -/
def execAtomMaxzF (d a b : Opnd) (ord dbl : Bool) (s : State) : Host.Outcome State Fault Refusal :=
  run1 (.atomMaxzF d a b ord dbl) (bodyAtom .maxz (some d) a b ord dbl) s
/-- `atom.and` (R286). -/
def execAtomAnd (a b : Opnd) (dbl : Bool) (s : State) : Host.Outcome State Fault Refusal :=
  run1 (.atomAnd a b dbl) (bodyAtom .and none a b false dbl) s
/-- `atom.and.f` (R286). -/
def execAtomAndF (d a b : Opnd) (ord dbl : Bool) (s : State) : Host.Outcome State Fault Refusal :=
  run1 (.atomAndF d a b ord dbl) (bodyAtom .and (some d) a b ord dbl) s
/-- `atom.or` (R286). -/
def execAtomOr (a b : Opnd) (dbl : Bool) (s : State) : Host.Outcome State Fault Refusal :=
  run1 (.atomOr a b dbl) (bodyAtom .or none a b false dbl) s
/-- `atom.or.f` (R286). -/
def execAtomOrF (d a b : Opnd) (ord dbl : Bool) (s : State) : Host.Outcome State Fault Refusal :=
  run1 (.atomOrF d a b ord dbl) (bodyAtom .or (some d) a b ord dbl) s
/-- `atom.xor` (R286). -/
def execAtomXor (a b : Opnd) (dbl : Bool) (s : State) : Host.Outcome State Fault Refusal :=
  run1 (.atomXor a b dbl) (bodyAtom .xor none a b false dbl) s
/-- `atom.xor.f` (R286). -/
def execAtomXorF (d a b : Opnd) (ord dbl : Bool) (s : State) : Host.Outcome State Fault Refusal :=
  run1 (.atomXorF d a b ord dbl) (bodyAtom .xor (some d) a b ord dbl) s
/-- `atom.swap.f` (R286). -/
def execAtomSwap (d a b : Opnd) (ord dbl : Bool) (s : State) : Host.Outcome State Fault Refusal :=
  run1 (.atomSwap d a b ord dbl) (bodyAtom .swap (some d) a b ord dbl) s
/-- `atom.cas.f` (R286). -/
def execAtomCas (d a b : Opnd) (ord dbl : Bool) (s : State) : Host.Outcome State Fault Refusal :=
  run1 (.atomCas d a b ord dbl) (bodyCas d a b ord dbl) s
/-- `atom.fadd.fp32` (R288). -/
def execAtomFaddFp32 (a b : Opnd) (s : State) : Host.Outcome State Fault Refusal :=
  run1 (.atomFaddFp32 a b) (bodyFadd .faddFp32 4 none a b) s
/-- `atom.fadd.bf16` (R288). -/
def execAtomFaddBf16 (a b : Opnd) (s : State) : Host.Outcome State Fault Refusal :=
  run1 (.atomFaddBf16 a b) (bodyFadd .faddBf16 2 none a b) s
/-- `atom.fadd.fp32.f` (R288). -/
def execAtomFaddFp32F (d a b : Opnd) (s : State) : Host.Outcome State Fault Refusal :=
  run1 (.atomFaddFp32F d a b) (bodyFadd .faddFp32 4 (some d) a b) s
/-- `atom.fadd.bf16.f` (R288). -/
def execAtomFaddBf16F (d a b : Opnd) (s : State) : Host.Outcome State Fault Refusal :=
  run1 (.atomFaddBf16F d a b) (bodyFadd .faddBf16 2 (some d) a b) s

/-! ### At the home (R283, R286, R288) -/

/-- The new word of an atomic, and the flags of a floating-point one (R286, R288). -/
def atomNew (op : AtomOp) (size old x e : Nat) : Nat × Flags :=
  let n := 8 * size
  let so := sextInt old n
  let sx := sextInt x n
  match op with
  | .add => ((old + x) % 2 ^ n, 0)
  | .min => (if sx < so then x % 2 ^ n else old, 0)
  | .max => (if so < sx then x % 2 ^ n else old, 0)
  | .minz => (min old (x % 2 ^ n), 0)
  | .maxz => (max old (x % 2 ^ n), 0)
  | .and => (old &&& x % 2 ^ n, 0)
  | .or => (old ||| x % 2 ^ n, 0)
  | .xor => (old ^^^ x % 2 ^ n, 0)
  | .swap => (x % 2 ^ n, 0)
  | .cas => (if old = e % 2 ^ n then x % 2 ^ n else old, 0)
  | .faddFp32 => FFmt.fp32.rnd ((FFmt.fp32.decode old).add (FFmt.fp32.decode x))
  | .faddBf16 => FFmt.bf16.rnd ((FFmt.bf16.decode old).add (FFmt.bf16.decode x))

/-- Home flags of a tenure at slice `h` (R288, R289). -/
def Tenure.addHomeFlags (tn : Tenure) (h : Nat) (f : Flags) : Tenure :=
  if p : h < 32 then { tn with homeFlags := tn.homeFlags.set h (tn.homeFlags[h] ||| f) } else tn

/-- Whether an earlier ordered fetch of the same source port to the same unit has not been answered (R285). -/
def earlierOrdered (s : State) (x : Msg) : Bool :=
  s.net.any (fun y => y.t == x.t && y.node == x.node && y.home == x.home && decide (y.id < x.id) &&
    (match y.kind with
      | .atomic _ _ _ _ _ _ (some _) true _ => true
      | .atomicReply _ _ _ _ true _ _ => true
      | _ => false))

/-- ATOMIC_PERFORM: an atomic is performed at its home, after the node's earlier overlapping accesses, and answered; a watchpoint that
matches sets the watch flag of the answer. Those to different words are performed in any order, ordered ones too, whose answers alone keep their
order (R283, R285). An uncorrectable error is reported by the unit and halts the node, and so is the word of a gate which was not live yet when the
atomic was issued (R286, R288, R301, R305, R380, assumption 68). -/
def atomicPerform (m : Nat) (ue : Bool) (s : State) : State :=
  match s.msg? m with
  | none => s
  | some x =>
    if x.cross.isSome then s
    else
      match x.kind with
      | .atomic op va size pa arg e dst ord pc =>
        if !tagCurrent s x then s.dropMsg m
        else if earlierOverlap s x || fencedOut s x.t x.issuer m then s
        else if ue then homeFault (consume s x) x cMemoryUe (BitVec.ofNat 64 va)
        else if clobbers s (.dev pa) size then homeFault (consume s x) x cGateClobber (BitVec.ofNat 64 va)
        else
          let old := leNat (memRead s x.t va (.dev pa) size)
          let (new, fl) := atomNew op size old arg e
          let watch := (s.tenures.get? x.t).bind (fun tn => tn.watchHit 2 va size)
          let s := consume s x
          let s := s.modTenure x.t (fun tn => tn.addHomeFlags (homePa pa).1 fl)
          let s := performAt s x.t va (.dev pa) (leBytes new size)
          reply s x (.atomicReply m old size dst ord watch pc)
      | _ => s

/-- ATOMIC_PERFORM (R286). -/
def execAtomicPerform (s : State) : Host.Outcome State Fault Refusal :=
  match s.subj with
  | .msg m => .next (atomicPerform m false s)
  | .reply m ue => .next (atomicPerform m ue s)
  | _ => .next s

/-- The old value as written into a destination (R133, R286, R288): a 32-bit value is sign-extended, a bf16 value zero-extended. -/
def atomValue (size old : Nat) : W64 :=
  if size = 4 then (BitVec.ofNat 32 old).signExtend 64 else BitVec.ofNat 64 old

/-- ATOMIC_REPLY: the answer to an atomic reaches its cell: a fetch writes its destination, a non-fetch form lowers `updpend`; a watch
flag is kept with the destination (R285, R286, R380). -/
def atomicReply (m : Nat) (s : State) : State :=
  match s.msg? m with
  | none => s
  | some x =>
    if x.cross.isSome then s
    else
      match x.kind with
      | .atomicReply req old size dst ord watch pc =>
        if !delivered s x then s.dropMsg m
        else if ord && earlierOrdered s x then s
        else
          let s := consume s x
          s.modTask x.t x.node (fun k =>
            let since := ((k.atoms.find? (fun a => a.1 == req)).map Prod.snd).getD 0
            let k := { k with atoms := k.atoms.filter (fun a => a.1 != req) }
            let k := match dst with
              | some d => { (k.setReg d (atomValue size old)) with pend := k.pend.filter (fun p => p != d) }
              | none => { k with updpend := k.updpend - 1 }
            match watch with
            | some arg => { k with wflags := k.wflags ++ [{ dst := dst, pc := pc, arg := arg, issued := since }] }
            | none => k)
      | _ => s

/-- ATOMIC_REPLY (R286). -/
def execAtomicReply (s : State) : Host.Outcome State Fault Refusal :=
  match s.subj with
  | .msg m => .next (atomicReply m s)
  | _ => .next s

/-- REPLY_ARRIVAL: a reply reaches an interface; one whose tag differs from the current tag of its plane is dropped, changing no state of
any tenure, nor is one that has been in transit for more than 2^20 cycles delivered; any other is received as its own kind is (R78). -/
def replyArrival (m : Nat) (s : State) : State :=
  match s.msg? m with
  | none => s
  | some x =>
    if !x.kind.isReply || x.cross.isSome then s
    else if !delivered s x then s.dropMsg m
    else
      match x.kind with
      | .loadReply _ _ _ _ _ _ _ _ => loadReply m false s
      | .genReply _ _ _ _ => loadReply m false s
      | .atomicReply _ _ _ _ _ _ _ => atomicReply m s
      | .accAck => accumulateAcknowledgement m s
      | .refusal _ _ _ _ _ => refusalReply m s
      | _ => s

/-- REPLY_ARRIVAL (R78). -/
def execReplyArrival (s : State) : Host.Outcome State Fault Refusal :=
  match s.subj with
  | .msg m => .next (replyArrival m s)
  | _ => .next s

end Sys2Proof.Machine
end

