-- ==== Sys2Proof/Machine/Sync.lean ====
section
/-! DEFINITION. Synchronising instructions: `wsb` (R271), `gate.arr` and `gate.wait` (R310), `quiet` (R325), `comb.send` (R316) and
the fences (R326). -/

namespace Sys2Proof.Machine

/-! ### `wsb` (R271) -/

/-- Whether every token of a mask has a count of 0. -/
def tokensClear (k : TaskRt) (mask : BitVec 8) : Bool :=
  (List.range 8).all (fun n => !bitOf mask.toNat n || (k.sbcnt[n]?.getD 0) == 0)

/-- Writes in the host port that name a token of a mask, or belong to a request that does, come before what follows at the node (R339, assumption
36). -/
def fenceTokens (s : State) (t n : Nat) (mask : BitVec 8) : State :=
  orderNode s t n (fun p => p.node == n && p.tok.any (fun k => bitOf mask.toNat k))

/-- `wsb` (R271). -/
def execWsb (mask : BitVec 8) (s : State) : Host.Outcome State Fault Refusal :=
  run1 (.wsb mask) (do
    stallUnless (tokensClear (← getTk) mask)
    modST (fun s t n => fenceTokens s t n mask)) s

/-! ### Fences (R326) -/

/-- Whether a message is a global load, store or atomic, or the answer to one. -/
def MsgKind.isAccess : MsgKind → Bool
  | .load _ _ _ _ _ _ _ => true
  | .store _ _ _ _ => true
  | .atomic _ _ _ _ _ _ _ _ _ => true
  | .loadReply _ _ _ _ _ _ _ _ => true
  | .atomicReply _ _ _ _ _ _ _ => true
  | _ => false

/-- Whether a node has a global access that is not complete. -/
def accessPending (s : State) (t n : Nat) : Bool :=
  s.net.any (fun x => x.t == t && x.node == n && x.lighter.isNone && x.kind.isAccess)

/-- What `fence.g` waits for (R326): every earlier access complete (R337), no register waiting, `updpend` 0. It waits for acknowledgements, so
it takes the trap of a flagged atomic (R380). -/
def fenceGlobal : TM Unit := do
  let k ← getTk
  match k.wflags with
  | f :: _ => stop (.watch f)
  | [] => pure ()
  let s ← getS
  stallUnless (!accessPending s (← getT) (← getN) && k.pend.isEmpty && k.updpend == 0)

/-- `fence.g` (R326). -/
def execFenceG (s : State) : Host.Outcome State Fault Refusal := run1 .fenceG fenceGlobal s

/-- `fence.s`: as `fence.g`, and a confirming read is awaited while a host-shared store may not have been performed (R326). -/
def execFenceS (s : State) : Host.Outcome State Fault Refusal :=
  run1 .fenceS (do
    fenceGlobal
    if (← getTk).hostDirty then
      modTk (fun k => { k with wait := .confirm })
      holdHere false) s

/-- Whether host-shared writes of a tenure have not been performed in host memory: of its node `n`, or of all its nodes and lighters. -/
def hostStoresOut (s : State) (t : Nat) (n : Option Nat) : Bool :=
  let mine (node : Nat) (lighter : Option Nat) : Bool := n.all (fun k => k == node && lighter.isNone)
  s.hostPort.any (fun p => p.t == t && mine p.node p.lighter) ||
    s.net.any (fun x => x.t == t && mine x.node x.lighter && (match x.kind with
      | .store _ _ (.host _) _ => true
      | .block _ _ _ _ (.host _) => true
      | _ => false))

/-- CONFIRMING_READ_COMPLETION: the host port's confirming read, which follows a node's host-shared stores on the link, completes
(R326). With a tenure as its subject it is the read that `done` awaits, behind every store of the tenure (R366). -/
def confirmingReadCompletion (x : Subject) (s : State) : State :=
  match x with
  | .node t n =>
    match s.tasks.get? (key2 t n) with
    | some k =>
      if k.wait == .confirm && !hostStoresOut s t (some n) then
        { s with tasks := s.tasks.set (key2 t n) { k with wait := .none, hostDirty := false } }
      else s
    | none => s
  | .tenure t =>
    match s.tenures.get? t with
    | some tn =>
      if tn.lkWait == .confirm && !hostStoresOut s t none then
        let s := { s with tasks := s.tasks.map (fun (e : Nat × TaskRt) => if keyT e.1 == t then (e.1, { e.2 with hostDirty := false }) else e) }
        s.modTenure t (fun tn => { tn with lkWait := .begun })
      else s
    | none => s
  | _ => s

/-- CONFIRMING_READ_COMPLETION (R326). -/
def execConfirmingReadCompletion (s : State) : Host.Outcome State Fault Refusal := .next (confirmingReadCompletion s.subj s)

/-! ### Gates (R310) -/

/-- The gate of a gate number in the current pound's gate table, with its node (R303, R310). -/
def gateByGid (s : State) (t gid : Nat) : Option (Nat × GateRt) := (gatesOf s t).find? (fun x => x.2.gid == gid)

/-- The unit number of the slice that holds a slice-resident node: level, die and slice as in its locator (R146). -/
def Tenure.sliceUnit (tn : Tenure) (n : Nat) : Nat :=
  match tn.place.bind (fun p => p.slices.get? n) with
  | some loc => loc / 65536
  | none => 0

/-- An arrival, message `m`, is sent to a gate: those of the writes that the host port has issued for the tenure for which `mine` holds come before
what the opening that counts it releases (R338, assumption 36). -/
def markArr (s : State) (t m : Nat) (mine : PortWrite → Bool) : State := modPort s t mine (fun p => { p with arrs := m :: p.arrs })

/-- Arrival `m` counts toward the opening of generation `k` of gate `g` (R306, R338). -/
def countArr (s : State) (t m g k : Nat) : State :=
  modPort s t (fun p => p.arrs.contains m) (fun p => { p with arrs := p.arrs.filter (fun x => x != m), gates := (g, k) :: p.gates })

/-- Whether a write comes before what the openings of gate `g` up to generation `k` release (R338). -/
def PortWrite.opened (p : PortWrite) (g k : Nat) : Bool :=
  p.gates.any (fun x => x.1 == g && decide ((k + 4294967296 - x.2 % 4294967296) % 4294967296 < 2147483648))

/-- Node `n` has been released by gate `g` at generation `k`: the writes that an arrival so far counted followed come before its later accesses
(R338, assumption 36). -/
def orderGate (s : State) (t n g k : Nat) : State := orderNode s t n (fun p => p.opened g k)

/-- The writes that come before what follows on a Permit of gate `g` at generation `k` (R338). -/
def openedOrd (s : State) (t g k : Nat) : List Nat := (s.hostPort.filter (fun p => p.t == t && p.opened g k)).map PortWrite.id

/-- `gate.arr` (R310): the arrival leaves once the task's earlier accesses are complete. -/
def bodyGateArr (gid : Nat) (a : Opnd) : TM Unit := do
  let x ← read32 a
  let s ← getS
  match gateByGid s (← getT) gid with
  | none => raise cGateRange (x.setWidth 64)
  | some (g, _) => do
    let n := x.toNat % 256
    raiseIf (n == 0 || x.toNat / 512 != 0) cGateRange (x.setWidth 64)
    fenceGlobal
    modST (fun s t _ => markArr s t s.nextMsg (fun _ => true))
    let _ ← taskSend ((← getTn).sliceUnit g) (.gateArr g n (bitOf x.toNat 8))

/-- `gate.arr` (R310). -/
def execGateArr (gid : BitVec 6) (a : Opnd) (s : State) : Host.Outcome State Fault Refusal :=
  run1 (.gateArr gid a) (bodyGateArr gid.toNat a) s

/-- Whether a gate's timer can run (R303, R308). -/
def GateRt.timed (g : GateRt) : Bool := g.texp != 15

/-- The timer of a gate after a change (R308): it runs while the gate holds an arrival or a waiter. -/
def GateRt.retime (g : GateRt) (now : Nat) (restart : Bool) : GateRt :=
  if !g.timed || (g.arrived + g.early = 0 ∧ g.waiters = []) then { g with timer := none }
  else if restart then { g with timer := some now }
  else { g with timer := some (g.timer.getD now) }

/-- `gate.wait` (R310): a waiter is registered with the generation seen, and released when the gate reports another. The node counts as
blocked only while the gate's timer does not run. Where the request or the report must cross a die pair without a live module it is lost (R396). -/
def bodyGateWait (gid : Nat) (a : Opnd) : TM Unit := do
  let t ← getT
  let n ← getN
  let tn ← getTn
  match (← getTk).wait with
  | .lost => stop (.wait true)
  | .gate g e => do
    let waiting := match (← getS).gates.get? (key2 t g) with
      | some r => if r.waiters.any (fun w => w.1 == n) then some r.timer.isNone else none
      | none => none
    match waiting with
    | some blocked => stop (.wait blocked)
    | none =>
      if pairLost (← getS) (tn.dieOf g) (tn.dieOf n) then waitLost (tn.dieOf g) (tn.dieOf n)
      else do
        modST (fun s t n => orderGate s t n g (e.toNat + 1))
        modTk (fun k => { k with wait := .none })
  | _ => do
    let e ← read32 a
    match gateByGid (← getS) t gid with
    | none => raise cGateRange (e.setWidth 64)
    | some (g, r) =>
      if pairLost (← getS) (tn.dieOf n) (tn.dieOf g) then waitLost (tn.dieOf n) (tn.dieOf g)
      else if r.gen = e.toNat then
        let now := (← getS).nowOn (tn.dieOf g)
        let r := { r with waiters := r.waiters ++ [(n, e.toNat)] }.retime now false
        modS (fun s => { s with gates := s.gates.set (key2 t g) r })
        modTk (fun k => { k with wait := .gate g e })
        holdHere r.timer.isNone
      else modST (fun s t n => orderGate s t n g r.gen)

/-- `gate.wait` (R310). -/
def execGateWait (gid : BitVec 6) (a : Opnd) (s : State) : Host.Outcome State Fault Refusal :=
  run1 (.gateWait gid a) (bodyGateWait gid.toNat a) s

/-! ### `quiet` (R325) -/

/-- `quiet.p` and `quiet.g` (R325): a request goes to the lockkeeper, and the instruction completes when a wave that began after it
declares quiet. -/
def bodyQuiet (graph : Bool) : TM Unit := do
  match (← getTk).wait with
  | .quiet _ .quiet => modTk (fun k => { k with wait := .none })
  | .quiet _ _ => stop (.wait false)
  | _ => do
    modTk (fun k => { k with wait := .quiet graph .asked })
    holdHere false

/-- `quiet.p` (R325). -/
def execQuietP (s : State) : Host.Outcome State Fault Refusal := run1 .quietP (bodyQuiet false) s

/-- `quiet.g` (R325). -/
def execQuietG (s : State) : Host.Outcome State Fault Refusal := run1 .quietG (bodyQuiet true) s

/-! ### Combine trees (R316) -/

/-- A combine tree by its number. -/
def Tenure.tree? (tn : Tenure) (tree : Nat) : Option TreeE := tn.g.trees.find? (fun x => x.tree == tree)

/-- The entries on the path from entry `k` to the root, at most `fuel` of them (R312). -/
def TreeE.path (x : TreeE) : Nat → Nat → List Nat
  | 0, _ => []
  | fuel + 1, k =>
    match x.ints[k]? with
    | some (p, _, _) => if p = 0xFFF then [k] else k :: TreeE.path x fuel p
    | none => []

/-- Whether an entry still holds a round (R314, R316). -/
def CombRt.holds (c : CombRt) (round : Nat) : Bool := c.rounds.any (fun r => r.round == round) || (c.out.get? round).isSome

/-- Whether round `m - 2` of any entry on a leaf's path is still held, or on its way to one, so that no entry comes to hold more than two
rounds (R313, R316). -/
def pathHolds (s : State) (t : Nat) (x : TreeE) (parent m : Nat) : Bool :=
  let path := x.path x.ints.length parent
  decide (2 ≤ m) && (path.any (fun k =>
    match s.combs.get? (combKey t x.tree k) with
    | some c => c.holds (m - 2)
    | none => false) || s.net.any (fun y => y.t == t && (match y.kind with
      | .contrib tree k _ r _ _ => tree == x.tree && path.contains k && decide (r + 2 ≤ m)
      | _ => false)))

/-- The die of a combine entry's switch (R313). -/
def Tenure.combDie (tn : Tenure) (tree k : Nat) : Nat :=
  match tn.place.bind (fun p => p.combs.get? (4096 * tree + k)) with
  | some (_, site) => site / 131072
  | none => tn.die

/-- The unit number that stands for a combine entry as a destination: its die. -/
def Tenure.combUnit (tn : Tenure) (tree k : Nat) : Nat := unitOf 3 (tn.combDie tree k) 0

/-- The payload units at a bank address. -/
def bankUnits (m : Memory) (a : Nat) : Nat → List W64
  | 0 => []
  | n + 1 => BitVec.ofNat 64 (leNat (m.read a 8)) :: bankUnits m (a + 8) n

/-- `comb.send` (R316). -/
def bodyCombSend (a b : Opnd) : TM Unit := do
  let x := (← read32 a).toNat
  let ba := (← read64 b).toInt
  let tn ← getTn
  let n ← getN
  let tree := x % 65536
  let lf := x / 65536
  match (tn.tree? tree).bind (fun t => t.leaves[lf]?.map (fun l => (t, l))) with
  | none => raise cCombineRange (BitVec.ofNat 64 x)
  | some (tr, (node, parent, slot)) => do
    raiseIf (node != n) cCombineRange (BitVec.ofNat 64 x)
    let k ← getTk
    raiseIf (decide (ba < 0) || decide ((k.bankBytes : Int) < ba + 8 * tr.ulen)) cBankRange (BitVec.ofInt 64 ba)
    raiseIf (decide (ba % 8 ≠ 0)) cBankAlign (BitVec.ofInt 64 ba)
    let key := 65536 * tree + lf
    let m := k.rounds.getD key 0
    let s ← getS
    blockUnless (!pathHolds s (← getT) tr parent m)
    let _ ← taskSend (tn.combUnit tree parent) (.contrib tree parent slot m (bankUnits k.bank ba.toNat tr.ulen) none)
    modTk (fun k => { k with rounds := k.rounds.set key (m + 1) })

/-- `comb.send` (R316). -/
def execCombSend (a b : Opnd) (s : State) : Host.Outcome State Fault Refusal := run1 (.combSend a b) (bodyCombSend a b) s

end Sys2Proof.Machine
end

