-- ==== Sys2Proof/Machine/Operators.lean ====
section
/-! DEFINITION. Operator nodes: the firing of R204 to R208 and R418, the arithmetic and conversion operators (R209 to R212), and
compare-exchange (R221). What an operator does next is one pure function of the state, `Firing`, which the dusk wave reads too. -/

namespace Sys2Proof.Machine

/-! ### Firings -/

/-- What a node that fires on its inputs does next (R50, R204 to R208). -/
inductive Firing where
  /-- Nothing now. `blocked`: a firing waits for a slot, or a head waits for its partner (R234). -/
  | idle (blocked : Bool)
  /-- The node halts with an imprecise fault (R232). -/
  | fault (code : Nat) (arg : W64)
  /-- A firing: the event that it is, and the state after it. -/
  | fire (tag : Instr) (next : State)

/-- The seq of a record as a fault's argument (R370). -/
def seqArg (r : Rec) : W64 := BitVec.ofNat 64 (hSeq r.hdr)

/-- An input of a node as its firing sees it: its port, its channel, whether it is resident, and its head record. -/
structure FireIn where
  port : Nat
  chan : Nat
  resident : Bool
  head : Option Rec
  deriving DecidableEq, Repr

/-- The bound inputs of a node, in port order. -/
def fireIns (s : State) (t : Nat) : List (Option Nat) → Nat → List FireIn
  | [], _ => []
  | none :: r, p => fireIns s t r (p + 1)
  | some c :: r, p =>
    match s.chan? t c with
    | some ch => { port := p, chan := c, resident := ch.resident, head := ch.buf.head? } :: fireIns s t r (p + 1)
    | none => fireIns s t r (p + 1)

/-- Whether a node holds a head record on one stream input and waits for a record on another (R234). -/
def heldAndWaits (ins : List FireIn) : Bool :=
  ins.any (fun i => !i.resident && i.head.isSome) && ins.any (fun i => !i.resident && i.head.isNone)

/-- The head record of an input port. -/
def headAt (ins : List FireIn) (p : Nat) : Option Rec := (ins.find? (fun i => i.port == p)).bind FireIn.head

/-- The channel of a port. -/
def portChan (chans : Vector (Option Nat) 16) (p : Nat) : Option Nat := chans[p]?.bind id

/-- The bound ports of a node, in order. -/
def boundPorts (chans : Vector (Option Nat) 16) : List Nat := (List.range 16).filter (fun p => (portChan chans p).isSome)

/-- The heads of an input that are discarded, up to `fuel` of them: while `p` holds of the head it is popped. -/
def discardWhile (p : Rec → Bool) (t c : Nat) : Nat → State → State
  | 0, s => s
  | fuel + 1, s =>
    match (s.chan? t c).bind (fun ch => ch.buf.head?) with
    | some r => if p r then discardWhile p t c fuel (popHead s t c) else s
    | none => s

/-- Control tokens and Nulls at the head of an input, discarded and counted as consumed (R206, R215, R216, R222). -/
def discardStructure (s : State) (t c : Nat) : State :=
  discardWhile (fun r => isToken r || rType r == tNull) t c ((s.chan? t c).elim 0 (fun ch => ch.buf.length)) s

/-- Every resident input cleared of control tokens and Nulls at its head (R206), and every input of `ctl` too. -/
def clearInputs (s : State) (t : Nat) (ctl : List Nat) : List FireIn → State
  | [] => s
  | i :: r => clearInputs (if i.resident || ctl.contains i.port then discardStructure s t i.chan else s) t ctl r

/-- Whether every listed output port has room for its records, a port listed once for each record (R50). -/
def hasRoom (s : State) (t : Nat) (outCh : Vector (Option Nat) 16) (ports : List Nat) : Bool :=
  ports.all (fun p => match (portChan outCh p).bind (s.chan? t) with
    | some ch => decide (ports.count p ≤ ch.free)
    | none => true)

/-- Records sent on output ports, in order; a port without a channel sends nothing. -/
def sendOuts (s : State) (t : Nat) (outCh : Vector (Option Nat) 16) : List (Nat × Rec) → State
  | [] => s
  | (p, r) :: rest =>
    match portChan outCh p with
    | some c => sendOuts (sendRec s t c r) t outCh rest
    | none => sendOuts s t outCh rest

/-- The fault of a record that cannot be formed: a header that breaks R38, or a payload over its channel's width (R35). An MX pack of a record of len 0
makes an MX record of 0 blocks, which R39 does not have and R212 does not speak of; the model's choice is RECORD_TYPE, by the check of the header
(DESIGN CHOICE, assumption 98). -/
def formFault (s : State) (t : Nat) (outCh : Vector (Option Nat) 16) (p : Nat) (r : Rec) : Option Nat :=
  match (portChan outCh p).bind (s.chan? t) with
  | none => none
  | some ch => if ch.e.width < hLen r.hdr then some cRecordLength else checkHeader r.hdr

/-- The first record of a list that cannot be formed, with its fault. -/
def firstFormFault (s : State) (t : Nat) (outCh : Vector (Option Nat) 16) : List (Nat × Rec) → Option (Nat × W64)
  | [] => none
  | (p, r) :: rest =>
    match formFault s t outCh p r with
    | some code => some (code, r.hdr)
    | none => firstFormFault s t outCh rest

/-- One use of the head of each listed input port (R37). -/
def takeHeads (s : State) (t : Nat) (ins : List FireIn) : List Nat → State
  | [] => s
  | p :: r =>
    match ins.find? (fun i => i.port == p) with
    | some i => takeHeads (useHead s t i.chan) t ins r
    | none => takeHeads s t ins r

/-- What the records that a firing uses say comes before what follows on them (R339). -/
def takenOrd (ins : List FireIn) (takes : List Nat) : List Nat := takes.flatMap (fun p => ((headAt ins p).map Rec.ord).getD [])

/-- A firing that uses the heads of `takes`, sends `outs`, which follow on them (R339), and changes the node by `f`: it waits for room on every
output, and halts where a record cannot be formed (R35, R38, R50, R205). -/
def Firing.commit (s : State) (t : Nat) (outCh : Vector (Option Nat) 16) (ins : List FireIn) (tag : Instr) (takes : List Nat)
    (outs : List (Nat × Rec)) (f : State → State) : Firing :=
  if !hasRoom s t outCh (outs.map Prod.fst) then .idle true
  else
    match firstFormFault s t outCh outs with
    | some (code, arg) => .fault code arg
    | none => .fire tag (f (sendOuts (takeHeads s t ins takes) t outCh (outs.map (fun o => (o.1, Rec.follow o.2 (takenOrd ins takes))))))

/-! ### Elements (R104, R105) -/

/-- The number that the units of a payload make, unit 0 lowest. -/
def unitsNat : List W64 → Nat
  | [] => 0
  | u :: us => u.toNat + 2 ^ 64 * unitsNat us

/-- The `n` lowest units of a number. -/
def natUnits (x : Nat) : Nat → List W64
  | 0 => []
  | n + 1 => BitVec.ofNat 64 x :: natUnits (x / 2 ^ 64) n

/-- The elements of width `w` of a payload (R105). -/
def elemsOf (w : Nat) (us : List W64) : List Nat :=
  let x := unitsNat us
  (List.range (us.length * 64 / w)).map (fun k => bitsOf x (w * k) w)

/-- Elements of width `w` packed into `n` units (R105). -/
def packElems (w n : Nat) (xs : List Nat) : List W64 := natUnits (packNat w xs) n

/-! ### The arithmetic and conversion word (R209) -/

/-- The operator code. -/
def wOp (w : Nat) : Nat := bitsOf w 120 8
/-- The fmt field. -/
def wFmt (w : Nat) : Nat := bitsOf w 112 8
/-- The rm field. -/
def wRm (w : Nat) : Mode := (Mode.ofBits? (BitVec.ofNat 3 (bitsOf w 109 3))).getD .rne
/-- The sat field. -/
def wSat (w : Nat) : Bool := bitOf w 108
/-- The sc field. -/
def wSc (w : Nat) : Bool := bitOf w 107
/-- The ky field. -/
def wKy (w : Nat) : Bool := bitOf w 106
/-- The bcy field. -/
def wBcy (w : Nat) : Bool := bitOf w 105
/-- The sub field. -/
def wSub (w : Nat) : Nat := bitsOf w 96 8
/-- The seed. -/
def wSeed (w : Nat) : W32 := BitVec.ofNat 32 (bitsOf w 32 32)
/-- The constant. -/
def wKval (w : Nat) : Nat := bitsOf w 0 32

/-- The scale that a format-table entry applies: its register's value with sen = 1, else none (R125, R128). -/
def entryScale (f : Fmt) (e : W32) : Option XReal :=
  if bitOf e.toNat 11 then
    let m := bitsOf e.toNat 8 3
    some (scaleVal (f.scl[m]?.getD 0) (bitOf f.sclkind.toNat m))
  else none

/-- A value under a scale. -/
def scaled (x : XReal) : Option XReal → XReal
  | some c => x.mul c
  | none => x

/-- The scale of input port `p` when sc is 1. -/
def inScale (w : Nat) (f : Fmt) (p : Nat) : Option XReal := if wSc w then entryScale f (f.ins[p]?.getD 0) else none

/-- The scale of `o0` when sc is 1. -/
def outScale (w : Nat) (f : Fmt) : Option XReal := if wSc w then entryScale f (f.outs[0]?.getD 0) else none

/-- A sum under a rounding mode: an exact zero of terms of opposite sign is minus zero under mode down (R109). -/
def XReal.addM (mode : Mode) (x y : XReal) : XReal :=
  match x.add y with
  | .fin false 0 e =>
    let pos (v : XReal) : Bool := match v with | .fin false 0 _ => true | _ => false
    .fin (mode == .rdn && !(pos x && pos y)) 0 e
  | z => z

/-- The magnitude of a value. -/
def XReal.abs : XReal → XReal
  | .inf _ => .inf false
  | .fin _ m e => .fin false m e
  | x => x

/-- An integer element of the operators 0x01 to 0x0F (R210, R211), before it is taken modulo 2^w or clamped: none where it is neither
clamped nor a sum. -/
def intElem (code sub : Nat) (signed sat : Bool) (n x y z : Nat) : Nat :=
  let a := intVal signed n x
  let b := intVal signed n y
  let c := intVal signed n z
  let out (v : Int) : Nat := wrapInt (if sat then (clampInt signed n v).1 else v) n
  match code with
  | 0x01 => out (a + b)
  | 0x02 => out (a - b)
  | 0x03 => out (a * b)
  | 0x04 => out (if sub = 0 then a * b + c else if sub = 1 then a * b - c else -(a * b) + c)
  | 0x05 => wrapInt (if b < a then b else a) n
  | 0x06 => wrapInt (if a < b then b else a) n
  | 0x07 => out (if a < 0 then -a else a)
  | 0x08 => out (-a)
  | 0x0A => if (if sub = 0 then a = b else if sub = 1 then a < b else a ≤ b) then 2 ^ n - 1 else 0
  | _ => arithInt (if sub = 0 then .sll else if sub = 1 then .srl else .sra) signed n x y

/-- A floating-point element of the operators 0x01 to 0x0A (R210, R211): the exact result rounded once. `x`, `y`, `z` are bits, and the
scales are those of their channels and of the output; `m` is the value of `scl` for the scale operator. -/
def fltElem (code sub : Nat) (f : FFmt) (w : Nat) (sx sy sz so : Option XReal) (m : XReal) (rho x y z : Nat) : Nat :=
  let mode := wRm w
  let a := scaled (f.decode x) sx
  let b := scaled (f.decode y) sy
  let c := scaled (f.decode z) sz
  let out (v : XReal) : Nat := (f.round mode (wSat w) rho (scaled v so)).1
  let p := a.mul b
  let chosen (bits : Nat) (v : XReal) : Nat := if wSc w then out v else bits
  match code with
  | 0x01 => out (a.addM mode b)
  | 0x02 => out (a.addM mode b.neg)
  | 0x03 => out p
  | 0x04 => out (if sub = 0 then p.addM mode c else if sub = 1 then p.addM mode c.neg else p.neg.addM mode c)
  | 0x05 => if a.isNaN || b.isNaN then f.canonNaN else if b.ltz a then chosen y b else chosen x a
  | 0x06 => if a.isNaN || b.isNaN then f.canonNaN else if a.ltz b then chosen y b else chosen x a
  | 0x07 => if a.isNaN then f.canonNaN else chosen (x % 2 ^ (f.width - 1)) a.abs
  | 0x08 => if a.isNaN then f.canonNaN else chosen (x ^^^ 2 ^ (f.width - 1)) a.neg
  | 0x09 => out (a.mul m)
  | _ =>
    let holds := if sub = 0 then a.eqv b else if sub = 1 then a.lt b else if sub = 2 then a.lt b || a.eqv b else a.isNaN || b.isNaN
    if holds then 2 ^ f.width - 1 else 0

/-- A bitwise element: select, and, or, xor (R210). -/
def bitElem (code w x y z : Nat) : Nat :=
  let ones := 2 ^ w - 1
  match code with
  | 0x0B => (x &&& z) ||| (y &&& (ones ^^^ z))
  | 0x0C => x &&& y
  | 0x0D => x ||| y
  | _ => x ^^^ y

/-- Whether a code works on bits. -/
def isBitOp (code : Nat) : Bool := code == 0x0B || code == 0x0C || code == 0x0D || code == 0x0E

/-- The mixed value of element `k` of a firing (R113, R211). -/
def opRho (w : Nat) (seq k : Nat) : Nat := (mix (wSeed w) (BitVec.ofNat 32 seq) (BitVec.ofNat 32 k)).toNat

/-- Element `k` of a data firing of the operators 0x01 to 0x0F (R210, R211). -/
def opElem (w : Nat) (f : Fmt) (seq k x y z : Nat) : Nat :=
  let code := wOp w
  if isBitOp code then bitElem code (fmtBits (wFmt w)) x y z
  else
    match EFmt.ofCode? (wFmt w) with
    | some (.int sg n) => intElem code (wSub w) sg (wSat w) n x y z
    | some (.flt g) =>
      fltElem code (wSub w) g w (inScale w f 0) (if wKy w then none else inScale w f 1) (inScale w f 2) (outScale w f)
        (scaleVal (f.scl[wSub w % 8]?.getD 0) (bitOf f.sclkind.toNat (wSub w % 8))) (opRho w seq k) x y z
    | _ => x

/-- Elements of x with y and z, element by element; a list that is too short gives 0. -/
def opElems (w : Nat) (f : Fmt) (seq : Nat) (ys zs : List Nat) (one : Bool) (xs : List Nat) : List Nat :=
  xs.zipIdx.map (fun e => opElem w f seq e.2 e.1 (if one then ys.headD 0 else ys[e.2]?.getD 0) (zs[e.2]?.getD 0))

/-- A Data record with the mx flag that its format needs (R106). -/
def fmtRec (fmt seq carg : Nat) (us : List W64) : Rec :=
  { hdr := mkHdr tData fmt us.length seq (decide (0x18 ≤ fmt) && decide (fmt ≤ 0x1B)) carg, units := us }

/-- A data firing of an operator 0x01 to 0x0F: its record, or OPERAND_MISMATCH against the head of unequal len (R209, R210). -/
def arithRec (w : Nat) (f : Fmt) (x : Rec) (y z : Option Rec) : Except (Nat × W64) Rec :=
  let n := fmtBits (wFmt w)
  let lenOk (r : Rec) (one : Bool) : Bool := if one then decide (1 ≤ r.units.length) else r.units.length == x.units.length
  match y, z with
  | some r, some q =>
    if !lenOk r (wBcy w) then .error (cOperand, seqArg r)
    else if !lenOk q false then .error (cOperand, seqArg q)
    else .ok (fmtRec (wFmt w) (hSeq x.hdr) (hCarg x.hdr) (packElems n x.units.length
      (opElems w f (hSeq x.hdr) (elemsOf n r.units) (elemsOf n q.units) (wBcy w) (elemsOf n x.units))))
  | some r, none =>
    if !lenOk r (wBcy w) then .error (cOperand, seqArg r)
    else .ok (fmtRec (wFmt w) (hSeq x.hdr) (hCarg x.hdr) (packElems n x.units.length
      (opElems w f (hSeq x.hdr) (elemsOf n r.units) [] (wBcy w) (elemsOf n x.units))))
  | none, some q =>
    if !lenOk q false then .error (cOperand, seqArg q)
    else .ok (fmtRec (wFmt w) (hSeq x.hdr) (hCarg x.hdr) (packElems n x.units.length
      (opElems w f (hSeq x.hdr) [wKval w % 2 ^ n] (elemsOf n q.units) true (elemsOf n x.units))))
  | none, none =>
    .ok (fmtRec (wFmt w) (hSeq x.hdr) (hCarg x.hdr) (packElems n x.units.length
      (opElems w f (hSeq x.hdr) [wKval w % 2 ^ n] [] true (elemsOf n x.units))))

/-! ### Conversions (R212) -/

/-- The value of an element of the source format. -/
def srcVal (fmt x : Nat) : XReal :=
  match EFmt.ofCode? fmt with
  | some f => f.decode x
  | none => .fin false 0 0

/-- A conversion operator's record (R212). -/
def convertRec (w : Nat) (f : Fmt) (x : Rec) : Rec :=
  let dst := wSub w
  let b := fmtBits dst
  let xs := elemsOf (fmtBits (wFmt w)) x.units
  let n := ceilDiv (xs.length * b) 64
  let enc (k : Nat) (v : XReal) : Nat :=
    match EFmt.ofCode? dst with
    | some g => (g.convert (wRm w) (wSat w) (opRho w (hSeq x.hdr) k) v).1
    | none => 0
  let ys := xs.zipIdx.map (fun e => enc e.2 (scaled (scaled (srcVal (wFmt w) e.1) (inScale w f 0)) (outScale w f)))
  let pad := List.replicate (n * 64 / b - ys.length) (enc 0 (.fin false 0 0))
  fmtRec dst (hSeq x.hdr) (hCarg x.hdr) (packElems b n (ys ++ pad))

/-- The kind of an MX format code (R120, R201). -/
def mxKind (fmt : Nat) : Nat := fmt - 0x18

/-- The scale byte of a block (R121). -/
def mxBlockScale (kind : Nat) (xs : List XReal) : Nat :=
  if xs.any XReal.special then 255
  else
    let a := xs.foldl (fun m x => match x with | .fin _ n e => magMax m (n, e) | _ => m) (0, 0)
    mxScale kind a.1 a.2

/-- The elements of a block under its scale (R121): of a block with a NaN or an infinity, or of zeros, every one is 0. -/
def mxBlockElems (kind scale : Nat) (mode : Mode) (rho : Nat → Nat) (xs : List XReal) : List Nat :=
  let allZero := xs.all (fun x => match x with | .fin _ m _ => m == 0 | _ => false)
  xs.zipIdx.map (fun e =>
    if scale = 255 || allZero then 0 else (mxEncode kind mode (rho e.2) (e.1.scale2 (127 - (scale : Int)))).1)

/-- A list cut into `n` blocks of 32, the last padded with zeros (R121). -/
def blocks32 (xs : List XReal) : Nat → List (List XReal)
  | 0 => []
  | n + 1 =>
    let b := xs.take 32
    (b ++ List.replicate (32 - b.length) (.fin false 0 0)) :: blocks32 (xs.drop 32) n

/-- An MX record of values (R106, R121): scale bytes, then elements. -/
def mxRec (fmt seq b : Nat) (mode : Mode) (rho : Nat → Nat) (xs : List XReal) : Rec :=
  let kind := mxKind fmt
  let bs := (blocks32 xs b).zipIdx
  let scales := bs.map (fun e => mxBlockScale kind e.1)
  let elems := (bs.map (fun e => mxBlockElems kind (mxBlockScale kind e.1) mode (fun i => rho (32 * e.2 + i)) e.1)).flatten
  fmtRec fmt seq b (packElems 8 (ceilDiv b 8) scales ++ packElems (mxWidth kind) (mxUnits fmt b) elems)

/-- An MX pack operator's record; above 8,160 elements RECORD_LENGTH (R212). -/
def mxPackRec (w : Nat) (f : Fmt) (x : Rec) : Except (Nat × W64) Rec :=
  let xs := elemsOf (fmtBits (wFmt w)) x.units
  if 8160 < xs.length then .error (cRecordLength, x.hdr)
  else
    let vs := xs.map (fun e => scaled (scaled (srcVal (wFmt w) e) (inScale w f 0)) (outScale w f))
    .ok (mxRec (wSub w) (hSeq x.hdr) (ceilDiv xs.length 32) (wRm w) (opRho w (hSeq x.hdr)) vs)

/-- The values of an MX record of `b` blocks (R106, R120). -/
def mxVals (fmt b : Nat) (us : List W64) : List XReal :=
  let kind := mxKind fmt
  let sc := elemsOf 8 (us.take (ceilDiv b 8))
  let es := elemsOf (mxWidth kind) (us.drop (ceilDiv b 8))
  (es.take (32 * b)).zipIdx.map (fun (e : Nat × Nat) =>
    let x := sc[e.2 / 32]?.getD 0
    if x = 255 then .nan false else (mxDecode kind e.1).scale2 ((x : Int) - 127))

/-- An MX unpack operator's record (R212): into fp32 and bf16 the value is rounded to nearest even whatever rm holds (R120). -/
def mxUnpackRec (w : Nat) (f : Fmt) (x : Rec) : Rec :=
  let dst := wSub w
  let mode := if dst = 0x10 ∨ dst = 0x11 then .rne else wRm w
  let b := fmtBits dst
  let vs := mxVals (wFmt w) (hCarg x.hdr) x.units
  let enc (k : Nat) (v : XReal) : Nat :=
    match EFmt.ofCode? dst with
    | some g => (g.convert mode (wSat w) (opRho w (hSeq x.hdr) k) v).1
    | none => 0
  let ys := vs.zipIdx.map (fun e => enc e.2 (scaled (scaled e.1 (inScale w f 0)) (outScale w f)))
  fmtRec dst (hSeq x.hdr) (hCarg x.hdr) (packElems b (ceilDiv (ys.length * b) 64) ys)

/-! ### Compare-exchange (R221) -/

/-- Whether y ranks above x (R221): by value, any NaN above every number. -/
def ranksAbove (fmt x y : Nat) : Bool :=
  let a := srcVal fmt x
  let b := srcVal fmt y
  if a.isNaN then false else if b.isNaN then true else a.lt b

/-- The two records of a compare-exchange, greater first (R221). Where there is no element 0 to compare, the choice is free (assumption
9). -/
def exchangeRecs (fmt : Nat) (whole : Bool) (x y : Rec) : Except (Nat × W64) (Rec × Rec) :=
  let n := fmtBits fmt
  let xs := elemsOf n x.units
  let ys := elemsOf n y.units
  let swap := match xs.head?, ys.head? with
    | some a, some b => ranksAbove fmt a b
    | _, _ => Config.exchangeFree x.hdr y.hdr
  let hx := if swap then y.hdr else x.hdr
  let hy := if swap then x.hdr else y.hdr
  if whole then .ok (if swap then (y, x) else (x, y))
  else if x.units.length ≠ y.units.length then .error (cOperand, seqArg y)
  else
    let ps := List.zipWith (fun a b => if ranksAbove fmt a b then (b, a) else (a, b)) xs ys
    .ok ({ hdr := hx, units := packElems n x.units.length (ps.map Prod.fst) },
         { hdr := hy, units := packElems n x.units.length (ps.map Prod.snd) })

/-! ### The generic firing (R206, R207) -/

/-- Whether two heads are the same control token (R207). -/
def sameToken (a b : Rec) : Bool :=
  isToken a && rType a == rType b && (rType a != tDimEnd || hCarg a.hdr == hCarg b.hdr)

/-- A copy of a record for every listed port. -/
def copies (ports : List Nat) (r : Rec) : List (Nat × Rec) := ports.map (fun p => (p, r))

/-- The first head among the inputs that no other operator than fork, tap, fair merge and sink passes (R418). -/
def foreignHead : List FireIn → Option Rec
  | [] => none
  | i :: r =>
    match i.head with
    | some h => if 7 ≤ rType h then some h else foreignHead r
    | none => foreignHead r

/-- Whether a channel carries the permissions of a loop-exit drain (R222): it starts at `o2` of one, or behind forks and taps, which pass
every record unchanged (R214, R219), at most `fuel` of them (assumption 63). -/
def carriesPermission (s : State) (t : Nat) : Nat → Nat → Bool
  | 0, _ => false
  | fuel + 1, c =>
    match s.chan? t c with
    | some ch =>
      match s.opers.get? (key2 t ch.e.src) with
      | some o =>
        (wOp o.word == 0x3A && ch.e.oport == 2) ||
          ((wOp o.word == 0x30 || wOp o.word == 0x37) && (match portChan o.inCh 0 with
            | some d => carriesPermission s t fuel d
            | none => false))
      | none => false
    | none => false

/-- Whether a channel carries permissions, in a graph of any size. -/
def isPermission (s : State) (t c : Nat) : Bool := carriesPermission s t (s.opers.length + 1) c

/-- Whether an input holds a permission with carg 0 (R222). -/
def deniesFiring (s : State) (t : Nat) (i : FireIn) : Bool :=
  match i.head with
  | some h => rType h == tData && hLen h.hdr == 0 && hCarg h.hdr == 0 && isPermission s t i.chan
  | none => false

/-- An input as an operator sees it that no permission may pass: one with carg 0 is a Null (R222). -/
def denied (s : State) (t : Nat) (i : FireIn) : FireIn :=
  if deniesFiring s t i then { i with head := i.head.map (fun r => Rec.follow (madeNull r.hdr) r.ord) } else i

/-- The generic firing of an operator: data by `data`, a control token or Nulls by R207. `perm`: it heeds permissions, as operators do: one with carg
0 has the inputs of its iteration, Data and Nulls, consumed and Nulls emitted (R222). Of the same control token on inputs that differ in seq or fmt R207
does not say which is emitted; the model's choice is the leading input's (DESIGN CHOICE, assumption 94). -/
def genericFiring (perm : Bool) (s : State) (t : Nat) (inCh outCh : Vector (Option Nat) 16) (tag : Instr)
    (data : State → List FireIn → Except (Nat × W64) (List (Nat × Rec))) (after : State → State) : Firing :=
  let s := clearInputs s t [] (fireIns s t inCh.toList 0)
  let ins := fireIns s t inCh.toList 0
  let outs := boundPorts outCh
  match foreignHead ins with
  | some h => .fault cOperand (seqArg h)
  | none =>
    let stream := ins.filter (fun i => !i.resident)
    if ins.any (fun i => i.head.isNone) then .idle (heldAndWaits ins)
    else
      let heads := stream.filterMap FireIn.head
      let all := ins.map FireIn.port
      match heads with
      | [] =>
        if !hasRoom s t outCh outs then .idle true
        else match data s ins with
          | .ok rs => Firing.commit s t outCh ins tag all rs after
          | .error (code, arg) => .fault code arg
      | lead :: rest =>
        if perm && stream.any (deniesFiring s t) && heads.all (fun h => !isToken h) then
          Firing.commit s t outCh ins .nullFiring all (copies outs (madeNull lead.hdr)) id
        else if heads.all (fun h => rType h == tData) then
          if !hasRoom s t outCh outs then .idle true
          else match data s ins with
            | .ok rs => Firing.commit s t outCh ins tag all rs after
            | .error (code, arg) => .fault code arg
        else if heads.all (fun h => rType h == tNull) then
          Firing.commit s t outCh ins .nullFiring all (copies outs (madeNull lead.hdr)) id
        else if rest.all (sameToken lead) && isToken lead then
          Firing.commit s t outCh ins .controlTokenFiring (stream.map FireIn.port) (copies outs lead) id
        else
          match rest.find? (fun h => !(rType h == rType lead && (rType lead != tDimEnd || hCarg h.hdr == hCarg lead.hdr))) with
          | some h => .fault cOperand (seqArg h)
          | none => .fault cOperand (seqArg lead)

/-- The next firing of an arithmetic operator (R210). -/
def arithFiring (s : State) (t : Nat) (o : OperRt) : Firing :=
  genericFiring true s t o.inCh o.outCh .arithmeticFiring (fun _ ins =>
    match headAt ins 0 with
    | some x => (arithRec o.word o.fmt x (headAt ins 1) (headAt ins 2)).map (fun r => [(0, r)])
    | none => .ok []) id

/-- The next firing of a conversion operator (R212). -/
def convertFiring (s : State) (t : Nat) (o : OperRt) : Firing :=
  let code := wOp o.word
  let tag : Instr := if code = 0x20 then .convert else if code = 0x21 then .mxPack else .mxUnpack
  genericFiring true s t o.inCh o.outCh tag (fun _ ins =>
    match headAt ins 0 with
    | some x =>
      if code = 0x20 then .ok [(0, convertRec o.word o.fmt x)]
      else if code = 0x21 then (mxPackRec o.word o.fmt x).map (fun r => [(0, r)])
      else .ok [(0, mxUnpackRec o.word o.fmt x)]
    | none => .ok []) id

/-- The next firing of a compare-exchange (R221). Where there is no element 0 to compare, which record is the greater is a free value
(assumption 9). -/
def exchangeFiring (s : State) (t : Nat) (o : OperRt) : Firing :=
  genericFiring true s t o.inCh o.outCh .compareExchange (fun _ ins =>
    match headAt ins 0, headAt ins 1 with
    | some x, some y => (exchangeRecs (wFmt o.word) (bitOf o.word 96) x y).map (fun r => [(0, r.1), (1, r.2)])
    | _, _ => .ok []) id

end Sys2Proof.Machine
end

