-- ==== Sys2Proof/Machine/Stream.lean ====
section
/-! DEFINITION. Stream operators (R213 to R223), what each operator node does next, and the events that are its firings. -/

namespace Sys2Proof.Machine

/-- The state with operator `n` changed. -/
def State.setOper (s : State) (t n : Nat) (o : OperRt) : State := { s with opers := s.opers.set (key2 t n) o }

/-- A Null in place of a record, where there is one. -/
def nullOf (r : Rec) : Rec := madeNull r.hdr

/-- A fork: the head to every output (R214). -/
def forkFiring (s : State) (t : Nat) (o : OperRt) (ins : List FireIn) : Firing :=
  match headAt ins 0 with
  | none => .idle false
  | some r => .commit s t o.outCh ins .fork [0] (copies (boundPorts o.outCh) r) id

/-- The decision of a control record: bit 0 of unit 0; a Data record of len 0 has none (R215, R216, R222). -/
def decision (c : Rec) : Except (Nat × W64) Bool :=
  match c.units with
  | [] => .error (cSteer, seqArg c)
  | u :: _ => .ok (bitOf u.toNat 0)

/-- A steer or a filter (R47, R215): the outputs of decisions 0 and 1. -/
def steerFiring (s : State) (t : Nat) (o : OperRt) (ins : List FireIn) (tag : Instr) (out0 out1 : Option Nat) : Firing :=
  let nullMode := bitOf o.word 96
  let inv := bitOf o.word 97
  match headAt ins 0 with
  | none => .idle (heldAndWaits ins)
  | some r =>
    if isToken r then .commit s t o.outCh ins tag [0] (copies (out0.toList ++ out1.toList) r) id
    else
      match headAt ins 1 with
      | none => .idle (heldAndWaits ins)
      | some c =>
        match decision c with
        | .error (code, arg) => .fault code arg
        | .ok b =>
          let b := b != inv
          let taken := if b then out1 else out0
          let other := if b then out0 else out1
          .commit s t o.outCh ins tag [0, 1] (copies taken.toList r ++ (if nullMode then copies other.toList (nullOf r) else [])) id

/-- A merge with a control record at hand: its decision selects a side (R216, steps 2 to 4). -/
def mergeByControl (s : State) (t : Nat) (o : OperRt) (ins : List FireIn) (c : Rec) : Firing :=
  match decision c with
  | .error (code, arg) => .fault code arg
  | .ok d =>
    match headAt ins (if d then 1 else 0) with
    | none => .idle (heldAndWaits ins)
    | some h => if isToken h then .fault cMerge (seqArg h) else .commit s t o.outCh ins .merge [if d then 1 else 0, 2] [(0, h)] id

/-- A control-steered merge, in the order of R216: the same token on both sides; else what a control record selects; else two different
tokens (R48; that a selected token is a mismatch also beside an empty side is DEDUCED: assumption 84). Where the same token on both sides differs in seq
or fmt, no rule says which is emitted; the model's choice is that on `i0` (DESIGN CHOICE, assumption 94). -/
def mergeFiring (s : State) (t : Nat) (o : OperRt) (ins : List FireIn) : Firing :=
  let waits : Firing := .idle (heldAndWaits ins)
  match headAt ins 0, headAt ins 1 with
  | some x, some y =>
    if sameToken x y then .commit s t o.outCh ins .merge [0, 1] [(0, x)] id
    else if isToken x && isToken y then .fault cMerge (seqArg y)
    else ((headAt ins 2).map (mergeByControl s t o ins)).getD waits
  | _, _ => ((headAt ins 2).map (mergeByControl s t o ins)).getD waits

/-- A null merge (R48, R216). R48 has it emit one Null for two, and does not say which of two that differ in their headers; the model's choice is
that on `i1`, and of two equal tokens that on `i0` (DESIGN CHOICE, assumption 94). A permission with carg 0 has both records of its position
consumed and a Null emitted (R222). -/
def nullMergeFiring (s : State) (t : Nat) (o : OperRt) (ins : List FireIn) : Firing :=
  match headAt ins 0, headAt ins 1 with
  | some x, some y =>
    if ins.any (deniesFiring s t) && !isToken x && !isToken y then
      .commit s t o.outCh ins .nullMerge [0, 1] [(0, madeNull x.hdr)] id
    else if isToken x || isToken y then
      if sameToken x y then .commit s t o.outCh ins .nullMerge [0, 1] [(0, x)] id
      else .fault cMerge (seqArg (if isToken x then y else x))
    else if rType x == tNull then .commit s t o.outCh ins .nullMerge [0, 1] [(0, y)] id
    else if rType y == tNull then .commit s t o.outCh ins .nullMerge [0, 1] [(0, x)] id
    else .fault cMerge (seqArg y)
  | _, _ => .idle (heldAndWaits ins)

/-- The inputs of a fair merge in the order in which it serves them: from `o.last` on (R51, R217). -/
def fairOrder (o : OperRt) (n : Nat) : List Nat :=
  match o.inSeg with
  | some k => [k]
  | none => (List.range n).map (fun k => (o.last + k) % n)

/-- A fair merge (R51, R217). Inside a segment it waits for that segment's input, whatever the others hold (R234). -/
def fairFiring (s : State) (t n : Nat) (o : OperRt) (ins : List FireIn) : Firing :=
  let k := bitsOf o.word 96 4 + 1
  match (fairOrder o k).find? (fun p => (headAt ins p).isSome) with
  | none => .idle (heldAndWaits ins)
  | some p =>
    match headAt ins p with
    | none => .idle false
    | some r =>
      let seg := if rType r == tBow then some p else if rType r == tStern then none else o.inSeg
      .commit s t o.outCh ins .fairMerge [p] [(0, r)] (fun s => s.setOper t n { o with last := (p + 1) % k, inSeg := seg })

/-- A sequence tag (R218). -/
def seqTagFiring (s : State) (t n : Nat) (o : OperRt) (ins : List FireIn) : Firing :=
  let start := bitsOf o.word 96 16
  let step := bitsOf o.word 80 16
  match headAt ins 0 with
  | none => .idle false
  | some r =>
    if isToken r then
      let ctr := if rType r == tBow && bitOf o.word 79 then start else o.ctr
      .commit s t o.outCh ins .sequenceTag [0] [(0, r)] (fun s => s.setOper t n { o with ctr := ctr })
    else
      .commit s t o.outCh ins .sequenceTag [0] [(0, { r with hdr := hWithSeq r.hdr o.ctr })]
        (fun s => s.setOper t n { o with ctr := (o.ctr + step) % 65536 })

/-- A reorder (R219): a record in turn is emitted; else a firing of the head (R37) puts it into the window, or, a control token, passes an empty
one. While the record in turn waits for a slot no head enters (DESIGN CHOICE: assumption 85). A wave counts what the window holds as not
consumed, so that none is quiet over it (R231). It waits on no slot or stream input for a head that is held back (R234). -/
def reorderFiring (s : State) (t n : Nat) (o : OperRt) (ins : List FireIn) : Firing :=
  let w := bitsOf o.word 96 6 + 1
  match o.window.find? (fun r => hSeq r.hdr == o.ctr) with
  | some r =>
    .commit s t o.outCh ins .reorder [] [(0, r)] (fun s =>
      s.setOper t n { o with ctr := (o.ctr + 1) % 65536, window := o.window.filter (fun q => hSeq q.hdr != o.ctr) })
  | none =>
    match headAt ins 0 with
    | none => .idle false
    | some r =>
      if isToken r then
        if !o.window.isEmpty then .idle false
        else
          let ctr := if rType r == tBow && bitOf o.word 79 then bitsOf o.word 80 16 else o.ctr
          .commit s t o.outCh ins .reorder [0] [(0, r)] (fun s => s.setOper t n { o with ctr := ctr })
      else if w ≤ (hSeq r.hdr + 65536 - o.ctr) % 65536 || o.window.any (fun q => hSeq q.hdr == hSeq r.hdr) then
        .fault cReorder (seqArg r)
      else .commit s t o.outCh ins .reorder [0] [] (fun s => s.setOper t n { o with window := o.window ++ [r] })

/-- Whether a tap selects a record (R213, R219). -/
def tapSelects (w : Nat) (r : Rec) : Bool :=
  match bitsOf w 96 2 with
  | 0 => rType r == tStern
  | 1 => rType r == tDimEnd && decide (bitsOf w 100 4 ≤ hCarg r.hdr)
  | _ => rType r == tBow

/-- The gate node at a locator (R146, R213). -/
def gateAt (s : State) (t loc : Nat) : Option Nat :=
  match (s.tenures.get? t).bind Tenure.place with
  | some p => (p.slices.find? (fun x => x.2 == loc && (s.gates.get? (key2 t x.1)).isSome)).map Prod.fst
  | none => none

/-- A tap (R219, R309): after the selected record has passed, an arrival with the tap's parity, which inverts. A locator at which the
tenure has no gate takes no arrival (assumption 10). -/
def tapFiring (s : State) (t n : Nat) (o : OperRt) (ins : List FireIn) : Firing :=
  match headAt ins 0 with
  | none => .idle false
  | some r =>
    .commit s t o.outCh ins .tap [0] [(0, r)] (fun s =>
      if !tapSelects o.word r then s
      else
        let s' := s.setOper t n { o with par := !o.par }
        match gateAt s t (bitsOf o.word 32 32), s.tenures.get? t with
        | some g, some tn =>
          let u := tn.sliceUnit g
          sendMsg (markArr s' t s'.nextMsg (fun p => r.ord.contains p.id)) t n none (tn.dieOf n) (unitDie u) u
            (.gateArr g (bitsOf o.word 88 8) o.par)
        | _, _ => s')

/-- A combine-send (R220, R317): a Data record is one round of its leaf. -/
def combineSendFiring (s : State) (t n : Nat) (o : OperRt) (ins : List FireIn) : Firing :=
  match headAt ins 0, s.tenures.get? t with
  | some r, some tn =>
    if rType r != tData then .commit s t o.outCh ins .combineSend [0] [] id
    else
      match (tn.tree? (bitsOf o.word 80 16)).bind (fun x => x.leaves[bitsOf o.word 64 16]?.map (fun l => (x, l))) with
      | none => .idle false
      | some (x, (_, parent, slot)) =>
        if hLen r.hdr ≠ x.ulen then .fault cRecordLength r.hdr
        else if pathHolds s t x parent o.ctr then .idle false
        else
          .commit s t o.outCh ins .combineSend [0] [] (fun s =>
            let s := s.setOper t n { o with ctr := o.ctr + 1 }
            let u := tn.combUnit x.tree parent
            sendMsg s t n none (tn.dieOf n) (unitDie u) u (.contrib x.tree parent slot o.ctr r.units none))
  | _, _ => .idle false

/-- The permission of an iteration (R222). -/
def permissionRec (r : Rec) (go : Bool) : Rec := dataRec 0 (hSeq r.hdr) (if go then 1 else 0) []

/-- A record of `i0` at a loop-exit drain in DRAIN, or a control token in either state (R222). -/
def drainRecord (s : State) (t n : Nat) (o : OperRt) (ins : List FireIn) (r : Rec) : Firing :=
  if isToken r then
    if rType r == tBow then
      .commit s t o.outCh ins .loopExitDrain [0] (copies [0, 1, 2] r) (fun s => s.setOper t n { o with drain := false, last := 1 })
    else .commit s t o.outCh ins .loopExitDrain [0] [(1, r)] (fun s => s.setOper t n { o with last := 1 })
  else .commit s t o.outCh ins .loopExitDrain [0] [(2, permissionRec r false)] (fun s => s.setOper t n { o with last := 1 })

/-- A predicate at a loop-exit drain in DRAIN is discarded (R222). -/
def drainPredicate (s : State) (t n : Nat) (o : OperRt) (ins : List FireIn) (c : Rec) : Firing :=
  match decision c with
  | .error (code, arg) => .fault code arg
  | .ok _ => .commit s t o.outCh ins .loopExitDrain [1] [] (fun s => s.setOper t n { o with last := 0 })

/-- A record and a predicate at a loop-exit drain in PASS (R222). -/
def drainPass (s : State) (t n : Nat) (o : OperRt) (ins : List FireIn) (r c : Rec) : Firing :=
  match decision c with
  | .error (code, arg) => .fault code arg
  | .ok go =>
    if hSeq r.hdr ≠ hSeq c.hdr then .fault cLoop (seqArg r)
    else
      .commit s t o.outCh ins .loopExitDrain [0, 1] [(if go then 0 else 1, r), (2, permissionRec r go)]
        (fun s => s.setOper t n { o with drain := !go, last := 0 })

/-- A loop-exit drain (R49, R222). In DRAIN it serves its two inputs round-robin (R51). -/
def loopDrainFiring (s : State) (t n : Nat) (o : OperRt) (ins : List FireIn) : Firing :=
  match headAt ins 0, headAt ins 1 with
  | none, none => .idle false
  | some r, none => if o.drain || isToken r then drainRecord s t n o ins r else .idle (heldAndWaits ins)
  | none, some c => if o.drain then drainPredicate s t n o ins c else
      match decision c with
      | .error (code, arg) => .fault code arg
      | .ok _ => .idle (heldAndWaits ins)
  | some r, some c =>
    if o.drain then if o.last = 1 then drainPredicate s t n o ins c else drainRecord s t n o ins r
    else if isToken r then drainRecord s t n o ins r
    else drainPass s t n o ins r c

/-- A constant source (R223). A Null passes as it is, with its header's fmt (DESIGN CHOICE: assumption 86). -/
def constantFiring (s : State) (t : Nat) (o : OperRt) (ins : List FireIn) : Firing :=
  match headAt ins 0 with
  | none => .idle false
  | some r =>
    let out := if rType r == tData then dataRec (wFmt o.word) (hSeq r.hdr) (hCarg r.hdr) [BitVec.ofNat 64 o.word] else r
    .commit s t o.outCh ins .constantSource [0] [(0, out)] id

/-- A sink (R223). -/
def sinkFiring (s : State) (t : Nat) (o : OperRt) (ins : List FireIn) : Firing :=
  if (headAt ins 0).isSome then .commit s t o.outCh ins .sink [0] [] id else .idle false

/-- A repeat (R223): one record of its firing at a time; `copies` counts those sent. -/
def repeatFiring (s : State) (t n : Nat) (o : OperRt) (ins : List FireIn) : Firing :=
  let total := bitsOf o.word 96 16
  let level := bitsOf o.word 92 4
  match headAt ins 0 with
  | none => .idle false
  | some r =>
    if isToken r then .commit s t o.outCh ins .repeat_ [0] [(0, r)] id
    else if o.copies < total then
      let last := decide (o.copies + 1 = total) && level == 0
      .commit s t o.outCh ins .repeat_ (if last then [0] else []) [(0, r)]
        (fun s => s.setOper t n { o with copies := if last then 0 else o.copies + 1 })
    else
      .commit s t o.outCh ins .repeat_ [0] [(0, madeRec tDimEnd (hSeq r.hdr) level)]
        (fun s => s.setOper t n { o with copies := 0 })

/-- The control inputs of an operator, where tokens and Nulls are discarded (R215, R216, R222). -/
def controlPorts (code : Nat) : List Nat :=
  if code = 0x31 ∨ code = 0x3B ∨ code = 0x3A then [1] else if code = 0x32 then [2] else []

/-- The event of an operator's own firings. -/
def operTag (code : Nat) : Instr :=
  if code ≤ 0x0F then .arithmeticFiring
  else if code = 0x20 then .convert
  else if code = 0x21 then .mxPack
  else if code = 0x22 then .mxUnpack
  else if code = 0x30 then .fork
  else if code = 0x31 then .steer
  else if code = 0x32 then .merge
  else if code = 0x33 then .nullMerge
  else if code = 0x34 then .fairMerge
  else if code = 0x35 then .sequenceTag
  else if code = 0x36 then .reorder
  else if code = 0x37 then .tap
  else if code = 0x38 then .combineSend
  else if code = 0x39 then .compareExchange
  else if code = 0x3A then .loopExitDrain
  else if code = 0x3B then .filter
  else if code = 0x3C then .constantSource
  else if code = 0x3D then .sink
  else .repeat_

/-- Whether an operator passes records of types 0x07 to 0x0A (R418). -/
def passesForeign (code : Nat) : Bool := code == 0x30 || code == 0x34 || code == 0x37 || code == 0x3D

/-- The next firing of operator `n` of tenure `t`, on cleared inputs. A permission with carg 0 is a Null to every operator but those that
pass records unchanged (R222, assumption 63). -/
def operFiring (s : State) (t n : Nat) (o : OperRt) : Firing :=
  let code := wOp o.word
  let ins := fireIns s t o.inCh.toList 0
  match (if passesForeign code then none else foreignHead ins) with
  | some h => .fault cOperand (seqArg h)
  | none =>
    if code ≤ 0x0F then arithFiring s t o
    else if code ≤ 0x22 then convertFiring s t o
    else if code = 0x30 then forkFiring s t o ins
    else if code = 0x31 then steerFiring s t o (ins.map (denied s t)) .steer (some 0) (some 1)
    else if code = 0x32 then mergeFiring s t o (ins.map (denied s t))
    else if code = 0x33 then nullMergeFiring s t o ins
    else if code = 0x34 then fairFiring s t n o (ins.map (denied s t))
    else if code = 0x35 then seqTagFiring s t n o (ins.map (denied s t))
    else if code = 0x36 then reorderFiring s t n o (ins.map (denied s t))
    else if code = 0x37 then tapFiring s t n o ins
    else if code = 0x38 then combineSendFiring s t n o (ins.map (denied s t))
    else if code = 0x39 then exchangeFiring s t o
    else if code = 0x3A then loopDrainFiring s t n o (ins.map (denied s t))
    else if code = 0x3B then steerFiring s t o (ins.map (denied s t)) .filter none (some 0)
    else if code = 0x3C then constantFiring s t o (ins.map (denied s t))
    else if code = 0x3D then sinkFiring s t o ins
    else repeatFiring s t n o (ins.map (denied s t))

/-- The inputs of an operator with what is discarded at their heads discarded (R206, R215, R216, R222). -/
def operClear (s : State) (t : Nat) (o : OperRt) : State :=
  clearInputs s t (controlPorts (wOp o.word)) (fireIns s t o.inCh.toList 0)

/-- Whether the parts of a tenure may act (R361, R363, R397). -/
def partsMove (s : State) (t : Nat) : Bool :=
  s.dawn.power == .on && (match s.tenures.get? t with
    | some tn => tn.moves
    | none => false)

/-- Whether messages still land in the parts of a tenure: it holds its region and its image is not saved (R363). -/
def partsLand (s : State) (t : Nat) : Bool :=
  s.dawn.power == .on && (match s.tenures.get? t with
    | some tn => tn.phase == .running || tn.phase == .pausing
    | none => false)

/-- Operator `n` of tenure `t` fires, where its next firing is the event `ev`, or halts, where `ev` is its own kind of firing. -/
def operEvent (ev : Instr) (t n : Nat) (s : State) : State :=
  match s.opers.get? (key2 t n) with
  | none => s
  | some o =>
    if o.halted || !partsMove s t then s
    else
      let s := operClear s t o
      match operFiring s t n o with
      | .idle _ => s
      | .fault code arg => if ev == operTag (wOp o.word) then nodeFault s t n code arg else s
      | .fire tag s' => if ev == tag then s' else s

/-- An operator event with its subject. -/
def operEventOf (ev : Instr) (s : State) : State :=
  match s.subj with
  | .node t n => operEvent ev t n s
  | _ => s

/-- ARITHMETIC_FIRING (R210). -/
def execArithmeticFiring (s : State) : Host.Outcome State Fault Refusal := .next (operEventOf .arithmeticFiring s)

/-- CONTROL_TOKEN_FIRING (R207). -/
def execControlTokenFiring (s : State) : Host.Outcome State Fault Refusal := .next (operEventOf .controlTokenFiring s)

/-- NULL_FIRING (R207). -/
def execNullFiring (s : State) : Host.Outcome State Fault Refusal := .next (operEventOf .nullFiring s)

/-- CONVERT (R212). -/
def execConvert (s : State) : Host.Outcome State Fault Refusal := .next (operEventOf .convert s)

/-- MX_PACK (R212). -/
def execMxPack (s : State) : Host.Outcome State Fault Refusal := .next (operEventOf .mxPack s)

/-- MX_UNPACK (R212). -/
def execMxUnpack (s : State) : Host.Outcome State Fault Refusal := .next (operEventOf .mxUnpack s)

/-- FORK (R214). -/
def execFork (s : State) : Host.Outcome State Fault Refusal := .next (operEventOf .fork s)

/-- STEER (R215). -/
def execSteer (s : State) : Host.Outcome State Fault Refusal := .next (operEventOf .steer s)

/-- FILTER (R215). -/
def execFilter (s : State) : Host.Outcome State Fault Refusal := .next (operEventOf .filter s)

/-- MERGE (R216). -/
def execMerge (s : State) : Host.Outcome State Fault Refusal := .next (operEventOf .merge s)

/-- NULL_MERGE (R216). -/
def execNullMerge (s : State) : Host.Outcome State Fault Refusal := .next (operEventOf .nullMerge s)

/-- FAIR_MERGE (R217). -/
def execFairMerge (s : State) : Host.Outcome State Fault Refusal := .next (operEventOf .fairMerge s)

/-- SEQUENCE_TAG (R218). -/
def execSequenceTag (s : State) : Host.Outcome State Fault Refusal := .next (operEventOf .sequenceTag s)

/-- REORDER (R219). -/
def execReorder (s : State) : Host.Outcome State Fault Refusal := .next (operEventOf .reorder s)

/-- TAP (R309). -/
def execTap (s : State) : Host.Outcome State Fault Refusal := .next (operEventOf .tap s)

/-- COMBINE_SEND (R317). -/
def execCombineSend (s : State) : Host.Outcome State Fault Refusal := .next (operEventOf .combineSend s)

/-- COMPARE_EXCHANGE (R221). -/
def execCompareExchange (s : State) : Host.Outcome State Fault Refusal := .next (operEventOf .compareExchange s)

/-- LOOP_EXIT_DRAIN (R222). -/
def execLoopExitDrain (s : State) : Host.Outcome State Fault Refusal := .next (operEventOf .loopExitDrain s)

/-- CONSTANT_SOURCE (R223). -/
def execConstantSource (s : State) : Host.Outcome State Fault Refusal := .next (operEventOf .constantSource s)

/-- SINK (R223). -/
def execSink (s : State) : Host.Outcome State Fault Refusal := .next (operEventOf .sink s)

/-- REPEAT (R223). -/
def execRepeat_ (s : State) : Host.Outcome State Fault Refusal := .next (operEventOf .repeat_ s)

end Sys2Proof.Machine
end

