-- ==== Sys2Proof/Machine/Generators.lean ====
section
/-! DEFINITION. Address generators (R224 to R226). -/

namespace Sys2Proof.Machine

/-- The mode of a generator: 0 read, 1 write, 2 address (R224). -/
def GenRt.mode (g : GenRt) : Nat := bitsOf (g.words.headD 0) 110 2
/-- The operator code. -/
def GenRt.op (g : GenRt) : Nat := wOp (g.words.headD 0)
/-- The element format. -/
def GenRt.efmt (g : GenRt) : Nat := wFmt (g.words.headD 0)
/-- Element bytes. -/
def GenRt.ebytes (g : GenRt) : Nat := fmtBits g.efmt / 8
/-- Loop levels `L`. -/
def GenRt.levels (g : GenRt) : Nat := bitsOf (g.words.headD 0) 108 2 + 1
/-- Whether a nest stands between a bow and a stern. -/
def GenRt.bs (g : GenRt) : Bool := bitOf (g.words.headD 0) 107
/-- The 64 bits of level `k` (R224). -/
def GenRt.levelBits (g : GenRt) (k : Nat) : Nat := bitsOf (g.words[1 + k / 2]?.getD 0) (64 * (k % 2)) 64
/-- The trip count of level `k`. -/
def GenRt.count (g : GenRt) (k : Nat) : Nat := bitsOf (g.levelBits k) 0 24
/-- The byte stride of level `k`. -/
def GenRt.stride (g : GenRt) (k : Nat) : Int := sextInt (bitsOf (g.levelBits k) 24 40) 40
/-- The runs of level 0 that levels 1 to `k` make. -/
def GenRt.runs (g : GenRt) : Nat → Nat
  | 0 => 1
  | k + 1 => g.runs k * max 1 (g.count (k + 1))

/-- The address at which run `r` begins (R225). -/
def GenRt.runBase (g : GenRt) (base : Int) (r : Nat) : Int :=
  let i (k : Nat) : Int := ((r / g.runs (k - 1) % max 1 (g.count k) : Nat) : Int)
  base + i 1 * g.stride 1 + i 2 * g.stride 2 + i 3 * g.stride 3

/-- The level of the dim_end after run `r`: the highest level of 1 to `L - 1` whose index has returned to 0 (R225). -/
def GenRt.dimEnd (g : GenRt) (r : Nat) : Option Nat :=
  ((List.range g.levels).reverse.filter (fun k => decide (1 ≤ k))).find? (fun k => (r + 1) % g.runs k == 0)

/-- Whether a generator reads global memory as a stream: its reads are ordered by nothing but their addresses, those of one run and of another alike
(R344). -/
def GenRt.readsAhead (g : GenRt) : Bool := g.op == 0x41 && g.mode == 0

/-- A nest that comes to phase `ph` from a run: nothing is read or written for its next run, but what a stream has read ahead. -/
def GenRt.toPhase (g : GenRt) (x : Nest) (ph : Nat) : Nest :=
  if g.readsAhead then { x with phase := ph, held := none, got := x.got.keep (fun k => decide ((x.run + 1) * g.count 0 ≤ k)) }
  else { x with phase := ph, asked := 0, got := [], held := none }

/-- The nest after its last run: the completion record, the stern, or its end. -/
def GenRt.afterRuns (g : GenRt) (x : Nest) : Option Nest :=
  if g.mode = 1 then some (g.toPhase x 3) else if g.bs then some (g.toPhase x 4) else none

/-- The nest after run `x.run` and its dim_end. One start record of a gather serves one index record (DESIGN CHOICE: assumption 87). -/
def GenRt.nextRun (g : GenRt) (x : Nest) : Option Nest :=
  if g.op ≠ 0x42 ∧ x.run + 1 < g.runs 3 then some { g.toPhase x 1 with run := x.run + 1 } else g.afterRuns x

/-- The nest after the record of a run; in write mode no dim_end follows, for no record was emitted. -/
def GenRt.afterRecord (g : GenRt) (x : Nest) : Option Nest :=
  if g.mode ≠ 1 ∧ g.op ≠ 0x42 ∧ (g.dimEnd x.run).isSome then some (g.toPhase x 2) else g.nextRun x

/-- The state with generator `n` in nest `x`. -/
def State.setNest (s : State) (t n : Nat) (g : GenRt) (x : Option Nest) : State :=
  { s with gens := s.gens.set (key2 t n) { g with nest := x } }

/-- How far a generator came with the accesses to the elements of a run. -/
inductive GenStep where
  /-- The access of every element has been issued. -/
  | all (s : State)
  /-- Those before element `asked`, as far as its translations reach; `ask`: a page request goes out. -/
  | part (s : State) (asked : Nat) (ask : Option Nat)
  /-- A fault; `used`: the failed page request it uses up (R267). -/
  | stop (code : Nat) (arg : W64) (used : Option Nat)

/-- The physical address of an element, or what stands in the way (R265 to R267). -/
def genXlate (s : State) (t n : Nat) (va : Int) (write : Bool) : Except (GenStep ⊕ Option Nat) Phys :=
  match s.tenures.get? t with
  | none => .error (.inr none)
  | some tn =>
    if va < 0 ∨ 2 ^ 57 ≤ va then .error (.inl (.stop cPageFault (pageArg (wrapInt va 64) 0) none))
    else
      let a := va.toNat
      match translate s (.stream t n 0) tn.pasid a with
      | .hit e => if (if write then e.w else e.r) then .ok (e.phys a) else .error (.inl (.stop cPageFault (pageArg a 2) none))
      | .fail c fin => .error (.inl (.stop cPageFault (pageArg a c) (if fin then some a else none)))
      | .miss => .error (.inr none)
      | .ask => .error (.inr (some a))

/-- The block at an address of a tenure enters the stream caches of its region (R264, assumption 70), as an access of the tenure finds it
(R345). -/
def cacheFill (t va : Nat) (s : State) : State :=
  s.modTenure t (fun tn =>
    match walk s tn.pasid va with
    | .ok e =>
      let pa := (e.phys va).block
      if tn.lk.lstate != 1 || tn.streamCache.any (fun e => e.1 == pa) then tn
      else { tn with streamCache := (pa, memRead s t (va / 64 * 64) pa 64) :: tn.streamCache }
    | _ => tn)

/-- The block at an address leaves the stream caches of a tenure's region (R264). -/
def cacheDrop (t : Nat) (pa : Phys) (s : State) : State :=
  s.modTenure t (fun tn => { tn with streamCache := tn.streamCache.filter (fun e => e.1 != pa.block) })

/-- The values of the elements at the listed addresses where no global memory is read: the addresses themselves, or what the bank holds
(R225). -/
def GenRt.atOnce (g : GenRt) (as : List Int) : List Nat :=
  as.map (fun va => if g.mode = 2 then wrapInt va 64 else leNat (g.bank.read va.toNat g.ebytes))

/-- An access of a generator sent to its home. -/
def genSend (s : State) (t n : Nat) (pa : Phys) (k : MsgKind) : State :=
  let u := physUnit pa
  sendMsg s t n none ((s.tenures.get? t).elim 0 (fun tn => tn.dieOf n)) (unitDie u) u k

/-- Reads of the elements at the listed addresses issued one after another, element `k` first (R225): they are performed at their homes, in any
order, but for what R338 orders (R344). -/
def genRead (t n : Nat) (g : GenRt) : List Int → Nat → State → GenStep
  | [], _, s => .all s
  | va :: rest, k, s =>
    match genXlate s t n va false with
    | .error (.inl x) => x
    | .error (.inr ask) => .part s k ask
    | .ok pa =>
      match (s.tenures.get? t).bind (fun tn => tn.watchHit 6 va.toNat g.ebytes) with
      | some arg => .stop cWatchHit arg none
      | none => genRead t n g rest (k + 1) (genSend s t n pa (.genLoad k va.toNat g.ebytes pa))

/-- Stores of elements to global memory issued one after another, element `k` first (R225). -/
def genWrite (t n : Nat) (g : GenRt) : List (Int × Nat) → Nat → State → GenStep
  | [], _, s => .all s
  | (va, x) :: rest, k, s =>
    match genXlate s t n va true with
    | .error (.inl y) => y
    | .error (.inr ask) => .part s k ask
    | .ok pa => genWrite t n g rest (k + 1) (genSend s t n pa (.store va.toNat (leBytes x g.ebytes) pa none))

/-- Bytes of a run written to the bank. -/
def bankWrite (m : Memory) (size : Nat) : List (Int × Nat) → Memory
  | [] => m
  | (a, x) :: r => bankWrite (m.write a.toNat (leBytes x size)) size r

/-- The addresses of a run: of its elements in order, or, for a gather, of the elements its index record names (R225). -/
def GenRt.addrs (g : GenRt) (x : Nest) (index : Option Rec) : List Int :=
  if g.op = 0x42 then
    match index with
    | some r => (elemsOf 32 r.units).map (fun (j : Nat) => (x.base : Int) + j * g.stride 0)
    | none => []
  else
    let b := g.runBase (if g.op = 0x40 then (BitVec.ofNat 64 x.base).toInt else x.base) x.run
    (List.range (g.count 0)).map (fun (j : Nat) => b + j * g.stride 0)

/-- The first address outside a generator's partition (R226). -/
def GenRt.outside (g : GenRt) (as : List Int) : Option Int :=
  if g.op = 0x40 then as.find? (fun a => decide (a < 0) || decide ((g.bankBytes : Int) < a + g.ebytes)) else none

/-- The event of a generator's firings. -/
def GenRt.tag (g : GenRt) : Instr := if g.op = 0x40 then .bankStream else if g.op = 0x41 then .globalStream else .globalGather

/-- Units of an output record of `k` elements (R225). -/
def GenRt.outUnits (g : GenRt) (k : Nat) : Nat := if g.mode = 2 then k else ceilDiv (k * fmtBits g.efmt) 64

/-- The output record of a run (R225). -/
def GenRt.outRec (g : GenRt) (seq : Nat) (got : List Nat) : Rec :=
  if g.mode = 2 then dataRec 0 seq 0 (got.map (BitVec.ofNat 64))
  else dataRec g.efmt seq 0 (packElems (fmtBits g.efmt) (g.outUnits got.length) got)

/-- What a generator does with how far it came: what follows on the last element, a fault, a page request, or its progress kept. -/
def genPart (s : State) (t n : Nat) (g : GenRt) (x : Nest) (st : GenStep) (k : State → Firing) : Firing :=
  match st with
  | .all s' => k s'
  | .part s' asked ask =>
    let s' := s'.setNest t n g (some { x with asked := asked })
    match ask, s.tenures.get? t with
    | some va, some tn => .fire g.tag (askPage s' (.stream t n 0) tn.pasid va)
    | _, _ => if asked = x.asked then .idle false else .fire g.tag s'
  | .stop code arg used =>
    match used, s.tenures.get? t with
    | some va, some tn => .fire g.tag (nodeFault (dropPageFail (.stream t n 0) tn.pasid va s) t n code arg)
    | _, _ => .fault code arg

/-- Whether every element of a run of `k`, the first of them `lo`, has been read. -/
def Nest.whole (x : Nest) (lo k : Nat) : Bool := (List.range k).all (fun i => (x.got.get? (lo + i)).isSome)

/-- The elements of a run of `k`, the first of them `lo`, as read. -/
def Nest.elems (x : Nest) (lo k : Nat) : List Nat := (List.range k).map (fun i => x.got.getD (lo + i) 0)

/-- The inputs whose head a firing uses that leaves the nest as `next`: the record of `i1`, and with the nest the start record, unless their
residence has ended already (R37). -/
def Nest.uses (x : Nest) (one : Bool) (next : Option Nest) : List Nat :=
  (if one && x.held.isNone then [1] else []) ++ (if next.isNone && !x.ended then [0] else [])

/-- The reads of a global stream: those of the due run, or, while it awaits answers, of a later run of the nest (R344). What stands in the way of a
later run counts only once its record is due. -/
def genStream (s : State) (t n : Nat) (g : GenRt) (x : Nest) : Firing :=
  let c := g.count 0
  let r := x.asked / c
  if g.runs 3 * c ≤ x.asked then .idle false
  else
    match genRead t n g ((g.addrs { x with run := r } none).drop (x.asked - r * c)) x.asked s with
    | .stop code arg used => if r = x.run then genPart s t n g x (.stop code arg used) (fun s => .fire g.tag s) else .idle false
    | st => genPart s t n g x st (fun s' => .fire g.tag (s'.setNest t n g (some { x with asked := (r + 1) * c })))

/-- The record that is due in a nest. The elements of a global run are read or written by accesses of their own, which may be performed in any
order; its record follows on the last answer (R225, R344), and on what came before the start record and the record of `i1` (R339). -/
def genRecord (s : State) (t n : Nat) (g : GenRt) (ins : List FireIn) (x : Nest) : Firing :=
  let index := if g.op = 0x42 ∨ g.mode = 1 then x.held.or (headAt ins 1) else none
  let next := g.afterRecord x
  let as := g.addrs x index
  let lo := if g.readsAhead then x.run * g.count 0 else 0
  let emit (got : List Nat) : Firing :=
    .commit s t g.outCh ins g.tag (x.uses (g.op == 0x42) next)
      [(0, Rec.follow (g.outRec x.seq got) (x.ord ++ index.elim [] Rec.ord))] (fun s =>
        s.setNest t n { g with last := if g.op = 0x42 then 0 else g.last } next)
  let s := index.elim s (orderRec s t n)
  if g.op = 0x42 ∧ index.isNone then .idle true else
  match g.outside as with
  | some a => .fault cBankRange (BitVec.ofInt 64 a)
  | none =>
    if g.mode = 1 then
      match index with
      | none => .idle true
      | some r =>
        if hLen r.hdr ≠ g.outUnits (g.count 0) then .fault cRecordLength r.hdr
        else
          let es := elemsOf (fmtBits g.efmt) r.units
          if g.op = 0x40 then
            let g' := { g with bank := bankWrite g.bank g.ebytes (List.zip as es) }
            .commit s t g.outCh ins g.tag (x.uses true next) [] (fun s => s.setNest t n g' next)
          else
            genPart s t n g x (genWrite t n g ((List.zip as es).drop x.asked) x.asked s)
              (fun s' => .commit s' t g.outCh ins g.tag (x.uses true next) [] (fun s => s.setNest t n g next))
    else if !hasRoom s t g.outCh [0] then .idle true
    else if g.mode = 2 ∨ g.op = 0x40 then emit (g.atOnce as)
    else if x.whole lo as.length then emit (x.elems lo as.length)
    else if g.readsAhead then genStream s t n g x
    else if x.asked < as.length then
      genPart s t n g x (genRead t n g (as.drop x.asked) x.asked s)
        (fun s' => .fire g.tag (s'.setNest t n g (some { x with asked := as.length })))
    else .idle false

/-- A control token that a generator makes: no rule states its seq (R53, assumption 11). -/
def GenRt.token (g : GenRt) (n : Nat) (x : Nest) (type carg : Nat) : Rec :=
  madeRec type (Config.madeSeq g.words n g.made x.seq).toNat carg

/-- A generator takes start record `r`: what it follows on comes before the accesses of its nest, and what came before those of the nest before does
not on that account come before these (R339). -/
def orderNest (s : State) (t n : Nat) (r : Rec) : State :=
  orderRec (modPort s t (fun p => p.after.any (fun a => a.1 == n)) (fun p => { p with after := p.after.filter (fun a => a.1 != n) })) t n r

/-- The next action of a nest (R225). No rule states the seq of its bow, stern and dim_ends (assumption 11); its completion record, of
fmt Raw (R417), carries the start record's (assumption 12), and follows on the performance of every store of the nest, in host memory too (R225,
R339). -/
def nestFiring (s : State) (t n : Nat) (g : GenRt) (ins : List FireIn) (x : Nest) : Firing :=
  let emit (tag : Instr) (r : Rec) (next : Option Nest) : Firing :=
    .commit s t g.outCh ins tag (x.uses false next) [(0, Rec.follow r x.ord)]
      (fun s => s.setNest t n { g with made := g.made + 1 } next)
  match x.phase with
  | 0 => emit g.tag (g.token n x tBow 0) (some { x with phase := 1 })
  | 1 => genRecord s t n g ins x
  | 2 => emit g.tag (g.token n x tDimEnd ((g.dimEnd x.run).getD 1)) (g.nextRun x)
  | 3 =>
    if accessPending s t n || hostStoresOut s t (some n) then .idle false
    else emit .generatorCompletion (dataRec 0 x.seq 0 []) (if g.bs then some (g.toPhase x 4) else none)
  | _ => emit g.tag (g.token n x tStern 0) none

/-- The nest of start record `r`, whose unit is `u` (R225). -/
def GenRt.startNest (g : GenRt) (u : W64) (r : Rec) : Nest :=
  { base := u.toNat, seq := hSeq r.hdr, run := 0, phase := if g.bs then 0 else 1, asked := 0, got := [], held := none, ended := false, ord := r.ord }

/-- The input whose control token or Null passes next through a gather (R225): of `i1` while no run is in progress, of `i0` while no nest is; the
two in turn (R51; that R51 decides this order is DEDUCED: assumption 88). -/
def gatherPass (g : GenRt) (ins : List FireIn) : Option (Nat × Rec) :=
  let ok (p : Nat) : Option (Nat × Rec) :=
    match headAt ins p with
    | some r => if (isToken r || rType r == tNull) && (match g.nest with
        | some x => p == 1 && x.phase == 1 && x.held.isNone
        | none => true) then some (p, r) else none
    | none => none
  if g.op ≠ 0x42 then none else if g.last = 1 then (ok 1).or (ok 0) else (ok 0).or (ok 1)

/-- The next firing of generator `n` of tenure `t` (R225, R226, R418). A start record has len 1, and no rule names the fault of one that has not; the
model's choice is RECORD_LENGTH (DESIGN CHOICE, assumption 97). -/
def genFiring (s : State) (t n : Nat) (g : GenRt) : Firing :=
  let ins := fireIns s t g.inCh.toList 0
  match foreignHead ins with
  | some h => .fault cOperand (seqArg h)
  | none =>
    match gatherPass g ins with
    | some (p, r) => .commit s t g.outCh ins g.tag [p] [(0, r)] (fun s => s.setNest t n { g with last := (p + 1) % 2 } g.nest)
    | none =>
      match g.nest with
      | some x => nestFiring s t n g ins x
      | none =>
        match headAt ins 0 with
        | none => .idle ((headAt ins 1).isSome)
        | some r =>
          if isToken r || rType r == tNull then .commit s t g.outCh ins g.tag [0] [(0, r)] id
          else
            match r.units with
            | [u] =>
              if u.toNat % g.ebytes ≠ 0 then .fault cStreamAlign u
              else if (g.op = 0x42 ∨ g.mode = 1) ∧ (headAt ins 1).isNone then .idle true
              else
                nestFiring (orderNest s t n r) t n g ins (g.startNest u r)
            | _ => .fault cRecordLength r.hdr

/-- Generator `n` of tenure `t` fires, where its next firing is the event `ev`. -/
def genEvent (ev : Instr) (t n : Nat) (s : State) : State :=
  match s.gens.get? (key2 t n) with
  | none => s
  | some g =>
    if g.halted || !partsMove s t then s
    else
      let s := clearInputs s t [] (fireIns s t g.inCh.toList 0)
      match genFiring s t n g with
      | .idle _ => s
      | .fault code arg => if ev == g.tag then nodeFault s t n code arg else s
      | .fire tag s' => if ev == tag then s' else s

/-- A generator event with its subject. -/
def genEventOf (ev : Instr) (s : State) : State :=
  match s.subj with
  | .node t n => genEvent ev t n s
  | _ => s

/-- BANK_STREAM (R225). -/
def execBankStream (s : State) : Host.Outcome State Fault Refusal := .next (genEventOf .bankStream s)
/-- GLOBAL_STREAM (R225). -/
def execGlobalStream (s : State) : Host.Outcome State Fault Refusal := .next (genEventOf .globalStream s)
/-- GLOBAL_GATHER (R225). -/
def execGlobalGather (s : State) : Host.Outcome State Fault Refusal := .next (genEventOf .globalGather s)
/-- GENERATOR_COMPLETION (R225). -/
def execGeneratorCompletion (s : State) : Host.Outcome State Fault Refusal := .next (genEventOf .generatorCompletion s)

end Sys2Proof.Machine
end

