-- ==== Sys2Proof/Machine/Controllers.lean ====
section
/-! DEFINITION. Controllers (R46, R227, R228). -/

namespace Sys2Proof.Machine

/-- The number of children `c` (R227). -/
def CtrlRt.children (c : CtrlRt) : Nat := bitsOf c.word 116 4 + 1
/-- The depth `d`. -/
def CtrlRt.depth (c : CtrlRt) : Nat := bitsOf c.word 110 6 + 1
/-- The chain bit. -/
def CtrlRt.chain (c : CtrlRt) : Bool := bitOf c.word 109
/-- The root bit. -/
def CtrlRt.root (c : CtrlRt) : Bool := bitOf c.word 108
/-- Iterations for each parent iteration. -/
def CtrlRt.iters (c : CtrlRt) : Nat := bitsOf c.word 72 24
/-- Iterations permitted to child `k`. -/
def CtrlRt.iss (c : CtrlRt) (k : Nat) : Nat := c.issued[k]?.getD 0
/-- Dones returned by child `k`. -/
def CtrlRt.ret (c : CtrlRt) (k : Nat) : Nat := c.returned[k]?.getD 0

/-- The iterations that a Permit of carg `m` asks for: `I` of R228. A streaming controller grants one Permit and awaits one Done. -/
def CtrlRt.asked (c : CtrlRt) (m : Nat) : Nat := if wOp c.word = 0x52 then 1 else m * c.iters

/-- The carg of the Permit now due to child `k`; 0 when none is (R228). -/
def CtrlRt.due (c : CtrlRt) (k : Nat) : Nat :=
  match wOp c.word with
  | 0x50 =>
    let ready := if k = 0 then decide (c.iss 0 ≤ c.ret (c.children - 1)) else decide (c.iss k < c.ret (k - 1))
    if c.iss k < c.want ∧ ready = true then 1 else 0
  | 0x51 =>
    let n := min (c.depth - (c.iss k - c.ret k)) (c.want - c.iss k)
    let n := if c.chain && k != 0 then min n (c.ret (k - 1) - c.iss k) else n
    min n 64
  | _ => if c.iss k < c.want then 1 else 0

/-- Whether every Done that is awaited has come (R228). -/
def CtrlRt.complete (c : CtrlRt) : Bool :=
  c.want != 0 && (if wOp c.word = 0x50 then decide (c.want ≤ c.ret (c.children - 1))
    else (List.range c.children).all (fun k => decide (c.want ≤ c.ret k)))

/-- A count of a child raised. -/
def bump (v : Vector Nat 16) (k n : Nat) : Vector Nat 16 := if h : k < 16 then v.set k (v[k] + n) else v

/-- The state with controller `n` changed. -/
def State.setCtrl (s : State) (t n : Nat) (c : CtrlRt) : State := { s with ctrls := s.ctrls.set (key2 t n) c }

/-- A Permit or a Done that a controller makes on an output port: no rule states its seq (R53, assumption 11). -/
def CtrlRt.token (c : CtrlRt) (n port type carg : Nat) : Rec :=
  madeRec type (Config.madeSeq [c.word] n (c.made[port]?.getD 0) port).toNat carg

/-- Permits sent to the children of a list, each where one is due and its channel has a free slot (R205, R228). No rule states their seq
(assumption 11). -/
def ctrlGrants (t n : Nat) : List Nat → CtrlRt → State → CtrlRt × State
  | [], c, s => (c, s)
  | k :: r, c, s =>
    let m := c.due k
    if m = 0 ∨ !hasRoom s t c.outCh [k] then ctrlGrants t n r c s
    else
      ctrlGrants t n r { c with issued := bump c.issued k m, made := bump c.made k m }
        (sendOuts s t c.outCh [(k, Rec.follow (c.token n k tPermit m) c.ord)])

/-- The index of a controller among its parent's children: the input port that its Done reaches (R46, R227). -/
def childIndex (s : State) (t : Nat) (c : CtrlRt) : Nat := ((portChan c.outCh 15).bind (s.chan? t)).elim 0 (fun ch => ch.e.iport)

/-- A finished controller reports: its Done to its parent when there is a slot, or, the root, to the lockkeeper (R227, R228). -/
def ctrlReport (s : State) (t n : Nat) (c : CtrlRt) : State :=
  let idle := { c with want := 0, issued := Vector.replicate 16 0, returned := Vector.replicate 16 0, made := bump c.made 15 1, ord := [] }
  if !c.complete then s.setCtrl t n c
  else if c.root then s.setCtrl t n { idle with rootDone := true }
  else if !hasRoom s t c.outCh [15] then s.setCtrl t n c
  else (sendOuts s t c.outCh [(15, Rec.follow (c.token n 15 tDone (childIndex s t c)) c.ord)]).setCtrl t n idle

/-- The children's grants and the controller's own report, as far as they can go. -/
def ctrlAdvance (s : State) (t n : Nat) (c : CtrlRt) : State :=
  let (c, s) := ctrlGrants t n (List.range c.children) c s
  ctrlReport s t n c

/-- Whether a record has no place on input port `p` of a controller (R228, R418). -/
def ctrlRefuses (c : CtrlRt) (p : Nat) (r : Rec) : Bool :=
  if p = 15 then rType r != tPermit else !(rType r == tDone && hCarg r.hdr == p && decide (c.ret p < c.iss p))

/-- The first head of a controller's inputs that breaks the order of Permits and Dones (R46, R228). -/
def ctrlOffence (c : CtrlRt) : List FireIn → Option Rec
  | [] => none
  | i :: r =>
    match i.head with
    | some h => if ctrlRefuses c i.port h then some h else ctrlOffence c r
    | none => ctrlOffence c r

/-- Runs a controller's event: an input out of order halts it; else `take` says which input it takes. -/
def ctrlEvent (take : CtrlRt → List FireIn → CtrlRt × Option Nat) (t n : Nat) (s : State) : State :=
  match s.ctrls.get? (key2 t n) with
  | none => s
  | some c =>
    if c.halted || !partsMove s t then s
    else
      let ins := fireIns s t c.inCh.toList 0
      match ctrlOffence c ins with
      | some r => nodeFault s t n cControlOrder (seqArg r)
      | none =>
        let (c, p) := take c ins
        match p.bind (fun p => ins.find? (fun i => i.port == p)) with
        | some i => ctrlAdvance (popHead s t i.chan) t n { c with ord := c.ord ++ takenOrd ins [i.port] }
        | none => ctrlAdvance s t n c

/-- A parent's Permit taken by a controller that serves none; the input that follows it in turn is input 0 (R51, R228). -/
def takePermit (c : CtrlRt) (ins : List FireIn) : CtrlRt × Option Nat :=
  match headAt ins 15 with
  | some r => if c.want = 0 then ({ c with want := c.asked (hCarg r.hdr), last := 0 }, some 15) else (c, none)
  | none => (c, none)

/-- The ready input to serve among those of `ok`, round-robin: the first at or after `start`, else the first of all (R51). -/
def roundRobin (start : Nat) (ins : List FireIn) (ok : FireIn → Bool) : Option FireIn :=
  let ready := ins.filter (fun i => ok i && i.head.isSome)
  (ready.find? (fun i => decide (start ≤ i.port))).orElse (fun _ => ready.head?)

/-- A child's Done taken, the children in turn (R51, R228). -/
def takeDone (c : CtrlRt) (ins : List FireIn) : CtrlRt × Option Nat :=
  match roundRobin c.last ins (fun i => i.port != 15) with
  | some i => ({ c with returned := bump c.returned i.port 1, last := i.port + 1 }, some i.port)
  | none => (c, none)

/-- CONTROLLER_PERMIT (R228). -/
def execControllerPermit (s : State) : Host.Outcome State Fault Refusal :=
  match s.subj with
  | .node t n => .next (ctrlEvent takePermit t n s)
  | _ => .next s

/-- CONTROLLER_DONE (R228). -/
def execControllerDone (s : State) : Host.Outcome State Fault Refusal :=
  match s.subj with
  | .node t n => .next (ctrlEvent takeDone t n s)
  | _ => .next s

end Sys2Proof.Machine
end

