-- ==== Sys2Proof/Machine/Matrix.lean ====
section
/-! DEFINITION. Matrix cells (R235 to R257, R418): the multiply forms, their drains and commands, and the sort forms. -/

namespace Sys2Proof.Machine

/-! ### The multiply word (R238) -/

/-- The form whose formats apply: var for exact-dot. -/
def MatRt.form (m : MatRt) : Nat := if wOp m.word = 8 then bitsOf m.word 100 4 else wOp m.word
/-- The activation format; in a sort the key format. -/
def MatRt.afmt (m : MatRt) : Nat := bitsOf m.word 112 8
/-- The weight format; in a sort the index format. -/
def MatRt.wfmt (m : MatRt) : Nat := bitsOf m.word 104 8
/-- The format code of the output rows. -/
def MatRt.ofmt (m : MatRt) : Nat := 0x10 + bitsOf m.word 98 2
/-- The overflow rule of the output conversion. -/
def MatRt.sat (m : MatRt) : Bool := bitOf m.word 97
/-- Whether scales apply. -/
def MatRt.sc (m : MatRt) : Bool := bitOf m.word 96
/-- Weight buffers. -/
def MatRt.wdepth (m : MatRt) : Nat := 2 ^ bitsOf m.word 94 2
/-- Activation buffers. -/
def MatRt.adepth (m : MatRt) : Nat := 2 ^ bitsOf m.word 92 2
/-- Weights are loaded once and kept. -/
def MatRt.wkeep (m : MatRt) : Bool := bitOf m.word 91
/-- Reduction length. -/
def MatRt.K (m : MatRt) : Nat := bitsOf m.word 72 16
/-- Output columns. -/
def MatRt.N (m : MatRt) : Nat := bitsOf m.word 64 8 + 1
/-- Accumulator rows. -/
def MatRt.M (m : MatRt) : Nat := bitsOf m.word 48 16
/-- Passes per group. -/
def MatRt.P (m : MatRt) : Nat := bitsOf m.word 32 16

/-- Whether a format code is MX. -/
def isMxFmt (fmt : Nat) : Bool := decide (0x18 ≤ fmt) && decide (fmt ≤ 0x1B)

/-- The units of a row or a column of `k` elements, scale units included (R240). -/
def matUnits (fmt k : Nat) : Nat := k / (64 / fmtBits fmt) + (if isMxFmt fmt then ceilDiv k 256 else 0)

/-- The scale of input port `p` of a matrix node when sc is 1 (R246). -/
def MatRt.scale (m : MatRt) (p : Nat) : Option XReal := if m.sc then entryScale m.fmt (m.fmt.ins[p]?.getD 0) else none

/-- Whether the node runs a sort form. -/
def MatRt.sorts (m : MatRt) : Bool := decide (9 ≤ wOp m.word)

/-- The state with matrix node `n` changed. -/
def State.setMat (s : State) (t n : Nat) (m : MatRt) : State := { s with mats := s.mats.set (key2 t n) m }

/-! ### Row firings (R243 to R246) -/

/-- The exact values of `k` elements of a row or a column under a scale (R244, R246). -/
def matVals (fmt k : Nat) (sc : Option XReal) (us : List W64) : List XReal :=
  let vs := if isMxFmt fmt then mxVals fmt (k / 32) us else (elemsOf (fmtBits fmt) us).map (srcVal fmt)
  (vs.take k).map (fun v => scaled v sc)

/-- The product of an activation with a two-term weight (R119): both terms exact; an infinity keeps the weight's sign, and is NaN with a
weight of 0. -/
def twMul (a : XReal) (b : Nat) : XReal :=
  match a with
  | .fin _ _ _ =>
    let term (s : Bool) (k : Nat) : XReal := (XReal.ofInt (tw8Term s k)).scale2 (-6)
    (a.mul (term (bitOf b 7) (bitsOf b 4 3))).add (a.mul (term (bitOf b 3) (bitsOf b 0 3)))
  | _ => a.mul (EFmt.tw8.decode b)

/-- The products of a row with a column (R244). -/
def matProducts (m : MatRt) (row : List XReal) (col : List W64) : List XReal :=
  if m.wfmt = 0x20 then List.zipWith twMul row (elemsOf 8 col)
  else List.zipWith XReal.mul row (matVals m.wfmt m.K (m.scale 1) col)

/-- An accumulator after one pass: rounded once for each product (R244), or once in all for exact-dot (R245). -/
def dotStep (exact : Bool) (c : W32) (ps : List XReal) : W32 :=
  let f (x : XReal) : W32 := BitVec.ofNat 32 (FFmt.fp32.rnd x).1
  let v (x : W32) : XReal := FFmt.fp32.decode x.toNat
  if exact then f (exactSum (v c :: ps)) else ps.foldl (fun c p => f ((v c).add p)) c

/-- The row's new accumulators, column by column. -/
def fireCols (m : MatRt) (row : List XReal) : Nat → List (List W64) → Map W32 → Map W32
  | _, [], acc => acc
  | k, col :: cols, acc =>
    fireCols m row (k + 1) cols (acc.set k (dotStep (wOp m.word == 8) (acc.getD k 0) (matProducts m row col)))

/-- The weight buffer of the current pass. -/
def MatRt.weights (m : MatRt) : WBuf := m.wbufs[m.wcur]?.getD { cols := [], full := false }

/-- The current weight buffer released; the next in fill order is current (R243). -/
def MatRt.release (m : MatRt) : MatRt :=
  { m with wbufs := m.wbufs.set m.wcur { cols := [], full := false }, wcur := (m.wcur + 1) % m.wdepth, fired := false }

/-- The counters after a firing of row `x`, and the drain that the last pass triggers (R243). -/
def MatRt.advance (m : MatRt) (x : Rec) : MatRt :=
  let m := { m with fired := true, r := m.r + 1 }
  if m.r < m.M then m
  else
    let m := { m with r := 0 }
    let m := if m.wkeep then m else m.release
    let m := { m with p := m.p + 1 }
    if m.p < m.P then m else { m with p := 0, drain := some { row := 0, clear := true, cmd := false, gone := false, ord := x.ord } }

/-- A row fired (R243). -/
def MatRt.fireRow (m : MatRt) (x : Rec) : MatRt :=
  let row := matVals m.afmt m.K (if m.afmt = 1 ∨ m.afmt = 2 then none else m.scale 0) x.units
  { m with acc := fireCols m row (m.r * m.N) m.weights.cols m.acc, live := m.live.set m.r true,
           seqreg := m.seqreg.set m.r (hSeq x.hdr) }.advance x

/-- A Null row fired: no arithmetic, and the live bit stays (R249). -/
def MatRt.fireNull (m : MatRt) (x : Rec) : MatRt := { m with seqreg := m.seqreg.set m.r (hSeq x.hdr) }.advance x

/-- Accumulators, live bits and seq registers cleared (R247, R248). -/
def MatRt.clearAcc (m : MatRt) : MatRt := { m with acc := [], live := [], seqreg := [] }

/-- What follows a command's effect: the counters go to 0, and the weight buffer is released if any row has fired against it (R248). -/
def MatRt.afterCommand (m : MatRt) : MatRt :=
  let m := { m with r := 0, p := 0 }
  if m.wkeep || !m.fired then m else m.release

/-! ### Drains (R247) -/

/-- An output element of an accumulator (R246, R247). -/
def outElem (m : MatRt) (c : W32) : Nat :=
  let tw (c : Nat) : Nat :=
    match (if m.wfmt = 0x20 then m.scale 1 else none) with
    | some k => (FFmt.fp32.rnd ((FFmt.fp32.decode c).mul k)).1
    | none => c
  match EFmt.ofCode? m.ofmt with
  | some (.flt .fp32) => tw c.toNat
  | some (.flt f) => (f.round .rne m.sat 0 (FFmt.fp32.decode (tw c.toNat))).1
  | _ => tw c.toNat

/-- The record of accumulator row `r` in a drain (R247). -/
def drainRec (m : MatRt) (r : Nat) : Rec :=
  let seq := m.seqreg.getD r 0
  if m.live.getD r false then
    let b := fmtBits m.ofmt
    dataRec m.ofmt seq 0 (packElems b (ceilDiv (m.N * b) 64) ((List.range m.N).map (fun n => outElem m (m.acc.getD (r * m.N + n) 0))))
  else madeRec tNull seq 0

/-- The head of an input port of a matrix node. -/
def matHead (s : State) (t : Nat) (m : MatRt) (p : Nat) : Option Rec :=
  ((portChan m.inCh p).bind (s.chan? t)).bind (fun ch => ch.buf.head?)

/-- A use of the head of an input port of a matrix node. -/
def matUse (s : State) (t : Nat) (m : MatRt) (p : Nat) : State :=
  match portChan m.inCh p with
  | some c => useHead s t c
  | none => s

/-- Whether everything that earlier records of `i0` started is done (R248, R249). -/
def MatRt.settled (m : MatRt) : Bool := m.rows.isEmpty && m.drain.isNone

/-- The next record of a drain in progress; after the last, its ending (R247, R248). -/
def drainStep (s : State) (t n : Nat) (m : MatRt) (d : MatDrain) : State :=
  if !hasRoom s t m.outCh [0] then s
  else
    let x := drainRec m d.row
    match formFault s t m.outCh 0 x with
    | some code => nodeFault s t n code x.hdr
    | none =>
      let s := sendOuts s t m.outCh [(0, Rec.follow x d.ord)]
      if d.row + 1 < m.M then s.setMat t n { m with drain := some { d with row := d.row + 1 } }
      else
        let m := { m with drain := none }
        let m := if d.clear then m.clearAcc else m
        if d.cmd then
          let s := s.setMat t n m.afterCommand
          if d.gone then s else matUse s t m 0
        else s.setMat t n m

/-- A command word on `i0` (R248): some (some keep) for `mm.drain`, some none for `mm.clear`, none for anything else. -/
def matCommand (x : Rec) : Option (Option Bool) :=
  if hFmt x.hdr ≠ 0 ∨ x.units.length ≠ 2 then none
  else
    let w := unitsNat x.units
    if w = 0x0B * 2 ^ 120 then some (some false)
    else if w = 0x0B * 2 ^ 120 + 2 ^ 96 then some (some true)
    else if w = 0x0C * 2 ^ 120 then some none
    else none

/-! ### What the events do -/

/-- A column on `i1` is written into its buffer; a control token or a Null there is discarded (R242). -/
def weightColumn (s : State) (t n : Nat) (m : MatRt) : State :=
  match portChan m.inCh 1, matHead s t m 1 with
  | some c, some x =>
    if 7 ≤ rType x then nodeFault s t n cOperand (seqArg x)
    else if rType x ≠ tData then popHead s t c
    else
      let b := m.wbufs[m.wfill]?.getD { cols := [], full := true }
      if b.full || (m.wkeep && m.wbufs.any WBuf.full) then s
      else if x.units.length ≠ matUnits m.wfmt m.K then nodeFault s t n cRecordLength x.hdr
      else
        let b := { b with cols := b.cols ++ [x.units] }
        let full := decide (m.N ≤ b.cols.length)
        let m' := { m with wbufs := m.wbufs.set m.wfill { b with full := full },
                           wfill := if full then (m.wfill + 1) % m.wdepth else m.wfill }
        matUse (s.setMat t n m') t m 1
  | _, _ => s

/-- A record of `i0` that has no place there, once everything before it is done (R248, R249, R418). -/
def matOffence (m : MatRt) (x : Rec) : Option (Nat × W64) :=
  if !m.settled then none
  else if 7 ≤ rType x then some (cOperand, seqArg x)
  else if rType x == tData && hFmt x.hdr != m.afmt && (matCommand x).isNone then some (cMatrix, seqArg x)
  else none

/-- A row of `i0` moves into an empty activation buffer (R235, R243). It counts as consumed only when it has fired (R253), so its slot is freed
without a count. A resident row stays at the head until its last firing is done (R37): it moves again for each firing, once the one before is over. -/
def activationRow (s : State) (t n : Nat) (m : MatRt) : State :=
  match portChan m.inCh 0, matHead s t m 0 with
  | some c, some x =>
    match matOffence m x with
    | some (code, arg) => nodeFault s t n code arg
    | none =>
      if rType x ≠ tData ∨ hFmt x.hdr ≠ m.afmt ∨ m.adepth ≤ m.rows.length then s
      else if x.units.length ≠ matUnits m.afmt m.K then
        if m.settled then nodeFault s t n cRecordLength x.hdr else s
      else
        let moved := s.setMat t n { m with rows := m.rows ++ [x] }
        if ((s.chan? t c).map ChanRt.resident).getD false then (if m.rows.isEmpty then moved else s) else moved.modChan t c ChanRt.pop
  | _, _ => s

/-- The oldest row held fires (R243); with the end of the firing it is consumed, or a resident one has one firing less left (R37, R253). -/
def rowFiring (s : State) (t n : Nat) (m : MatRt) : State :=
  match m.rows with
  | [] => s
  | x :: rest =>
    if m.drain.isSome || !m.weights.full then s
    else
      let s := s.setMat t n (MatRt.fireRow { m with rows := rest } x)
      match (portChan m.inCh 0).bind (s.chan? t) with
      | some ch => if ch.resident then matUse s t m 0 else s.modTenure t (fun tn => tn.conP n 1)
      | none => s

/-- A Null on `i0` takes a firing slot (R249). -/
def nullRow (s : State) (t n : Nat) (m : MatRt) : State :=
  match matHead s t m 0 with
  | some x =>
    if rType x ≠ tNull ∨ !m.settled ∨ !m.weights.full then s
    else matUse (s.setMat t n (m.fireNull x)) t m 0
  | none => s

/-- A drain goes on by one record, or a drain command starts (R247, R248). -/
def mmDrain (s : State) (t n : Nat) (m : MatRt) : State :=
  match m.drain with
  | some d => drainStep s t n m d
  | none =>
    match matHead s t m 0 with
    | none => s
    | some x =>
      match matOffence m x with
      | some (code, arg) => nodeFault s t n code arg
      | none =>
        match (if m.settled && rType x == tData then matCommand x else none) with
        | some (some keep) => s.setMat t n { m with drain := some { row := 0, clear := !keep, cmd := true, gone := false, ord := x.ord } }
        | _ => s

/-- A clear command takes effect (R248). -/
def mmClear (s : State) (t n : Nat) (m : MatRt) : State :=
  match matHead s t m 0 with
  | none => s
  | some x =>
    match matOffence m x with
    | some (code, arg) => nodeFault s t n code arg
    | none =>
      match (if m.settled && rType x == tData then matCommand x else none) with
      | some none => matUse (s.setMat t n m.clearAcc.afterCommand) t m 0
      | _ => s

/-- A control token on `i0` passes to `o0` (R249). -/
def matToken (s : State) (t n : Nat) (m : MatRt) : State :=
  match matHead s t m 0 with
  | none => s
  | some x =>
    match matOffence m x with
    | some (code, arg) => nodeFault s t n code arg
    | none =>
      if !isToken x || !m.settled || !hasRoom s t m.outCh [0] then s
      else matUse (sendOuts s t m.outCh [(0, x)]) t m 0

/-! ### Sorts (R251, R252) -/

/-- Whether the first of two keys stands strictly before the second (R221, R252). -/
def sortsBefore (fmt : Nat) (up : Bool) (a b : Nat × Nat) : Bool := if up then ranksAbove fmt a.1 b.1 else ranksAbove fmt b.1 a.1

/-- A pair put into a sorted list, before every pair that does not stand strictly before it. -/
def sortInsert (before : Nat × Nat → Nat × Nat → Bool) (x : Nat × Nat) : List (Nat × Nat) → List (Nat × Nat)
  | [] => [x]
  | y :: ys => if before y x then y :: sortInsert before x ys else x :: y :: ys

/-- A stable sort (R252). -/
def sortPairs (before : Nat × Nat → Nat × Nat → Bool) : List (Nat × Nat) → List (Nat × Nat)
  | [] => []
  | x :: xs => sortInsert before x (sortPairs before xs)

/-- The records of a sort's data firing, or its fault (R252). -/
def sortRecs (m : MatRt) (x : Rec) (y : Option Rec) : Except (Nat × W64) (List (Nat × Rec)) :=
  let b := fmtBits m.afmt
  let c := fmtBits m.wfmt
  let keys := elemsOf b x.units
  let n := keys.length
  let toks := match y with
    | some r => elemsOf c r.units
    | none => List.range n
  if n = 0 ∨ 32 < n then .error (cRecordLength, x.hdr)
  else if toks.length ≠ n then .error (cOperand, (y.map seqArg).getD 0)
  else
    let top := min (bitsOf m.word 97 6) n
    let order := (sortPairs (sortsBefore m.afmt (bitOf m.word 103)) (keys.zip toks)).take top
    let out (fmt w : Nat) (xs : List Nat) : Rec := dataRec fmt (hSeq x.hdr) top (packElems w (ceilDiv (top * w) 64) xs)
    .ok ((0, out m.afmt b (order.map Prod.fst)) ::
      (if wOp m.word = 0x0A then [(1, out m.wfmt c (order.map Prod.snd))] else []))

/-- The next firing of a sort; Nulls and control tokens follow R207 (R252). -/
def sortFiring (s : State) (t : Nat) (m : MatRt) : Firing :=
  genericFiring false s t m.inCh m.outCh .sort (fun _ ins =>
    match headAt ins 0 with
    | some x => sortRecs m x (headAt ins 1)
    | none => .ok []) id

/-- A sort node fires (R252). -/
def sortEvent (s : State) (t n : Nat) (m : MatRt) : State :=
  let s := clearInputs s t [] (fireIns s t m.inCh.toList 0)
  match sortFiring s t m with
  | .idle _ => s
  | .fault code arg => nodeFault s t n code arg
  | .fire _ s => s

/-! ### The dusk wave's view (R253) -/

/-- Whether weight columns stand in the channel of `i1`. -/
def columnsWait (s : State) (t : Nat) (m : MatRt) : Bool :=
  match (portChan m.inCh 1).bind (s.chan? t) with
  | some ch => ch.buf.any (fun r => rType r == tData)
  | none => false

/-- Whether a matrix node counts as blocked (R253): a started firing or drain waits for a slot, or a full activation buffer for a weight
buffer whose columns are still in the channel. In every other case it is idle. -/
def matBlocked (s : State) (t : Nat) (m : MatRt) : Bool :=
  if m.sorts then
    (fireIns s t m.inCh.toList 0).all (fun i => i.head.isSome) && (match sortFiring s t m with
      | .idle b => b
      | _ => false)
  else
    match m.drain with
    | some _ => !hasRoom s t m.outCh [0]
    | none => !m.rows.isEmpty && !m.weights.full && columnsWait s t m

/-! ### Events -/

/-- Runs an event of a matrix node, of a multiply form or of a sort. -/
def matEvent (sort : Bool) (f : State → Nat → Nat → MatRt → State) (s : State) : State :=
  match s.subj with
  | .node t n =>
    match s.mats.get? (key2 t n) with
    | some m => if m.halted || m.sorts != sort || !partsMove s t then s else f s t n m
    | none => s
  | _ => s

/-- WEIGHT_COLUMN (R242). -/
def execWeightColumn (s : State) : Host.Outcome State Fault Refusal := .next (matEvent false weightColumn s)

/-- ACTIVATION_ROW (R243). -/
def execActivationRow (s : State) : Host.Outcome State Fault Refusal := .next (matEvent false activationRow s)

/-- ROW_FIRING (R243). -/
def execRowFiring (s : State) : Host.Outcome State Fault Refusal := .next (matEvent false rowFiring s)

/-- MM_DRAIN (R247, R248). -/
def execMmDrain (s : State) : Host.Outcome State Fault Refusal := .next (matEvent false mmDrain s)

/-- MM_CLEAR (R248). -/
def execMmClear (s : State) : Host.Outcome State Fault Refusal := .next (matEvent false mmClear s)

/-- NULL_ROW (R249). -/
def execNullRow (s : State) : Host.Outcome State Fault Refusal := .next (matEvent false nullRow s)

/-- MATRIX_CONTROL_TOKEN (R249). -/
def execMatrixControlToken (s : State) : Host.Outcome State Fault Refusal := .next (matEvent false matToken s)

/-- SORT (R252). -/
def execSort (s : State) : Host.Outcome State Fault Refusal := .next (matEvent true sortEvent s)

end Sys2Proof.Machine
end

