-- ==== Sys2Proof/Machine/Still.lean ====
section
/-! DEFINITION. Whether nodes stand still: what a transform whose output is short (R279), and a pound with records left (R44, R51, R219), come
to (assumption 69). -/

namespace Sys2Proof.Machine

/-- The parts of a tenure in a map keyed by `key2`, with their node numbers. -/
def partsOf {α : Type} (m : Map α) (t : Nat) : List (Nat × α) :=
  (m.filter (fun (e : Nat × α) => keyT e.1 == t)).map (fun (e : Nat × α) => (keyN e.1, e.2))

/-- Whether a task waits in `quiet.p` or `quiet.g` (R324). -/
def TaskRt.waitsQuiet (k : TaskRt) : Bool :=
  match k.wait with
  | .quiet _ .quiet => false
  | .quiet _ _ => k.st != .halted
  | _ => false

/-- The instruction at a task's PC; of a prefix group the one it prefixes (R134). -/
def TaskRt.instrAt (k : TaskRt) : Option Instr :=
  if k.pc < 0 then none
  else
    match decodeTask (k.code.drop k.pc.toNat) with
    | some (.longImmediatePrefix _ third, _) => some (decodeTaskWord third)
    | some (i, _) => some i
    | none => none

/-- The free slots of a channel of a tenure. -/
def chanFree (s : State) (t c : Nat) : Nat := ((s.chan? t c).map ChanRt.free).getD 0

/-- Whether an operand names a port that holds an instruction back: an input port without a record, or an output port that holds no record
open and has no free slot (R153). -/
def portStuck (s : State) (t : Nat) (k : TaskRt) (o : Opnd) : Bool :=
  match o with
  | .i p => match k.inCh[p] with
    | some c => !k.inp[p].cur && ((s.chan? t c).map (fun ch => ch.buf.isEmpty)).getD false
    | none => false
  | .o p => match k.outCh[p] with
    | some c => ((s.chan? t c).bind ChanRt.opn).isNone && chanFree s t c == 0
    | none => false
  | _ => false

/-- Whether a `comb.send` waits for a round that is still held (R316). -/
def combStuck (s : State) (t : Nat) (k : TaskRt) : Bool :=
  match k.instrAt, s.tenures.get? t with
  | some (.combSend (.g r) _), some tn =>
    let x := k.g[r].toNat
    match tn.tree? (x % 65536) with
    | some tr => match tr.leaves[x / 65536]? with
      | some (_, parent, _) => pathHolds s t tr parent (k.rounds.getD (65536 * (x % 65536) + x / 65536) 0)
      | none => false
    | none => false
  | _, _ => false

/-- Whether a blocked task cannot go on (R153): its ports hold its instruction back, or it waits for an opening of a gate that has not
come, or in `quiet`. A `waita` may be met by a write from anywhere. -/
def blockedStill (s : State) (t n : Nat) (k : TaskRt) : Bool :=
  match k.nullLeft with
  | some (_, ps) => ps.all (fun p => match k.outCh[p]?.bind id with
    | some c => chanFree s t c == 0
    | none => true)
  | none =>
    match k.wait with
    | .none => (k.instrAt.elim false (fun i => (operands i).any (portStuck s t k))) || combStuck s t k
    | .gate g _ => match s.gates.get? (key2 t g) with
      | some r => r.waiters.any (fun w => w.1 == n)
      | none => false
    | _ => k.waitsQuiet

/-- Whether a task cannot act (R150). -/
def taskStill (s : State) (t n : Nat) (k : TaskRt) : Bool :=
  match k.st with
  | .halted => true
  | .running => k.waitsQuiet
  | .idle => k.nullLeft.isNone && (trigHead s t k).isNone
  | .blocked => blockedStill s t n k

/-- Whether a step of something leaves the state as it is. -/
def stays (s : State) (f : State → State) : Bool := decide (f s = s)

/-- Whether a firing waits. -/
def Firing.waits : Firing → Bool
  | .idle _ => true
  | _ => false

/-- Whether a node of a tenure cannot act as things stand. A generator that waits for a translation or for its stores can (R267). -/
def nodeStill (s : State) (t n : Nat) : Bool :=
  let k := key2 t n
  (s.tasks.get? k).all (taskStill s t n)
    && (s.opers.get? k).all (fun o => o.halted || (stays s (fun s => operClear s t o) && (operFiring s t n o).waits))
    && (s.gens.get? k).all (fun g => g.halted || (match genFiring s t n g with
      | .idle true => true
      | .idle false => g.nest.isNone
      | _ => false))
    && (s.ctrls.get? k).all (fun _ => stays s (ctrlEvent takePermit t n) && stays s (ctrlEvent takeDone t n))
    && (s.mats.get? k).all (fun m => m.halted || (if m.sorts then stays s (fun s => sortEvent s t n m)
      else [weightColumn, activationRow, rowFiring, mmDrain, mmClear, nullRow, matToken].all (fun f => stays s (fun s => f s t n m))))

/-- Whether nothing moves on a channel: no record of it is on its way, and none that waits to enter it could (R34, R233). -/
def ChanRt.still (c : ChanRt) : Bool := c.transit.isEmpty && (c.feed.isEmpty || c.free == 0)

/-- The nodes from which records can reach those of a list, at most `fuel` channels away. -/
def upstream (g : Graph) : Nat → List Nat → List Nat
  | 0, ns => ns
  | fuel + 1, ns =>
    let more := (g.chans.filter (fun c => c.src != extEnd && ns.contains c.dst && !ns.contains c.src)).map ChanE.src
    if more.isEmpty then ns else upstream g fuel (ns ++ more.eraseDups)

/-- The consumers of full channels that leave the nodes of a list, but for channel `o`: by taking a record they let such a node go on. -/
def relieving (s : State) (t o : Nat) (g : Graph) (ns : List Nat) : List Nat :=
  (g.chans.zipIdx.filter (fun (c : ChanE × Nat) => c.2 != o && ns.contains c.1.src && chanFree s t c.2 == 0)).map (fun c => c.1.dst)

/-- The nodes on which those of a list depend: they can send a record toward one, or let one go on; in at most `fuel` rounds. -/
def dependsOn (s : State) (t o : Nat) (g : Graph) : Nat → List Nat → List Nat
  | 0, ns => ns
  | fuel + 1, ns =>
    let more := ((relieving s t o g ns).filter (fun n => n != extEnd && !ns.contains n)).eraseDups
    if more.isEmpty then ns else dependsOn s t o g fuel (upstream g g.nodes.length (ns ++ more))

/-- Whether no record can come out of output channel `o` of a transform any more, whose input channel is `i`: every node that could send one, or let
such a node go on by taking a record from it, stands still without waiting for anything outside the transform; nothing moves between them, and no full
channel among theirs is bound to what takes its records (R279). -/
def transformStill (s : State) (t : Nat) (tn : Tenure) (i o : Nat) : Bool :=
  match tn.g.chans[o]? with
  | none => false
  | some e =>
    let ns := dependsOn s t o tn.g tn.g.nodes.length (upstream tn.g tn.g.nodes.length [e.src])
    ns.all (fun n => decide (tn.kindOf n < 5) && nodeStill s t n && (s.tasks.get? (key2 t n)).all (fun k => k.wait == .none))
      && tn.g.chans.zipIdx.all (fun (c : ChanE × Nat) => c.2 == o || c.1.dst != extEnd || !ns.contains c.1.src || chanFree s t c.2 != 0 ||
        (tn.binds.get? c.2).isNone)
      && tn.g.chans.zipIdx.all (fun (c : ChanE × Nat) => !(ns.contains c.1.dst || c.2 == o) ||
        ((s.chan? t c.2).all ChanRt.still && (c.1.src != extEnd || c.2 == i || (match tn.binds.get? c.2 with
          | some (.arg _ _) => true
          | none => !(tn.g.trees.any (fun x => x.rchan == c.2))
          | _ => false))))

end Sys2Proof.Machine
end

