-- ==== Sys2Proof/Machine/Lighter.lean ====
section
/-! DEFINITION. Lighters (R19, R275 to R281, R295): transfer requests by instruction and by channel, their bursts and completion,
transforms, and accumulate streams. -/

namespace Sys2Proof.Machine

/-! ### A request's fields (R275) -/

/-- The source base. -/
def LReq.src (q : LReq) : Nat := bitsOf q.u0.toNat 0 57
/-- The scoreboard token. -/
def LReq.sbn (q : LReq) : Nat := bitsOf q.u0.toNat 57 3
/-- The request is counted on its token. -/
def LReq.tk (q : LReq) : Bool := bitOf q.u0.toNat 60
/-- The data passes through a transform. -/
def LReq.xfen (q : LReq) : Bool := bitOf q.u0.toNat 62
/-- The destination base. -/
def LReq.dst (q : LReq) : Nat := bitsOf q.u1.toNat 0 57
/-- The transform. -/
def LReq.xf (q : LReq) : Nat := bitsOf q.u1.toNat 57 7
/-- Bytes of a source row. -/
def LReq.rowbytes (q : LReq) : Nat := bitsOf q.u2.toNat 0 20 + 1
/-- Rows. -/
def LReq.rows (q : LReq) : Nat := bitsOf q.u2.toNat 20 12 + 1
/-- The completion word's offset. -/
def LReq.cwoff (q : LReq) : Int := sextInt (bitsOf q.u2.toNat 32 32) 32
/-- The source row stride. -/
def LReq.sstride (q : LReq) : Int := sextInt (bitsOf q.u3.toNat 0 24) 24
/-- The destination row stride. -/
def LReq.dstride (q : LReq) : Int := sextInt (bitsOf q.u3.toNat 24 24) 24
/-- The completion value. -/
def LReq.cval (q : LReq) : Nat := bitsOf q.u3.toNat 48 16

/-- A request of four payload units. -/
def LReq.ofUnits (id t node : Nat) (u0 u1 u2 u3 : W64) : LReq :=
  { id := id, t := t, node := node, u0 := u0, u1 := u1, u2 := u2, u3 := u3, started := false, out := [], done := [], parts := [],
    row := 0, sent := 0, got := [], stopped := false, err := false, lost := [] }

/-! ### Transforms (R279) -/

/-- The pound of the inner end of a channel. -/
def Tenure.chanPound (tn : Tenure) (e : ChanE) : Nat :=
  let n := if e.dst = extEnd then e.src else e.dst
  (tn.g.nodes[n]?.map NodeE.pound).getD 0xFFFF

/-- The ratio under which a channel is bound as transform `x`. -/
def Tenure.xfRatio? (tn : Tenure) (x c : Nat) : Option (Nat × Nat) :=
  match tn.binds.get? c with
  | some (.xf y a b) => if x = y then some (a, b) else none
  | _ => none

/-- The input and the output channel of a transform that is complete in the current pound, and its ratio (R279). -/
def Tenure.transform? (tn : Tenure) (x : Nat) : Option (Nat × Nat × Nat × Nat) :=
  let mine := (tn.g.chans.zipIdx.filter (fun (e : ChanE × Nat) =>
    tn.chanPound e.1 == tn.lk.lpound.toNat && (tn.xfRatio? x e.2).isSome))
  let ins := (mine.filter (fun (e : ChanE × Nat) => e.1.src == extEnd)).map Prod.snd
  let outs := (mine.filter (fun (e : ChanE × Nat) => e.1.dst == extEnd)).map Prod.snd
  match ins, outs with
  | [i], [o] => (tn.xfRatio? x i).map (fun r => (i, o, r.1, r.2))
  | _, _ => none

/-- Bytes of a destination row (R279). -/
def LReq.dstBytes (q : LReq) (tn : Tenure) : Nat :=
  if q.xfen then
    match tn.transform? q.xf with
    | some (_, _, a, b) => q.rowbytes * b / a
    | none => q.rowbytes
  else q.rowbytes

/-- Whether a request is malformed (R275). -/
def LReq.malformed (q : LReq) (tn : Tenure) : Bool :=
  let cw := (q.dst : Int) + q.cwoff
  bitOf q.u0.toNat 63 || (!q.xfen && q.xf != 0) || decide (q.cwoff % 8 ≠ 0) || (!q.cwen && decide (q.cwoff ≠ 0))
    || (q.cwen && (decide (cw < 0) || decide ((2 ^ 57 : Nat) ≤ cw) || decide (cw % 8 ≠ 0)))
    || (q.xfen && (match tn.transform? q.xf with
      | some (_, _, a, _) => q.rowbytes % (8 * a) != 0
      | none => true))

/-! ### Holding requests (R278) -/

/-- A lighter as it stands. -/
def State.lighter (s : State) (lt : Nat) : LighterRt := s.lighters.getD lt LighterRt.empty

/-- Whether a request is parked: its tenure's context image holds it, and no lighter does (R281). -/
def parked (s : State) (q : LReq) : Bool := !partsLand s q.t

/-- Whether a lighter is in use and has room for a request (R278, R281, R404). -/
def lighterRoom (s : State) (lt : Nat) : Bool :=
  decide (lt < s.enabled 4 48) && decide (((s.lighter lt).reqs.filter (fun q => !parked s q)).length < 16)

/-- Writes of the host port come before every access of the requests or messages `ks` (R339). -/
def putAhead (s : State) (t : Nat) (ks : List Nat) (mine : PortWrite → Bool) : State :=
  modPort s t mine (fun p => { p with ahead := ks ++ p.ahead })

/-- What a record says comes before what follows on it comes before the accesses of a request, or the messages, `ks` (R339). -/
def recAhead (s : State) (t : Nat) (ks : List Nat) (r : Rec) : State := if r.ord.isEmpty then s else putAhead s t ks (fun p => r.ord.contains p.id)

/-- A request is injected and held by a lighter (R278, R281); what is complete by now comes before its accesses (R339). -/
def injectReq (s : State) (t node lt : Nat) (u0 u1 u2 u3 : W64) : State :=
  let l := s.lighter lt
  let q := LReq.ofUnits s.nextMsg t node u0 u1 u2 u3
  (putAhead { s with nextMsg := s.nextMsg + 1, lighters := s.lighters.set lt { l with reqs := l.reqs ++ [q] } } t [s.nextMsg] (fun _ => true)).modTenure t
    (fun tn => tn.injG node 1)

/-! ### `xfer` (R276) -/

/-- The four units of a request: four consecutive A registers, or four pops. -/
def xferUnits (a : Opnd) : TM (W64 × W64 × W64 × W64) := do
  match a with
  | .a n => do
    let u0 ← read64 a
    let u1 ← read64 (.a (n + 1))
    let u2 ← read64 (.a (n + 2))
    let u3 ← read64 (.a (n + 3))
    pure (u0, u1, u2, u3)
  | _ => do
    let u0 ← read64 a
    let u1 ← read64 a
    let u2 ← read64 a
    let u3 ← read64 a
    pure (u0, u1, u2, u3)

/-- `xfer` (R276): checked at the cell interface, counted on its token, and injected. -/
def bodyXfer (a : Opnd) (port : Nat) : TM Unit := do
  let (u0, u1, u2, u3) ← xferUnits a
  let tn ← getTn
  let n ← getN
  let q := LReq.ofUnits 0 0 n u0 u1 u2 u3
  raiseIf (q.malformed tn) cXferRequest u0
  let s ← getS
  let lt := s.lighterOf tn n port
  stallUnless (lighterRoom s lt)
  if q.tk then takeToken (BitVec.ofNat 3 q.sbn)
  modST (fun s t n => injectReq s t n lt u0 u1 u2 u3)

/-- `xfer` (R276). -/
def execXfer (a : Opnd) (port : BitVec 3) (s : State) : Host.Outcome State Fault Refusal :=
  run1 (.xfer a port) (bodyXfer a port.toNat) s

/-! ### Requests from a channel (R276) -/

/-- TRANSFER_REQUEST_RECORD: a lighter takes the head of a channel bound to one of its ports (R276, R278). -/
def transferRequestRecord (t c : Nat) (s : State) : State :=
  match s.tenures.get? t, s.chan? t c with
  | some tn, some ch =>
    match tn.binds.get? c, ch.buf with
    | some (.xfer port), x :: _ =>
      if ch.e.dst != extEnd || !partsMove s t then s
      else if isToken x || rType x == tNull then popHead s t c
      else
        let lt := s.lighterOf tn ch.e.src port
        let u (k : Nat) : W64 := x.units[k]?.getD 0
        let q := LReq.ofUnits 0 t ch.e.src (u 0) (u 1) (u 2) (u 3)
        if rType x != tXfer || hCarg x.hdr != port || q.tk || q.malformed tn then
          engineFault (popHead s t c) t cXferRequest 6 ch.e.src lt (u 0)
        else if !lighterRoom s lt then s
        else injectReq (popHead s t c) t ch.e.src lt (u 0) (u 1) (u 2) (u 3)
    | _, _ => s
  | _, _ => s

/-- TRANSFER_REQUEST_RECORD (R276). -/
def execTransferRequestRecord (s : State) : Host.Outcome State Fault Refusal :=
  match s.subj with
  | .chan t c => .next (transferRequestRecord t c s)
  | _ => .next s

/-! ### Starting and accesses (R277, R278) -/

/-- Whether an earlier request of the tenure names the same transform: such requests are performed one at a time (R279). -/
def xfWaits (s : State) (q : LReq) : Bool :=
  q.xfen && s.lighters.any (fun (e : Nat × LighterRt) =>
    e.2.reqs.any (fun r => r.t == q.t && r.xfen && r.xf == q.xf && decide (r.id < q.id)))

/-- The tenure whose turn it is among those listed, after tenure `last` (R278). -/
def nextTenure (last : Nat) (ts : List Nat) : Option Nat :=
  let least (xs : List Nat) : Option Nat := xs.foldl (fun m x => match m with
    | some y => some (min x y)
    | none => some x) none
  match least (ts.filter (fun t => decide (last < t))) with
  | some t => some t
  | none => least ts

/-- Whether request `k` of a lighter may start: fewer than four are performed, and it is the oldest of the tenure whose turn it is
(R278). -/
def mayStart (s : State) (lt k : Nat) : Bool :=
  let l := s.lighter lt
  let ready := l.reqs.filter (fun q => !q.started && !xfWaits s q && partsMove s q.t)
  decide ((l.reqs.filter (fun q => q.started && !parked s q)).length < 4) &&
    (match nextTenure l.lastTenure (ready.map LReq.t) with
      | some t => ((ready.find? (fun q => q.t == t)).map LReq.id) == some k
      | none => false)

/-- A request started, where it may. -/
def startReq (s : State) (lt k : Nat) : State :=
  match req? s lt k with
  | some q =>
    if q.started || !mayStart s lt k then s
    else
      let s := modReq s lt k (fun q => { q with started := true })
      { s with lighters := s.lighters.modify lt (fun l => { l with lastTenure := q.t }) }
  | none => s

/-- What a lighter's access meets. -/
inductive LAccess where
  | ok (pa : Phys)
  | fault (code : Nat) (arg : W64)
  | wait
  | ask (va : Nat)

/-- The translation of an access of request `k` that stays in an aligned 64-byte block, by the request's source entry or its destination
entry (R265, R267, R277). -/
def lighterAccess (s : State) (lt k pasid : Nat) (write : Bool) (va : Int) : LAccess :=
  if va < 0 ∨ (2 ^ 57 : Nat) ≤ va then .fault cPageFault (pageArg (wrapInt va 57) 0)
  else
    let a := va.toNat
    match translate s (.lighter lt k write) pasid a with
    | .miss => .wait
    | .ask => .ask a
    | .fail c _ => .fault cPageFault (pageArg a c)
    | .hit e => if (write && !e.w) || (!write && !e.r) then .fault cPageFault (pageArg a 2) else .ok (e.phys a)

/-- The number of the aligned 64-byte block of an address: of the 64-bit address space, so that an address outside the 57 bits has one
too. -/
def blockOf (a : Int) : Nat := (a / 64 % (2 ^ 58 : Nat)).toNat

/-- The first address of a block. -/
def blockAddr (b : Nat) : Int := if b < 2 ^ 57 then 64 * (b : Int) else 64 * ((b : Int) - (2 ^ 58 : Nat))

/-- The address of row `r` of the destination, and of the source. -/
def LReq.dstRow (q : LReq) (r : Nat) : Int := (q.dst : Int) + r * q.dstride
/-- The address of row `r` of the source. -/
def LReq.srcRow (q : LReq) (r : Nat) : Int := (q.src : Int) + r * q.sstride

/-- A piece of a destination row in a block: the row, where in the row it begins, where in the block it goes, and its length. -/
structure Piece where
  row : Nat
  off : Nat
  at_ : Nat
  len : Nat

/-- What a request writes into block `b`, row by row: one burst, which never crosses the block and writes all of the request's bytes in it
(R277, R344, R346). -/
def LReq.pieces (q : LReq) (tn : Tenure) (b : Nat) : List Piece :=
  let base := blockAddr b
  (List.range q.rows).filterMap (fun r =>
    let d := q.dstRow r
    let lo := max d base
    let hi := min (d + q.dstBytes tn) (base + 64)
    if lo < hi then some { row := r, off := (lo - d).toNat, at_ := (lo - base).toNat, len := (hi - lo).toNat } else none)

/-- The blocks that row `r` of the destination touches. -/
def LReq.rowBlocks (q : LReq) (tn : Tenure) (r : Nat) : List Nat :=
  let d := q.dstRow r
  (List.range (((d % 64).toNat + q.dstBytes tn + 63) / 64)).map (fun (j : Nat) => blockOf (d + 64 * (j : Int)))

/-- The next read of a source given as ranges of addresses, once `got` bytes of it have been read: it never crosses an aligned 64-byte block
(R277). -/
def nextRead : List (Int × Nat) → Nat → Option (Int × Nat)
  | [], _ => none
  | (a, n) :: r, got =>
    if n ≤ got then nextRead r (got - n)
    else some (a + (got : Int), min (n - got) (64 - ((a + (got : Int)) % 64).toNat))

/-- The bytes of a burst read so far. -/
def LReq.part (q : LReq) (key : Nat) : List Byte := q.parts.getD key []

/-- A read of a request's source over a die pair without a live module is lost, and what it was read for with it (R396). -/
def loseRead (s : State) (t lt k key home : Nat) : State :=
  modReq (loseAccess s t (lt / 12) home) lt k (fun q => { q with lost := key :: q.lost })

/-- The source of a burst read as far as translations reach, at most `fuel` reads: a fault or an uncorrectable error stops the request, and a
watchpoint that a read matches stops it once that read is performed (R274, R277, R380). A read waits for what is ordered before the request
(R339, R340). -/
def gather (tn : Tenure) (lt k key : Nat) (src : List (Int × Nat)) (ue : Bool) : Nat → State → State
  | 0, s => s
  | fuel + 1, s =>
    match req? s lt k with
    | none => s
    | some q =>
      match (if q.stopped || q.lost.contains key || fencedOut s q.t none k then none else nextRead src (q.part key).length) with
      | none => s
      | some (va, n) =>
        match lighterAccess s lt k tn.pasid false va with
        | .wait => s
        | .ask a => askPage s (.lighter lt k false) tn.pasid a
        | .fault code arg => stopReq s lt k code arg
        | .ok pa =>
          if pairLost s (lt / 12) (unitDie (physUnit pa)) then loseRead s q.t lt k key (unitDie (physUnit pa))
          else if ue then stopReq s lt k cMemoryUe (BitVec.ofInt 64 va)
          else
            let bs := memRead s q.t va.toNat pa n
            let s := modReq s lt k (fun q => { q with parts := q.parts.set key (q.part key ++ bs) })
            match tn.watchHit 4 va.toNat n with
            | some arg => stopReq s lt k cWatchHit arg
            | none => gather tn lt k key src ue fuel s

/-- The length of a source. -/
def srcLen (src : List (Int × Nat)) : Nat := src.foldl (fun m e => m + e.2) 0

/-- A whole source gathered, as far as it can be. -/
def gatherAll (s : State) (tn : Tenure) (lt k key : Nat) (src : List (Int × Nat)) (ue : Bool) : State :=
  gather tn lt k key src ue (2 * src.length + srcLen src / 64 + 1) s

/-- The bytes of a burst cut into its pieces. -/
def cutPieces : List Piece → List Byte → List (Nat × List Byte)
  | [], _ => []
  | p :: ps, bs => (p.at_, bs.take p.len) :: cutPieces ps (bs.drop p.len)

/-- A physical address `n` bytes back. -/
def Phys.back : Phys → Nat → Phys
  | .dev a, n => .dev (a - n)
  | .host a, n => .host (a - n)

/-- A block write leaves for its home (R277, R281). -/
def sendBlock (s : State) (q : LReq) (lt blk va : Nat) (segs : List (Nat × List Byte)) (pa : Phys) : State :=
  let s := modReq s lt q.id (fun q => { q with out := blk :: q.out, parts := q.parts.erase blk })
  let u := physUnit pa
  sendMsg s q.t q.node (some lt) (lt / 12) (unitDie u) u (.block q.id blk va segs pa)

/-- Whether a request may go on with burst `blk`: it is performed, has not stopped, has fewer than four blocks in flight, and the burst is
new (R277, R278). -/
def LReq.mayBurst (q : LReq) (blk : Nat) : Bool :=
  q.started && !q.stopped && decide (q.out.length < 4) && !q.out.contains blk && !q.done.contains blk

/-- A burst whose destination is translated: its block write is sent once every byte of it is there, gathered from the source, or come out of
the transform (R277, R279). -/
def burstOut (s : State) (tn : Tenure) (q : LReq) (lt blk : Nat) (ps : List Piece) (pa : Phys) (ue : Bool) : State :=
  let va := (blockAddr blk).toNat
  if q.xfen then
    if ps.all (fun p => decide (p.off + p.len ≤ (q.got.getD p.row []).length)) then
      sendBlock s q lt blk va (ps.map (fun p => (p.at_, ((q.got.getD p.row []).drop p.off).take p.len))) pa
    else s
  else
    let src := ps.map (fun p => (q.srcRow p.row + (p.off : Int), p.len))
    let s := gatherAll s tn lt q.id blk src ue
    match req? s lt q.id with
    | some q => if q.stopped || (q.part blk).length != srcLen src then s else sendBlock s q lt blk va (cutPieces ps (q.part blk)) pa
    | none => s

/-- LIGHTER_REQUEST: the burst of a request into block `blk` (R277): its source bytes are read and its block write is sent. -/
def lighterBurst (lt k blk : Nat) (ue : Bool) (s : State) : State :=
  let s := startReq s lt k
  match req? s lt k with
  | none => s
  | some q =>
    match s.tenures.get? q.t with
    | none => s
    | some tn =>
      if !partsMove s q.t || !q.mayBurst blk then s
      else
        match q.pieces tn blk with
        | [] => s
        | p :: ps =>
          match lighterAccess s lt k tn.pasid true (blockAddr blk + (p.at_ : Int)) with
          | .ok pa => burstOut s tn q lt blk (p :: ps) (pa.back p.at_) ue
          | .wait => s
          | .ask a => askPage s (.lighter lt k true) tn.pasid a
          | .fault code arg => stopReq s lt k code arg

/-- LIGHTER_REQUEST (R277). -/
def execLighterRequest (s : State) : Host.Outcome State Fault Refusal :=
  match s.subj with
  | .burst lt k blk ue => .next (lighterBurst lt k blk ue s)
  | .request lt k => .next (startReq s lt k)
  | _ => .next s

/-! ### Transforms (R279) -/

/-- The bytes of payload units. -/
def unitBytes : List W64 → List Byte
  | [] => []
  | u :: us => leBytes u.toNat 8 ++ unitBytes us

/-- The payload units of bytes. -/
def bytesUnits (bs : List Byte) : List W64 := natUnits (leNat bs) (bs.length / 8)

/-- The key under which the source of a transform's next record is gathered. -/
def xfPart : Nat := 2 ^ 61

/-- XFER_RATIO: a row's output differs from its ratio (R279). -/
def badRatio (s : State) (lt : Nat) (q : LReq) : State := stopReq s lt q.id cXferRatio (BitVec.ofInt 64 (q.dstRow (min q.row (q.rows - 1))))

/-- The next output record of a transform taken: its payload belongs to the row in the transform; units beyond it break the ratio
(R279). -/
def takeOutput (s : State) (tn : Tenure) (q : LReq) (lt o : Nat) (x : Rec) : State :=
  let s := recAhead (popHead s q.t o) q.t [q.id] x
  let got := q.got.getD q.row []
  if isToken x || rType x == tNull || x.units.isEmpty then s
  else if decide (q.rows ≤ q.row) || decide (q.dstBytes tn < got.length + 8 * x.units.length) then badRatio s lt q
  else modReq s lt q.id (fun q => { q with got := q.got.set q.row (got ++ unitBytes x.units) })

/-- The next piece of the row in the transform is read and sent, where the input channel has a slot (R279). -/
def sendInput (s : State) (tn : Tenure) (q : LReq) (lt i : Nat) (ue : Bool) : State :=
  match s.chan? q.t i with
  | none => s
  | some ci =>
    let n := min (8 * ci.e.width) (q.rowbytes - q.sent)
    if n = 0 ∨ ci.free = 0 then s
    else
      let s := gatherAll s tn lt q.id xfPart [(q.srcRow q.row + (q.sent : Int), n)] ue
      match req? s lt q.id with
      | some q' =>
        if q'.stopped || (q'.part xfPart).length != n then s
        else sendRec (modReq s lt q.id (fun q => { q with sent := q.sent + n, parts := q.parts.erase xfPart })) q.t i
          (dataRec 0 q.row 0 (bytesUnits (q'.part xfPart)))
      | none => s

/-- TRANSFORM_ROW: the row in the transform goes on (R279): an output record is taken, or the next piece of the source row is sent. Where no more
output can come, the next row begins, or, where the row is short, the ratio is broken (assumption 69). It goes on while fewer than four blocks are in
flight, so that where it stops the request at most three further ones are performed (R277). -/
def transformRow (lt k : Nat) (ue : Bool) (s : State) : State :=
  let s := startReq s lt k
  match req? s lt k with
  | none => s
  | some q =>
    match s.tenures.get? q.t with
    | none => s
    | some tn =>
      if !partsMove s q.t || !q.started || q.stopped || !q.xfen || decide (4 ≤ q.out.length) then s
      else
        match tn.transform? q.xf with
        | none => s
        | some (i, o, _, _) =>
          match s.chan? q.t o with
          | none => s
          | some co =>
            match co.buf with
            | x :: _ => takeOutput s tn q lt o x
            | [] =>
              if q.rows ≤ q.row then s
              else if q.sent < q.rowbytes then sendInput s tn q lt i ue
              else if !transformStill s q.t tn i o then s
              else if (q.got.getD q.row []).length = q.dstBytes tn then modReq s lt k (fun q => { q with row := q.row + 1, sent := 0 })
              else badRatio s lt q

/-- TRANSFORM_ROW (R279). -/
def execTransformRow (s : State) : Host.Outcome State Fault Refusal :=
  match s.subj with
  | .request lt k => .next (transformRow lt k false s)
  | .burst lt k _ ue => .next (transformRow lt k ue s)
  | _ => .next s

/-! ### Completion (R277) -/

/-- Whether every payload byte of a request has been performed: every block of every row, and, behind a transform, nothing more has come
out of it. -/
def payloadDone (s : State) (tn : Tenure) (q : LReq) : Bool :=
  q.out.isEmpty && (List.range q.rows).all (fun r => (q.rowBlocks tn r).all q.done.contains)
    && (!q.xfen || (decide (q.rows ≤ q.row) && (match tn.transform? q.xf with
      | some (_, o, _, _) => (s.chan? q.t o).all (fun c => c.buf.isEmpty && c.transit.isEmpty)
      | none => true)))

/-- A request completes, or ends with its error: it leaves the lighter, and its token is counted down at the task (R277, R281). -/
def finishReq (s : State) (lt : Nat) (q : LReq) : State :=
  let s := { s with lighters := s.lighters.modify lt (fun l => { l with reqs := l.reqs.filter (fun r => r.id != q.id) }) }
  let s := s.modTenure q.t (fun tn => tn.conG (lighterPoint lt) 1)
  if !q.tk then s
  else s.modTask q.t q.node (fun k =>
    { k with sberr := if q.err then k.sberr ||| BitVec.ofNat 8 (2 ^ q.sbn) else k.sberr }.dropToken (some q.sbn))

/-- The completion word's block write is sent, behind every payload byte (R277). -/
def sendCompletion (s : State) (tn : Tenure) (q : LReq) (lt : Nat) : State :=
  let va := (q.dst : Int) + q.cwoff
  match lighterAccess s lt q.id tn.pasid true va with
  | .wait => s
  | .ask a => askPage s (.lighter lt q.id true) tn.pasid a
  | .fault code arg => stopReq s lt q.id code arg
  | .ok pa => sendBlock s q lt cwBurst va.toNat [(0, leBytes q.cval 8)] pa

/-- Whether writes of request `k` that the host port has issued are not performed in host memory yet. -/
def reqPortOut (s : State) (lt k : Nat) : Bool := s.hostPort.any (fun p => p.lighter == some lt && p.req == some k)

/-- LIGHTER_COMPLETE: behind the last payload byte the completion word is written; behind that the request completes (R277). A completion word in
device memory waits until the payload is performed in host memory (R280), and so does the end of a request with tk = 0 (R337). A request that has
stopped ends once its blocks in flight are performed. -/
def lighterComplete (lt k : Nat) (s : State) : State :=
  match req? s lt k with
  | none => s
  | some q =>
    match s.tenures.get? q.t with
    | none => s
    | some tn =>
      if !q.started || !q.out.isEmpty then s
      else if q.stopped then finishReq s lt q
      else if !payloadDone s tn q || !partsMove s q.t then s
      else if q.cwen && !q.done.contains cwBurst then
        if isDevice ((q.dst : Int) + q.cwoff).toNat && reqPortOut s lt k then s else sendCompletion s tn q lt
      else if !q.tk && reqPortOut s lt k then s
      else finishReq s lt q

/-- LIGHTER_COMPLETE (R277). -/
def execLighterComplete (s : State) : Host.Outcome State Fault Refusal :=
  match s.subj with
  | .request lt k => .next (lighterComplete lt k s)
  | _ => .next s

/-! ### Accumulate streams (R295) -/

/-- The format of an addend by its code: the ten formats of `acc` (R293). -/
def accFmt? : Nat → Option EFmt
  | 0x10 => some (.flt .fp32) | 0x11 => some (.flt .bf16) | 0x12 => some (.flt .fp16) | 0x01 => some (.int true 8)
  | 0x02 => some (.int false 8) | 0x03 => some (.int true 16) | 0x04 => some (.int false 16) | 0x05 => some (.int true 32)
  | 0x06 => some (.int false 32) | 0x07 => some (.int true 64) | _ => none

/-- What an element of an accumulate stream meets. -/
inductive StreamWord where
  | go (va : Nat) (pa : Option Nat)
  /-- A fault; `used`: the failed page request it uses up (R267). -/
  | fault (code : Nat) (arg : W64) (used : Option Nat)
  | wait
  | ask (va : Nat)

/-- Word `i` of a window as the target of a stream's element (R293, R295). -/
def streamWord (s : State) (t : Nat) (tn : Tenure) (lt : Nat) (w : WinE) (i : Nat) : StreamWord :=
  let va := winWordAddr (tn.wbaseOf w) i
  if w.count ≤ i then .fault cAccRange (accArg w.wid va) none
  else if w.isLocal then .go va none
  else
    match translate s (.accs lt t) tn.pasid va with
    | .miss => .wait
    | .ask => .ask va
    | .fail c fin => .fault cPageFault (pageArg va c) (if fin then some va else none)
    | .hit e =>
      if !isDevice va then .fault cPageFault (pageArg va 3) none
      else if !e.r || !e.w then .fault cPageFault (pageArg va 2) none
      else .go va (e.phys va).dev?

/-- One element accumulated by a lighter, with what its tile holds for the word (R295, R297). -/
def lighterAcc (s : State) (t node lt : Nat) (tn : Tenure) (w : WinE) (va : Nat) (pa : Option Nat) (part : Aw) : State :=
  let l := s.lighter lt
  let mine (e : Nat × Nat × Residual) : Bool := e.1 == t && e.2.2.wid == w.wid && e.2.2.addr == va
  let part := match l.tile.find? mine with
    | some e => Aw.combine part (e.2.2.part, e.2.2.flags)
    | none => part
  let s := { s with lighters := s.lighters.set lt { l with tile := l.tile.filter (fun e => !mine e) } }
  let u := tn.winUnit w pa
  sendMsg s t node (some lt) (lt / 12) (unitDie u) u (.acc w.wid va pa part.1 part.2)

/-- The elements of a stream's record accumulated in order; `none` where one of them has to wait, with the address to ask for. At a fault
the earlier elements have been accumulated, and the stream halts (R295). -/
def streamElems (s : State) (t c node lt : Nat) (tn : Tenure) (w : WinE) (f : EFmt) : Nat → List Nat → Except (Option Nat) State
  | _, [] => .ok s
  | i, x :: xs =>
    match streamWord s t tn lt w i with
    | .wait => .error none
    | .ask a => .error (some a)
    | .fault code arg used =>
      let s := match used with
        | some a => dropPageFail (.accs lt t) tn.pasid a s
        | none => s
      .ok (engineFault (s.modTenure t (fun tn => { tn with haltedStreams := c :: tn.haltedStreams })) t code 6 node lt arg)
    | .go va pa => streamElems (lighterAcc s t node lt tn w va pa (accPartial w.e0 (f.decode x))) t c node lt tn w f (i + 1) xs

/-- What a lighter holds for a tenure in its tile, all of it, leaves on the flush lane (R298). -/
def flushLighter (s : State) (t lt : Nat) : State :=
  let l := s.lighter lt
  (l.tile.filter (fun e => e.1 == t)).foldl (fun s e => flushOne s t e.2.1 (some lt) (lt / 12) e.2.2)
    { s with lighters := s.lighters.set lt { l with tile := l.tile.filter (fun e => e.1 != t) } }

/-- ACCUMULATE_STREAM_RECORD: a lighter takes the head of an accumulate stream (R295). -/
def accumulateStreamRecord (t c : Nat) (s : State) : State :=
  match s.tenures.get? t, s.chan? t c with
  | some tn, some ch =>
    match tn.binds.get? c, ch.buf with
    | some (.accs port wid), x :: _ =>
      let lt := s.lighterOf tn ch.e.src port
      let halt (code : Nat) (arg : W64) : State :=
        engineFault ((popHead s t c).modTenure t (fun tn => { tn with haltedStreams := c :: tn.haltedStreams })) t code 6 ch.e.src lt arg
      if ch.e.dst != extEnd || !partsMove s t || tn.haltedStreams.contains c then s
      else if rType x == tStern then flushLighter (popHead s t c) t lt
      else if isToken x || rType x == tNull then popHead s t c
      else
        let va := (x.units.headD 0).toNat
        match accFmt? (hFmt x.hdr), tn.win? wid with
        | some f, some w =>
          if rType x != tData || x.units.isEmpty then halt cAccRange (accArg wid va)
          else if !canonical va then halt cPageFault (pageArg va 0)
          else if va % 16 ≠ 0 then halt cAccRange (accArg wid va)
          else
            match winIndex? (tn.wbaseOf w) w.count va with
            | none => halt cAccRange (accArg wid va)
            | some i =>
              match streamElems (popHead s t c) t c ch.e.src lt tn w f i (elemsOf f.width x.units.tail) with
              | .ok s' => recAhead s' t ((List.range (s'.nextMsg - s.nextMsg)).map (s.nextMsg + ·)) x
              | .error none => s
              | .error (some a) => askPage s (.accs lt t) tn.pasid a
        | _, _ => halt cAccRange (accArg wid va)
    | _, _ => s
  | _, _ => s

/-- ACCUMULATE_STREAM_RECORD (R295). -/
def execAccumulateStreamRecord (s : State) : Host.Outcome State Fault Refusal :=
  match s.subj with
  | .chan t c => .next (accumulateStreamRecord t c s)
  | _ => .next s

end Sys2Proof.Machine
end

