-- ==== Sys2Proof/Machine/Gates.lean ====
section
/-! DEFINITION. Gates (R303 to R309, R327): arrivals, openings, Permits and time-outs. -/

namespace Sys2Proof.Machine

/-! ### Openings (R306, R307) -/

/-- The owed counts after an opening; whether one would pass its limit (R307). -/
def oweOne : List (Nat × Nat × Nat) → List (Nat × Nat × Nat) × Bool
  | [] => ([], false)
  | (p, c, n) :: r =>
    let (r, b) := oweOne r
    if n < 65535 then ((p, c, n + 1) :: r, b) else ((p, c, n) :: r, true)

/-- One opening (R306): the generation rises, early arrivals become current, each output is owed a Permit, waiters of another generation
are released, and the timer restarts. -/
def GateRt.openOnce (g : GateRt) (now : Nat) : GateRt × Bool :=
  let gen := (g.gen + 1) % 4294967296
  let (outs, ovr) := oweOne g.outs
  ({ g with gen := gen, arrived := g.early, early := 0, outs := outs, waiters := g.waiters.filter (fun w => w.2 == gen),
            excess := none }.retime now true,
   ovr)

/-- The openings that a full count brings: a second follows where the early arrivals are a full count (R306). -/
def GateRt.openAll (g : GateRt) (now : Nat) : GateRt × Bool :=
  let (g, ovr) := g.openOnce now
  if g.arrived = g.count then
    let (g, more) := g.openOnce now
    (g, ovr || more)
  else (g, ovr)

/-- An arrival (R306); whether it raises GATE_OVERRUN. -/
def GateRt.arrive (g : GateRt) (now n : Nat) (par : Bool) : GateRt × Bool :=
  if par = bitOf g.gen 0 then
    let a := g.arrived + n
    if g.count ≤ a then
      let (g, ovr) := { g with arrived := g.count }.openAll now
      (g, ovr || decide (g.count < a))
    else ({ g with arrived := a }.retime now false, false)
  else
    let e := g.early + n
    if g.count < e then ({ g with early := g.count }.retime now false, true)
    else ({ g with early := e }.retime now false, false)

/-- Whether an arrival is early and goes beyond the count in the cycle `now`, in which an opening may still come before it (R327). -/
def GateRt.defers (g : GateRt) (now n : Nat) (par : Bool) : Bool :=
  par != bitOf g.gen 0 && decide (g.count < g.early + n) && g.excess.all (fun c => decide (now ≤ c))

/-- The argument of GATE_OVERRUN (R370). -/
def gateOverrunArg (g : GateRt) : W64 := BitVec.ofNat 64 (g.gid + g.gen * 2 ^ 32)

/-- The cycle of a die at which the timers of a tenure stand: they freeze while a forced pause is in progress (R363, R327). -/
def timerNow (s : State) (t d : Nat) : Nat :=
  match (s.tenures.get? t).bind Tenure.pause with
  | some p => if p.forced then p.since[d]?.getD 0 else s.nowOn d
  | none => s.nowOn d

/-- The cycle at which the timers stand on the die of gate `g` of a tenure. -/
def gateNow (s : State) (t g : Nat) : Nat := timerNow s t ((s.tenures.get? t).elim 0 (fun tn => tn.dieOf g))

/-- A gate's timer has reached 2^(10 + texp) cycles, and that cycle, whose arrivals come first, is over: the gate raises GATE_TIMEOUT, and its word
stays as it is (R308, R327). -/
def gateExpire (t g : Nat) (s : State) : State :=
  match s.gates.get? (key2 t g) with
  | none => s
  | some r =>
    match r.timer with
    | some start =>
      if r.halted || decide (gateNow s t g ≤ start + 2 ^ (10 + r.texp)) then s
      else nodeFault s t g cGateTimeout (BitVec.ofNat 64 (r.arrived + r.gid * 65536))
    | none => s

/-- GATE_TIMEOUT: a gate's timer has expired (R308). -/
def gateTimeout (t g : Nat) (s : State) : State := if partsMove s t then gateExpire t g s else s

/-- The fabric cycle of the die of gate `g` of a tenure. -/
def gateCycle (s : State) (t g : Nat) : Nat := s.nowOn ((s.tenures.get? t).elim 0 (fun tn => tn.dieOf g))

/-- Arrival `m` counted by its gate: toward its next opening, or, an early one, toward the one after (R306, R338). -/
def gateCount (s : State) (t g m : Nat) (r : GateRt) (now n : Nat) (par : Bool) : State :=
  let (r', ovr) := { r with excess := none }.arrive now n par
  let s := countArr { s with gates := s.gates.set (key2 t g) r' } t m g (r.gen + if par = bitOf r.gen 0 then 1 else 2)
  if ovr then nodeFault s t g cGateOverrun (gateOverrunArg r') else s

/-- GATE_ARRIVAL: an arrival reaches its gate (R306, R309, R310), behind a time-out that came before it (R308); a halted gate counts none
(R372). An early one that goes beyond the count waits for the end of its cycle, for an opening in that cycle comes first (R327). -/
def gateArrival (m : Nat) (s : State) : State :=
  match s.msg? m with
  | none => s
  | some x =>
    if x.cross.isSome then s
    else if !tagCurrent s x then s.dropMsg m
    else
      match x.kind with
      | .gateArr g n par =>
        if !partsLand s x.t then s
        else
        let s := gateExpire x.t g s
        match s.gates.get? (key2 x.t g) with
        | none => consume s x
        | some r =>
          let now := gateCycle s x.t g
          if r.halted then consume s x
          else if r.defers now n par then { s with gates := s.gates.set (key2 x.t g) { r with excess := some (r.excess.getD now) } }
          else gateCount (consume s x) x.t g m r (gateNow s x.t g) n par
      | _ => s

/-- GATE_ARRIVAL (R306). -/
def execGateArrival (s : State) : Host.Outcome State Fault Refusal :=
  match s.subj with
  | .msg m => .next (gateArrival m s)
  | _ => .next s

/-- GATE_PERMIT: a gate sends a Permit on an output that is owed one and has a free slot (R307). -/
def gatePermit (t g port : Nat) (s : State) : State :=
  match s.gates.get? (key2 t g) with
  | none => s
  | some r =>
    if r.halted || !partsMove s t then s
    else
      match r.outs.find? (fun o => o.1 == port) with
      | none => s
      | some (_, c, owed) =>
        if owed = 0 ∨ ((s.chan? t c).map ChanRt.free).getD 0 = 0 then s
        else
          let k := min owed 64
          let outs := r.outs.map (fun (o : Nat × Nat × Nat) => if o.1 == port then (o.1, o.2.1, o.2.2 - k) else o)
          sendRec { s with gates := s.gates.set (key2 t g) { r with outs := outs } } t c (Rec.follow (madeRec tPermit (r.gen % 65536) k) (openedOrd s t g r.gen))

/-- GATE_PERMIT (R307). -/
def execGatePermit (s : State) : Host.Outcome State Fault Refusal :=
  match s.subj with
  | .gate t g port => .next (gatePermit t g port s)
  | _ => .next s

/-- GATE_TIMEOUT (R308). -/
def execGateTimeout (s : State) : Host.Outcome State Fault Refusal :=
  match s.subj with
  | .gate t g _ => .next (gateTimeout t g s)
  | .node t g => .next (gateTimeout t g s)
  | _ => .next s

end Sys2Proof.Machine
end

