-- ==== Sys2Proof/Machine/Combine.lean ====
section
/-! DEFINITION. In-network combining (R311 to R317, R333): the entries of the switches, their time-outs, and the root's delivery. -/

namespace Sys2Proof.Machine

/-! ### Combining values (R314) -/

/-- The operation of a tree on two elements (R314). -/
def TreeE.elem (x : TreeE) (a b : Nat) : Nat :=
  let op : Arith := match x.op with | 0 => .add | 1 => .max | _ => .min
  match EFmt.ofCode? x.fmt with
  | some f => (arithElem op f a b).1
  | none => a

/-- Two payloads combined element by element (R314). -/
def TreeE.combine (x : TreeE) (a b : List W64) : List W64 :=
  let w := fmtBits x.fmt
  packElems w x.ulen (List.zipWith x.elem (elemsOf w a) (elemsOf w b))

/-- Payloads combined left-nested in the order of the list (R314). -/
def TreeE.combineAll (x : TreeE) : List (List W64) → List W64
  | [] => List.replicate x.ulen 0
  | v :: vs => vs.foldl x.combine v

/-- A child's value put into a list by its slot. -/
def insertSlot (k : Nat × List W64 × Option Missing) : List (Nat × List W64 × Option Missing) → List (Nat × List W64 × Option Missing)
  | [] => [k]
  | j :: r => if k.1 < j.1 then k :: j :: r else j :: insertSlot k r

/-- Children in slot order. -/
def bySlot : List (Nat × List W64 × Option Missing) → List (Nat × List W64 × Option Missing)
  | [] => []
  | k :: r => insertSlot k (bySlot r)

/-- The timed-out entry of the lower number (R315). -/
def lowerMissing : Option Missing → Option Missing → Option Missing
  | none, b => b
  | a, none => a
  | some a, some b => if b.1 < a.1 then some b else some a

/-- The lowest timed-out entry that a round's values carry. -/
def Round.missing (r : Round) : Option Missing := r.kids.foldl (fun m k => lowerMissing m k.2.2) none

/-- The number of children of an entry (R312). -/
def TreeE.nch (x : TreeE) (k : Nat) : Nat := (x.ints[k]?.map (fun e => e.2.2)).getD 2

/-- The missing-child mask of a round (R315). -/
def TreeE.missMask (x : TreeE) (k : Nat) (r : Round) : Nat :=
  (List.range (x.nch k)).foldl (fun m i => if r.kids.any (fun c => c.1 == i) then m else m + 2 ^ i) 0

/-- A switch entry with nothing in it. -/
def CombRt.empty : CombRt := { rounds := [], done := [], out := [], sent := 0 }

/-! ### Delivery at the root (R314, R315, R333) -/

/-- The argument of COMBINE_TIMEOUT (R370). -/
def combTimeoutArg (tree round : Nat) (m : Missing) : W64 :=
  BitVec.ofNat 64 (tree + round % 65536 * 2 ^ 16 + m.1 * 2 ^ 32 + m.2 * 2 ^ 44)

/-- A result record leaves the root's switch on the result channel (R34, R313, R314). -/
def sendResult (s : State) (t : Nat) (tn : Tenure) (x : TreeE) (r : Rec) : State :=
  match s.chan? t x.rchan with
  | none => s
  | some ch =>
    let s := s.modChan t x.rchan (fun c => { c with transit := c.transit ++ [r] })
    let a := tn.combDie x.tree 0
    let b := (chanDies tn ch.e).2
    if a = b then s.modTenure t (fun tn => tn.injP (combPoint x.tree 0) 1) else sendMsg s t extEnd none a b 0 (.record x.rchan)

/-- The results of a root that can be delivered, in round order and as slots allow, at most `fuel` of them. A round that holds a partial is
delivered with carg 1, and then reported (R315, R333). -/
def deliverRoot (t : Nat) (tn : Tenure) (x : TreeE) : Nat → State → State
  | 0, s => s
  | fuel + 1, s =>
    match s.combs.get? (combKey t x.tree 0) with
    | none => s
    | some c =>
      match c.out.get? c.sent with
      | none => s
      | some (us, miss) =>
        if ((s.chan? t x.rchan).map ChanRt.free).getD 0 = 0 then s
        else
          let s := { s with combs := s.combs.set (combKey t x.tree 0) { c with out := c.out.erase c.sent, sent := c.sent + 1 } }
          let s := sendResult s t tn x (dataRec x.fmt c.sent (if miss.isSome then 1 else 0) us)
          let s := match miss with
            | some m => engineFault s t cCombineTimeout 8 extEnd 0xFF (combTimeoutArg x.tree c.sent m)
            | none => s
          deliverRoot t tn x fuel s

/-- A combined value passes on: to the parent as the child in the entry's slot, or, at the root, to the result channel (R314). -/
def forwardRound (s : State) (t : Nat) (tn : Tenure) (x : TreeE) (k round : Nat) (us : List W64) (miss : Option Missing) : State :=
  match x.ints[k]? with
  | none => s
  | some (parent, slot, _) =>
    if parent = 0xFFF then
      let c := s.combs.getD (combKey t x.tree k) CombRt.empty
      let s := { s with combs := s.combs.set (combKey t x.tree k) { c with out := c.out.set round (us, miss) } }
      deliverRoot t tn x (c.out.length + 1) s
    else
      sendMsg s t extEnd none (tn.combDie x.tree k) (tn.combDie x.tree parent) (tn.combUnit x.tree parent)
        (.contrib x.tree parent slot round us miss)

/-- A round leaves its entry: combined in slot order, or in order of arrival where the tree says so (R314). -/
def closeRound (s : State) (t : Nat) (tn : Tenure) (x : TreeE) (k : Nat) (r : Round) : State :=
  let c := s.combs.getD (combKey t x.tree k) CombRt.empty
  let s := { s with combs := s.combs.set (combKey t x.tree k) { c with rounds := c.rounds.filter (fun q => q.round != r.round) } }
  let kids := if x.ord then r.kids else bySlot r.kids
  forwardRound s t tn x k r.round (x.combineAll (kids.map (fun c => c.2.1))) r.missing

/-! ### Events -/

/-- The cycle at which the timers stand on the die of a combine entry's switch. -/
def combNow (s : State) (t : Nat) (tn : Tenure) (tree k : Nat) : Nat := timerNow s t (tn.combDie tree k)

/-- A child's value enters an entry; a full round is combined and passed on. One that arrives after its round was forwarded is
discarded (R314, R315). -/
def enterRound (s : State) (t : Nat) (tn : Tenure) (x : TreeE) (k slot round : Nat) (us : List W64) (miss : Option Missing) : State :=
  let c := s.combs.getD (combKey t x.tree k) CombRt.empty
  if c.done.contains round then s
  else
    let old := (c.rounds.find? (fun r => r.round == round)).getD { round := round, kids := [], start := combNow s t tn x.tree k }
    let r := { old with kids := old.kids ++ [(slot, us, miss)] }
    let rounds := r :: c.rounds.filter (fun q => q.round != round)
    let s := { s with combs := s.combs.set (combKey t x.tree k) { c with rounds := rounds } }
    if x.nch k ≤ r.kids.length then closeRound s t tn x k r else s

/-- The timer of an entry's round has reached 2^(10 + texp) cycles, and that cycle, whose children are included, is over: the children present are
combined in slot order, and the partial passes on with its mask (R315, R327). -/
def combineExpire (t tree k : Nat) (s : State) : State :=
  match s.tenures.get? t, s.combs.get? (combKey t tree k) with
  | some tn, some c =>
    match tn.tree? tree with
    | none => s
    | some x =>
      match c.rounds.find? (fun r => decide (r.start + 2 ^ (10 + x.texp) < combNow s t tn tree k)) with
      | none => s
      | some r =>
        if x.texp = 15 then s
        else
          let rounds := c.rounds.filter (fun q => q.round != r.round)
          let s := { s with combs := s.combs.set (combKey t tree k) { c with rounds := rounds, done := r.round :: c.done } }
          forwardRound s t tn x k r.round (x.combineAll ((bySlot r.kids).map (fun c => c.2.1)))
            (lowerMissing (some (k, x.missMask k r)) r.missing)
  | _, _ => s

/-- COMBINE_TIMEOUT: the timer of an entry's round has expired (R315). -/
def combineTimeout (t tree k : Nat) (s : State) : State := if partsMove s t then combineExpire t tree k s else s

/-- CONTRIBUTION_ARRIVAL: a contribution or a partial reaches a combine entry (R314), behind the time-outs of its two rounds that came
before it, also while the tenure's other plane runs (R315, R334, assumption 47). -/
def contributionArrival (m : Nat) (s : State) : State :=
  match s.msg? m with
  | none => s
  | some x =>
    if x.cross.isSome then s
    else if !tagCurrent s x then s.dropMsg m
    else
      match x.kind with
      | .contrib tree k slot round us miss =>
        if !partsLand s x.t then s
        else
          let s := consume (combineExpire x.t tree k (combineExpire x.t tree k s)) x
          match s.tenures.get? x.t with
          | some tn =>
            match tn.tree? tree with
            | some tr => enterRound s x.t tn tr k slot round us miss
            | none => s
          | none => s
      | _ => s

/-- The root of a tree delivers what waited for a slot of the result channel (R34, R314). -/
def rootDelivery (t tree : Nat) (s : State) : State :=
  match s.tenures.get? t with
  | some tn =>
    match tn.tree? tree with
    | some x => if partsMove s t then deliverRoot t tn x (((s.combs.get? (combKey t tree 0)).map (fun c => c.out.length)).getD 0) s else s
    | none => s
  | none => s

/-- CONTRIBUTION_ARRIVAL (R314). -/
def execContributionArrival (s : State) : Host.Outcome State Fault Refusal :=
  match s.subj with
  | .msg m => .next (contributionArrival m s)
  | .entry t tree _ => .next (rootDelivery t tree s)
  | _ => .next s

/-- COMBINE_TIMEOUT (R315). -/
def execCombineTimeout (s : State) : Host.Outcome State Fault Refusal :=
  match s.subj with
  | .entry t tree k => .next (combineTimeout t tree k s)
  | _ => .next s

end Sys2Proof.Machine
end

