-- ==== Sys2Proof/Machine/Wave.lean ====
section
/-! DEFINITION. The dusk wave (R318 to R325, R299): the counters as a pass sums them, verdicts, and what follows them. -/

namespace Sys2Proof.Machine

/-! ### The parts of a tenure -/

/-- The combine entries of a tenure, by their counting points. -/
def combsOf (s : State) (t : Nat) : List (Nat × CombRt) :=
  (s.combs.filter (fun (e : Nat × CombRt) => combKeyT e.1 == t)).map (fun (e : Nat × CombRt) =>
    (combPoint (e.1 / 4096 % 268435456) (e.1 % 4096), e.2))

/-! ### Counters (R318, R324) -/

/-- The records that a task waiting in `quiet` holds: they count as consumed (R324). -/
def TaskRt.heldRecords (k : TaskRt) : Nat := if k.waitsQuiet then (k.inp.toList.filter InPort.cur).length else 0

/-- Whether a task counts as blocked (R153, R310, R324). -/
def taskBlocked (s : State) (t n : Nat) (k : TaskRt) : Bool :=
  k.st == .blocked && !k.waitsQuiet &&
  (match k.wait with
    | .gate g _ => match s.gates.get? (key2 t g) with
      | some r => r.timer.isNone && r.waiters.any (fun w => w.1 == n)
      | none => false
    | _ => true)

/-- The nodes of a tenure that count as blocked (R153, R234, R253). -/
def blockedNodes (s : State) (t : Nat) : List Nat :=
  let idleBlocked (f : Firing) : Bool := match f with | .idle b => b | _ => false
  ((partsOf s.tasks t).filter (fun (e : Nat × TaskRt) => taskBlocked s t e.1 e.2)).map Prod.fst
  ++ ((partsOf s.opers t).filter (fun (e : Nat × OperRt) =>
      !e.2.halted && idleBlocked (operFiring (operClear s t e.2) t e.1 e.2))).map Prod.fst
  ++ ((partsOf s.gens t).filter (fun (e : Nat × GenRt) => !e.2.halted && idleBlocked (genFiring s t e.1 e.2))).map Prod.fst
  ++ ((partsOf s.mats t).filter (fun (e : Nat × MatRt) => !e.2.halted && matBlocked s t e.2)).map Prod.fst

/-- The sum of a list. -/
def sumNat (xs : List Nat) : Nat := xs.foldl (· + ·) 0

/-- Whether a wait is for a verdict. -/
def WaitSt.pending (w : WaitSt) : Bool :=
  match w with
  | .quiet _ .quiet => false
  | .quiet _ _ => true
  | _ => false

/-- What the parts of a tenure add up to at the counting points of `sel`. -/
def sumAt {α : Type} (sel : Nat → Bool) (parts : List (Nat × α)) (f : α → Nat) : Nat :=
  sumNat ((parts.filter (fun (e : Nat × α) => sel e.1)).map (fun (e : Nat × α) => f e.2))

/-- The lighters by their counting points. -/
def lightersAt (s : State) : List (Nat × LighterRt) := s.lighters.map (fun (e : Nat × LighterRt) => (lighterPoint e.1, e.2))

/-- The residual entries that a pass at a scope finds at the points of `sel`: one at pound scope does not reach the lighters (R299, R320). -/
def residualsAt (s : State) (t : Nat) (graph : Bool) (sel : Nat → Bool) : Nat :=
  sumAt sel (partsOf s.tasks t) (fun k => k.tile.length)
    + (if graph then sumAt sel (lightersAt s) (fun l => (l.tile.filter (fun r => r.1 == t)).length) else 0)

/-- The residual entries held for a tenure (R299). -/
def residualsHeld (s : State) (t : Nat) : Nat := residualsAt s t true (fun _ => true)

/-- Whether a channel of a tenure can move: a record of it is on its way, could enter it, or is taken by what it is bound to, or the virtual queue
bound to it holds a record for which it has a slot. -/
def chanMoves (s : State) (tn : Tenure) (c : Nat) (ch : ChanRt) : Bool :=
  !ch.still || (match tn.binds.get? c with
    | some (.vq v) =>
      if ch.e.src = extEnd then (s.vqs.get? v).any (fun q => !q.ring.isEmpty) && decide (0 < ch.free) else !ch.buf.isEmpty
    | some (.xfer _) => !ch.buf.isEmpty
    | some (.accs _ _) => !ch.buf.isEmpty
    | some (.pred _) => !ch.buf.isEmpty
    | _ => false)

/-- The instruction a lockkeeper is at. -/
def Tenure.passageAt (tn : Tenure) : Option Instr := (decodePassage (tn.g.passage.drop tn.lk.lpc.toNat)).map Prod.fst

/-- Whether the lockkeeper is at a `lock`, a `done` or a `fault` of a pound that runs, whose quiet is the last one of the pound (R357, R366). -/
def Tenure.finalQuiet (tn : Tenure) : Bool :=
  tn.lk.lstate == 1 && (match tn.passageAt with
    | some (.lock _ _) => true
    | some .done => true
    | some (.fault _) => true
    | _ => false)

/-- Whether nothing of a tenure can move while its lockkeeper waits, for a verdict, a predicate or the roots' Dones: no message or request of it is under way, no node can act, no gate owes
a Permit that has a slot, no root holds a result that has one, and no record is on its way (R44, R51, R219, assumption 69). -/
def standsStill (s : State) (t : Nat) (tn : Tenure) : Bool :=
  (tn.lkBlocked || tn.lkWait.pending || tn.finalQuiet)
    && s.net.all (fun x => x.t != t)
    && s.lighters.all (fun (e : Nat × LighterRt) => e.2.reqs.all (fun q => q.t != t))
    && tn.g.nodes.zipIdx.all (fun (e : NodeE × Nat) => nodeStill s t e.2)
    && (partsOf s.gates t).all (fun (e : Nat × GateRt) => e.2.outs.all (fun o => o.2.2 == 0 || chanFree s t o.2.1 == 0))
    && tn.g.trees.all (fun x => (s.combs.get? (combKey t x.tree 0)).all (fun c => c.out.isEmpty || chanFree s t x.rchan == 0))
    && (partsOf s.chans t).all (fun (e : Nat × ChanRt) => !chanMoves s tn e.1 e.2)

/-- Whether a task in `waita` has a notice under way: injected, and not consumed yet (R280, R319, assumption 23). -/
def TaskRt.noticeOut (k : TaskRt) : Bool :=
  match k.wait with
  | .word _ _ _ met => met
  | _ => false

/-- The running timers of a combine entry: one for each round it holds, of a tree with a time-out (R315). -/
def CombRt.timers (tn : Tenure) (e : Nat × CombRt) : Nat :=
  match tn.tree? ((e.1 - combPoint 0 0) / 4096) with
  | some x => if x.texp = 15 then 0 else e.2.rounds.length
  | none => 0

/-- What the counting points of `sel` report as they stand, but for their message counts (R318, R319, R324): `i` and `c` hold the notices under way and
the records that a task in `quiet` holds, less those that a reorder's window holds, which have left their channels and count as held (R219, R231). -/
def pointsAt (s : State) (t : Nat) (tn : Tenure) (graph : Bool) (sel : Nat → Bool) : Sums :=
  let bs := (blockedNodes s t).filter sel
  let gs := partsOf s.gates t
  let bit (b : Bool) : Nat := if b then 1 else 0
  { i := BitVec.ofNat 32 (if graph then sumAt sel (partsOf s.tasks t) (fun k => bit k.noticeOut) else 0)
    c := BitVec.ofNat 32 (sumAt sel (partsOf s.tasks t) TaskRt.heldRecords)
      - BitVec.ofNat 32 (sumAt sel (partsOf s.opers t) (fun o => o.window.length))
    h := residualsAt s t graph sel
    b := bs.length + bit (tn.lkBlocked && sel extEnd)
    e := sumAt sel gs (fun g => bit (decide (0 < g.arrived + g.early) || !g.waiters.isEmpty))
      + sumAt sel (combsOf s t) (fun k => bit (!k.rounds.isEmpty || !k.out.isEmpty))
    t := sumAt sel gs (fun g => bit g.timer.isSome)
      + sumNat (((combsOf s t).filter (fun (e : Nat × CombRt) => sel e.1)).map (CombRt.timers tn))
    w := 0
    s := false
    bmin := bs.foldl min 0xFFFFFF
    left := false }

/-- Two reports summed (R320). -/
def Sums.add (a b : Sums) : Sums :=
  { i := a.i + b.i, c := a.c + b.c, h := a.h + b.h, b := a.b + b.b, e := a.e + b.e, t := a.t + b.t, w := a.w + b.w, s := a.s || b.s
    bmin := min a.bmin b.bmin, left := a.left || b.left }

/-- The sums of a pass that visits, now, every counting point that it has not visited (R318 to R320): each point reports as it is visited, so the pass
does not find what has been counted at a point since. A pass at pound scope reaches no die-link endpoint. -/
def sumsOf (s : State) (t : Nat) (w : WaveSt) : Sums :=
  match s.tenures.get? t with
  | none => Sums.zero
  | some tn =>
    let x := w.part.add (pointsAt s t tn w.graph (fun p => !w.seen.contains p))
    let i := x.i + (if w.graph then tn.iP + tn.iG else tn.iP) - w.late.i
    let c := x.c + (if w.graph then tn.cP + tn.cG + tn.cL else tn.cP) - w.late.c
    { x with
      i := i
      c := c
      w := if w.graph then tn.wOff - w.late.w else 0
      s := w.graph && ((tn.suspect && !w.late.s) || spansLost s t tn)
      left := i != c && standsStill s t tn }

/-- A pass visits counting point `p`, before it completes (R320). -/
def WaveSt.visit (w : WaveSt) (s : State) (t : Nat) (tn : Tenure) (p : Nat) : WaveSt :=
  if w.seen.contains p then w
  else { w with seen := p :: w.seen, part := w.part.add (pointsAt s t tn w.graph (fun q => q == p)) }

/-! ### Verdicts (R321) -/

/-- The verdict of a wave (R321). -/
inductive Verdict where
  | lossy | quiet | stalled | held | busy
  deriving DecidableEq, Repr

/-- Whether two passes are equal in every sum. -/
def Sums.same (a b : Sums) : Bool := { a with left := false } == { b with left := false }

/-- The verdict of two passes: the first row of R321 that holds. -/
def verdict (a b : Sums) : Verdict :=
  if a.w ≠ 0 ∨ b.w ≠ 0 ∨ a.s = true ∨ b.s = true then .lossy
  else if a.same b = false then .busy
  else if a.i ≠ a.c then .busy
  else if a.h = 0 ∧ a.b = 0 ∧ a.e = 0 ∧ a.t = 0 then .quiet
  else if a.h = 0 ∧ a.t = 0 ∧ 0 < a.b + a.e then .stalled
  else if 0 < a.h ∧ a.b = 0 then .held
  else .busy

/-- Whether two equal passes both find records left of which nothing can move, with no residual and no timer: R44 has such a pound reported as
stalled, though I and C differ for good (R44, R51, R219, R231, assumption 69). -/
def leftBehind (a b : Sums) : Bool := a.same b && a.left && b.left && a.h == 0 && a.t == 0

/-- The verdict of a wave of a tenure. A wave during which a loss came, whose passes at pound scope do not reach the die-link endpoints, does not end
stalled: the next one is lossy (R320, R323, R327, assumption 14). -/
def waveEnds (lossy : Bool) (a b : Sums) : Verdict :=
  let v := if verdict a b = .busy ∧ leftBehind a b = true then .stalled else verdict a b
  if v = .stalled ∧ lossy = true then .busy else v

/-! ### Requests (R322, R325) -/

/-- A wait with its request taken up by a wave that starts at `graph` scope: it began after the request. -/
def WaitSt.serve (graph : Bool) (w : WaitSt) : WaitSt :=
  match w with
  | .quiet g .asked => if g = graph then .quiet g .served else w
  | _ => w

/-- A wait whose wave has declared quiet. -/
def WaitSt.declare (graph : Bool) (w : WaitSt) : WaitSt :=
  match w with
  | .quiet g .served => if g = graph then .quiet g .quiet else w
  | _ => w

/-- Whether a wait is a request at a scope that no wave has answered. -/
def WaitSt.pendingAt (graph : Bool) (w : WaitSt) : Bool := w == .quiet graph .asked || w == .quiet graph .served

/-- The waits of a tenure's tasks and of its lockkeeper changed. -/
def mapWaits (s : State) (t : Nat) (f : WaitSt → WaitSt) : State :=
  { s with tasks := s.tasks.map (fun (e : Nat × TaskRt) => if keyT e.1 == t then (e.1, { e.2 with wait := f e.2.wait }) else e) }.modTenure t
    (fun tn => { tn with lkWait := f tn.lkWait })

/-- Whether a request at a scope is pending. -/
def quietPending (s : State) (t : Nat) (graph : Bool) : Bool :=
  (partsOf s.tasks t).any (fun (e : Nat × TaskRt) => e.2.wait.pendingAt graph && e.2.st != .halted)
    || ((s.tenures.get? t).map (fun tn => tn.lkWait.pendingAt graph)).getD false

/-- Whether a wave of a tenure is bound to be lossy at graph scope: a message of it is written off, it is suspect, or its region spans a die pair
without a live module, which loses the packets of a pass itself (R323, R396, assumption 66). -/
def lossAhead (s : State) (t : Nat) (tn : Tenure) : Bool := tn.wOff != 0 || tn.suspect || spansLost s t tn

/-- A wave whose next pass begins. -/
def WaveSt.start (graph : Bool) (first : Option Sums) : WaveSt :=
  { graph := graph, first := first, seen := [], part := Sums.zero, late := Sums.zero }

/-- A wave starts at a scope (R320, R322). One that follows on a loss takes the graph scope, whose passes reach the die-link endpoints: it is
lossy (R323, R327, assumption 14). -/
def startWave (s : State) (t : Nat) (graph : Bool) : State :=
  (mapWaits s t (WaitSt.serve graph)).modTenure t (fun tn =>
    { tn with wave := some (WaveSt.start (graph || lossAhead s t tn) none), lastWave := s.nowOn tn.baseDie })

/-- The wave that follows one of scope `graph`, or none: while requests are pending, waves follow at once; with requests at both scopes
the scopes alternate (R322). -/
def nextWave (s : State) (t : Nat) (last : Bool) : State :=
  let other := quietPending s t (!last)
  let same := quietPending s t last
  if other then startWave s t (!last)
  else if same then startWave s t last
  else s.modTenure t (fun tn => { tn with wave := none })

/-- A verdict quiet answers the requests its wave served (R321, R325). One that rests on a task waiting in `quiet` leaves the final quiet
of a `lock`, a `done` or a `fault` to a later wave (assumption 65). At graph scope the writes that the host port has issued come before the later
accesses of each task, and of the passage program, whose `quiet` it answers (R338). -/
def declareQuiet (s : State) (t : Nat) (graph : Bool) : State :=
  let rests := (partsOf s.tasks t).any (fun (e : Nat × TaskRt) => e.2.waitsQuiet)
  let served := ((partsOf s.tasks t).filter (fun (e : Nat × TaskRt) => e.2.wait == .quiet true .served)).map Prod.fst
  let s := if graph then (extEnd :: served).foldl (fun s n => orderNode s t n (fun _ => true)) s else s
  { s with tasks := s.tasks.map (fun (e : Nat × TaskRt) =>
      if keyT e.1 == t then (e.1, { e.2 with wait := e.2.wait.declare graph }) else e) }.modTenure t
    (fun tn => if rests && tn.finalQuiet then tn else { tn with lkWait := tn.lkWait.declare graph })

/-! ### Flushing (R298, R321) -/

/-- Tasks flush their whole tiles, as far as `updpend` has room. -/
def flushTasks (t : Nat) (tn : Tenure) : List (Nat × TaskRt) → State → State
  | [], s => s
  | (n, k) :: r, s =>
    let go := k.tile.take (255 - k.updpend.toNat)
    let k := { k with tile := k.tile.drop go.length, updpend := k.updpend + BitVec.ofNat 8 go.length }
    flushTasks t tn r (flushList { s with tasks := s.tasks.set (key2 t n) k } t n none (tn.dieOf n) go)

/-- Every tile of a tenure flushes (R298). -/
def flushTiles (s : State) (t : Nat) : State :=
  match s.tenures.get? t with
  | some tn =>
    s.lighters.foldl (fun s e => flushLighter s t e.1) (flushTasks t tn (partsOf s.tasks t) s)
  | none => s

/-! ### Passes (R320) -/

/-- What a verdict brings (R321, R322). -/
def waveVerdict (s : State) (t : Nat) (graph : Bool) (v : Verdict) (x : Sums) : State :=
  match v with
  | .lossy =>
    engineFault s t cLoss 9 extEnd 0xFF (BitVec.ofNat 64 (x.w.toNat + (if x.s then 2 ^ 32 else 0)))
  | .stalled => engineFault s t cStall 9 extEnd 0xFF (BitVec.ofNat 64 (x.b % 2 ^ 24 + x.bmin * 2 ^ 24))
  | .quiet => nextWave (declareQuiet s t graph) t graph
  | .held => startWave (flushTiles s t) t graph
  | .busy => nextWave s t graph

/-- Whether the waves of a tenure run: its parts move and no fault has been reported (R372). -/
def wavesRun (s : State) (t : Nat) : Bool :=
  partsMove s t && (match s.tenures.get? t with
    | some tn => tn.faultLane.isEmpty && tn.log.isEmpty
    | none => false)

/-- WAVE_PASS: a pass of the tenure's wave visits the counting points that it has not visited yet and completes; after the second the verdict falls.
With no wave under way a request starts one (R320 to R322). -/
def wavePass (t : Nat) (s : State) : State :=
  if !wavesRun s t then s
  else
    match s.tenures.get? t with
    | none => s
    | some tn =>
      match tn.wave with
      | none =>
        if quietPending s t true then startWave s t true
        else if quietPending s t false then startWave s t false
        else s
      | some w =>
        let x := sumsOf s t w
        match w.first with
        | none => s.modTenure t (fun tn => { tn with wave := some (WaveSt.start w.graph (some x)) })
        | some y => waveVerdict s t w.graph (waveEnds (lossAhead s t tn) y x) x

/-- WAVE_PASS at one counting point: the pass under way visits it, and goes on (R320). -/
def waveVisit (t p : Nat) (s : State) : State :=
  if !wavesRun s t then s
  else s.modTenure t (fun tn => { tn with wave := tn.wave.map (fun w => w.visit s t tn p) })

/-- WAVE_PASS (R320). -/
def execWavePass (s : State) : Host.Outcome State Fault Refusal :=
  match s.subj with
  | .tenure t => .next (wavePass t s)
  | .node t p => .next (waveVisit t p s)
  | _ => .next s

/-- WAVE_PERIOD: with no request pending and no wave under way, the lockkeeper starts a wave every `P` cycles (R322). No rule states the
scope of such a wave; it takes the graph scope (assumption 14). -/
def wavePeriod (t : Nat) (s : State) : State :=
  match s.tenures.get? t with
  | none => s
  | some tn =>
    if !wavesRun s t || tn.wave.isSome || quietPending s t true || quietPending s t false || decide (s.nowOn tn.baseDie < tn.lastWave + tn.lk.wper.toNat)
    then s
    else startWave s t true

/-- WAVE_PERIOD (R322). -/
def execWavePeriod (s : State) : Host.Outcome State Fault Refusal :=
  match s.subj with
  | .tenure t => .next (wavePeriod t s)
  | _ => .next s

end Sys2Proof.Machine
end

