-- ==== Sys2Proof/Machine/Host.lean ====
section
/-! DEFINITION. The host interface (R58 to R66, R386): queues and kick pages, the queue processor's reads of host memory, completions
and interrupts, and the choice of the next command (R67). -/

namespace Sys2Proof.Machine

/-! ### Status codes (R66) -/

/-- OK. -/
def stOk : Nat := 0x0000
/-- BAD_COMMAND. -/
def stBadCommand : Nat := 0x0001
/-- BAD_ADDRESS. -/
def stBadAddress : Nat := 0x0002
/-- BAD_HANDLE. -/
def stBadHandle : Nat := 0x0003
/-- BAD_QUEUE. -/
def stBadQueue : Nat := 0x0004
/-- BAD_STATE. -/
def stBadState : Nat := 0x0005
/-- VQ_FULL. -/
def stVqFull : Nat := 0x0006
/-- WAIT_TIMEOUT. -/
def stWaitTimeout : Nat := 0x0007
/-- KILLED. -/
def stKilled : Nat := 0x0008
/-- ARG_SIZE. -/
def stArgSize : Nat := 0x0009

/-! ### Accesses of the queue processor (R58) -/

/-- The page requests of requesters that are gone: the answer finds no one (R58, R267). -/
def leaveAsks (s : State) (mine : Layer → Bool) : State :=
  { s with
    pageReqs := s.pageReqs.map (fun (e : Layer × Nat × Nat) => if mine e.1 then (.gone, e.2) else e)
    pageFails := s.pageFails.filter (fun e => !mine e.1) }

/-- What an access of the queue processor meets. -/
inductive HAccess where
  | ok (parts : List (Phys × Nat))
  | wait
  | ask (va : Nat)
  /-- It fails: BAD_ADDRESS. `va`: the page whose request failed. -/
  | bad (va : Nat)

/-- The translations of a range in a process's address space, page by page, at most `fuel` pages, for the requester `l` (R58, R387). -/
def hostAccess (s : State) (l : Layer) (pasid : Nat) (write : Bool) : Nat → Nat → Nat → HAccess
  | 0, _, _ => .ok []
  | fuel + 1, va, len =>
    if len = 0 then .ok []
    else if !canonical va || (!isDevice va && s.noHost pasid) then .bad va
    else
      let n := min len (4096 - va % 4096)
      match walk s pasid va with
      | .bad _ => .bad va
      | .invalid =>
        if s.pageFails.contains (l, pasid, pageOf va) then .bad va
        else if s.pageReqs.contains (l, pasid, pageOf va) then .wait
        else .ask va
      | .ok e =>
        if (write && !e.w) || (!write && !e.r) then .bad va
        else
          match hostAccess s l pasid write fuel (va + n) (len - n) with
          | .ok ps => .ok ((e.phys va, n) :: ps)
          | x => x

/-- A whole range for the requester `l`. -/
def hostRange (s : State) (l : Layer) (pasid va len : Nat) (write : Bool) : HAccess := hostAccess s l pasid write (len / 4096 + 2) va len

/-- The bytes of the pieces of a range. -/
def readParts (s : State) : List (Phys × Nat) → List Byte
  | [] => []
  | (p, n) :: r => physRead s p n ++ readParts s r

/-- Bytes written to the pieces of a range. -/
def writeParts (s : State) : List (Phys × Nat) → List Byte → State
  | [], _ => s
  | (p, n) :: r, bs => writeParts (physWrite s p (bs.take n)) r (bs.drop n)

/-! ### Queues (R59 to R62) -/

/-- A queue is in its error state (R61). -/
def QueueRt.failed (q : QueueRt) : Bool := bitOf q.status.toNat 1

/-- The state with queue `q` changed. -/
def State.modQueue (s : State) (q : Nat) (f : QueueRt → QueueRt) : State := { s with queues := s.queues.modify q f }

/-- A queue enters its error state with a cause; commands that have not started never start (R61). Where a queue already in error meets a
second cause (a completion ring that cannot be translated), no rule says which one STATUS holds; the model's choice is the later one
(DESIGN CHOICE, assumption 71). -/
def queueError (s : State) (q cause : Nat) : State :=
  s.modQueue q (fun x => { x with status := BitVec.ofNat 32 (2 + cause * 65536), cmds := x.cmds.filter (fun c => c.st != .waiting) })

/-- The words of 64 bytes. -/
def wordsOf : List Byte → Nat → List W64
  | _, 0 => []
  | bs, n + 1 => BitVec.ofNat 64 (leNat (bs.take 8)) :: wordsOf (bs.drop 8) n

/-- Newly announced ring entries read, at most `fuel` of them (R61). An entry whose page is awaited is read later; a ring that cannot be
translated puts the queue in its error state (R58). -/
def readRing (q : Nat) : Nat → State → State
  | 0, s => s
  | fuel + 1, s =>
    match s.queues.get? q with
    | none => s
    | some x =>
      if x.failed || x.head == x.kickTail then s
      else
        match hostRange s (.ring q) x.pasid (x.cmdva + x.head.toNat % 2 ^ x.cmdlog * 64) 64 false with
        | .wait => s
        | .ask va => askPage s (.ring q) x.pasid va
        | .bad va => queueError (dropPageFail (.ring q) x.pasid va s) q stBadAddress
        | .ok parts =>
          let heads := x.cmds.any (fun c => c.st == .waiting)
          let c : Cmd := { idx := x.head.toNat, words := wordsOf (readParts s parts) 8, st := .waiting,
                           since := if heads then 0 else s.nowNs, args := none }
          readRing q fuel (s.modQueue q (fun x => { x with head := x.head + 1, cmds := x.cmds ++ [c] }))

/-- The entries of a queue that have been announced, read as far as they can be. -/
def fetchRing (s : State) (q : Nat) : State :=
  match s.queues.get? q with
  | some x => readRing q (x.kickTail - x.head).toNat s
  | none => s

/-- KICK_TAIL_WRITE (R60, R61). -/
def kickTailWrite (q : Nat) (v : W32) (s : State) : State :=
  match s.queues.get? q with
  | none => s
  | some x =>
    let s := s.modQueue q (fun x => { x with kickTail := v })
    if x.failed then s
    else if 2 ^ x.cmdlog < (v - x.head).toNat then queueError s q stBadCommand
    else fetchRing s q

/-- Whether the module runs. -/
def State.powered (s : State) : Bool := s.dawn.power == .on

/-- KICK_TAIL_WRITE (R61). -/
def execKickTailWrite (s : State) : Host.Outcome State Fault Refusal :=
  match s.subj with
  | .write q v => .next (if s.powered then kickTailWrite q v s else s)
  | _ => .next s

/-- CPL_HEAD_WRITE (R60, R62). -/
def execCplHeadWrite (s : State) : Host.Outcome State Fault Refusal :=
  match s.subj with
  | .write q v => .next (if s.powered then s.modQueue q (fun x => { x with cplHead := v }) else s)
  | _ => .next s

/-! ### Completions and interrupts (R62, R66, R386) -/

/-- A command of a queue. -/
def QueueRt.cmd? (x : QueueRt) (idx : Nat) : Option Cmd := x.cmds.find? (fun c => c.idx == idx)

/-- A word of a command. -/
def Cmd.w (c : Cmd) (k : Nat) : Nat := (c.words[k]?.getD 0).toNat
/-- The command code. -/
def Cmd.op (c : Cmd) : Nat := bitsOf (c.w 0) 0 8

/-- A completion of a command waits to be written (R66). With the last one the command is over, and no answer to a page request of its own finds it
any more (R58). `joined`: it is written immediately behind the one with fin = 0 (R65). -/
def addCpl (s : State) (q idx status : Nat) (result detail : W64) (w3hi : Nat) (fin joined : Bool) : State :=
  (if fin then leaveAsks s (fun l => l == .command q idx) else s).modQueue q (fun x =>
    match x.cmd? idx with
    | none => x
    | some c =>
      let w0 := bitsOf (c.w 0) 32 32 + status % 65536 * 2 ^ 32 + c.op * 2 ^ 48 + (if fin then 2 ^ 56 else 0)
      let p : Cpl := { cmd := idx, word0 := BitVec.ofNat 64 w0, result := result, detail := detail,
                       word3 := BitVec.ofNat 64 (idx % 2 ^ 32 + w3hi * 2 ^ 32), fin := fin, irq := fin && bitOf (c.w 0) 10, after := none,
                       joined := joined }
      { x with pending := x.pending ++ [p],
               cmds := if fin then x.cmds.map (fun d => if d.idx == idx then { d with st := .done } else d) else x.cmds })

/-- A command completes (R66): its only completion, with fin = 1. -/
def complete (s : State) (q idx status : Nat) (result detail : W64) : State := addCpl s q idx status result detail 0 true false

/-- An MSI-X interrupt (R66, R386): sent, or, where its table entry is masked, pending. -/
def raiseIrq (s : State) (vector : Nat) : State :=
  if bitOf (leNat (s.bar2.read (0x10000 + 16 * vector + 12) 4)) 0 then
    { s with msixPba := if s.msixPba.contains vector then s.msixPba else vector :: s.msixPba }
  else { s with irqs := s.irqs ++ [vector] }

/-- Whether a completion waits for another command's last one (R65). -/
def cplBlocked (s : State) (p : Cpl) : Bool :=
  match p.after with
  | some (q, idx) => match s.queues.get? q with
    | some x => (x.cmd? idx).isSome
    | none => false
  | none => false

/-- Whether a completion with fin = 0 of another command has been written behind which the one with fin = 1 comes immediately (R65). -/
def joinedFirst (ps : List Cpl) (p : Cpl) : Bool :=
  ps.any (fun o => o.joined && o.cmd != p.cmd && ps.all (fun e => e.fin || e.cmd != o.cmd))

/-- COMPLETION_WRITE: the `k`-th completion that waits is written to the completion ring, when the ring has room, no earlier completion of its
command waits, and no other one comes immediately next; its interrupt follows (R62, R65, R66). -/
def completionWrite (q k : Nat) (s : State) : State :=
  match s.queues.get? q with
  | none => s
  | some x =>
    match x.pending[k]? with
    | none => s
    | some p =>
      if cplBlocked s p || joinedFirst x.pending p || (x.pending.take k).any (fun o => o.cmd == p.cmd) || decide (2 ^ x.cpllog ≤ (BitVec.ofNat 32 x.cplNext - x.cplHead).toNat) then s
      else
        match hostRange s (.ring q) x.pasid (x.cplva + x.cplNext % 2 ^ x.cpllog * 32) 32 true with
        | .wait => s
        | .ask va => askPage s (.ring q) x.pasid va
        | .bad va => queueError (dropPageFail (.ring q) x.pasid va s) q stBadAddress
        | .ok parts =>
          let phase := x.cplNext / 2 ^ x.cpllog % 2 = 0
          let w0 := p.word0.toNat + (if phase then 2 ^ 63 else 0)
          let bs := leBytes w0 8 ++ leBytes p.result.toNat 8 ++ leBytes p.detail.toNat 8 ++ leBytes p.word3.toNat 8
          let s := wakeWaiters (writeParts s parts bs)
          let s := s.modQueue q (fun x => { x with
            pending := x.pending.eraseIdx k, cplNext := x.cplNext + 1,
            cmds := if p.fin then x.cmds.filter (fun c => c.idx != p.cmd) else x.cmds })
          if p.irq && x.irqen then raiseIrq s x.vector else s

/-- COMPLETION_WRITE (R62). -/
def execCompletionWrite (s : State) : Host.Outcome State Fault Refusal :=
  match s.subj with
  | .completion q k => .next (if s.powered then completionWrite q k s else s)
  | _ => .next s

/-! ### Starting commands (R63, R66, R67) -/

/-- Words `a` to 7 of a command are 0. -/
def Cmd.zeroFrom (c : Cmd) (a : Nat) : Bool := (c.words.drop a).all (fun w => w == 0)

/-- Whether a command is malformed: an unknown op, a Reserved bit, a field out of range, or a nonzero word it does not use (R63, R64); for
`QUERY` also an unknown selector, a die above 3, or a destination too small for the reply (R69). -/
def Cmd.malformed (c : Cmd) : Bool :=
  let hi (k : Nat) : Nat := bitsOf (c.w k) 32 32
  let vq : Bool := hi 1 != 0 || hi 3 == 0 || decide (65535 < hi 3) || !c.zeroFrom 4
  bitsOf (c.w 0) 12 20 != 0 ||
  (match c.op with
    | 1 => decide (65536 < c.w 3) || !c.zeroFrom 4
    | 2 => vq
    | 3 => vq
    | 4 => decide (1 < c.w 3) || !c.zeroFrom 4
    | 5 => bitsOf (c.w 3) 1 31 != 0 || !c.zeroFrom 4
    | 6 => hi 1 != 0 || decide (1 < c.w 2) || !c.zeroFrom 3
    | 7 => hi 1 != 0 || !c.zeroFrom 2
    | 8 => hi 1 != 0 || !c.zeroFrom 2
    | 9 =>
      let sel := bitsOf (c.w 1) 0 16
      let least := match sel with | 0 => 16 | 1 => 32 | 2 => 64 | 3 => 20 | _ => 16
      bitsOf (c.w 1) 16 16 != 0 || hi 3 != 0 || !c.zeroFrom 4 || decide (4 < sel) || ((sel == 0 || sel == 2) && hi 1 != 0)
        || (sel == 3 && decide (3 < hi 1)) || decide (c.w 3 < least)
    | _ => true)

/-- Whether a command names a host-shared address (R64, R259). -/
def Cmd.namesHost (c : Cmd) : Bool :=
  match c.op with
  | 1 => !isDevice (c.w 1) || (c.w 3 != 0 && !isDevice (c.w 2))
  | 2 => !isDevice (c.w 2)
  | 3 => !isDevice (c.w 2)
  | 4 => !isDevice (c.w 1)
  | 5 => !isDevice (c.w 1)
  | 9 => !isDevice (c.w 2)
  | _ => false

/-- Whether a command completes with BAD_COMMAND before anything else: it is malformed, or it uses host-shared memory on a module without
HOSTSHARED (R63, R68; assumption 55). A command that is malformed and whose address is misaligned too gets BAD_COMMAND, for R58 and R63 give no order
(DESIGN CHOICE, assumption 54). -/
def Cmd.barred (s : State) (c : Cmd) : Bool := c.malformed || (!bitOf s.dawn.caps.toNat 0 && c.namesHost)

/-- The command of a queue that would start next (R66): none while a `WAIT` holds the queue, or in the error state, or while a fence
waits for an earlier command's last completion (R63, R65). -/
def QueueRt.headCmd (x : QueueRt) : Option Cmd :=
  if x.failed || x.waiting.isSome then none
  else
    match x.cmds.find? (fun c => c.st == .waiting) with
    | some c => if bitOf (c.w 0) 11 && x.cmds.any (fun d => d.st != .waiting) then none else some c
    | none => none

/-- The effective priority of a wait of `w` nanoseconds (R67). -/
def effPrio (prio w : Nat) : Nat := min 3 (prio + w / 500000)

/-- The priority of a command of a queue (R63). -/
def QueueRt.prio (x : QueueRt) (c : Cmd) : Nat := min (bitsOf (c.w 0) 8 2) x.ceil

/-- Whether one waiting command goes before another: effective priority, then the longer wait, then the lower queue (R67). Each is its
priority, the instant its wait began, and its queue. -/
def goesBefore (now : Nat) (a b : Nat × Nat × Nat) : Bool :=
  let pa := effPrio a.1 (now - a.2.1)
  let pb := effPrio b.1 (now - b.2.1)
  if pa ≠ pb then decide (pb < pa)
  else if a.2.1 ≠ b.2.1 then decide (a.2.1 < b.2.1)
  else decide (a.2.2 ≤ b.2.2)

/-- Whether the head command of queue `q` is the next that its queue processor starts (R67). -/
def queueWins (s : State) (q : Nat) : Bool :=
  match s.queues.get? q with
  | none => false
  | some x =>
    match x.headCmd with
    | none => false
    | some c => s.queues.all (fun (e : Nat × QueueRt) =>
        match (if e.2.die = x.die then e.2.headCmd else none) with
        | some d => goesBefore s.nowNs (x.prio c, c.since, q) (e.2.prio d, d.since, e.1)
        | none => true)

/-- A command's progress. -/
def setCmd (s : State) (q idx : Nat) (st : CmdSt) : State :=
  s.modQueue q (fun x => { x with cmds := x.cmds.map (fun c => if c.idx == idx then { c with st := st } else c) })

/-- The command at the head starts, and the one behind it is the head from now on (R66, R67). -/
def startCmd (s : State) (q idx : Nat) : State :=
  let s := setCmd s q idx .started
  s.modQueue q (fun x =>
    match x.cmds.find? (fun c => c.st == .waiting) with
    | some d => { x with cmds := x.cmds.map (fun c => if c.idx == d.idx then { c with since := s.nowNs } else c) }
    | none => x)

/-- Whether a command that has started awaits a page (R58), or may not ask for one yet (R387). -/
def awaitsPage (s : State) (q : Nat) (c : Cmd) : Bool :=
  s.pageReqs.any (fun r => r.1 == .command q c.idx) || decide (512 ≤ (s.pageReqs.filter (fun r => !isDevice r.2.2)).length)

/-- A command event: the ring is read; a command of the kind `mine` that has started and still makes its accesses goes on; where it awaits a page, or
there is none, the one at the head starts (R66, R67), a barred one of whatever kind with BAD_COMMAND (R63, R68). -/
def commandEvent (mine : Cmd → Bool) (run : State → Nat → QueueRt → Cmd → State) (s : State) : State :=
  match s.subj with
  | .queue q =>
    if !s.powered then s
    else
      let s := fetchRing s q
      match s.queues.get? q with
      | none => s
      | some x =>
        match x.cmds.find? (fun c => c.st == .started && mine c && !awaitsPage s q c) with
        | some c => run s q x c
        | none =>
          let waiting (s : State) : State :=
            match x.cmds.find? (fun c => c.st == .started && mine c) with
            | some c => run s q x c
            | none => s
          match x.headCmd with
          | none => waiting s
          | some c =>
            if !queueWins s q then waiting s
            else if c.barred s then complete (startCmd s q c.idx) q c.idx stBadCommand 0 0
            else if mine c then run (startCmd s q c.idx) q x c
            else waiting s
  | _ => s

/-- An access of a command in its process's space: the command goes on with the pieces, or waits, or completes with BAD_ADDRESS. -/
def withRange (s : State) (q : Nat) (x : QueueRt) (c : Cmd) (va len : Nat) (write : Bool) (k : List (Phys × Nat) → State) : State :=
  match hostRange s (.command q c.idx) x.pasid va len write with
  | .wait => s
  | .ask a => askPage s (.command q c.idx) x.pasid a
  | .bad _ => complete s q c.idx stBadAddress 0 0
  | .ok parts => k parts

/-- As `withRange`, for an address that must be 8-byte aligned (R64). -/
def withAligned (s : State) (q : Nat) (x : QueueRt) (c : Cmd) (va len : Nat) (write : Bool) (k : List (Phys × Nat) → State) : State :=
  if va % 8 ≠ 0 then complete s q c.idx stBadAddress 0 0 else withRange s q x c va len write k

/-! ### Queue creation (R59, R60) -/

/-- Whether a descriptor obeys R59; what its Reserved fields hold is ignored (R9). -/
def descOk (d : Nat) : Bool :=
  let cmdva := bitsOf d 0 57
  let cplva := bitsOf d 64 57
  let cl := bitsOf d 128 5
  let pl := bitsOf d 136 5
  cmdva % 4096 == 0 && cplva % 4096 == 0 && decide (6 ≤ cl) && decide (cl ≤ 16) && decide (6 ≤ pl) && decide (pl ≤ 16)
    && bitsOf d 148 20 != 0

/-- Whether an administrative request has been submitted, to a module that answers one (R386, R397). -/
def mboxSubmitted (s : State) : Bool := s.powered && s.mboxDoor == 1 && s.dawn.status.toNat % 4 != 0

/-- An administrative request has been answered: the doorbell reads 0, and MBOX_RSP holds a response of the device OS (R386,
assumption 15). -/
def mboxAnswer (s : State) (st : MboxStatus) : State :=
  { s with mboxDoor := 0, mboxRsp := some (st, s.freeCtr), freeCtr := s.freeCtr + 1 }

/-- The first identifier of 32 bits from `n` on that a map does not use (R59, R70). -/
def freshId {α : Type} (m : Map α) (n : Nat) : Nat :=
  (((List.range (m.length + 1)).map (fun k => (n + k) % 4294967296)).find? (fun k => (m.get? k).isNone)).getD n

/-- The kick-page slot that the device OS assigns to a new queue: the first without a queue (R386, assumption 72). -/
def freeSlot? (s : State) : Option Nat :=
  (List.range 16384).find? (fun k => s.queues.all (fun (e : Nat × QueueRt) => e.2.slot != k))

/-- A queue as it is created (R59, R60). -/
def QueueRt.create (d die slot : Nat) : QueueRt :=
  { die := die, slot := slot, cmdva := bitsOf d 0 57, cplva := bitsOf d 64 57, cmdlog := bitsOf d 128 5, cpllog := bitsOf d 136 5,
    pasid := bitsOf d 148 20, ceil := bitsOf d 168 2, irqen := bitOf d 170, vector := bitsOf d 171 11, kickTail := 0, head := 0,
    cplHead := 0, status := 1, cmds := [], cplNext := 0, pending := [], waiting := none }

/-- The stage of the module (R397, R400). -/
def State.stage (s : State) : Nat := s.dawn.status.toNat % 4

/-- A queue created for a descriptor, with its identifier, its kick page and its queue processor, which is one that is in use (R59, R386, R404). A
descriptor that breaks R59, or one beyond the kick-page slots, makes no queue. -/
def createQueue (desc : Nat) (die : Nat) (s : State) : State :=
  match freeSlot? s with
  | some slot =>
    if descOk desc && s.enabled 6 4 != 0 then
      let q := freshId s.queues s.nextQueue
      mboxAnswer { s with queues := s.queues.set q (QueueRt.create desc (die % s.enabled 6 4) slot), nextQueue := (q + 1) % 4294967296 } .ok
    else mboxAnswer s .refused
  | none => mboxAnswer s .refused

/-- CREATE_QUEUE: the device OS takes the submitted request to create a queue (R59). Before Dawn 1 nothing answers, and before Dawn 3 the
request completes with the not-ready status (R397). -/
def execCreateQueue (s : State) : Host.Outcome State Fault Refusal :=
  match s.subj with
  | .newQueue desc die =>
    .next (if !mboxSubmitted s then s else if s.stage != 3 then mboxAnswer s .notReady else createQueue desc.toNat die s)
  | _ => .next s

/-- Whether a page request is one of queue `q`, for its rings or for its commands (R58). -/
def Layer.ofQueue (q : Nat) : Layer → Bool
  | .command k _ => k == q
  | .ring k => k == q
  | _ => false

/-- DESTROY_QUEUE: the device OS takes the submitted request to destroy a queue, which also ends its error state (R59, R61). -/
def execDestroyQueue (s : State) : Host.Outcome State Fault Refusal :=
  match s.subj with
  | .queue q => .next (if mboxSubmitted s then mboxAnswer (leaveAsks { s with queues := s.queues.erase q } (Layer.ofQueue q)) .ok else s)
  | _ => .next s

/-- MBOX_DOOR_WRITE: writing 1 submits the request that MBOX_REQ holds, which the device OS then takes (R386). -/
def execMboxDoorWrite (s : State) : Host.Outcome State Fault Refusal :=
  match s.subj with
  | .value v => .next (if s.powered then { s with mboxDoor := v } else s)
  | _ => .next s

/-- The queue to which a kick-page slot is assigned (R386). -/
def queueAt? (s : State) (slot : Nat) : Option (Nat × QueueRt) := s.queues.find? (fun (e : Nat × QueueRt) => e.2.slot == slot)

/-- REGISTER_WRITE: a write follows the register's access code (R7): MBOX_REQ and the MSI-X table take the bytes written; every register
that is RO, every Reserved offset and every kick-page slot without a queue ignores it; a 1 clears its bit of GOV_EVENTS; the governor's
budget can be written by the management controller alone (R28). KICK_TAIL, CPL_HEAD and MBOX_DOOR have behaviour of their own and their own
events; through this one they take the value written all the same. A mask bit cleared
in the MSI-X table sends the vector's pending interrupt. -/
def registerWrite (r : RegAddr) (v : W64) (s : State) : State :=
  match r with
  | .kick slot off =>
    match queueAt? s slot with
    | some (q, _) =>
      if off = 0 then kickTailWrite q (v.truncate 32) s
      else if off = 8 then s.modQueue q (fun x => { x with cplHead := v.truncate 32 })
      else s
    | none => s
  | .bar2 off =>
    if off < 0x1000 then { s with bar2 := s.bar2.write off (leBytes v.toNat (min 8 (0x1000 - off))) }
    else if off = 0x2000 then { s with mboxDoor := v.truncate 32 }
    else if 0x10000 ≤ off ∧ off < 0x18000 then
      let s := { s with bar2 := s.bar2.write off (leBytes v.toNat (min 8 (0x18000 - off))) }
      let vec := (off - 0x10000) / 16
      if s.msixPba.contains vec && !bitOf (leNat (s.bar2.read (0x10000 + 16 * vec + 12) 4)) 0 then
        { s with msixPba := s.msixPba.filter (fun w => w != vec), irqs := s.irqs ++ [vec] }
      else s
    else s
  | .bar4 _ => s
  | .gov die off =>
    if h : die < 4 then
      if off = 0x10 then { s with gov := s.gov.set die { s.gov[die] with events := s.gov[die].events &&& ~~~(v.truncate 32) } } else s
    else s

/-- REGISTER_WRITE (R7). -/
def execRegisterWrite (s : State) : Host.Outcome State Fault Refusal :=
  match s.subj with
  | .register r v => .next (if s.powered then registerWrite r v s else s)
  | _ => .next s

/-! ### Plain commands (R64, R65) -/

/-- SIGNAL (R65): the semaphore is set, or added to modulo 2^64, and read back. -/
def runSignal (s : State) (q : Nat) (x : QueueRt) (c : Cmd) : State :=
  withAligned s q x c (c.w 1) 8 true (fun parts =>
    let old := leNat (readParts s parts)
    let new := (if c.w 3 = 1 then old + c.w 2 else c.w 2) % 2 ^ 64
    complete (wakeWaiters (writeParts s parts (leBytes new 8))) q c.idx stOk (BitVec.ofNat 64 new) 0)

/-- SIGNAL_SET (R65). -/
def execSignalSet (s : State) : Host.Outcome State Fault Refusal :=
  .next (commandEvent (fun c => c.op == 4 && c.w 3 == 0) runSignal s)

/-- SIGNAL_ADD (R65). -/
def execSignalAdd (s : State) : Host.Outcome State Fault Refusal :=
  .next (commandEvent (fun c => c.op == 4 && c.w 3 == 1) runSignal s)

/-- The condition of a WAIT on the value observed (R64). -/
def Cmd.waitHolds (c : Cmd) (v : Nat) : Bool := if bitOf (c.w 3) 0 then v == c.w 2 else decide (c.w 2 ≤ v)

/-- A WAIT holds its queue, with the last value read (R65). -/
def holdQueue (s : State) (q : Nat) (c : Cmd) (v : W64) : State :=
  (setCmd s q c.idx .active).modQueue q (fun x => { x with waiting := some (c.idx, s.nowNs, v) })

/-- WAIT (R65): completes at once when the condition holds; else the queue waits, and so it does while the semaphore's page is awaited: the
value that a time-out then writes, with none read, is free (assumption 73). -/
def runWait (s : State) (q : Nat) (x : QueueRt) (c : Cmd) : State :=
  if c.w 1 % 8 ≠ 0 then complete s q c.idx stBadAddress 0 0
  else
    match hostRange s (.command q c.idx) x.pasid (c.w 1) 8 false with
    | .wait => holdQueue s.tookFree q c (Config.freeWord s.freeCtr)
    | .ask a => askPage (holdQueue s.tookFree q c (Config.freeWord s.freeCtr)) (.command q c.idx) x.pasid a
    | .bad _ => complete s q c.idx stBadAddress 0 0
    | .ok parts =>
      let v := leNat (readParts s parts)
      if c.waitHolds v then complete s q c.idx stOk (BitVec.ofNat 64 v) 0 else holdQueue s q c (BitVec.ofNat 64 v)

/-- WAIT (R65). -/
def execWait (s : State) : Host.Outcome State Fault Refusal := .next (commandEvent (fun c => c.op == 5) runWait s)

/-- WAIT_SATISFIED: a waiting WAIT reads its semaphore again, and completes when the condition holds (R65). -/
def waitSatisfied (q : Nat) (s : State) : State :=
  match s.queues.get? q with
  | none => s
  | some x =>
    match x.waiting with
    | none => s
    | some (idx, since, _) =>
      match x.cmd? idx with
      | none => s
      | some c =>
        match hostRange s (.command q idx) x.pasid (c.w 1) 8 false with
        | .ok parts =>
          let v := leNat (readParts s parts)
          if c.waitHolds v then
            complete (s.modQueue q (fun x => { x with waiting := none })) q idx stOk (BitVec.ofNat 64 v) 0
          else s.modQueue q (fun x => { x with waiting := some (idx, since, BitVec.ofNat 64 v) })
        | .ask a => askPage s (.command q idx) x.pasid a
        | .wait => s
        | .bad _ => complete (s.modQueue q (fun x => { x with waiting := none })) q idx stBadAddress 0 0

/-- WAIT_SATISFIED (R65). -/
def execWaitSatisfied (s : State) : Host.Outcome State Fault Refusal :=
  match s.subj with
  | .queue q => .next (if s.powered then waitSatisfied q s else s)
  | _ => .next s

/-- WAIT_TIMEOUT: a WAIT whose time-out has passed completes with the last value read (R65). -/
def waitTimeout (q : Nat) (s : State) : State :=
  match s.queues.get? q with
  | none => s
  | some x =>
    match x.waiting with
    | none => s
    | some (idx, since, v) =>
      match x.cmd? idx with
      | none => s
      | some c =>
        let limit := bitsOf (c.w 3) 32 32
        if limit = 0 ∨ s.nowNs < since + limit * 1000 then s
        else complete (s.modQueue q (fun x => { x with waiting := none })) q idx stWaitTimeout v 0

/-- WAIT_TIMEOUT (R65). -/
def execWaitTimeout (s : State) : Host.Outcome State Fault Refusal :=
  match s.subj with
  | .queue q => .next (if s.powered then waitTimeout q s else s)
  | _ => .next s

end Sys2Proof.Machine
end

