-- ==== Sys2Proof/Machine/Graph.lean ====
section
/-! DEFINITION. The graph object (R29 to R33, R37, R81 to R83, R127, R145, R146, R291, R311, R312, R419): Gykan's reading of it, with
the checks of stage 2 of R420. -/

namespace Sys2Proof.Machine

/-! ### Reading (R58, R381) -/

/-- Why a reading of an object stops. -/
inductive GStop where
  /-- A page is awaited. -/
  | wait
  /-- A page request goes out. -/
  | ask (va : Nat)
  /-- The object is rejected, or a page cannot be read: a status or fault code, its argument (R370) and its detail (R66). -/
  | reject (code arg : Nat) (detail : Nat)

/-- A reading. -/
abbrev GM := Except GStop

/-- An object as its reader reaches it: the state, who reads, the process, the object's address and its size. -/
structure Obj where
  s : State
  l : Layer
  pasid : Nat
  addr : Nat
  size : Nat

/-- BAD_GRAPH (R103, R370). -/
def badGraph {α : Type} : GM α := .error (.reject cBadGraph 0 0)

/-- A check of stage 2: BAD_GRAPH where it fails. -/
def sound (b : Bool) : GM Unit := if b then .ok () else badGraph

/-- `n` bytes of an object from offset `off`, read for a pound (R381). What lies past the object's size is no part of it (R29). -/
def Obj.read (o : Obj) (pound off n : Nat) : GM (List Byte) :=
  if o.size < off + n then badGraph
  else
    match hostRange o.s o.l o.pasid (o.addr + off) n false with
    | .ok parts => .ok (readParts o.s parts)
    | .wait => .error .wait
    | .ask va => .error (.ask va)
    | .bad va => .error (.reject cCodePage (va - o.addr) (pound * 2 ^ 24))

/-- Entries of `w` bytes each, as numbers. -/
def entriesOf (w : Nat) : Nat → List Byte → List Nat
  | 0, _ => []
  | n + 1, bs => leNat (bs.take w) :: entriesOf w n (bs.drop w)

/-- No pound, where a pound is named (R353). -/
def noPound : Nat := 0xFFFF

/-- `n` entries of `w` bytes from offset `off`. -/
def Obj.entries (o : Obj) (pound off n w : Nat) : GM (List Nat) := do
  let bs ← o.read pound off (n * w)
  pure (entriesOf w n bs)

/-- One entry of `w` bytes. -/
def Obj.entry (o : Obj) (pound off w : Nat) : GM Nat := do
  let bs ← o.read pound off w
  pure (leNat bs)

/-! ### Header and sections (R29, R30) -/

/-- Whether a header obeys R29. -/
def headerOk (h : Nat) : Bool :=
  let segmax := bitsOf h 160 32
  bitsOf h 0 32 == 0x314F4757 && bitsOf h 32 16 == 1 && bitsOf h 49 15 == 0 && decide (1 ≤ bitsOf h 64 32)
    && decide (bitsOf h 64 32 ≤ 16777215) && decide (bitsOf h 96 32 ≤ 16777215) && decide (1 ≤ bitsOf h 128 16)
    && decide (bitsOf h 128 16 ≤ 4096) && decide (1 ≤ bitsOf h 144 8) && decide (bitsOf h 144 8 ≤ 64) && bitsOf h 152 8 == 0
    && (segmax == 0 || decide (256 ≤ segmax)) && decide (1 ≤ bitsOf h 192 32) && decide (bitsOf h 192 32 ≤ 64)
    && bitsOf h 224 32 == 0 && bitsOf h 256 64 % 16 == 0 && decide (64 ≤ bitsOf h 320 64) && bitsOf h 384 128 == 0

/-- A section: kind, offset, size. -/
structure Section where
  kind : Nat
  off : Nat
  size : Nat

/-- Whether two byte ranges are apart; an empty one overlaps nothing (R30). -/
def apart (a b : Nat × Nat) : Bool := a.2 == 0 || b.2 == 0 || decide (a.1 + a.2 ≤ b.1) || decide (b.1 + b.2 ≤ a.1)

/-- Whether the ranges of a list are apart from each other. -/
def allApart : List (Nat × Nat) → Bool
  | [] => true
  | a :: r => r.all (apart a) && allApart r

/-- The size a section must have, by its kind (R30, R419). -/
def sectionSizeOk (nodes chans pounds : Nat) (x : Section) : Bool :=
  match x.kind with
  | 1 => x.size == nodes * 32
  | 2 => x.size == chans * 32
  -- its entries, with room for the locality lists that R81 and R83 place in it (assumption 16)
  | 3 => decide (pounds * 32 ≤ x.size)
  | 6 => x.size % 4 == 0 && decide (4 ≤ x.size) && decide (x.size ≤ 262144)
  | 8 => x.size % 32 == 0
  | 9 => x.size % 16 == 0
  | 10 => x.size == 8
  | 12 => x.size % 192 == 0
  | _ => true

/-- A section-table entry (R30). -/
def sectionOf (e : Nat) : Section := { kind := bitsOf e 0 16, off := bitsOf e 64 64, size := bitsOf e 32 32 }

/-- The sections, checked (R30). -/
def readSections (o : Obj) (h : Nat) : GM (List Section) := do
  let tab := bitsOf h 256 64
  let n := bitsOf h 192 32
  let es ← o.entries noPound tab n 16
  let xs := es.map sectionOf
  sound (es.all (fun e => bitsOf e 16 16 == 0))
  sound (xs.all (fun x => decide (1 ≤ x.kind) && decide (x.kind ≤ 12)))
  sound ((List.range 13).all (fun k => k == 11 || decide ((xs.filter (fun x => x.kind == k)).length ≤ 1)))
  sound ([1, 2, 3, 6].all (fun k => xs.any (fun x => x.kind == k)))
  sound (xs.all (fun x => x.size == 0 || decide (x.off + x.size ≤ o.size)))
  sound (xs.all (fun x => apart (0, 64) (x.off, x.size) && apart (tab, 16 * n) (x.off, x.size)))
  sound (allApart (xs.map (fun x => (x.off, x.size))))
  sound (xs.all (sectionSizeOk (bitsOf h 64 32) (bitsOf h 96 32) (bitsOf h 128 16)))
  pure xs

/-- The section of a kind; an absent one is empty. -/
def sectionAt (xs : List Section) (k : Nat) : Section := (xs.find? (fun x => x.kind == k)).getD { kind := k, off := 0, size := 0 }

/-- Whether a range lies wholly inside a section. -/
def Section.holds (x : Section) (off n : Nat) : Bool := decide (x.off ≤ off) && decide (off + n ≤ x.off + x.size)

/-! ### Nodes and channels (R31 to R33, R37, R151) -/

/-- A node-table entry obeys R31 and R32. -/
def nodeOk (pounds : Nat) (i e : Nat) : Bool :=
  let kind := bitsOf e 24 8
  let bank := bitsOf e 64 16
  let code := bitsOf e 80 16
  bitsOf e 0 24 == i && decide (kind ≤ 5) && decide (bitsOf e 32 16 < pounds) && bitsOf e 55 9 == 0 && decide (bank ≤ 256)
    && (bank == 0 || kind == 0 || kind == 2) && decide (code ≤ 4096) && ((kind == 0) == decide (0 < code)) && bitsOf e 96 32 == 0
    && bitsOf e 192 64 == 0

/-- A node-table entry. -/
def nodeOf (e : Nat) : NodeE :=
  { kind := bitsOf e 24 8, pound := bitsOf e 32 16, cls := bitsOf e 48 16, bank := bitsOf e 64 16, code := bitsOf e 80 16,
    body := bitsOf e 128 64 }

/-- A channel-table entry (R33). -/
def chanOf (e : Nat) : ChanE :=
  { src := bitsOf e 32 24, oport := bitsOf e 56 4, dst := bitsOf e 64 24, iport := bitsOf e 88 4, trig := bitOf e 92,
    depth := bitsOf e 96 6, width := bitsOf e 112 16, ratelo := bitsOf e 128 16, ratehi := bitsOf e 144 16, sticky := bitsOf e 160 16,
    level := bitsOf e 176 4 }

/-- The port width at an element end of a channel; an external end and a slice object bound nothing (R33). -/
def portBits (nodes : List NodeE) (n : Nat) : Option Nat :=
  match nodes[n]? with
  | some x => if x.kind = 5 then none else if x.kind = 4 then some 512 else some 128
  | none => none

/-- The largest ratehi of a channel (R33). -/
def rateMax (nodes : List NodeE) (c : ChanE) : Nat :=
  match portBits nodes c.src, portBits nodes c.dst with
  | some a, some b => 16 * min a b
  | some a, none => 16 * a
  | none, some b => 16 * b
  | none, none => 65535

/-- The pound of a node. -/
def poundAt (nodes : List NodeE) (n : Nat) : Option Nat := nodes[n]?.map NodeE.pound

/-- A channel-table entry obeys R33 and R37. -/
def chanOk (nodes : List NodeE) (i e : Nat) : Bool :=
  let c := chanOf e
  let ext (n : Nat) : Bool := n == extEnd
  bitsOf e 0 24 == i && bitsOf e 24 8 == 0 && bitsOf e 60 4 == 0 && bitsOf e 93 3 == 0 && bitsOf e 102 10 == 0 && bitsOf e 180 76 == 0
    && decide (1 ≤ c.width) && decide (c.width ≤ 1024) && decide (c.ratelo ≤ c.ratehi) && decide (1 ≤ c.ratehi)
    && decide (c.ratehi ≤ rateMax nodes c) && decide (c.level ≤ 8)
    && (ext c.src || decide (c.src < nodes.length)) && (ext c.dst || decide (c.dst < nodes.length)) && !(ext c.src && ext c.dst)
    && (ext c.src || ext c.dst || poundAt nodes c.src == poundAt nodes c.dst)
    && (c.sticky != 0xFFFF || decide (1 ≤ c.level))
    && (!c.trig || ((nodes[c.dst]?.map NodeE.kind) == some 0 && !ext c.dst && decide (c.sticky ≤ 1)))

/-- No two elements of a list are equal. -/
def allDistinct : List Nat → Bool
  | [] => true
  | a :: r => !r.contains a && allDistinct r

/-- No two channels name one producer port, or one consumer port (R33). -/
def portsDistinct (cs : List ChanE) : Bool :=
  allDistinct ((cs.filter (fun c => c.src != extEnd)).map (fun c => c.src * 16 + c.oport)) &&
  allDistinct ((cs.filter (fun c => c.dst != extEnd)).map (fun c => c.dst * 16 + c.iport))

/-- Every task node has exactly one trigger channel (R33, R151). -/
def triggersOk (nodes : List NodeE) (cs : List ChanE) : Bool :=
  nodes.zipIdx.all (fun (e : NodeE × Nat) => e.1.kind != 0 || (cs.filter (fun c => c.trig && c.dst == e.2)).length == 1)

/-! ### Pounds and patterns (R81 to R83) -/

/-- A pattern header, its pound and its position in the object given (R82). -/
def readPattern (o : Obj) (sec4 : Section) (pound count off : Nat) : GM Pattern := do
  sound (sec4.holds off 32)
  let e ← o.entry pound off 32
  let nwords := bitsOf e 0 16
  let nspans := bitsOf e 16 16
  let words := bitsOf e 64 64
  let spans := bitsOf e 128 64
  sound (decide (1 ≤ nwords) && decide (nwords ≤ 4096) && decide (1 ≤ nspans) && bitsOf e 32 16 == pound && bitsOf e 48 16 == 0
    && words % 16 == 0 && spans % 8 == 0 && bitsOf e 192 64 == 0 && sec4.holds words (16 * nwords) && sec4.holds spans (8 * nspans))
  let es ← o.entries pound spans nspans 8
  sound (es.all (fun x => bitsOf x 48 16 == 0 && decide (bitsOf x 0 24 ≤ bitsOf x 24 24) && decide (bitsOf x 24 24 < count)))
  pure { nwords := nwords, words := words, spans := es.map (fun x => (bitsOf x 0 24, bitsOf x 24 24)) }

/-- The pattern headers of a pound. -/
def readPatterns (o : Obj) (sec4 : Section) (pound count : Nat) : Nat → Nat → GM (List Pattern)
  | 0, _ => pure []
  | n + 1, off => do
    let p ← readPattern o sec4 pound count off
    let ps ← readPatterns o sec4 pound count n (off + 32)
    pure (p :: ps)

/-- Whether a pattern's spans cover a locality position. -/
def Pattern.covers (p : Pattern) (q : Nat) : Bool := p.spans.any (fun s => decide (s.1 ≤ q) && decide (q ≤ s.2))

/-- How many spans of a pound cover a locality position, with the pattern of each. -/
def coversOf (ps : List Pattern) (q : Nat) : List Pattern :=
  ps.flatMap (fun p => (p.spans.filter (fun s => decide (s.1 ≤ q) && decide (q ≤ s.2))).map (fun _ => p))

/-- The nwords of a node of kind 0, 1, 3 or 4; of an address generator the check belongs to R224. -/
def nwordsOk (x : NodeE) (n : Nat) : Bool :=
  if x.kind = 0 then n == (x.code + 3) / 4 else if x.kind = 2 then true else n == 1

/-- A node stands right in its pound (R83). -/
def poundNodeOk (sec4 : Section) (nodes : List NodeE) (ps : List Pattern) (q n : Nat) : Bool :=
  match nodes[n]? with
  | none => false
  | some x =>
    let cs := coversOf ps q
    if x.kind = 5 then cs.isEmpty && x.body % 16 == 0 && sec4.holds x.body 16
    else match cs with
      | [p] => x.body == p.words && nwordsOk x p.nwords
      | _ => false

/-- The kinds and code fields of the nodes under a pattern are one (R82, R83). -/
def patternUniform (nodes : List NodeE) (loc : List Nat) (p : Pattern) : Bool :=
  let under := (loc.zipIdx.filter (fun (e : Nat × Nat) => p.covers e.2)).map (fun (e : Nat × Nat) =>
    match nodes[e.1]? with
    | some x => (x.kind, x.code)
    | none => (255, 0))
  match under with
  | [] => true
  | a :: r => r.all (fun b => b == a)

/-- A pound-table entry with its locality list and patterns, checked (R81 to R83). -/
def readPound (o : Obj) (sec3 sec4 : Section) (nodes : List NodeE) (k e : Nat) : GM PoundE := do
  let count := bitsOf e 0 24
  let jmin := bitsOf e 24 4
  let jmax := bitsOf e 28 4
  let loclist := bitsOf e 64 64
  let patlist := bitsOf e 128 64
  let npat := bitsOf e 192 32
  sound (decide (1 ≤ count) && decide (jmin ≤ 11) && decide (jmin ≤ jmax) && decide (jmax ≤ 11) && bitsOf e 32 32 == 0
    && loclist % 4 == 0 && patlist % 32 == 0 && decide (1 ≤ npat) && decide (npat ≤ 16777215) && bitsOf e 224 32 == 0
    && sec3.holds loclist (4 * count))
  let ls ← o.entries k loclist count 4
  let loc := ls.map (fun x => bitsOf x 0 24)
  sound (ls.all (fun x => bitsOf x 24 8 == 0))
  sound (allDistinct loc && loc.all (fun n => poundAt nodes n == some k)
    && loc.length == (nodes.filter (fun x => x.pound == k)).length)
  let ps ← readPatterns o sec4 k count npat (sec4.off + patlist)
  sound (loc.zipIdx.all (fun (e : Nat × Nat) => poundNodeOk sec4 nodes ps e.2 e.1))
  sound (ps.all (patternUniform nodes loc))
  pure { jmin := jmin, jmax := jmax, loc := loc, pats := ps }

/-- The pounds, from number `k` on. -/
def readPounds (o : Obj) (sec3 sec4 : Section) (nodes : List NodeE) : Nat → List Nat → GM (List PoundE)
  | _, [] => pure []
  | k, e :: es => do
    let p ← readPound o sec3 sec4 nodes k e
    let ps ← readPounds o sec3 sec4 nodes (k + 1) es
    pure (p :: ps)

/-- The exponent range `J` (R84): from the largest jmin to the smallest jmax. -/
def jRange (ps : List PoundE) : Nat × Nat := (ps.foldl (fun m p => max m p.jmin) 0, ps.foldl (fun m p => min m p.jmax) 11)

/-! ### Format blocks (R127) -/

/-- The values of `n` fields of 32 bits from bit `lo`. -/
def fields32 (b lo n : Nat) : Vector W32 n := Vector.ofFn (fun i => BitVec.ofNat 32 (bitsOf b (lo + 32 * i.val) 32))

/-- The format table and scales of a block. -/
def blockFmt (b : Nat) : Fmt :=
  { ins := fields32 b 64 16, outs := fields32 b 576 16, scl := fields32 b 1088 8, sclkind := BitVec.ofNat 8 (bitsOf b 1344 8) }

/-- Blocks in rising node order, each of a node of kinds 0 to 4, with no Reserved bit set (R126, R127). -/
def blocksOk (nodes : List NodeE) : Option Nat → List Nat → Bool
  | _, [] => true
  | last, b :: r =>
    let n := bitsOf b 0 24
    let f := blockFmt b
    (match last with | some m => decide (m < n) | none => true)
      && (match nodes[n]? with | some x => decide (x.kind ≤ 4) | none => false)
      && bitsOf b 24 40 == 0 && bitsOf b 1352 184 == 0
      && (List.range 8).all (fun m => !bitOf f.sclkind.toNat m || bitsOf (f.scl[m]?.getD 0).toNat 8 24 == 0)
      && blocksOk nodes (some n) r

/-! ### Windows (R291) -/

/-- An accumulate-window descriptor. -/
def winOf (e : Nat) : WinE :=
  { wid := bitsOf e 0 6, isLocal := bitOf e 6, init := bitOf e 7, rofmt := bitsOf e 8 2, warg := bitOf e 10, rarg := bitOf e 11,
    e0 := sextInt (bitsOf e 16 16) 16, quota := bitsOf e 32 8, count := bitsOf e 40 24, wbase := bitsOf e 64 64,
    robase := bitsOf e 128 64, pound := bitsOf e 192 16, cfirst := bitsOf e 208 24, clast := bitsOf e 232 24 }

/-- A device-local canonical address (R259). -/
def deviceAddr (a : Nat) : Bool := canonical a && isDevice a

/-- A value of the argument block. -/
def argAt (args : List Byte) (off : Nat) : Nat := leNat ((args.drop off).take 8)

/-- A window descriptor obeys R291. -/
def winOk (nodes : List NodeE) (pounds : List PoundE) (words : Map (List Nat)) (args : List Byte) (e : Nat) : Bool :=
  let w := winOf e
  let wb := if w.warg then argAt args (w.wbase % 65536) else w.wbase
  let rb := if w.rarg then argAt args (w.robase % 65536) else w.robase
  let holders := nodes.zipIdx.filter (fun (x : NodeE × Nat) => x.1.kind == 5 && x.1.pound == w.pound &&
    (match (words.get? x.2).bind List.head? with
      | some c => bitsOf c 120 8 == 0x60 && bitsOf c 114 6 == w.wid
      | none => false))
  w.rofmt != 3 && bitsOf e 12 4 == 0 && decide (1 ≤ w.count) && deviceAddr wb && wb % 256 == 0
    && (if w.rofmt = 0 then w.robase == 0 else deviceAddr rb && rb % (if w.rofmt = 1 then 4 else 2) == 0)
    && decide (w.cfirst ≤ w.clast)
    && (match pounds[w.pound]? with | some p => decide (w.clast < p.loc.length) | none => false)
    && (!w.isLocal || holders.length == 1)

/-! ### Combine trees (R311, R312) -/

/-- How many children fill a slot of entry `k`: internal entries but the root, and leaves. -/
def slotFills (ints leaves : List (Nat × Nat × Nat)) (k slot : Nat) : Nat :=
  ((ints.drop 1).filter (fun x => x.1 == k && x.2.1 == slot)).length
    + (leaves.filter (fun x => x.2.1 == k && x.2.2 == slot)).length

/-- Whether entry `k` climbs to entry 0 in at most `fuel` steps. -/
def climbs (ints : List (Nat × Nat × Nat)) : Nat → Nat → Bool
  | 0, k => k == 0
  | fuel + 1, k => k == 0 || (match ints[k]? with | some (p, _, _) => climbs ints fuel p | none => false)

/-- The entries of a tree obey R312. -/
def treeOk (nodes : List NodeE) (chans : List ChanE) (h : Nat) (is ls : List Nat) (x : TreeE) : Bool :=
  let nint := x.ints.length
  let pounds := x.leaves.map (fun l => poundAt nodes l.1)
  (x.fmt == 0x05 || x.fmt == 0x06 || x.fmt == 0x07 || x.fmt == 0x10) && decide (x.op ≤ 2) && bitsOf h 27 5 == 0
    && bitsOf h 70 2 == 0 && bitsOf h 76 20 == 0 && bitsOf h 120 8 == 0 && decide (1 ≤ x.ulen)
    && is.all (fun e => bitsOf e 16 48 == 0 && decide (1 ≤ bitsOf e 14 2)) && ls.all (fun e => bitsOf e 38 26 == 0)
    && x.ints.zipIdx.all (fun (e : (Nat × Nat × Nat) × Nat) => if e.2 = 0 then e.1.1 == 0xFFF else decide (e.1.1 < nint))
    && x.leaves.all (fun l => decide (l.2.1 < nint) && (match nodes[l.1]? with | some n => decide (n.kind ≤ 1) | none => false))
    && x.ints.zipIdx.all (fun (e : (Nat × Nat × Nat) × Nat) =>
        (List.range 4).all (fun s => slotFills x.ints x.leaves e.2 s == (if s < e.1.2.2 then 1 else 0)))
    && (List.range nint).all (climbs x.ints nint)
    && (match pounds with | [] => false | p :: r => r.all (fun q => q == p))
    && (match chans[x.rchan]? with
      | some c => c.src == extEnd && c.dst != extEnd && some (poundAt nodes c.dst) == pounds.head?
      | none => false)

/-- The trees of section 7, one behind the other, at most `fuel` of them. -/
def readTrees (o : Obj) (sec7 : Section) (nodes : List NodeE) (chans : List ChanE) : Nat → Nat → GM (List TreeE)
  | 0, _ => pure []
  | fuel + 1, off =>
    if sec7.off + sec7.size ≤ off then pure []
    else do
      sound (sec7.holds off 16)
      let h ← o.entry noPound off 16
      let nleaf := bitsOf h 32 16
      let nint := bitsOf h 48 16
      sound (decide (2 ≤ nleaf) && decide (nleaf ≤ 4096) && decide (1 ≤ nint) && decide (nint ≤ 4095)
        && sec7.holds (off + 16) (8 * (nint + nleaf)))
      let is ← o.entries noPound (off + 16) nint 8
      let ls ← o.entries noPound (off + 16 + 8 * nint) nleaf 8
      let x : TreeE := {
        tree := bitsOf h 0 16, fmt := bitsOf h 16 8, op := bitsOf h 24 2, ord := bitOf h 26, ulen := bitsOf h 64 6,
        texp := bitsOf h 72 4, rchan := bitsOf h 96 24
        ints := is.map (fun e => (bitsOf e 0 12, bitsOf e 12 2, bitsOf e 14 2 + 1))
        leaves := ls.map (fun e => (bitsOf e 0 24, bitsOf e 24 12, bitsOf e 36 2)) }
      sound (treeOk nodes chans h is ls x)
      let r ← readTrees o sec7 nodes chans fuel (off + 16 + 8 * (nint + nleaf))
      pure (x :: r)

/-! ### Relocations (R145, R146) -/

/-- A relocation entry. -/
def relocOf (e : Nat) : Reloc :=
  { node := bitsOf e 0 24, kind := bitsOf e 24 8, word := bitsOf e 32 16, lo := bitsOf e 48 7, width := bitsOf e 55 7,
    symbol := bitsOf e 64 24, addend := sextInt (bitsOf e 96 32) 32 }

/-- The configuration words of a node of a graph, from its pattern (R82). -/
def wordsOfNode (pounds : List PoundE) (x : NodeE) (n : Nat) : Nat :=
  if x.kind = 5 then 1
  else match pounds[x.pound]? with
    | none => 0
    | some p => match coversOf p.pats (p.loc.idxOf n) with
      | q :: _ => q.nwords
      | [] => 0

/-- A relocation entry obeys R145 and R146. -/
def relocOk (nodes : List NodeE) (chans : List ChanE) (pounds : List PoundE) (e : Nat) : Bool :=
  let r := relocOf e
  let kindOf (n : Nat) : Nat := (nodes[n]?.map NodeE.kind).getD 255
  let symPound := if r.kind = 2 then
      match chans[r.symbol]? with
      | some c => poundAt nodes (if c.src = extEnd then c.dst else c.src)
      | none => none
    else poundAt nodes r.symbol
  (match nodes[r.node]? with
    | some x => decide (r.word < wordsOfNode pounds x r.node)
        && (x.kind != 0 || r.lo / 32 == (r.lo + r.width - 1) / 32) && symPound == some x.pound
    | none => false)
    && (match r.kind with
      | 1 => decide (kindOf r.symbol ≤ 4)
      | 2 => true
      | 3 => decide (kindOf r.symbol ≤ 3)
      | 4 => kindOf r.symbol == 5
      | _ => false)
    && decide (1 ≤ r.width) && decide (r.width ≤ 32) && decide (r.lo + r.width ≤ 128) && bitsOf e 62 2 == 0 && bitsOf e 88 8 == 0

/-! ### The object as a whole -/

/-- The words of the slice objects, by node. -/
def readSliceWords (o : Obj) : List (NodeE × Nat) → GM (Map (List Nat))
  | [] => pure []
  | (x, n) :: r => do
    let m ← readSliceWords o r
    if x.kind = 5 then
      let w ← o.entry x.pound x.body 16
      pure (m.set n [w])
    else pure m

/-- Format blocks by node. -/
def blockMap (bs : List Nat) : Map Fmt := bs.foldl (fun m b => m.set (bitsOf b 0 24) (blockFmt b)) []

/-- The byte offsets of format blocks by node, from that of the first. -/
def blockOffsets (off : Nat) (bs : List Nat) : Map Nat :=
  bs.zipIdx.foldl (fun m (e : Nat × Nat) => m.set (bitsOf e.1 0 24) (off + 192 * e.2)) []

/-- The header of an object: its pages are read as the command starts (R58). -/
def readHeader (s : State) (l : Layer) (pasid addr : Nat) : GM Nat := do
  if addr % 64 ≠ 0 then .error (.reject stBadAddress 0 0)
  else
    match hostRange s l pasid addr 64 false with
    | .ok parts => pure (leNat (readParts s parts))
    | .wait => .error .wait
    | .ask va => .error (.ask va)
    | .bad va => .error (.reject stBadAddress (va - addr) 0)

/-- Stage 2 of R420: the object read and checked. -/
def readGraph (s : State) (l : Layer) (pasid addr : Nat) (args : List Byte) (h : Nat) : GM Graph := do
  sound (headerOk h)
  let o : Obj := { s := s, l := l, pasid := pasid, addr := addr, size := bitsOf h 320 64 }
  let xs ← readSections o h
  let sec (k : Nat) : Section := sectionAt xs k
  let ne ← o.entries noPound (sec 1).off (bitsOf h 64 32) 32
  sound (ne.zipIdx.all (fun (e : Nat × Nat) => nodeOk (bitsOf h 128 16) e.2 e.1))
  let nodes := ne.map nodeOf
  let ce ← o.entries noPound (sec 2).off (bitsOf h 96 32) 32
  sound (ce.zipIdx.all (fun (e : Nat × Nat) => chanOk nodes e.2 e.1))
  let chans := ce.map chanOf
  sound (portsDistinct chans && triggersOk nodes chans)
  let pe ← o.entries noPound (sec 3).off (bitsOf h 128 16) 32
  let pounds ← readPounds o (sec 3) (sec 4) nodes 0 pe
  sound (decide ((jRange pounds).1 ≤ (jRange pounds).2))
  let words ← readSliceWords o nodes.zipIdx
  let bs ← o.entries noPound (sec 12).off ((sec 12).size / 192) 192
  sound (blocksOk nodes none bs)
  let ws ← o.entries noPound (sec 8).off ((sec 8).size / 32) 32
  sound (ws.all (winOk nodes pounds words args) && allDistinct (ws.map (fun e => (winOf e).wid)))
  let trees ← readTrees o (sec 7) nodes chans ((sec 7).size / 16 + 1) (sec 7).off
  sound (allDistinct (trees.map TreeE.tree))
  let rs ← o.entries noPound (sec 9).off ((sec 9).size / 16) 16
  sound (rs.all (relocOk nodes chans pounds))
  let passage ← o.entries noPound (sec 6).off ((sec 6).size / 4) 4
  let argSize ← if (sec 10).size = 8 then o.entry noPound (sec 10).off 8 else pure 0
  sound (decide (argSize ≤ 65536))
  pure {
    size := o.size, det := bitOf h 48, cands := bitsOf h 144 8, segmax := bitsOf h 160 32, nodes := nodes, chans := chans,
    pounds := pounds, passage := passage.map (BitVec.ofNat 32), trees := trees, wins := ws.map winOf, relocs := rs.map relocOf,
    argSize := argSize, fmts := blockMap bs,
    blocks := blockOffsets (sec 12).off bs, cfg := words }

end Sys2Proof.Machine
end

