-- ==== Sys2Proof/Machine/Check.lean ====
section
/-! DEFINITION. Gykan's admission checks after the object's own form (R420, stages 3 to 7): partitions, operator, matrix and
format-table words (R125, R139 to R141, R204 to R230, R238 to R241, R251, R252, R256, R291, R303, R317), the det claim (R55), the passage program
(R143, R352 to R360) and the argument block (R233, R419). -/

namespace Sys2Proof.Machine

/-! ### Formats -/

/-- An integer format. -/
def isIntFmt (f : Nat) : Bool := decide (1 ≤ f) && decide (f ≤ 7)
/-- A floating-point format of the arithmetic operators (R210). -/
def isFltFmt (f : Nat) : Bool := decide (0x10 ≤ f) && decide (f ≤ 0x12)

/-- A format table from its entries. -/
def fmtTable (ins outs : List Nat) : Fmt :=
  { Fmt.zero with
    ins := Vector.ofFn (fun i => BitVec.ofNat 32 (ins[i.val]?.getD 0))
    outs := Vector.ofFn (fun i => BitVec.ofNat 32 (outs[i.val]?.getD 0)) }

/-- The format table of a node that declares no block, by its kind and its first configuration word (R127). -/
def defaultFmt (kind w : Nat) : Fmt :=
  let code := wOp w
  let f := wFmt w
  if kind = 4 then
    if 9 ≤ code then
      let i := if code = 0x0A then bitsOf w 104 8 else 0
      fmtTable [f, i] [f, i]
    else fmtTable [f, bitsOf w 104 8] [0x10 + bitsOf w 98 2]
  else if kind = 1 then
    if code ≤ 0x0F then fmtTable [f, f, f] [f]
    else if code ≤ 0x22 then fmtTable [f] [wSub w]
    else if code = 0x38 then fmtTable [f] []
    else if code = 0x39 then fmtTable [f, f] [f, f]
    else if code = 0x3C then fmtTable [] [f]
    else Fmt.zero
  else if kind = 2 then
    let mode := bitsOf w 110 2
    fmtTable [0, if code = 0x42 then 0x06 else if mode = 1 then f else 0] [if mode = 2 then 0 else f]
  else Fmt.zero

/-- A format-table entry obeys R125. -/
def entryOk (e : W32) : Bool := fmtKnown (e.toNat % 256) && bitsOf e.toNat 12 20 == 0

/-- The format of an entry. -/
def entryFmt (e : W32) : Nat := e.toNat % 256

/-! ### Ports (R204) -/

/-- The ports an operator, generator, controller, matrix or slice word uses: inputs it requires, inputs it may have, outputs it requires,
outputs it may have (R210, R213, R225, R227, R241, R307). -/
def portsOf (kind w : Nat) : List Nat × List Nat × List Nat × List Nat :=
  let code := wOp w
  let n := bitsOf w 96 4 + 1
  if kind = 4 then
    if code = 0x09 then ([0], [], [0], []) else if code = 0x0A then ([0], [1], [0, 1], []) else ([0, 1], [], [0], [])
  else if kind = 5 then if code = 0x61 then ([], [], [], List.range 16) else ([], [], [], [])
  else if kind = 3 then
    let c := List.range (bitsOf w 116 4 + 1)
    if bitOf w 108 then (c, [], c, []) else (c ++ [15], [], c ++ [15], [])
  else if kind = 2 then
    if code = 0x42 ∨ bitsOf w 110 2 = 1 then ([0, 1], [], [0], []) else ([0], [], [0], [])
  else match code with
    | 0x04 | 0x0B => (if wKy w then [0, 2] else [0, 1, 2], [], [0], [])
    | 0x07 | 0x08 | 0x09 | 0x20 | 0x21 | 0x22 | 0x35 | 0x36 | 0x37 | 0x3C | 0x3E => ([0], [], [0], [])
    | 0x30 => ([0], [], List.range n, [])
    | 0x31 | 0x39 => ([0, 1], [], [0, 1], [])
    | 0x32 => ([0, 1, 2], [], [0], [])
    | 0x33 | 0x3B => ([0, 1], [], [0], [])
    | 0x34 => (List.range n, [], [0], [])
    | 0x38 | 0x3D => ([0], [], [], [])
    | 0x3A => ([0, 1], [], [0, 1, 2], [])
    | _ => (if wKy w then [0] else [0, 1], [], [0], [])

/-- The input ports of a node that have a channel. -/
def boundIns (g : Graph) (n : Nat) : List Nat := (g.chans.filter (fun c => c.dst == n)).map ChanE.iport
/-- The output ports of a node that have a channel. -/
def boundOuts (g : Graph) (n : Nat) : List Nat := (g.chans.filter (fun c => c.src == n)).map ChanE.oport

/-- The width of the channel at an input port, or at an output port. -/
def inWidth (g : Graph) (n p : Nat) : Nat := ((g.chans.find? (fun c => c.dst == n && c.iport == p)).map ChanE.width).getD 0
/-- The width of the channel at an output port. -/
def outWidth (g : Graph) (n p : Nat) : Nat := ((g.chans.find? (fun c => c.src == n && c.oport == p)).map ChanE.width).getD 0

/-- The port rule (R204). -/
def portsOk (g : Graph) (n kind w : Nat) : Bool :=
  let (ri, oi, ro, oo) := portsOf kind w
  let is := boundIns g n
  let os := boundOuts g n
  ri.all is.contains && is.all (fun p => ri.contains p || oi.contains p) && ro.all os.contains
    && os.all (fun p => ro.contains p || oo.contains p)

/-! ### Operator words (R139, R209 to R223, R230) -/

/-- Whether the fields given as (lowest bit, width) are all 0. -/
def zeroFields (w : Nat) (fs : List (Nat × Nat)) : Bool := fs.all (fun f => bitsOf w f.1 f.2 == 0)

/-- Codes 0x01 to 0x0F (R209 to R211). For the select, whose formats R210 gives as any width and Raw, the MX codes and `aw128` are not taken
(DESIGN CHOICE, assumption 80). Whether bcy is a field that the operator does not use where ky gives it a constant, R209 does not say; the model's
choice is that either value stands (DESIGN CHOICE, assumption 99). -/
def arithWordOk (w : Nat) : Bool :=
  let code := wOp w
  let f := wFmt w
  let sub := wSub w
  let rm := bitsOf w 109 3
  let flt := isFltFmt f
  let hasY := code != 0x07 && code != 0x08 && code != 0x09
  let fmtOk := match code with
    | 0x09 => flt
    | 0x0B => decide (f ≤ 7) || (decide (0x10 ≤ f) && decide (f ≤ 0x14)) || f == 0x20
    | 0x0C | 0x0D | 0x0E => decide (f ≤ 7)
    | 0x0F => isIntFmt f
    | _ => isIntFmt f || flt
  let subOk := match code with
    | 0x04 => decide (sub ≤ 2)
    | 0x09 => decide (sub ≤ 7)
    | 0x0A => decide (sub ≤ 2) || (sub == 3 && flt)
    | 0x0F => decide (sub ≤ 2)
    | _ => sub == 0
  let clamps := code == 0x01 || code == 0x02 || code == 0x03 || code == 0x04 || code == 0x07 || code == 0x08
  let rounds := flt && code != 0x0A && code != 0x0B
  fmtOk && subOk && decide (rm ≤ 5) && (rm == 0 || rounds) && (!wSat w || rounds || (isIntFmt f && clamps))
    && (!wSc w || (flt && code != 0x0B)) && (!wKy w || (hasY && decide (fmtBits f ≤ 32))) && (!wBcy w || hasY)
    && (wKy w || wKval w == 0) && zeroFields w [(104, 1), (64, 32)]

/-- Codes 0x20 to 0x22 (R209, R212). -/
def convertWordOk (w : Nat) : Bool :=
  let code := wOp w
  let f := wFmt w
  let d := wSub w
  let rm := bitsOf w 109 3
  let plain (x : Nat) : Bool := isIntFmt x || (decide (0x10 ≤ x) && decide (x ≤ 0x14)) || x == 0x20
  let mx (x : Nat) : Bool := decide (0x18 ≤ x) && decide (x ≤ 0x1B)
  (match code with
    | 0x20 => plain f && plain d && !(isIntFmt f && isIntFmt d && rm != 0) && !(isIntFmt f && wSc w)
    | 0x21 => decide (0x10 ≤ f) && decide (f ≤ 0x14) && mx d
    | _ => mx f && isFltFmt d)
    && decide (rm ≤ 5) && zeroFields w [(104, 3), (64, 32), (0, 32)]

/-- The tree that a word or a leaf names. -/
def Graph.tree? (g : Graph) (tree : Nat) : Option TreeE := g.trees.find? (fun x => x.tree == tree)

/-- Codes 0x30 to 0x3E (R213, R219, R317). -/
def streamWordOk (g : Graph) (n w : Nat) : Bool :=
  match wOp w with
  | 0x30 | 0x34 => decide (1 ≤ bitsOf w 96 4) && zeroFields w [(100, 20), (0, 96)]
  | 0x31 | 0x3B => zeroFields w [(98, 22), (0, 96)]
  | 0x32 | 0x33 | 0x3A | 0x3D => zeroFields w [(0, 120)]
  | 0x35 => zeroFields w [(112, 8), (0, 79)]
  | 0x36 => zeroFields w [(102, 18), (0, 79)] && decide ((bitsOf w 96 6 + 1) * (inWidth g n 0 + 1) * 8 ≤ 16384)
  | 0x37 =>
    let ev := bitsOf w 96 2
    let level := bitsOf w 100 4
    decide (ev ≤ 2) && (if ev = 1 then decide (1 ≤ level) && decide (level ≤ 8) else level == 0) && decide (1 ≤ bitsOf w 88 8)
      && zeroFields w [(98, 2), (104, 16), (64, 24), (0, 32)]
  | 0x38 =>
    zeroFields w [(99, 13), (0, 64)] && (match g.tree? (bitsOf w 80 16) with
      | some x => x.fmt == wFmt w && x.op == bitsOf w 96 2 && x.ord == bitOf w 98
          && ((x.leaves[bitsOf w 64 16]?).map Prod.fst) == some n
      | none => false)
  | 0x39 => (isIntFmt (wFmt w) || isFltFmt (wFmt w)) && zeroFields w [(97, 15), (0, 96)]
  | 0x3C =>
    let f := wFmt w
    fmtKnown f && !(decide (0x18 ≤ f) && decide (f ≤ 0x1B)) && f != 0x30 && zeroFields w [(64, 48)]
  | _ => decide (1 ≤ bitsOf w 96 16) && decide (bitsOf w 92 4 ≤ 8) && zeroFields w [(112, 8), (0, 92)]

/-- A loop level of a generator (R224): `k` of `l` levels. -/
def levelOk (b l k e : Nat) : Bool :=
  let count := bitsOf e 0 24
  let stride := sextInt (bitsOf e 24 40) 40
  decide (1 ≤ count) && decide (stride % ((b / 8 : Nat) : Int) = 0) && (decide (k < l) || (count == 1 && decide (stride = 0)))

/-- The words of an address generator (R224). -/
def genWordsOk (g : Graph) (n : Nat) (ws : List Nat) : Bool :=
  match ws with
  | [w, w1, w2] =>
    let code := wOp w
    let f := wFmt w
    let mode := bitsOf w 110 2
    let lev := bitsOf w 108 2
    let levels := [bitsOf w1 0 64, bitsOf w1 64 64, bitsOf w2 0 64, bitsOf w2 64 64]
    let u := ceilDiv (bitsOf w1 0 24 * fmtBits f) 64
    (decide (f ≤ 7) || (decide (0x10 ≤ f) && decide (f ≤ 0x14)) || f == 0x20) && decide (mode ≤ 2)
      && !(code == 0x42 && (mode == 1 || lev != 0)) && !(bitOf w 106 && mode == 1) && zeroFields w [(0, 106)]
      && levels.zipIdx.all (fun (e : Nat × Nat) => levelOk (fmtBits f) (lev + 1) e.2 e.1)
      && decide (u ≤ outWidth g n 0) && !(mode == 1 && decide (inWidth g n 1 < u))
  | _ => false

/-- The roots among the controllers of a pound (R227). -/
def rootsOf (g : Graph) (words : Map (List Nat)) (pound : Nat) : Nat :=
  (g.nodes.zipIdx.filter (fun (e : NodeE × Nat) => e.1.kind == 3 && e.1.pound == pound
    && bitOf (((words.get? e.2).bind List.head?).getD 0) 108)).length

/-- A controller's word (R227). -/
def ctrlWordOk (g : Graph) (words : Map (List Nat)) (pound w : Nat) : Bool :=
  let code := wOp w
  decide (bitsOf w 116 4 ≤ 14) && (code == 0x51 || (bitsOf w 110 6 == 0 && !bitOf w 109)) && zeroFields w [(96, 12), (0, 72)]
    && decide (1 ≤ bitsOf w 72 24) && (code != 0x52 || bitsOf w 72 24 == 1) && rootsOf g words pound == 1

/-- A slice object's word (R229, R291, R303). -/
def sliceWordOk (g : Graph) (words : Map (List Nat)) (n pound w : Nat) : Bool :=
  match wOp w with
  | 0x60 => zeroFields w [(0, 114)] && g.wins.any (fun x => x.isLocal && x.wid == bitsOf w 114 6 && x.pound == pound)
  | 0x61 =>
    let ga := bitsOf w 0 57
    zeroFields w [(57, 35), (112, 1)] && decide (1 ≤ bitsOf w 96 16) && (ga == 0 || (isDevice ga && ga % 16 == 0))
      && (bitOf w 113 || ga != 0)
      && g.nodes.zipIdx.all (fun (e : NodeE × Nat) => e.2 == n || e.1.kind != 5 ||
          (match (words.get? e.2).bind List.head? with
            | some v => wOp v != 0x61 || bitsOf v 114 6 != bitsOf w 114 6
            | none => true))
  | _ =>
    zeroFields w [(0, 80), (104, 15)] && (match g.chans[bitsOf w 80 24]? with
      | some c => if bitOf w 119 then c.dst == extEnd else c.src == extEnd
      | none => false)

/-! ### Matrix words (R141, R238 to R241, R251, R252, R256) -/

/-- The activation and weight formats of a form (R239). -/
def formFmtsOk (form a b : Nat) : Bool :=
  let mx (x : Nat) : Bool := decide (0x18 ≤ x) && decide (x ≤ 0x1B)
  let fp8 (x : Nat) : Bool := x == 0x13 || x == 0x14
  match form with
  | 1 => a == 0x11 && b == 0x11
  | 2 => a == 0x12 && b == 0x12
  | 3 => a == 0x13 && fp8 b
  | 4 => a == 0x14 && fp8 b
  | 5 => mx a && mx b
  | 6 => (a == 1 || a == 2 || fp8 a) && b == 0x20
  | 7 => a == 0x11 && b == 0x20
  | _ => false

/-- A multiply form's word (R238 to R241). -/
def mulWordOk (g : Graph) (n w : Nat) (f : Fmt) : Bool :=
  let mode := wOp w
  let var := bitsOf w 100 4
  let form := if mode = 8 then var else mode
  let a := bitsOf w 112 8
  let b := bitsOf w 104 8
  let k := bitsOf w 72 16
  let nn := bitsOf w 64 8 + 1
  let m := bitsOf w 48 16
  let p := bitsOf w 32 16
  let ua := matUnits a k
  let uw := matUnits b k
  let bo := fmtBits (0x10 + bitsOf w 98 2)
  (if mode = 8 then decide (1 ≤ var) && decide (var ≤ 5) else var == 0) && formFmtsOk form a b && decide (bitsOf w 98 2 ≤ 2)
    && decide (bitsOf w 94 2 ≤ 2) && decide (bitsOf w 92 2 ≤ 2) && zeroFields w [(88, 3), (0, 32)] && decide (1 ≤ k)
    && decide (k ≤ 16384) && decide (1 ≤ m) && decide (m ≤ 16384) && decide (1 ≤ p) && (!bitOf w 91 || p == 1)
    && [a, b].all (fun x => k % (64 / fmtBits x) == 0 && (!isMxFmt x || k % 32 == 0))
    && decide (ua ≤ inWidth g n 0) && decide (uw ≤ inWidth g n 1)
    && decide (nn * uw * 8 * 2 ^ bitsOf w 94 2 ≤ 131072) && decide (ua * 8 * 2 ^ bitsOf w 92 2 ≤ 65536) && decide (m * nn ≤ 16384)
    && decide (ceilDiv (nn * bo) 64 ≤ outWidth g n 0)
    && entryFmt (f.ins[0]) == a && entryFmt (f.ins[1]) == b && entryFmt (f.outs[0]) == 0x10 + bitsOf w 98 2

/-- A sort form's word (R251, R252); its entries for `i0`, `i1` and `o0` hold the configuration's formats, the one for `i1` of 0x09 Raw (R127,
R241, R256). -/
def sortWordOk (g : Graph) (n w : Nat) (f : Fmt) : Bool :=
  let k := bitsOf w 112 8
  let i := bitsOf w 104 8
  let top := bitsOf w 97 6
  let tokens := (boundIns g n).contains 1
  ((decide (3 ≤ k) && decide (k ≤ 6)) || isFltFmt k) && decide (1 ≤ top) && decide (top ≤ 32) && zeroFields w [(0, 97)]
    && entryFmt (f.ins[0]) == k && entryFmt (f.outs[0]) == k
    && entryFmt (f.ins[1]) == i
    && (if wOp w = 9 then i == 0 else (i == 4 || i == 6) && (tokens || i == 4) && entryFmt (f.outs[1]) == i)

/-- A matrix node's word; the exact-dot form needs its capability (R141). -/
def matWordOk (g : Graph) (caps : W64) (n w : Nat) (f : Fmt) : Bool :=
  let mode := wOp w
  decide (1 ≤ mode) && decide (mode ≤ 0x0A) && (mode != 8 || bitOf caps.toNat 3)
    && (if 9 ≤ mode then sortWordOk g n w f else mulWordOk g n w f)

/-- Whether a code is one of a node kind (R140). -/
def codeOfKind (kind code : Nat) : Bool :=
  match kind with
  | 1 => (decide (1 ≤ code) && decide (code ≤ 0x0F)) || (decide (0x20 ≤ code) && decide (code ≤ 0x22))
      || (decide (0x30 ≤ code) && decide (code ≤ 0x3E))
  | 2 => decide (0x40 ≤ code) && decide (code ≤ 0x42)
  | 3 => decide (0x50 ≤ code) && decide (code ≤ 0x52)
  | 4 => true
  | 5 => decide (0x60 ≤ code) && decide (code ≤ 0x62)
  | _ => false

/-- The format table a node runs with (R127). -/
def fmtFor (g : Graph) (n kind w : Nat) : Fmt := (g.fmts.get? n).getD (defaultFmt kind w)

/-- Stage 4 of R420 for one node. -/
def nodeWordOk (g : Graph) (words : Map (List Nat)) (caps : W64) (n : Nat) (x : NodeE) : Bool :=
  let ws := (words.get? n).getD []
  let w := ws.head?.getD 0
  let f := fmtFor g n x.kind w
  f.ins.toList.all entryOk && f.outs.toList.all entryOk &&
  (x.kind == 0 || (codeOfKind x.kind (wOp w) && portsOk g n x.kind w &&
    (match x.kind with
      | 1 => if wOp w ≤ 0x0F then arithWordOk w else if wOp w ≤ 0x22 then convertWordOk w else streamWordOk g n w
      | 2 => genWordsOk g n ws
      | 3 => ctrlWordOk g words x.pound w
      | 4 => matWordOk g caps n w f
      | _ => sliceWordOk g words n x.pound w)))

/-- The configuration words of the nodes of kinds 1 to 4 read beside those of the slice objects. -/
def readWords (o : Obj) (pounds : List PoundE) : List (NodeE × Nat) → Map (List Nat) → GM (Map (List Nat))
  | [], m => pure m
  | (x, n) :: r, m =>
    if x.kind = 0 ∨ x.kind = 5 then readWords o pounds r m
    else do
      let ws ← o.entries x.pound x.body (wordsOfNode pounds x n) 16
      readWords o pounds r (m.set n ws)

/-- The detail that names a node and its pound (R66). -/
def nodeDetail (n pound : Nat) : Nat := n % 2 ^ 24 + pound % 2 ^ 16 * 2 ^ 24

/-- The lowest node that a check fails for. -/
def firstBad (nodes : List NodeE) (ok : Nat → NodeE → Bool) : Option (NodeE × Nat) :=
  nodes.zipIdx.find? (fun (e : NodeE × Nat) => !ok e.2 e.1)

/-- Stages 3 to 5 of R420; what is left is the graph with its words and format tables. -/
def checkNodes (s : State) (l : Layer) (pasid addr : Nat) (g : Graph) : GM Graph := do
  match firstBad g.nodes (fun _ x => x.kind != 0 || decide (x.bank * 256 + x.code * 4 ≤ 65536)) with
  | some (_, n) => .error (.reject cNofitBank n n)
  | none => pure ()
  let o : Obj := { s := s, l := l, pasid := pasid, addr := addr, size := g.size }
  let words ← readWords o g.pounds g.nodes.zipIdx g.cfg
  match firstBad g.nodes (nodeWordOk g words s.dawn.caps) with
  | some (x, n) => .error (.reject cBadOperator 0 (nodeDetail n x.pound))
  | none => pure ()
  let leafOrd (n : Nat) : Bool := g.trees.any (fun x => x.ord && x.leaves.any (fun l => l.1 == n))
  let claims (n : Nat) (x : NodeE) : Bool :=
    let w := ((words.get? n).bind List.head?).getD 0
    bitsOf x.cls 0 6 == 0 && !leafOrd n && !(x.kind == 1 && (wOp w == 0x34 || (wOp w == 0x38 && bitOf w 98)))
  match (if g.det then firstBad g.nodes claims else none) with
  | some (_, n) => .error (.reject cDeterminism 0 n)
  | none => pure ()
  let fmts := g.nodes.zipIdx.foldl (fun (m : Map Fmt) (e : NodeE × Nat) =>
    if e.1.kind = 5 then m else m.set e.2 (fmtFor g e.2 e.1.kind (((words.get? e.2).bind List.head?).getD 0))) []
  pure { g with cfg := words, fmts := fmts }

/-! ### The passage program (R143, R352 to R360) -/

/-- The instructions of a program with their word indices, and the index of a word where there is none. -/
def passageInstrs : Nat → Nat → List W32 → List (Nat × Instr) × Option Nat
  | 0, _, _ => ([], none)
  | fuel + 1, k, ws =>
    if ws.isEmpty then ([], none)
    else match decodePassage ws with
      | some (i, n) =>
        let (r, bad) := passageInstrs fuel (k + n) (ws.drop n)
        ((k, i) :: r, bad)
      | none => ([], some k)

/-- Whether a channel has an external producer, or an external consumer. -/
def extSrc (g : Graph) (c : Nat) : Bool := (g.chans[c]?.map (fun e => e.src == extEnd)).getD false
/-- Whether a channel has an external consumer. -/
def extDst (g : Graph) (c : Nat) : Bool := (g.chans[c]?.map (fun e => e.dst == extEnd)).getD false

/-- The pound of a channel's inner end. -/
def Graph.chanPound (g : Graph) (e : ChanE) : Nat := (poundAt g.nodes (if e.dst = extEnd then e.src else e.dst)).getD noPound

/-- Whether the pound of a channel holds an agent for that end of it (R358). -/
def hasAgent (g : Graph) (c : Nat) : Bool :=
  match g.chans[c]? with
  | none => false
  | some e => g.nodes.zipIdx.any (fun (x : NodeE × Nat) => x.1.kind == 5 && x.1.pound == g.chanPound e &&
      (match (g.cfg.get? x.2).bind List.head? with
        | some w => wOp w == 0x62 && bitsOf w 80 24 == c && bitOf w 119 == (e.dst == extEnd)
        | none => false))

/-- The result channel of a tree. -/
def isResultChan (g : Graph) (c : Nat) : Bool := g.trees.any (fun x => x.rchan == c)

/-- The transform binds of a program: transform, channel, ratio. -/
def xfBinds (is : List (Nat × Instr)) : List (Nat × Nat × Nat × Nat) :=
  is.filterMap (fun (e : Nat × Instr) => match e.2 with
    | .bindXf c x a b => some (x.toNat, c.toNat, a.toNat, b.toNat)
    | _ => none)

/-- A transform bind agrees with the first bind of its transform, and its transform has both directions (R279, R358). -/
def xfOk (g : Graph) (all : List (Nat × Nat × Nat × Nat)) (x a b : Nat) : Bool :=
  let mine := all.filter (fun e => e.1 == x)
  (match mine with | e :: _ => e.2.2 == (a, b) | [] => true) && mine.any (fun e => extSrc g e.2.1) && mine.any (fun e => extDst g e.2.1)

/-- One instruction obeys the checks of the passage chapter; `starts` are the first words of instructions. From an undecodable word `bad` on, where
instructions begin is not known, so a target there is not held against the instruction, but no target is past the program's end. -/
def passageOk (g : Graph) (starts : List Nat) (bad : Option Nat) (xfs : List (Nat × Nat × Nat × Nat)) (i : Instr) : Bool :=
  let target (t : Nat) : Bool := starts.contains t || bad.any (fun k => decide (k ≤ t) && decide (t < g.passage.length))
  let chan (c : Nat) : Bool := decide (c < g.chans.length) && !isResultChan g c
  match i with
  | .enter k => decide (k.toNat < g.pounds.length)
  | .lock hv k => !hv || decide (k.toNat < g.pounds.length)
  | .choose _ _ t => target t.toNat
  | .jmp t => target t.toNat
  | .decJnz _ t => target t.toNat
  | .settle w => g.wins.any (fun x => x.wid == w.toNat)
  | .bindArg c off len => chan c.toNat && extSrc g c.toNat && decide (off.toNat + len.toNat ≤ g.argSize)
  | .bindVq c off => chan c.toNat && hasAgent g c.toNat && decide (off.toNat + 8 ≤ g.argSize)
  | .bindXfer c _ => chan c.toNat && extDst g c.toNat
  | .bindAccs c _ wid => chan c.toNat && extDst g c.toNat && g.wins.any (fun x => x.wid == wid.toNat)
  | .bindXf c x a b => chan c.toNat && (extSrc g c.toNat || extDst g c.toNat) && xfOk g xfs x.toNat a.toNat b.toNat
  | .bindPred c _ => chan c.toNat && extDst g c.toNat
  | .watch _ _ _ _ arg base _ _ => !arg || decide (base.toNat + 8 ≤ g.argSize)
  | _ => true

/-- Stage 6 of R420: BAD_PASSAGE names the first instruction that fails, by the index of its first word, whichever of its words is at fault
(R143; DESIGN CHOICE, assumption 81). Whether the binds behind an undecodable word count where a transform's directions and its first bind are asked for,
no rule says; the model's choice is that they do not, for they cannot be read, so an earlier bind may be named (DESIGN CHOICE, assumption 81). -/
def checkPassage (g : Graph) : GM (List (Nat × Instr)) :=
  let (is, bad) := passageInstrs g.passage.length 0 g.passage
  let fail (k : Nat) : GM (List (Nat × Instr)) := .error (.reject cBadPassage k (nodeDetail extEnd noPound))
  match is.find? (fun (e : Nat × Instr) => !passageOk g (is.map Prod.fst) bad (xfBinds is) e.2) with
  | some (k, _) => fail k
  | none => match bad with
    | some k => fail k
    | none => pure is

/-! ### The argument block (R233, R419) -/

/-- The records packed in a run of bytes, at most `fuel` of them (R233): a malformed header, or a record that runs past the end. -/
def packedRecords : Nat → List Byte → Except (Nat × W64) (List Rec)
  | 0, _ => .ok []
  | fuel + 1, bs =>
    if bs.isEmpty then .ok []
    else if bs.length < 8 then .error (stArgSize, 0)
    else
      let h : W64 := BitVec.ofNat 64 (leNat (bs.take 8))
      match checkHeader h with
      | some code => .error (code, h)
      | none =>
        let n := 8 * hLen h
        if bs.length < 8 + n then .error (stArgSize, 0)
        else
          match packedRecords fuel (bs.drop (8 + n)) with
          | .ok rs => .ok ({ hdr := h, units := bytesUnits ((bs.drop 8).take n) } :: rs)
          | e => e

/-- The records of an argument range. -/
def argRecords (args : List Byte) (off len : Nat) : Except (Nat × W64) (List Rec) :=
  packedRecords (len / 8 + 1) ((args.drop off).take len)

/-- The ranges of the kind-0 binds, walked in passage word order. -/
def checkRanges (args : List Byte) : List (Nat × Instr) → GM Unit
  | [] => pure ()
  | (_, .bindArg _ off len) :: r =>
    match argRecords args off.toNat len.toNat with
    | .ok _ => checkRanges args r
    | .error (code, h) =>
      .error (.reject code h.toNat (if code < 0x100 then 0 else nodeDetail extEnd noPound))
  | _ :: r => checkRanges args r

/-- The admission checks of a `LAUNCH` behind its header, in the order of R420. -/
def admissionChecks (s : State) (l : Layer) (pasid addr : Nat) (args : List Byte) (header : Nat) : GM Graph := do
  let g ← readGraph s l pasid addr args header
  let g ← checkNodes s l pasid addr g
  let is ← checkPassage g
  if args.length ≠ g.argSize then .error (.reject stArgSize 0 0)
  checkRanges args is
  pure g

end Sys2Proof.Machine
end

