-- ==== Sys2Proof/Machine/Placing.lean ====
section
/-! DEFINITION. Placing a pound on a region (R16 to R18, R74, R75, R84, R87 to R93, R146, R313): a function of the graph, the pound, the
region and the repair map alone. -/

namespace Sys2Proof.Machine

/-! ### Regions (R16, R17, R74, R75) -/

/-- The sites of a region: how many. -/
def Region.size (r : Region) : Nat := 256 * 2 ^ r.j

/-- Sites below one switch at level `k`; 9 is a die root. -/
def below (k : Nat) : Nat := if 9 ≤ k then 131072 else 4 ^ k

/-- The level of a region's root; 10 is the package level (R74). -/
def Region.rootLevel (r : Region) : Nat := if r.j ≤ 9 then 4 + (r.j + 1) / 2 else 10

/-- Whether a region holds every site of `n` from `lo`. -/
def Region.holds (r : Region) (lo n : Nat) : Bool := decide (r.b ≤ lo) && decide (lo + n ≤ r.b + r.size)

/-- Whether a region holds any site of `n` from `lo`. -/
def Region.meets (r : Region) (lo n : Nat) : Bool := decide (lo < r.b + r.size) && decide (r.b < lo + n)

/-- Whether a region is usable (R75): no cut switch, no cut up-link under its root, no dead die pair inside it. -/
def Region.usable (m : RepairMap) (r : Region) : Bool :=
  m.cutSwitch.all (fun c => !r.meets (c.2 * below c.1) (below c.1))
    && m.cutUplink.all (fun c => !(decide (c.1 < r.rootLevel) && r.holds (c.2 * below c.1) (below c.1)))
    && m.pairs.all (fun p => p.2.1 + p.2.2 != 0 ||
        !(r.meets (p.1 / 4 * 131072) 131072 && r.meets (p.1 % 4 * 131072) 131072))

/-- The regions of exponent `j`, by rising base. -/
def regionsOf (j : Nat) : List Region := (List.range (2048 / 2 ^ j)).map (fun k => { b := k * (256 * 2 ^ j), j := j })

/-- The candidate sequence of R84. -/
def candidates (m : RepairMap) (lo hi : Nat) : List Region :=
  ((List.range (hi + 1)).filter (fun j => decide (lo ≤ j))).flatMap (fun j => (regionsOf j).filter (Region.usable m))

/-- The L4 subtrees of a region. -/
def Region.subtrees (r : Region) : List Nat := (List.range (2 ^ r.j)).map (fun k => r.b / 256 + k)

/-! ### Node assignment (R87, R88) -/

/-- Whether a site holds an element of the type of a node: a matrix cell for kind 4, a bank cell for kinds 0 to 3 (R18, R31). -/
def isElement (mat : Bool) (e : Nat) : Bool := if mat then e % 16 == 12 else e / 4 % 4 != 3

/-- The usable bank of a bank cell in bytes: where the self-test and the part record both reduce it, the smaller (R75, R404). -/
def usableBank (m : RepairMap) (e : Nat) : Nat := (m.reduced.filter (fun x => x.1 == e)).foldl (fun n x => min n (x.2 * 1024)) 65536

/-- The elements of a node's type in a region that are neither fenced nor taken. -/
def openElements (m : RepairMap) (r : Region) (mat : Bool) (taken : List Nat) : List Nat :=
  ((List.range r.size).map (fun k => r.b + k)).filter (fun e => isElement mat e && !m.fenced.contains e && !taken.contains e)

/-- The bytes a node needs of its cell's bank. -/
def NodeE.need (x : NodeE) : Nat := x.bank * 256 + x.code * 4

/-- The element of a node: the first that fits at or after the cursor, else the first that fits before it (R88). -/
def fitElement (m : RepairMap) (x : NodeE) (cur : Nat) (es : List Nat) : Option Nat :=
  let fits := es.filter (fun e => x.kind == 4 || decide (x.need ≤ usableBank m e))
  match fits.find? (fun e => decide (cur ≤ e)) with
  | some e => some e
  | none => fits.head?

/-- Why no element fits (R87). -/
def nofit (m : RepairMap) (x : NodeE) (n q : Nat) (es : List Nat) : Failure :=
  if es.isEmpty then { stage := 1, item := q, code := cNofitCells, arg := x.kind, detail := x.kind }
  else if es.all (fun e => decide (usableBank m e < x.bank * 256)) then
    { stage := 1, item := q, code := cNofitBank, arg := n, detail := n }
  else { stage := 1, item := q, code := cNofitCode, arg := n, detail := n }

/-- The sites of the element nodes of a locality list, from position `q` on, given the cursors of the two types (R88). -/
def assignNodes (m : RepairMap) (r : Region) (g : Graph) : Nat → Nat → Nat → Map Nat → List Nat → Except Failure (Map Nat)
  | _, _, _, sites, [] => .ok sites
  | q, bank, mat, sites, n :: ns =>
    match g.nodes[n]? with
    | none => assignNodes m r g (q + 1) bank mat sites ns
    | some x =>
      if x.kind = 5 then assignNodes m r g (q + 1) bank mat sites ns
      else
        let isMat := x.kind == 4
        let es := openElements m r isMat (sites.map Prod.snd)
        match fitElement m x (if isMat then mat else bank) es with
        | none => .error (nofit m x n q es)
        | some e =>
          if isMat then assignNodes m r g (q + 1) bank (e + 16) (sites.set n e) ns
          else assignNodes m r g (q + 1) (e + 1) mat (sites.set n e) ns

/-! ### Slice objects (R22, R89, R146, R291) -/

/-- The switch level of a slice level: S3, S5, S7, S9. -/
def sliceSwitch (lv : Nat) : Nat := 3 + 2 * lv

/-- The 4 KiB units of a slice that regions may use (R22, R89): the S9 slice keeps 64 MiB. -/
def sliceUnits (lv : Nat) : Nat := match lv with | 0 => 64 | 1 => 1024 | 2 => 8192 | _ => 49152

/-- The units a region may use of a slice: all of it where it holds the slice's whole subtree, else its share (R89). -/
def sliceShare (r : Region) (lv : Nat) : Nat :=
  let n := below (sliceSwitch lv)
  if n ≤ r.size then sliceUnits lv else sliceUnits lv * r.size / n

/-- The units an object takes: one, or for a local window those of its blocks (R89, R291). -/
def objectUnits (g : Graph) (w : Nat) : Nat :=
  if wOp w = 0x60 then
    match g.wins.find? (fun x => x.wid == bitsOf w 114 6) with
    | some x => ceilDiv (ceilDiv x.count 15) 16
    | none => 1
  else 1

/-- The sites that name a slice object (R89): the ends of its channels, the contributing positions of a window, and, of a gate, the
nodes whose SLICE relocations name it; where nothing names it, every element of the pound. -/
def namingSites (g : Graph) (loc : List Nat) (sites : Map Nat) (n w : Nat) : List Nat :=
  let chans := g.chans.filterMap (fun c => if c.src = n then sites.get? c.dst else if c.dst = n then sites.get? c.src else none)
  let wins := if wOp w = 0x60 then
      match g.wins.find? (fun x => x.isLocal && x.wid == bitsOf w 114 6) with
      | some x => ((loc.drop x.cfirst).take (x.clast + 1 - x.cfirst)).filterMap sites.get?
      | none => []
    else []
  let rels := if wOp w = 0x61 then
      g.relocs.filterMap (fun r => if r.kind = 4 ∧ r.symbol = n then sites.get? r.node else none)
    else []
  let all := chans ++ wins ++ rels
  if all.isEmpty then sites.map Prod.snd else all

/-- A slice: level, die, index within the die. -/
abbrev SliceId := Nat × Nat × Nat

/-- The slices an object may go to, lowest first (R89). Of a window or gate that nothing names in a pound without element nodes, R89 names no slice; the
model's choice is the S9 slice of the region's base die (DESIGN CHOICE, assumption 43). -/
def sliceChoices (r : Region) (w : Nat) (named : List Nat) : List SliceId :=
  let base : SliceId := (3, r.b / 131072, 0)
  match named with
  | [] => [base]
  | a :: _ =>
    if wOp w = 0x62 ∨ named.any (fun s => s / 131072 != a / 131072) then [base]
    else
      (List.range 4).filterMap (fun lv =>
        let n := below (sliceSwitch lv)
        if named.all (fun s => s / n == a / n) then some (lv, a / 131072, a % 131072 / n) else none)

/-- The locator of an object in a slice (R146). -/
def locator (s : SliceId) (off : Nat) : Nat := s.1 * 2 ^ 29 + s.2.1 * 2 ^ 27 + s.2.2 * 2 ^ 16 + off % 65536

/-- Units used so far in each slice. -/
def usedUnits (used : List (SliceId × Nat)) (s : SliceId) : Nat :=
  (used.filter (fun u => u.1 == s)).foldl (fun m u => m + u.2) 0

/-- The locators of the slice objects of a locality list (R89). The spec does not say where in a slice a region's share begins; the model
counts offsets from 0 for every region (DESIGN CHOICE, assumption 76). -/
def assignSlices (r : Region) (g : Graph) (loc : List Nat) (sites : Map Nat) :
    Nat → List (SliceId × Nat) → Map Nat → List Nat → Except Failure (Map Nat)
  | _, _, out, [] => .ok out
  | q, used, out, n :: ns =>
    match g.nodes[n]? with
    | none => assignSlices r g loc sites (q + 1) used out ns
    | some x =>
      if x.kind ≠ 5 then assignSlices r g loc sites (q + 1) used out ns
      else
        let w := ((g.cfg.get? n).bind List.head?).getD 0
        let u := objectUnits g w
        match (sliceChoices r w (namingSites g loc sites n w)).find? (fun s =>
            decide (usedUnits used s + u ≤ sliceShare r s.1)) with
        | none => .error { stage := 2, item := q, code := cNofitCells, arg := 5, detail := 5 }
        | some s => assignSlices r g loc sites (q + 1) ((s, u) :: used) (out.set n (locator s (usedUnits used s))) ns

/-! ### Routing (R90, R91, R313) -/

/-- A link direction: its key (level, number, direction: 0 up, 1 down, or the destination die), level code, capacity, slots. -/
structure LinkDir where
  key : Nat × Nat × Nat
  level : Nat
  cap : Nat
  slots : Nat

/-- The capacity of an up-link (R90). -/
def linkCap (k : Nat) : Nat :=
  match k with | 1 => 256 | 2 => 512 | 3 => 1024 | 4 => 2048 | 5 => 2048 | 6 => 4096 | 7 => 4096 | _ => 8192

/-- The circuit slots of an up-link (R90). -/
def linkSlots (k : Nat) : Nat :=
  match k with | 1 => 32 | 2 => 64 | 3 => 128 | 4 => 256 | 5 => 256 | 6 => 512 | 7 => 512 | _ => 1024

/-- The link of an element (R90). -/
def cellLink (e dir : Nat) : LinkDir :=
  { key := (0, e, dir), level := 0, cap := if isElement true e then 512 else 128, slots := 16 }

/-- The up-link of the Lk switch above a site. -/
def upLink (k e dir : Nat) : LinkDir := { key := (k, e / below k, dir), level := k, cap := linkCap k, slots := linkSlots k }

/-- The die link of a pair in one direction (R90). -/
def dieLink (m : RepairMap) (a b : Nat) : LinkDir :=
  let (f, h) := match m.pairs.find? (fun p => p.1 == 4 * min a b + max a b) with
    | some (_, f, h) => (f, h)
    | none => (24, 0)
  { key := (9, a, b), level := 9, cap := 620 * f + 310 * h, slots := 2048 }

/-- The way up from an element to a switch at level `k`. -/
def wayUp (e k : Nat) : List LinkDir := cellLink e 0 :: ((List.range (min k 9 - 1)).map (fun i => upLink (i + 1) e 0))

/-- The way down from a switch at level `k` of die `die` to an element; from a die root to another die it begins with the die link. -/
def wayDown (m : RepairMap) (e k die : Nat) : List LinkDir :=
  (if 9 ≤ k ∧ die ≠ e / 131072 then [dieLink m die (e / 131072)] else [])
    ++ ((List.range (min k 9 - 1)).reverse.map (fun i => upLink (i + 1) e 1)) ++ [cellLink e 1]

/-- The level of the lowest switch above two sites; 10 is the package level. -/
def lcaLevel (a b : Nat) : Nat :=
  if a / 131072 ≠ b / 131072 then 10
  else ((List.range 9).find? (fun k => a / below (k + 1) == b / below (k + 1))).elim 9 (· + 1)

/-- The level of the lowest switch above all sites of a list. -/
def lcaAll : List Nat → Nat
  | [] => 1
  | a :: r => r.foldl (fun k b => max k (lcaLevel a b)) 1

/-- The leaves below internal entry `k` of a tree. -/
def leavesBelow (x : TreeE) (k : Nat) : List Nat :=
  x.leaves.filterMap (fun l => if (x.path x.ints.length l.2.1).contains k then some l.1 else none)

/-- The switch of an internal entry: its level and the first site under it; from the package level it goes to the root of the region's
base die (R313). -/
def entrySwitch (r : Region) (sites : Map Nat) (x : TreeE) (k : Nat) : Nat × Nat :=
  match (leavesBelow x k).filterMap sites.get? with
  | [] => (9, r.b / 131072 * 131072)
  | a :: s =>
    let l := lcaAll (a :: s)
    if 10 ≤ l then (9, r.b / 131072 * 131072) else (l, a / below l * below l)

/-- The trees whose leaves lie in a pound. -/
def treesOf (g : Graph) (pound : Nat) : List TreeE :=
  g.trees.filter (fun x => (x.leaves.head?.bind (fun l => poundAt g.nodes l.1)) == some pound)

/-- The way up from the slice of a locator to a switch at level `k` (R90, R91). -/
def sliceUp (loc k : Nat) : List LinkDir :=
  let l := sliceSwitch (bitsOf loc 29 2)
  let site := bitsOf loc 27 2 * 131072 + bitsOf loc 16 11 * below l
  (List.range (min k 9 - l)).map (fun i => upLink (l + i) site 0)

/-- The path from a switch at level `l`, with a site under it, to an element, and how many of its link directions climb: none to an element under the
switch, else those of R90's tree path up to their lowest common ancestor, a die link as in `chanPath` (R90, R307, R313). -/
def switchPath (m : RepairMap) (l s e : Nat) : List LinkDir × Nat :=
  let k := max l (lcaLevel s e)
  let up := (List.range (min k 9 - l)).map (fun i => upLink (l + i) s 0)
  (up ++ wayDown m e k (s / 131072), up.length + (if k = 10 then 1 else 0))

/-- The path of a channel of the pound, and how many of its link directions climb (R90, R91, R307, R313). Of a channel between dies the
last is the die link, its way into the package level, which is its lowest common ancestor (R16, R146; DEDUCED, assumption 82).

Where the region's root is the package level, no rule says whether the part of R91 takes in a die link; the model's choice is that a channel with an
external end ends, or begins, at the root of its internal end's die, and none is charged (DESIGN CHOICE, assumption 91). Of a gate's channel to an
external consumer R307 describes no path; the model's choice is that of R91 from the gate's switch up to the region root, charged like any other, and
SLOT is that of its last up-direction (DESIGN CHOICE, assumption 92). -/
def chanPath (m : RepairMap) (r : Region) (g : Graph) (pound : Nat) (sites slices : Map Nat) (c : Nat) (e : ChanE) :
    List LinkDir × Nat :=
  match sites.get? e.src, sites.get? e.dst with
  | some a, some b =>
    let l := lcaLevel a b
    (wayUp a l ++ wayDown m b l (a / 131072), (wayUp a l).length + (if l = 10 then 1 else 0))
  | some a, none => (wayUp a r.rootLevel, (wayUp a r.rootLevel).length)
  | none, some b =>
    match (treesOf g pound).find? (fun x => x.rchan == c) with
    | some x => switchPath m (entrySwitch r sites x 0).1 (entrySwitch r sites x 0).2 b
    | none =>
      match slices.get? e.src with
      | some loc => (wayDown m b (sliceSwitch (bitsOf loc 29 2)) (bitsOf loc 27 2), 0)
      | none => (wayDown m b r.rootLevel (b / 131072), 0)
  | none, none =>
    match slices.get? e.src with
    | some loc => (sliceUp loc r.rootLevel, (sliceUp loc r.rootLevel).length)
    | none => ([], 0)

/-- What the links carry so far: load and circuits held. -/
abbrev LinkUse := List ((Nat × Nat × Nat) × Nat × Nat)

/-- The load and the circuits of a link direction. -/
def useOf (u : LinkUse) (k : Nat × Nat × Nat) : Nat × Nat := ((u.find? (fun x => x.1 == k)).map Prod.snd).getD (0, 0)

/-- A path charged link by link (R90): the lowest free slot of a direction is the number of circuits it holds. -/
def chargePath (c : Nat) (rate : Nat) : LinkUse → List LinkDir → Except Failure (LinkUse × List Nat)
  | u, [] => .ok (u, [])
  | u, d :: ds =>
    let (load, n) := useOf u d.key
    if 16 * d.cap < load + rate then .error { stage := 3, item := c, code := cNofitLink, arg := d.level, detail := d.level }
    else if d.slots ≤ n then .error { stage := 3, item := c, code := cNofitVc, arg := c, detail := c }
    else
      match chargePath c rate ((d.key, load + rate, n + 1) :: u.filter (fun x => x.1 != d.key)) ds with
      | .ok (u, ss) => .ok (u, n :: ss)
      | .error f => .error f

/-- Every channel of a pound routed in identity order: the slot that a SLOT relocation names, by channel (R90, R146). -/
def routeChans (m : RepairMap) (r : Region) (g : Graph) (pound : Nat) (sites slices : Map Nat) :
    LinkUse → Map Nat → List (ChanE × Nat) → Except Failure (Map Nat)
  | _, out, [] => .ok out
  | u, out, (e, c) :: cs =>
    if g.chanPound e ≠ pound then routeChans m r g pound sites slices u out cs
    else
      let (path, up) := chanPath m r g pound sites slices c e
      match chargePath c e.ratehi u path with
      | .error f => .error f
      | .ok (u, ss) => routeChans m r g pound sites slices u (out.set c ((ss[up - 1]?).getD 0)) cs

/-- The combine entries of a pound placed in tree order and then entry order, eight to a switch (R313). -/
def placeEntries (r : Region) (sites : Map Nat) (nchans : Nat) :
    Nat → List (Nat × Nat) → Map (Nat × Nat) → List (TreeE × Nat) → Except Failure (Map (Nat × Nat))
  | _, _, out, [] => .ok out
  | i, used, out, (x, k) :: xs =>
    let sw := entrySwitch r sites x k
    if 8 ≤ used.count sw then
      let d := 0xFFFFFF + x.tree * 2 ^ 48
      .error { stage := 3, item := nchans + i, code := cNofitVc, arg := d, detail := d }
    else placeEntries r sites nchans (i + 1) (sw :: used) (out.set (4096 * x.tree + k) sw) xs

/-! ### Relocations (R92, R146) -/

/-- The value of a relocation, before the check of its width. -/
def relocValue (r : Region) (p : Placement) (x : Reloc) : Int :=
  let v : Nat := match x.kind with
    | 1 => (p.sites.get? x.symbol).getD 0 - r.b
    | 2 => (p.slots.get? x.symbol).getD 0
    | 3 => 0
    | _ => (p.slices.get? x.symbol).getD 0
  (v : Int) + x.addend

/-- The relocations of a pound, with their entry indices. -/
def relocsOf (g : Graph) (pound : Nat) : List (Reloc × Nat) :=
  g.relocs.zipIdx.filter (fun (x : Reloc × Nat) => poundAt g.nodes x.1.node == some pound)

/-- A field of a 128-bit word replaced. -/
def putField (w lo width v : Nat) : Nat := w - bitsOf w lo width * 2 ^ lo + v % 2 ^ width * 2 ^ lo

/-- The words of a pound's nodes with its relocations applied (R145). -/
def applyRelocs (r : Region) (p : Placement) : List (Reloc × Nat) → Map (List Nat) → Map (List Nat)
  | [], m => m
  | (x, _) :: xs, m =>
    applyRelocs r p xs (m.modify x.node (fun ws =>
      ws.modify x.word (fun w => putField w x.lo x.width (wrapInt (relocValue r p x) x.width))))

/-! ### An attempt (R85, R88 to R92) -/

/-- A pound placed on a region, or where the attempt stops; nothing else decides it (R93). -/
def placePound (m : RepairMap) (g : Graph) (pound : Nat) (r : Region) : Except Failure Placement := do
  let loc := (g.pounds[pound]?.map PoundE.loc).getD []
  let sites ← assignNodes m r g 0 r.b r.b [] loc
  let slices ← assignSlices r g loc sites 0 [] [] loc
  let slots ← routeChans m r g pound sites slices [] [] g.chans.zipIdx
  let entries := (treesOf g pound).flatMap (fun x => (List.range x.ints.length).map (fun k => (x, k)))
  let combs ← placeEntries r sites g.chans.length 0 [] [] entries
  let p : Placement := { pound := pound, sites := sites, slices := slices, slots := slots, combs := combs }
  match (relocsOf g pound).find? (fun (x : Reloc × Nat) =>
      decide (relocValue r p x.1 < 0) || decide ((2 ^ x.1.width : Nat) ≤ relocValue r p x.1)) with
  | some (_, i) => .error { stage := 4, item := i, code := cRelocRange, arg := i, detail := i }
  | none => pure p

/-- The failure reported of several attempts (R85): the latest point, the earlier attempt on a tie. -/
def worstFailure : List Failure → Option Failure
  | [] => none
  | f :: r =>
    match worstFailure r with
    | some x => if f.stage < x.stage ∨ (f.stage = x.stage ∧ f.item < x.item) then some x else some f
    | none => some f

end Sys2Proof.Machine
end

