-- ==== Sys2Proof/Machine/Load.lean ====
section
/-! DEFINITION. Regions as they are granted, left, drained and zeroed (R77 to R79, R101), the completions of a `LAUNCH` (R65, R66), and
configuration loads (R94, R96 to R98, R381). -/

namespace Sys2Proof.Machine

/-! ### L4 subtrees and grants (R77, R78) -/

/-- A subtree that has never been granted (R77). -/
def SubRt.fresh : SubRt := { st := .free, tag := 0, owners := [], owed := [], since := 0 }

/-- An L4 subtree. -/
def State.sub (s : State) (k : Nat) : SubRt := s.subtrees.getD k SubRt.fresh

/-- Whether every subtree of a region is FREE (R77). -/
def regionFree (s : State) (r : Region) : Bool := r.subtrees.all (fun k => (s.sub k).st == .free)

/-- The generation tag of a new grant (R78). -/
def grantTag (s : State) (r : Region) : Nat :=
  let m := r.subtrees.foldl (fun m k => max m (s.sub k).tag) 0
  if 255 ≤ m then 1 else m + 1

/-- Subtrees of a list changed. -/
def modSubs (f : SubRt → SubRt) : List Nat → State → State
  | [], s => s
  | k :: r, s => modSubs f r { s with subtrees := s.subtrees.set k (f (s.sub k)) }

/-- The cycles counted by the die of an L4 subtree (R16, R20). -/
def subNow (s : State) (k : Nat) : Nat := s.nowOn (k / 512)

/-- The key of a plane of a region: the region's first subtree. -/
def Region.first (r : Region) : Nat := r.b / 256

/-- A region granted to a tenure (R77, R78). -/
def grantRegion (s : State) (t : Nat) (r : Region) : State :=
  let g := grantTag s r
  (modSubs (fun _ => { st := .granted, tag := g, owners := [t], owed := [], since := 0 }) r.subtrees s).modTenure t
    (fun tn => { tn with region := some r, gtag := g })

/-- Subtrees that a tenure leaves: each drains once no other tenure holds it, and what the tenure has sent until now may be in transit (R77). What a
re-placed tenure sends later, under whatever tag, is no concern of the region it has left (R100). -/
def leaveSubs (t : Nat) : List Nat → State → State
  | [], s => s
  | k :: r, s =>
    let left (x : SubRt) : SubRt := { x with owed := x.owed ++ [(t, s.nextMsg)] }
    leaveSubs t r (modSubs (fun (x : SubRt) => if x.owners == [t] then { left x with st := .draining, since := subNow s k }
      else { left x with owners := x.owners.filter (fun o => o != t) }) [k] s)

/-- The grant tokens held for a tenure's admission released (R80). -/
def releaseTokens (s : State) (t : Nat) : State := { s with tokens := s.tokens.map (fun o => if o == some t then none else o) }

/-- A tenure leaves its region (R77, R79): the subtrees drain, or, where a partner stays, the tenure's plane does and the partner runs
alone. -/
def leaveRegion (s : State) (t : Nat) : State :=
  match s.tenures.get? t with
  | none => s
  | some tn =>
    match tn.region with
    | none => s
    | some r =>
      let s1 := leaveSubs t r.subtrees s
      let s2 := match tn.partner with
        | some p =>
          let plane : PlaneRt := { region := r, t := t, zeroing := false, bound := s.nextMsg, since := s.nowOn tn.baseDie }
          { s1 with planes := s1.planes.set r.first plane }.modTenure p
            (fun x => { x with partner := none, active := true, slots := 0, yielded := false })
        -- a plane that still drained does so as part of its subtrees
        | none => { s1 with planes := s1.planes.erase r.first }
      s2.modTenure t (fun x => { x with
        region := none, partner := none, active := true, slots := 0, yielded := false, streamCache := [] })

/-- Whether a message is one that a tenure had sent when it left: a tenure, and the number of the first message after its leaving. -/
def Msg.sentBefore (x : Msg) (left : List (Nat × Nat)) : Bool := left.any (fun g => g.1 == x.t && decide (x.id < g.2))

/-- Whether a reply may still be owed to what tenures have left: a message that one of them had sent is in flight (R77, R78). -/
def outstanding (s : State) (left : List (Nat × Nat)) : Bool := s.net.any (fun x => x.sentBefore left)

/-- What has been in transit since tenures left is discarded (R78). -/
def discard (s : State) (left : List (Nat × Nat)) : State := { s with net := s.net.filter (fun x => !x.sentBefore left) }

/-- A draining subtree or plane goes on to zeroing (R77, R79). -/
def startZeroing (s : State) (x : DrainRef) : State :=
  match x with
  | .subtree k => modSubs (fun y => { y with st := .zeroing, owners := [] }) [k] s
  | .plane b => { s with planes := s.planes.modify b (fun p => { p with zeroing := true }) }

/-- Whether a subtree or plane drains: what it waits for, and the cycles since it began. -/
def drainOf (s : State) (x : DrainRef) : Option (List (Nat × Nat) × Nat) :=
  match x with
  | .subtree k => if (s.sub k).st == .draining then some ((s.sub k).owed, subNow s k - (s.sub k).since) else none
  | .plane b => match s.planes.get? b with
    | some p => if p.zeroing then none else some ([(p.t, p.bound)], s.nowOn (b / 512) - p.since)
    | none => none

/-- DRAIN_COMPLETE (R77, R79). -/
def execDrainComplete (s : State) : Host.Outcome State Fault Refusal :=
  match s.subj with
  | .drain x => .next (match drainOf s x with
    | some (gs, _) => if s.powered && !outstanding s gs then startZeroing s x else s
    | none => s)
  | _ => .next s

/-- DRAIN_TIMEOUT: after 2^20 cycles the fabric has discarded what is in transit (R77, R78). -/
def execDrainTimeout (s : State) : Host.Outcome State Fault Refusal :=
  match s.subj with
  | .drain x => .next (match drainOf s x with
    | some (gs, n) => if s.powered && decide (1048576 ≤ n) then startZeroing (discard s gs) x else s
    | none => s)
  | _ => .next s

/-- ZEROING_COMPLETE (R77, R79, R101). -/
def execZeroingComplete (s : State) : Host.Outcome State Fault Refusal :=
  match s.subj with
  | .drain (.subtree k) =>
    .next (if s.powered && (s.sub k).st == .zeroing then modSubs (fun y => { y with st := .free, owners := [], owed := [] }) [k] s else s)
  | .drain (.plane b) =>
    .next (match s.planes.get? b with
      | some p => if s.powered && p.zeroing then { s with planes := s.planes.erase b } else s
      | none => s)
  | _ => .next s

/-- RESERVE_SUBTREE (R77). -/
def execReserveSubtree (s : State) : Host.Outcome State Fault Refusal :=
  match s.subj with
  | .subtree k =>
    .next (if s.powered && decide (k < 2048) && (s.sub k).st == .free then modSubs (fun y => { y with st := .reserved }) [k] s else s)
  | _ => .next s

/-- RELEASE_SUBTREE (R77). -/
def execReleaseSubtree (s : State) : Host.Outcome State Fault Refusal :=
  match s.subj with
  | .subtree k => .next (if s.powered && (s.sub k).st == .reserved then modSubs (fun y => { y with st := .zeroing }) [k] s else s)
  | _ => .next s

/-! ### Completions of a `LAUNCH` (R65, R66) -/

/-- The completion with fin = 0, where it has not been written (R65). -/
def launchFirst (s : State) (t : Nat) : State :=
  match s.tenures.get? t with
  | some tn =>
    if tn.fin0 then s
    else (addCpl s tn.queue tn.cmd stOk (BitVec.ofNat 64 tn.handle) 0 0 false false).modTenure t (fun x => { x with fin0 := true })
  | none => s

/-- The last completion of a `LAUNCH` whose admission succeeded; where the one with fin = 0 is still due, that comes immediately before it (R65,
R66). -/
def launchLast (s : State) (t status : Nat) (result detail : W64) : State :=
  match s.tenures.get? t with
  | some tn => addCpl (launchFirst s t) tn.queue tn.cmd status result detail tn.homeOr.toNat true (!tn.fin0)
  | none => s

/-- Commands that wait for a tenure complete, with result 0 (R64). -/
def completeAll (status : Nat) (detail : W64) : List (Nat × Nat) → State → State
  | [], s => s
  | (q, c) :: r, s => completeAll status detail r (complete s q c status 0 detail)

/-- RESUME commands that wait for a tenure complete, with result 0 (R64). -/
def completeResumes (s : State) (t status : Nat) (detail : W64) : State :=
  match s.tenures.get? t with
  | some tn => (completeAll status detail tn.resumes s).modTenure t (fun x => { x with resumes := [] })
  | none => s

/-- PAUSE commands of a pause in progress complete, the one that started it and those that wait for it (R65). -/
def completePauses (s : State) (t status : Nat) (detail : W64) : State :=
  match (s.tenures.get? t).bind Tenure.pause with
  | some p =>
    (completeAll status detail (p.owner.toList ++ p.cmds) s).modTenure t (fun x =>
      { x with pause := some { p with owner := none, cmds := [] } })
  | none => s

/-- The page requests of a tenure: of its cells and streams, of the requests and accumulate streams of lighters for it, and of its lockkeeper. -/
def Layer.ofTenure (s : State) (t : Nat) (l : Layer) : Bool :=
  match l with
  | .cell x _ => x == t
  | .stream x _ _ => x == t
  | .accs _ x => x == t
  | .passage x => x == t
  | .lighter lt k _ => (s.lighters.get? lt).any (fun x => x.reqs.any (fun q => q.id == k && q.t == t))
  | _ => false

/-- Every binding of a tenure released: virtual queues keep their records (R73, R366). -/
def releaseBinds (s : State) (t : Nat) : State :=
  { s with vqs := s.vqs.map (fun (e : Nat × VqRt) => match e.2.bound with
      | some (o, _) => if o == t then (e.1, { e.2 with bound := none, counted := 0 }) else e
      | none => e) }

/-- An admission fails: the `LAUNCH` writes its single completion, and the tenure is gone, with its bindings (R65, R70, R84). A RESUME that waits
for it completes with the same code, and so does a PAUSE, which R65 and R66 have complete and give no status for (DESIGN CHOICE, assumption 47). -/
def admissionFail (s : State) (t code : Nat) (arg detail : W64) : State :=
  match s.tenures.get? t with
  | none => s
  | some tn =>
    let s := completePauses (completeResumes s t code detail) t code detail
    let s := complete s tn.queue tn.cmd code arg detail
    let s := leaveRegion (releaseBinds s t) t
    let s := leaveAsks s (Layer.ofTenure s t)
    releaseTokens { s with tenures := s.tenures.erase t } t

/-! ### The parts of a tenure -/

/-- A map without the parts of a tenure. -/
def dropParts {α : Type} (m : Map α) (t : Nat) : Map α := m.keep (fun k => keyT k != t)

/-- Every part of a tenure's pound is gone (R77, R101): its nodes, channels, gates, windows and combine entries, and the translations of
its cells and streams. -/
def clearParts (s : State) (t : Nat) : State :=
  { s with
    tasks := dropParts s.tasks t
    opers := dropParts s.opers t
    gens := dropParts s.gens t
    ctrls := dropParts s.ctrls t
    mats := dropParts s.mats t
    chans := dropParts s.chans t
    gates := dropParts s.gates t
    wins := dropParts s.wins t
    combs := s.combs.keep (fun k => combKeyT k != t)
    tlbs := s.tlbs.filter (fun (e : Layer × Tlb) => match e.1 with
      | .cell x _ => x != t
      | .stream x _ _ => x != t
      | _ => true) }

/-- A lighter without what it holds for a tenure. -/
def LighterRt.without (l : LighterRt) (t : Nat) : LighterRt :=
  { l with reqs := l.reqs.filter (fun r => r.t != t), tile := l.tile.filter (fun e => e.1 != t) }

/-- A tenure is gone: its parts, what lighters hold for it, and its page requests. -/
def removeTenure (s : State) (t : Nat) : State :=
  let s := releaseTokens (clearParts (leaveAsks s (Layer.ofTenure s t)) t) t
  { s with
    tenures := s.tenures.erase t
    lighters := s.lighters.map (fun (e : Nat × LighterRt) => (e.1, e.2.without t)) }

/-! ### Frozen timers (R308, R327) -/

/-- The timers of a tenure changed, each with the die whose cycles it counts: gates, combine entries, and the wave period. -/
def mapTimers (s : State) (t : Nat) (tn : Tenure) (f : (die start : Nat) → Nat) : State :=
  { s with
    gates := s.gates.map (fun (e : Nat × GateRt) =>
      if keyT e.1 == t then (e.1, { e.2 with timer := e.2.timer.map (f (tn.dieOf (keyN e.1))) }) else e)
    combs := s.combs.map (fun (e : Nat × CombRt) => if combKeyT e.1 == t then
      (e.1, { e.2 with rounds := e.2.rounds.map (fun (r : Round) =>
        { r with start := f (tn.combDie (e.1 / 4096 % 268435456) (e.1 % 4096)) r.start }) }) else e) }.modTenure t
    (fun tn => { tn with lastWave := f tn.baseDie tn.lastWave })

/-- The timers of a tenure that was paused at `since` stand still: each now holds the cycles it has counted (R327). -/
def freeze (s : State) (t : Nat) (tn : Tenure) (since : Vector Nat 4) : State :=
  mapTimers s t tn (fun d start => (since[d]?.getD 0) - start)

/-- The frozen timers of a tenure go on from the cycles they have counted, by the clocks of the dies it stands on now (R327). -/
def thaw (s : State) (t : Nat) (tn : Tenure) : State := mapTimers s t tn (fun d n => s.nowOn d - n)

/-! ### Placing a pound for a load (R94, R361) -/

/-- The units of slices that a placed pound uses (R89). -/
def Placement.units (p : Placement) (g : Graph) : List (SliceId × Nat) :=
  p.slices.map (fun (e : Nat × Nat) =>
    ((bitsOf e.2 29 2, bitsOf e.2 27 2, bitsOf e.2 16 11), objectUnits g (((g.cfg.get? e.1).bind List.head?).getD 0)))

/-- The bytes of each site's bank that a placed pound uses. -/
def Placement.banks (p : Placement) (g : Graph) : List (Nat × Nat) :=
  p.sites.filterMap (fun (e : Nat × Nat) => (g.nodes[e.1]?).map (fun x => (e.2, x.need)))

/-- Whether the slice objects of two pounds fit a region's shares together (R89). -/
def sharesFit (r : Region) (a b : List (SliceId × Nat)) : Bool :=
  a.all (fun u => decide (usedUnits a u.1 + usedUnits b u.1 ≤ sliceShare r u.1.1))

/-- The lowest node of a placement whose partitions do not fit beside what a partner uses of its bank (R361). -/
def bankClash (m : RepairMap) (g : Graph) (p : Placement) (used : List (Nat × Nat)) : Option Nat :=
  (p.sites.find? (fun (e : Nat × Nat) =>
    match g.nodes[e.1]?, used.find? (fun (u : Nat × Nat) => u.1 == e.2) with
    | some x, some (_, n) => x.kind != 4 && decide (usableBank m e.2 < x.need + n)
    | _, _ => false)).map Prod.fst

/-- What keeps a placed pound from standing beside the pound of a partner: the slices' shares, or a bank (R89, R361). -/
def besideFails (m : RepairMap) (g : Graph) (r : Region) (p : Placement) (other : Tenure) : Option Failure :=
  match other.place with
  | none => none
  | some q =>
    if !sharesFit r (p.units g) (q.units other.g) then some { stage := 2, item := 0, code := cNofitCells, arg := 5, detail := 5 }
    else (bankClash m g p (q.banks other.g)).map (fun n => { stage := 1, item := 0, code := cNofitBank, arg := n, detail := n })

/-- A pound placed on a region that a tenure shares with `partner`, if with any (R88, R89, R361). -/
def placeBeside (s : State) (g : Graph) (pound : Nat) (r : Region) (partner : Option Tenure) : Except Failure Placement :=
  match placePound s.repair g pound r, partner with
  | .ok p, some other => match besideFails s.repair g r p other with
    | some f => .error f
    | none => .ok p
  | x, _ => x

/-- The partner of a tenure. -/
def partnerOf (s : State) (tn : Tenure) : Option Tenure := tn.partner.bind s.tenures.get?

/-! ### Reading a load, word by word (R82, R96, R127, R381, R382) -/

/-- The words that a load of a pound reads, without repetition: instructions in 4 bytes, everything else in 16 (R82, R127). -/
def wordsOfLoad (g : Graph) (pound : Nat) : List (Nat × Nat) :=
  (g.nodes.zipIdx.flatMap (fun (e : NodeE × Nat) =>
    if e.1.pound ≠ pound then []
    else
      let n := wordsOfNode g.pounds e.1 e.2
      (if e.1.kind = 0 then (List.range (4 * n)).map (fun i => (e.1.body + 4 * i, 4))
        else (List.range n).map (fun i => (e.1.body + 16 * i, 16)))
      ++ (match g.blocks.get? e.2 with
        | some off => (List.range 12).map (fun i => (off + 16 * i, 16))
        | none => []))).eraseDups

/-- The 128-bit word that a load has read at an offset: of one word, or of four (R82). -/
def partWord (m : Map Nat) (four : Bool) (off : Nat) : Nat :=
  if four then (List.range 4).foldl (fun v i => v + m.getD (off + 4 * i) 0 * 2 ^ (32 * i)) 0 else m.getD off 0

/-- The words of a node as a load has read them. -/
def loadWords (g : Graph) (m : Map Nat) (x : NodeE) (n : Nat) : List Nat :=
  (List.range (wordsOfNode g.pounds x n)).map (fun i => partWord m (x.kind == 0) (x.body + 16 * i))

/-- The words of a pound's nodes as a load has read them. -/
def poundWords (g : Graph) (pound : Nat) (m : Map Nat) : Map (List Nat) :=
  g.nodes.zipIdx.foldl (fun (w : Map (List Nat)) (e : NodeE × Nat) =>
    if e.1.pound = pound then w.set e.2 (loadWords g m e.1 e.2) else w) []

/-- The twelve words of a format block as a load has read them (R127). -/
def blockWords (m : Map Nat) (off : Nat) : List Nat := (List.range 12).map (fun i => m.getD (off + 16 * i) 0)

/-- A number of 128-bit words, the first lowest. -/
def joinWords : List Nat → Nat
  | [] => 0
  | w :: ws => w % 2 ^ 128 + 2 ^ 128 * joinWords ws

/-- The format tables of a pound's nodes that declare a block, from the block's words (R127). -/
def poundFmts (g : Graph) (pound : Nat) (m : Map Nat) : Map Fmt :=
  g.nodes.zipIdx.foldl (fun (w : Map Fmt) (e : NodeE × Nat) =>
    match g.blocks.get? e.2 with
    | some off => if e.1.pound = pound then w.set e.2 (blockFmt (joinWords (blockWords m off))) else w
    | none => w) []

/-- Word `k` of node `n` in a load. -/
def wordAt (m : Map (List Nat)) (n k : Nat) : Nat := ((m.get? n).bind (fun (ws : List Nat) => ws[k]?)).getD 0

/-- The patch words of a load: each word that a relocation changes, with every one of its fields replaced (R92, R96, R145). -/
def patchWords (r : Region) (g : Graph) (p : Placement) (m : Map (List Nat)) : List (Nat × Nat × Nat) :=
  let rs := relocsOf g p.pound
  (rs.map (fun (x : Reloc × Nat) => (x.1.node, x.1.word))).eraseDups.map (fun (e : Nat × Nat) =>
    (e.1, e.2, wordAt (applyRelocs r p rs m) e.1 e.2))

/-- Words with patch words in place of their own. -/
def applyPatches : List (Nat × Nat × Nat) → Map (List Nat) → Map (List Nat)
  | [], m => m
  | (n, k, v) :: r, m => applyPatches r (m.modify n (fun (ws : List Nat) => ws.set k v))

/-- A load all of whose words have been read: the patterns as read, and the patch words that the relocations make of them (R92, R97, R145). -/
def Load.ready (l : Load) (g : Graph) (r : Region) : Load :=
  let m := poundWords g l.place.pound l.parts
  { l with words := m, patches := patchWords r g l.place m, fmts := poundFmts g l.place.pound l.parts }

/-- A load of a placed pound, with nothing read yet. -/
def Load.begin (g : Graph) (p : Placement) (fails : Nat) : Load :=
  { place := p, todo := wordsOfLoad g p.pound, parts := [], words := [], patches := [], fmts := [], committed := false, fails := fails }

/-- Whether what a departed partner had in the other plane of a tenure's region still drains or is zeroed: nothing is loaded meanwhile
(R79, R101). -/
def planeBusy (s : State) (tn : Tenure) : Bool := tn.region.any (fun r => (s.planes.get? r.first).isSome)

/-! ### Loads that run and loads that cannot (R98, R356, R357) -/

/-- The pound a load is for: of the re-placement, of the `enter` that has begun its own, or the hinted one. -/
def Tenure.loadPound? (tn : Tenure) : Option Nat :=
  if tn.phase == .replacing then some tn.lk.lpound.toNat
  else
    match (if tn.lkWait == .begun then tn.passageAt else none) with
    | some (.enter k) => some k.toNat
    | _ => if tn.lk.lhint == 0xFFFF then none else some tn.lk.lhint.toNat

/-- Whether the load is an `enter`'s own. -/
def Tenure.ownLoad (tn : Tenure) : Bool :=
  tn.lkWait == .begun && (match tn.passageAt with
    | some (.enter _) => true
    | _ => false)

/-- The argument of a placement or load fault found after admission: the detail, and, where it is not the pound itself, the pound in
[39:24] (R66, R103, R370; assumption 77). The entry index of PLACE_RELOC_RANGE, which R66 puts in [31:0], and the pound overlap in bits [31:24], and no
rule says how they combine; the model's choice is to add them (DESIGN CHOICE, assumption 77). -/
def loadArg (pound code arg : Nat) : Nat := if code = cConfigLoadUe ∨ code = cCodePage then arg else arg + pound * 2 ^ 24

/-- The detail word of a placement or load fault found after admission (R66): the code's own field, which is its argument, and the pound;
CONFIG_LOAD_UE and CODE_PAGE name the pound alone. -/
def loadDetail (pound code arg : Nat) : Nat :=
  if code = cConfigLoadUe ∨ code = cCodePage then pound * 2 ^ 24 else arg + pound * 2 ^ 24

/-- A re-placement ends in a fault of its load (R98, R381): the RESUME completes with it, and the tenure faults. -/
def replaceFault (s : State) (t pound code arg : Nat) : State :=
  let s := completeResumes s t code (BitVec.ofNat 64 (loadDetail pound code arg))
  engineFault (s.modTenure t (fun tn => { tn with
    phase := .pausing, load := none, codePage := none,
    pause := some { forced := true, since := s.clk, fault := true, owner := none, cmds := [] } })) t code 10 extEnd 0xFF
    (BitVec.ofNat 64 (loadArg pound code arg))

/-- A load that cannot be: an `enter` faults the tenure, or ends its admission where pound 0 was never entered and its load failed; a
re-placement faults; a hinted load is dropped, and repeated at `enter` (R94, R98, R103, R357, R381). -/
def loadTrouble (s : State) (t code arg : Nat) : State :=
  match s.tenures.get? t with
  | none => s
  | some tn =>
    let pound := tn.loadPound?.getD noPound
    if tn.phase == .replacing then replaceFault s t pound code arg
    else if tn.ownLoad then
      if code == cConfigLoadUe && pound == 0 && tn.lk.lpound == 0xFFFF then
        admissionFail s t code (BitVec.ofNat 64 arg) (BitVec.ofNat 64 (pound * 2 ^ 24))
      else
        engineFault (s.modTenure t (fun x => { x with load := none, codePage := none })) t code 10 extEnd 0xFF
          (BitVec.ofNat 64 (loadArg pound code arg))
    else s.modTenure t (fun x => { x with load := none, codePage := none })

/-- A load begun: the pound is placed, and its words are to be read (R94, R96); `fails` loads of it have failed. -/
def readLoad (s : State) (t pound fails : Nat) : State :=
  match s.tenures.get? t with
  | none => s
  | some tn =>
    match tn.region with
    | none => s
    | some r =>
      match placeBeside s tn.g pound r (partnerOf s tn) with
      | .ok p => s.modTenure t (fun x => { x with load := some (Load.begin tn.g p fails), codePage := none })
      | .error f => loadTrouble s t f.code f.arg

/-- A load gets on: the next word of it is read from the object, or its page is asked for and awaited; with the last one it is ready to be sent
(R381, R382). -/
def readNext (s : State) (t : Nat) : State :=
  match s.tenures.get? t with
  | none => s
  | some tn =>
    match tn.load, tn.region with
    | some l, some r =>
      match l.todo with
      | [] => s
      | (off, n) :: rest =>
        if planeBusy s tn then s
        else
          let await (s : State) : State := s.modTenure t (fun x => { x with codePage := some (off, .waiting) })
          let o : Obj := { s := s, l := .passage t, pasid := tn.pasid, addr := tn.objAddr, size := tn.g.size }
          match o.entry l.place.pound off n with
          | .ok w =>
            let l := { l with todo := rest, parts := l.parts.set off w }
            s.modTenure t (fun x => { x with load := some (if rest.isEmpty then l.ready tn.g r else l), codePage := none })
          | .error .wait => await s
          | .error (.ask va) => await (askPage s (.passage t) tn.pasid va)
          | .error (.reject code arg _) =>
            loadTrouble (if code = cCodePage then dropPageFail (.passage t) tn.pasid (tn.objAddr + arg) s else s) t code arg
    | _, _ => s

/-! ### Sending a load (R96, R97) -/

/-- A packet of a load as it is sent: its words, and behind them the CRC word (R97). -/
def crcPacket (ws : List Nat) : Nat := joinWords ws + (crc32c (128 * ws.length) (joinWords ws)).toNat * 2 ^ (128 * ws.length)

/-- Whether the CRC of a packet of `n` words holds where it arrives (R97). -/
def packetGood (n x : Nat) : Bool := crc32c (128 * n) (x % 2 ^ (128 * n)) == BitVec.ofNat 32 (x / 2 ^ (128 * n))

/-- The words that arrive of a packet, where its CRC holds. -/
def receive (noise : Option Nat) (ws : List Nat) : Option (List Nat) :=
  match noise with
  | none => some ws
  | some e =>
    let x := crcPacket ws ^^^ e
    if packetGood ws.length x then some ((List.range ws.length).map (fun i => bitsOf x (128 * i) 128)) else none

/-- The bits that change in packet `k`. -/
def noiseOf (noise : List (Nat × Nat)) (k : Nat) : Option Nat := (noise.find? (fun e => e.1 == k)).map Prod.snd

/-- The words of the nodes as they arrive; packet `2 n` holds those of node `n`, as they were read (R96, R97). -/
def receiveWords (noise : List (Nat × Nat)) : Map (List Nat) → Option (Map (List Nat))
  | [] => some []
  | (n, ws) :: r =>
    match receive (noiseOf noise (2 * n)) ws, receiveWords noise r with
    | some ws, some m => some ((n, ws) :: m)
    | _, _ => none

/-- The format tables as they arrive; packet `2 n + 1` holds the block of node `n` (R127). -/
def receiveFmts (noise : List (Nat × Nat)) (g : Graph) (parts : Map Nat) : Map Fmt → Option (Map Fmt)
  | [] => some []
  | (n, f) :: r =>
    match receiveFmts noise g parts r, noiseOf noise (2 * n + 1), g.blocks.get? n with
    | some m, some e, some off => (receive (some e) (blockWords parts off)).map (fun ws => (n, blockFmt (joinWords ws)) :: m)
    | some m, _, _ => some ((n, f) :: m)
    | none, _, _ => none

/-- The patch words as they arrive, each in a packet of its own behind all the others (R96, R97): the first is packet `k`. -/
def receivePatches (noise : List (Nat × Nat)) : Nat → List (Nat × Nat × Nat) → Option (List (Nat × Nat × Nat))
  | _, [] => some []
  | k, (n, i, v) :: r =>
    match receive (noiseOf noise k) [v], receivePatches noise (k + 1) r with
    | some (v :: _), some ps => some ((n, i, v) :: ps)
    | _, _ => none

/-- The number of the packet that holds a load's first patch word. -/
def firstPatch : Nat := 2 ^ 25

/-- The format tables of a pound's nodes of kinds 0 to 4: of a node without a block, the defaults of its word as loaded (R127). -/
def loadedFmts (g : Graph) (pound : Nat) (words : Map (List Nat)) (blocks : Map Fmt) : Map Fmt :=
  g.nodes.zipIdx.foldl (fun (m : Map Fmt) (e : NodeE × Nat) =>
    if e.1.pound ≠ pound ∨ e.1.kind = 5 ∨ (g.blocks.get? e.2).isSome then m
    else m.set e.2 (defaultFmt e.1.kind (wordAt words e.2 0))) blocks

/-- A load as its elements have it, where every one of them has acknowledged good: every CRC has matched and no uncorrectable error struck
(R97). -/
def Load.acked (l : Load) (g : Graph) (noise : List (Nat × Nat)) (ue : Bool) : Option Load :=
  if ue then none
  else
    match receiveWords noise l.words, receivePatches noise firstPatch l.patches, receiveFmts noise g l.parts l.fmts with
    | some ws, some ps, some fs =>
      let m := applyPatches ps ws
      some { l with words := m, patches := [], fmts := loadedFmts g l.place.pound m fs, committed := true }
    | _, _, _ => none

/-! ### What a committed load puts in place -/

/-- The four 32-bit words of a 128-bit word. -/
def split32 (w : Nat) : List W32 := (List.range 4).map (fun i => BitVec.ofNat 32 (bitsOf w (32 * i) 32))

/-- The code partition of a task node: its words, as many as its code field says (R31, R135). -/
def codeOf (x : NodeE) (ws : List Nat) : List W32 := (ws.flatMap split32).take x.code

/-- The first word of a node in a load. -/
def Load.word (l : Load) (n : Nat) : Nat := ((l.words.get? n).bind List.head?).getD 0

/-- A gate with the fields of its word (R303). -/
def GateRt.withWord (g : GateRt) (w : Nat) : GateRt :=
  { g with gid := bitsOf w 114 6, count := bitsOf w 96 16, texp := bitsOf w 92 4, gaddr := bitsOf w 0 57 }

/-- The words and format tables of a load given to the parts that are already there (R100, R127, R145): a re-placed tenure's nodes take their
patched words; a task keeps the scale registers of its image, which `sysw` may have written (R128, R155). -/
def patchParts (s : State) (t : Nat) (g : Graph) (l : Load) : State :=
  let at_ (k : Nat) : Bool := keyT k == t
  let fmt (k : Nat) (old : Fmt) : Fmt := l.fmts.getD (keyN k) old
  { s with
    tasks := s.tasks.map (fun (e : Nat × TaskRt) => if at_ e.1 then
      (e.1, { e.2 with
        code := match g.nodes[keyN e.1]? with
          | some x => codeOf x ((l.words.get? (keyN e.1)).getD [])
          | none => e.2.code
        fmt := { fmt e.1 e.2.fmt with scl := e.2.fmt.scl, sclkind := e.2.fmt.sclkind } }) else e)
    opers := s.opers.map (fun (e : Nat × OperRt) =>
      if at_ e.1 then (e.1, { e.2 with word := l.word (keyN e.1), fmt := fmt e.1 e.2.fmt }) else e)
    gens := s.gens.map (fun (e : Nat × GenRt) =>
      if at_ e.1 then (e.1, { e.2 with words := (l.words.get? (keyN e.1)).getD [], fmt := fmt e.1 e.2.fmt }) else e)
    ctrls := s.ctrls.map (fun (e : Nat × CtrlRt) =>
      if at_ e.1 then (e.1, { e.2 with word := l.word (keyN e.1), fmt := fmt e.1 e.2.fmt }) else e)
    mats := s.mats.map (fun (e : Nat × MatRt) =>
      if at_ e.1 then (e.1, { e.2 with word := l.word (keyN e.1), fmt := fmt e.1 e.2.fmt }) else e)
    gates := s.gates.map (fun (e : Nat × GateRt) => if at_ e.1 then (e.1, e.2.withWord (l.word (keyN e.1))) else e) }

/-- A tenure that can take its plane's turn: it is neither paused nor retired (R362). -/
def ready (s : State) (t : Nat) : Bool := ((s.tenures.get? t).map (fun tn => tn.phase == .running)).getD false

/-- The plane of `t` runs, and its partner's does not (R361). -/
def takeTurn (s : State) (t : Nat) : State :=
  match s.tenures.get? t with
  | none => s
  | some tn =>
    let s := s.modTenure t (fun x => { x with active := true, slots := 0, yielded := false })
    match tn.partner with
    | some p => s.modTenure p (fun x => { x with active := false, slots := 0, yielded := false })
    | none => s

/-- A paused or re-placed tenure runs again: RESUME completes (R65, R100, R363). Where a partner's plane runs, its own waits for its turn. -/
def runAgain (s : State) (t : Nat) : State :=
  match s.tenures.get? t with
  | none => s
  | some tn =>
    let s := if tn.pause.isSome then thaw s t tn else s
    let s := match tn.partner with
      | some p => if ready s p then s else takeTurn s t
      | none => s
    completeResumes (s.modTenure t (fun x => { x with phase := .running, pause := none, image := none })) t stOk 0

/-- The load of a re-placement has committed. -/
def replaced (s : State) (t : Nat) (l : Load) : State :=
  match s.tenures.get? t with
  | none => s
  | some tn =>
    runAgain ((patchParts s t tn.g l).modTenure t (fun x => { x with place := some l.place, load := none })) t

/-- LOAD_COMMIT: the acknowledgements of a load come in. It commits, or is repeated from the object; the fourth that fails is
CONFIG_LOAD_UE (R97, R98). -/
def loadCommit (t : Nat) (noise : List (Nat × Nat)) (ue : Bool) (s : State) : State :=
  match s.tenures.get? t with
  | none => s
  | some tn =>
    match tn.load with
    | none => s
    | some l =>
      if l.committed || !l.todo.isEmpty then s
      else
        match l.acked tn.g noise ue with
        | some l => if tn.phase == .replacing then replaced s t l else s.modTenure t (fun x => { x with load := some l })
        | none => if 3 ≤ l.fails then loadTrouble s t cConfigLoadUe l.place.pound else readLoad s t l.place.pound (l.fails + 1)

/-- LOAD_COMMIT (R97, R98). -/
def execLoadCommit (s : State) : Host.Outcome State Fault Refusal :=
  match s.subj with
  | .loadAck t noise ue => .next (if s.powered then loadCommit t noise ue s else s)
  | _ => .next s

/-- The reading of a tenure's load goes on, once a page it waits for is there (R381). -/
def loadGoesOn (s : State) (t : Nat) : State := if ((s.tenures.get? t).bind Tenure.codePage).isSome then readNext s t else s

/-- The next word of a load that waits for no page is read. -/
def loadReads (s : State) (t : Nat) : State := if ((s.tenures.get? t).bind Tenure.codePage).isSome then s else readNext s t

end Sys2Proof.Machine
end

