-- ==== Sys2Proof/Machine/Admission.lean ====
section
/-! DEFINITION. Admission (R65, R84 to R86, R100, R361, R381, R420): `LAUNCH`, the search for a region, and the grant of an idle plane. -/

namespace Sys2Proof.Machine

/-! ### LAUNCH (R58, R65, R420) -/

/-- A tenure as it is admitted (R45, R353): every counter and register at its first value. -/
def Tenure.fresh (g : Graph) (passage : List W32) : Tenure :=
  { handle := 0, pasid := 0, queue := 0, cmd := 0, fin0 := false, phase := .admission, die := 0, since := 0, objAddr := 0,
    g := { g with passage := passage }, args := [], tried := [], failures := [], codePage := none, region := none, gtag := 0,
    place := none, load := none, partner := none, active := true, slots := 0, yielded := false, lk := Lockkeeper.reset,
    lkWait := .none, lkBlocked := false, binds := [], haltedStreams := [], watch := Vector.replicate 4 none, wave := none,
    lastWave := 0, iP := 0, cP := 0, iG := 0, cG := 0, cL := 0, wOff := 0, suspect := false, homeFlags := Vector.replicate 32 0,
    pause := none, image := none, lkEnter := Lockkeeper.reset, faultLane := [], log := [], logOver := 0, faultAt := 0, heldSince := 0,
    resumes := [], enteredAt := Vector.replicate 4 0, leftWins := [], leftGates := [], streamCache := [] }

/-- A graph that has passed its checks enters admission: its tenure takes the process's next handle (R65). -/
def admitLaunch (s : State) (q : Nat) (x : QueueRt) (c : Cmd) (args : List Byte) (g : Graph) : State :=
  let handle := s.handles.getD x.pasid 1
  let t := s.nextTenure
  let tn := { Tenure.fresh g g.passage with
    handle := handle, pasid := x.pasid, queue := q, cmd := c.idx, die := x.die, since := s.nowNs, objAddr := c.w 1, args := args }
  setCmd { s with handles := s.handles.set x.pasid ((handle + 1) % 4294967296), nextTenure := t + 1, tenures := s.tenures.set t tn }
    q c.idx .active

/-- `LAUNCH` reads its graph object and checks it with its argument block, as far as the pages are there (R58, R420). -/
def launchWith (s : State) (q : Nat) (x : QueueRt) (c : Cmd) (args : List Byte) : State :=
  let r : GM Graph := do
    let h ← readHeader s (.command q c.idx) x.pasid (c.w 1)
    admissionChecks s (.command q c.idx) x.pasid (c.w 1) args h
  match r with
  | .ok g => admitLaunch s q x c args g
  | .error .wait => s
  | .error (.ask va) => askPage s (.command q c.idx) x.pasid va
  | .error (.reject code arg detail) =>
    complete s q c.idx code (if code < 0x100 then 0 else BitVec.ofNat 64 arg) (BitVec.ofNat 64 detail)

/-- The argument block that a `LAUNCH` has copied (R65). -/
def setArgs (s : State) (q idx : Nat) (args : List Byte) : State :=
  s.modQueue q (fun x => { x with cmds := x.cmds.map (fun (d : Cmd) => if d.idx == idx then { d with args := some args } else d) })

/-- `LAUNCH` copies its argument block as it starts, once the block's pages are there, and goes on with the copy (R58, R65). -/
def runLaunch (s : State) (q : Nat) (x : QueueRt) (c : Cmd) : State :=
  match c.args with
  | some args => launchWith s q x c args
  | none => withAligned s q x c (c.w 2) (c.w 3) false (fun parts => launchWith (setArgs s q c.idx (readParts s parts)) q x c (readParts s parts))

/-- LAUNCH (R65). -/
def execLaunch (s : State) : Host.Outcome State Fault Refusal := .next (commandEvent (fun c => c.op == 1) runLaunch s)

/-- The reading of a `LAUNCH` goes on, once a page it waits for is there (R381). -/
def launchGoesOn (s : State) (q : Nat) : State :=
  match s.queues.get? q with
  | none => s
  | some x =>
    match x.cmds.find? (fun c => c.st == .started && c.op == 1) with
    | some c => runLaunch s q x c
    | none => s

/-- CODE_PAGE_RESOLVED (R381). -/
def execCodePageResolved (s : State) : Host.Outcome State Fault Refusal :=
  match s.subj with
  | .queue q => .next (if s.powered then launchGoesOn s q else s)
  | .tenure t => .next (if s.powered then loadGoesOn s t else s)
  | _ => .next s

/-! ### The search for a region (R67, R84 to R86, R100) -/

/-- The dies of a region, in ascending order. -/
def Region.dies (r : Region) : List Nat := (List.range 4).filter (fun d => r.meets (d * 131072) 131072)

/-- Whether the part record enables what a region needs: the lockkeeper of its lowest L4 subtree and the Gykan of each of its dies (R19, R404,
assumption 61). -/
def State.serves (s : State) (r : Region) : Bool := decide (r.b / 256 < s.enabled 3 2048) && r.dies.all (fun d => decide (d < s.enabled 7 4))

/-- The candidate sequence of a tenure (R84, R404). -/
def candidatesOf (s : State) (tn : Tenure) : List Region :=
  (candidates s.repair (jRange tn.g.pounds).1 (jRange tn.g.pounds).2).filter s.serves

/-- The first candidate not tried that is FREE (R84). -/
def nextCandidate (s : State) (tn : Tenure) : Option Region :=
  (candidatesOf s tn).find? (fun r => !tn.tried.contains r && regionFree s r)

/-- The priority of a tenure's `LAUNCH` (R63, R67). -/
def Tenure.prio (s : State) (tn : Tenure) : Nat :=
  match s.queues.get? tn.queue with
  | some x => match x.cmd? tn.cmd with
    | some c => x.prio c
    | none => 0
  | none => 0

/-- Whether no other `LAUNCH` of the same queue processor that waits for a region goes first (R67). -/
def admissionTurn (s : State) (tn : Tenure) : Bool :=
  s.tenures.all (fun (e : Nat × Tenure) =>
    e.2.phase != .admission || e.2.die != tn.die || (nextCandidate s e.2).isNone ||
      goesBefore s.nowNs (Tenure.prio s tn, tn.since, tn.queue) (Tenure.prio s e.2, e.2.since, e.2.queue))

/-- The pound whose placement decides: pound 0 at admission, the pound of the image at a re-placement (R84, R100, R365). -/
def Tenure.searchPound (tn : Tenure) : Nat :=
  if tn.phase == .replacing then
    match tn.image with
    | some i => if i.pound == noPound then 0 else i.pound
    | none => 0
  else 0

/-! ### Grant tokens (R80) -/

/-- The first grant token that a tenure's Gykan still lacks for a region: a region inside one die needs none. -/
def lackingToken (s : State) (t : Nat) (r : Region) : Option Nat :=
  if r.j < 10 then none else r.dies.find? (fun d => s.tokens[d]?.join != some t)

/-- Whether what a tenure's Gykan holds is what it takes first, in ascending order, for a region: tokens taken for another candidate may not be. -/
def tokensInOrder (s : State) (t : Nat) (r : Region) : Bool :=
  let held := (List.range 4).filter (fun d => s.tokens[d]?.join == some t)
  held == r.dies.take held.length

/-- A token taken, where no other tenure's Gykan holds it. -/
def takeGrantToken (s : State) (t d : Nat) : State :=
  if h : d < 4 then (if s.tokens[d].isNone then { s with tokens := s.tokens.set d (some t) } else s) else s

/-! ### The search -/

/-- A tenure has its region. At admission the lockkeeper starts; at a re-placement the current pound is loaded, or, outside a pound, the
tenure runs again (R84, R100, R352). -/
def regionGranted (s : State) (t : Nat) (tn : Tenure) : State :=
  if tn.phase == .replacing then
    let s := s.modTenure t (fun x => { x with place := none, load := none, codePage := none })
    if tn.lk.lstate == 1 then readLoad s t tn.lk.lpound.toNat 0 else runAgain s t
  else completeResumes (s.modTenure t (fun x => { x with phase := .running })) t stOk 0

/-- The search is over without a region (R84, R85, R100). -/
def searchFailed (s : State) (t : Nat) (tn : Tenure) (code : Nat) (arg detail : Nat) : State :=
  if tn.phase == .replacing then
    completeResumes (s.modTenure t (fun x => { x with phase := .paused })) t code (BitVec.ofNat 64 detail)
  else admissionFail s t code (BitVec.ofNat 64 arg) (BitVec.ofNat 64 detail)

/-- A candidate has failed; after `cands` failures, or the last candidate's, the search is over (R84, R85). -/
def candidateFailed (s : State) (t : Nat) (tn : Tenure) (r : Region) (f : Failure) : State :=
  let tn := { tn with tried := tn.tried ++ [r], failures := tn.failures ++ [f] }
  let s := { s with tenures := s.tenures.set t tn }
  if tn.g.cands ≤ tn.failures.length || (candidatesOf s tn).all (fun c => tn.tried.contains c) then
    let w := (worstFailure tn.failures).getD f
    searchFailed s t tn w.code w.arg w.detail
  else s

/-- An attempt on a candidate, by a Gykan that holds the tokens it needs, which it then releases (R80, R84). -/
def attempt (s : State) (t : Nat) (tn : Tenure) (r : Region) : State :=
  releaseTokens (match placePound s.repair tn.g tn.searchPound r with
    | .error f => candidateFailed s t tn r f
    | .ok _ => regionGranted (grantRegion s t r) t tn) t

/-- CANDIDATE_ATTEMPT (R80, R84 to R86): the first candidate that is FREE is tried; before one that spans dies the grant tokens are taken, one
after another in ascending die order. Tokens held for a candidate that is no longer the next are first released, so that no token is ever taken below
one that is held. -/
def candidateAttempt (t : Nat) (s : State) : State :=
  match s.tenures.get? t with
  | none => s
  | some tn =>
    if !(tn.phase == .admission || tn.phase == .replacing) || tn.region.isSome then s
    else if (candidatesOf s tn).isEmpty then searchFailed s t tn cNofitRegion 0 0
    else
      match nextCandidate s tn with
      | none => releaseTokens s t
      | some r =>
        if tn.phase == .admission && !admissionTurn s tn then releaseTokens s t
        else
          match lackingToken s t r with
          | some d => if tokensInOrder s t r then takeGrantToken s t d else releaseTokens s t
          | none => attempt s t tn r

/-- CANDIDATE_ATTEMPT (R84). -/
def execCandidateAttempt (s : State) : Host.Outcome State Fault Refusal :=
  match s.subj with
  | .tenure t => .next (if s.powered then candidateAttempt t s else s)
  | _ => .next s

/-! ### Plane grants (R79, R361) -/

/-- Whether the idle plane of a region may be granted: one tenure holds it, and no departed tenure's plane still drains (R79). -/
def planeIdle (s : State) (resident : Tenure) (r : Region) : Bool :=
  resident.partner.isNone && (s.planes.get? r.first).isNone

/-- The tag of a plane grant (R79): a fresh one, and never the resident's. -/
def planeTag (s : State) (resident : Nat) (r : Region) : Nat :=
  let g := grantTag s r
  if (s.tenures.get? resident).any (fun x => x.gtag == g) then (if 255 ≤ g then 1 else g + 1) else g

/-- The idle plane of a region granted (R78, R79): a fresh tag, the subtrees record both tenures, and what the resident had loaded into the
idle plane is zeroed. The plane runs at once where the resident's cannot (R368). -/
def grantPlane (s : State) (t resident : Nat) (r : Region) : State :=
  let g := planeTag s resident r
  let on := !ready s resident
  let s := modSubs (fun x => { x with tag := g, owners := x.owners ++ [t] }) r.subtrees s
  let s := s.modTenure resident (fun x => { x with
    partner := some t, active := x.active && !on, slots := 0, yielded := false, load := none, codePage := none })
  s.modTenure t (fun x => { x with region := some r, gtag := g, partner := some resident, active := on, slots := 0, yielded := false })

/-- PLANE_GRANT: the device OS asks; Gykan grants under R361 alone, and takes no grant token, for no subtree is FREE there (R80; DEDUCED,
assumption 83). -/
def planeGrant (t resident : Nat) (s : State) : State :=
  match s.tenures.get? t, s.tenures.get? resident with
  | some tn, some other =>
    match other.region with
    | none => s
    | some r =>
      let j := jRange tn.g.pounds
      if t = resident || !(tn.phase == .admission || tn.phase == .replacing) || tn.region.isSome || !planeIdle s other r
        || decide (r.j < j.1) || decide (j.2 < r.j) then s
      else
        match placeBeside s tn.g tn.searchPound r (some other) with
        | .error _ => s
        | .ok _ => releaseTokens (regionGranted (grantPlane s t resident r) t tn) t
  | _, _ => s

/-- PLANE_GRANT (R79, R361). -/
def execPlaneGrant (s : State) : Host.Outcome State Fault Refusal :=
  match s.subj with
  | .planes t resident => .next (if s.powered then planeGrant t resident s else s)
  | _ => .next s

end Sys2Proof.Machine
end

