-- ==== Sys2Proof/Machine/Passage.lean ====
section
/-! DEFINITION. The passage program (R352 to R360, R366, R368): the lockkeeper's instructions, what `enter` builds and a lock writes back,
predicates, and the alternation of two tenures of one region (R362). -/

namespace Sys2Proof.Machine

/-! ### Running a passage instruction (R352) -/

/-- What a passage instruction comes to. -/
inductive PStep where
  /-- It waits, or has faulted: `lpc` stays. -/
  | stay (s : State)
  /-- It is done: the next instruction follows. -/
  | next (s : State)
  /-- It is done, and jumps. -/
  | jump (s : State) (t : Nat)
  /-- It has retired the tenure. -/
  | retired (s : State)

/-- A fault of the lockkeeper (R369, R371). -/
def passageFault (s : State) (t code : Nat) (arg : W64) : State := engineFault s t code 9 extEnd 0xFF arg

/-- PASSAGE_STATE, which names `lpc` (R369). -/
def badPassage (s : State) (t : Nat) (tn : Tenure) : PStep := .stay (passageFault s t cPassageState (tn.lk.lpc.setWidth 64))

/-- The registers of a tenure's lockkeeper changed. -/
def modLk (s : State) (t : Nat) (f : Lockkeeper → Lockkeeper) : State := s.modTenure t (fun tn => { tn with lk := f tn.lk })

/-- The lockkeeper goes on at word `pc`, waiting for nothing; past the last word that a program can have it raises PASSAGE_STATE
(R352). -/
def passTo (s : State) (t pc : Nat) : State :=
  let s := s.modTenure t (fun tn => { tn with lk := { tn.lk with lpc := BitVec.ofNat 16 pc }, lkWait := .none, lkBlocked := false })
  if 65536 ≤ pc then passageFault s t cPassageState (BitVec.ofNat 64 (pc % 65536)) else s

/-- A passage instruction of `len` words run by the lockkeeper of the current tenure (R352). -/
def runPassage (len : Nat) (f : State → Nat → Tenure → PStep) (s : State) : Host.Outcome State Fault Refusal :=
  let t := s.cur.1
  match s.tenures.get? t with
  | none => .fault .noLockkeeper
  | some tn =>
    match f s t tn with
    | .stay s => .next s
    | .next s => .next (passTo s t (tn.lk.lpc.toNat + len))
    | .jump s x => .next (passTo s t x)
    | .retired s => .next s

/-! ### Memory that `enter` and a lock reach (R292, R304, R366) -/

/-- A range of addresses, and whether it is written. -/
abbrev MemRange := Nat × Nat × Bool

/-- Whether every range is translated, or what the first that is not meets. -/
def rangesReady (s : State) (t pasid : Nat) : List MemRange → HAccess
  | [] => .ok []
  | (va, len, w) :: r =>
    match hostRange s (.passage t) pasid va len w with
    | .ok _ => rangesReady s t pasid r
    | x => x

/-- Bytes of a range that is translated for the lockkeeper of `t`. -/
def readVa (s : State) (t pasid va len : Nat) : List Byte :=
  match hostRange s (.passage t) pasid va len false with
  | .ok parts => readParts s parts
  | _ => []

/-- Bytes written to a range that is translated for the lockkeeper of `t`. -/
def writeVa (s : State) (t pasid va : Nat) (bs : List Byte) : State :=
  match hostRange s (.passage t) pasid va bs.length true with
  | .ok parts => writeParts s parts bs
  | _ => s

/-- The cause of a PAGE_FAULT at an address (R267, R387). -/
def pageCause (s : State) (pasid va : Nat) : Nat :=
  if !canonical va then 0
  else if !isDevice va && s.noHost pasid then 1
  else match walk s pasid va with
    | .bad c => c
    | .invalid => 1
    | .ok _ => 2

/-- Goes on once every range is translated; else waits, or faults with PAGE_FAULT (R267). It waits too while a host-shared write that is ordered before
its accesses is not performed (R338, R340). -/
def withRanges (s : State) (t : Nat) (tn : Tenure) (rs : List MemRange) (k : PStep) : PStep :=
  match rangesReady s t tn.pasid rs with
  | .ok _ => if !rs.isEmpty && fencedOut s t (some extEnd) s.nextMsg then .stay s else k
  | .wait => .stay s
  | .ask va => .stay (askPage s (.passage t) tn.pasid va)
  | .bad va => .stay (passageFault (dropPageFail (.passage t) tn.pasid va s) t cPageFault (pageArg va (pageCause s tn.pasid va)))

/-- The bytes of a window's image: whole blocks (R291). -/
def WinE.bytes (w : WinE) : Nat := 256 * ceilDiv w.count 15

/-- A window's image with its words and flag bytes replaced; the last byte of each block, and what lies past the last word, stay
(R291). -/
def winImage (old : List Byte) (count : Nat) (word : Nat → Aw) : List Byte :=
  old.zipIdx.map (fun (e : Byte × Nat) =>
    let r := e.2 % 256
    let i := 15 * (e.2 / 256) + (if r < 240 then r / 16 else r - 240)
    if r = 255 ∨ count ≤ i then e.1
    else if r < 240 then BitVec.ofNat 8 ((word i).1.toNat >>> (8 * (r % 16)))
    else (word i).2)

/-- A word of a window's image; the Reserved bits of its flag byte are 0 (R9, R122, R291). -/
def imageAw (bs : List Byte) (i : Nat) : Aw :=
  let b := bs.drop (256 * (i / 15))
  (BitVec.ofNat 128 (leNat ((b.drop (16 * (i % 15))).take 16)), flagsOf ((b[240 + i % 15]?).getD 0))

/-- The bytes of a read-out element (R291). -/
def WinE.roSize (w : WinE) : Nat := if w.rofmt = 1 then 4 else 2

/-- The read-out of a window's words (R124, R292). -/
def WinE.readOut (w : WinE) (word : Nat → Aw) : List Byte :=
  (List.range w.count).flatMap (fun i => leBytes (awRead (if w.rofmt = 1 then .fp32 else .bf16) w.e0 (word i)) w.roSize)

/-- The words of a window as they stand: in its slice, or, where the pound has been left, as they settled; or in memory (R292, R366). -/
def winWords (s : State) (t : Nat) (tn : Tenure) (w : WinE) : Nat → Aw :=
  if w.isLocal then
    match (if tn.lk.lstate = 2 then tn.leftWins.get? w.wid else (tn.winNode? w).bind (fun n => s.wins.get? (key2 t n))) with
    | some r => fun i => (r.words.getD i 0, r.flags.getD i 0)
    | none => fun _ => (0, 0)
  else
    let bs := readVa s t tn.pasid (tn.wbaseOf w) w.bytes
    imageAw bs

/-- The ranges that publishing a window reaches. -/
def publishRanges (tn : Tenure) (back : Bool) (w : WinE) : List MemRange :=
  (if w.isLocal then (if back then [(tn.wbaseOf w, w.bytes, false), (tn.wbaseOf w, w.bytes, true)] else [])
    else if w.rofmt = 0 then [] else [(tn.wbaseOf w, w.bytes, false)])
  ++ (if w.rofmt = 0 then [] else [(tn.robaseOf w, w.count * w.roSize, true)])

/-- Windows published: their read-outs written, and local ones written back where `back` says so (R292, R359, R366). -/
def publish (t : Nat) (tn : Tenure) (back : Bool) : List WinE → State → State
  | [], s => s
  | w :: r, s =>
    let word := winWords s t tn w
    let s := if w.isLocal && back then
        writeVa s t tn.pasid (tn.wbaseOf w) (winImage (readVa s t tn.pasid (tn.wbaseOf w) w.bytes) w.count word)
      else s
    let s := if w.rofmt = 0 then s else writeVa s t tn.pasid (tn.robaseOf w) (w.readOut word)
    publish t tn back r s

/-- A gate word (R304). -/
def GateRt.wordBytes (g : GateRt) : List Byte := leBytes (g.arrived + g.early * 2 ^ 16 + g.gen * 2 ^ 32) 16

/-- The gates of the current pound of a tenure that have a memory image; of a pound that has been left, as they settled. -/
def gateImages (s : State) (t : Nat) (tn : Tenure) : List GateRt :=
  (if tn.lk.lstate = 2 then tn.leftGates else (gatesOf s t).map Prod.snd).filter (fun g => g.gaddr != 0)

/-- Gates written back (R304). -/
def writeGates (t pasid : Nat) : List GateRt → State → State
  | [], s => s
  | g :: r, s => writeGates t pasid r (writeVa s t pasid g.gaddr g.wordBytes)

/-- The windows that leaving the current pound publishes: its local ones, and the global-home ones that name it (R292). -/
def Tenure.leavingWins (tn : Tenure) : List WinE := tn.g.wins.filter (fun w => w.pound == tn.lk.lpound.toNat)

/-- The write-backs and read-outs of a lock, or of `done` (R292, R304, R357, R366). -/
def writeBacks (s : State) (t : Nat) (tn : Tenure) (k : State → PStep) : PStep :=
  let ws := tn.leavingWins
  let gs := gateImages s t tn
  withRanges s t tn (ws.flatMap (publishRanges tn true) ++ gs.map (fun g => (g.gaddr, 16, true)))
    (k (wakeWaiters (writeGates t tn.pasid gs (publish t tn true ws s))))

/-- The local windows and the gates of a pound kept with its tenure as the pound is left (R366). -/
def keepLeft (s : State) (t : Nat) (tn : Tenure) : State :=
  let ws : Map WinRt := tn.leavingWins.foldl (fun (m : Map WinRt) (w : WinE) =>
    match (if w.isLocal then (tn.winNode? w).bind (fun n => s.wins.get? (key2 t n)) else none) with
    | some r => m.set w.wid r
    | none => m) []
  s.modTenure t (fun x => { x with leftWins := ws, leftGates := (gatesOf s t).map Prod.snd })

/-! ### Building a pound (R356) -/

/-- A task node at pound entry (R150, R157, R159). -/
def TaskRt.entry (code : List W32) (bankBytes : Nat) (fmt : Fmt) (inCh outCh : Vector (Option Nat) 16) (trigp : Nat) : TaskRt :=
  { st := .idle, pc := 0, g := Vector.replicate 16 0, a := Vector.replicate 8 0, v := Vector.replicate 8 0,
    p := Vector.replicate 4 0, sbcnt := Vector.replicate 8 0, sberr := 0, acts := 0, fflags := 0, srseed := 0, nullfwd := 0xFFFF,
    fmt := fmt, tvec := 0, tpc := 0, tcause := 0, targ := 0, tsrc := 0, tstat := 0, updpend := 0, code := code,
    bankBytes := bankBytes, bank := [], inp := noInputs, inCh := inCh, outCh := outCh, trigp := trigp, trigSeq := 0, srCount := 0,
    pend := [], wflags := [], atoms := [], tile := [], accNow := (0, []), wait := .none, hostDirty := false, nullLeft := none, rounds := [] }

/-- The channels at the input ports of a node. -/
def inChans (g : Graph) (n : Nat) : Vector (Option Nat) 16 :=
  Vector.ofFn (fun p => (g.chans.zipIdx.find? (fun (e : ChanE × Nat) => e.1.dst == n && e.1.iport == p.val)).map Prod.snd)

/-- The channels at the output ports of a node. -/
def outChans (g : Graph) (n : Nat) : Vector (Option Nat) 16 :=
  Vector.ofFn (fun p => (g.chans.zipIdx.find? (fun (e : ChanE × Nat) => e.1.src == n && e.1.oport == p.val)).map Prod.snd)

/-- The input port of a task's trigger channel (R151). -/
def trigPort (g : Graph) (n : Nat) : Nat := ((g.chans.find? (fun c => c.trig && c.dst == n)).map ChanE.iport).getD 0

/-- A channel at pound entry. -/
def ChanRt.entry (e : ChanE) : ChanRt := { e := e, buf := [], transit := [], opn := none, seg := false, used := 0, taken := false, feed := [] }

/-- An operator node at pound entry: counters at their start values (R218, R219). -/
def OperRt.entry (g : Graph) (n w : Nat) (fmt : Fmt) : OperRt :=
  { word := w, fmt := fmt, halted := false, inCh := inChans g n, outCh := outChans g n,
    ctr := if wOp w = 0x35 then bitsOf w 96 16 else if wOp w = 0x36 then bitsOf w 80 16 else 0
    window := [], last := 0, inSeg := none, drain := false, par := false, copies := 0 }

/-- An address generator at pound entry. -/
def GenRt.entry (g : Graph) (n : Nat) (x : NodeE) (ws : List Nat) (fmt : Fmt) : GenRt :=
  { words := ws, fmt := fmt, halted := false, bankBytes := x.bank * 256, bank := [], inCh := inChans g n, outCh := outChans g n,
    nest := none, made := 0, last := 0 }

/-- A controller at pound entry: a root acts as though it had received one Permit of carg 1 (R227). -/
def CtrlRt.entry (g : Graph) (n w : Nat) (fmt : Fmt) : CtrlRt :=
  let c : CtrlRt := { word := w, fmt := fmt, halted := false, inCh := inChans g n, outCh := outChans g n, want := 0,
                      issued := Vector.replicate 16 0, returned := Vector.replicate 16 0, rootDone := false,
                      made := Vector.replicate 16 0, last := 0, ord := [] }
  if c.root then { c with want := c.asked 1 } else c

/-- A matrix node at pound entry (R236). -/
def MatRt.entry (g : Graph) (n w : Nat) (fmt : Fmt) : MatRt :=
  let m : MatRt := { word := w, fmt := fmt, halted := false, inCh := inChans g n, outCh := outChans g n, wbufs := [], wfill := 0,
                     wcur := 0, rows := [], acc := [], live := [], seqreg := [], r := 0, p := 0, fired := false, drain := none }
  { m with wbufs := List.replicate m.wdepth { cols := [], full := false } }

/-- A gate at pound entry, from its word and, with init = 0, from the gate word at its address (R303, R304). -/
def GateRt.entry (g : Graph) (n w now : Nat) (img : Nat) : GateRt :=
  let outs := (g.chans.zipIdx.filter (fun (e : ChanE × Nat) => e.1.src == n)).map (fun (e : ChanE × Nat) => (e.1.oport, e.2, 0))
  let img := if bitOf w 113 then 0 else img
  let r : GateRt := { gid := bitsOf w 114 6, count := bitsOf w 96 16, texp := bitsOf w 92 4, gaddr := bitsOf w 0 57,
                      arrived := bitsOf img 0 16, early := bitsOf img 16 16, gen := bitsOf img 32 32, outs := outs, waiters := [],
                      timer := none, excess := none, halted := false }
  r.retime now false

/-- The slice copy of a local window at pound entry (R292). -/
def WinRt.entry (w : WinE) (img : List Byte) : WinRt :=
  if w.init then { words := [], flags := [] }
  else
    { words := (List.range w.count).map (fun i => (i, (imageAw img i).1))
      flags := (List.range w.count).map (fun i => (i, (imageAw img i).2)) }

/-- A node of the pound put in place, by its kind and its word (R31, R140, R356). -/
def buildNode (s : State) (t : Nat) (tn : Tenure) (l : Load) (x : NodeE) (n : Nat) : State :=
  let g := tn.g
  let k := key2 t n
  let ws := (l.words.get? n).getD []
  let w := l.word n
  let fmt := l.fmts.getD n (g.fmts.getD n Fmt.zero)
  match x.kind with
  | 0 => { s with tasks := s.tasks.set k (TaskRt.entry (codeOf x ws) (x.bank * 256) fmt (inChans g n) (outChans g n) (trigPort g n)) }
  | 1 => { s with opers := s.opers.set k (OperRt.entry g n w fmt) }
  | 2 => { s with gens := s.gens.set k (GenRt.entry g n x ws fmt) }
  | 3 => { s with ctrls := s.ctrls.set k (CtrlRt.entry g n w fmt) }
  | 4 => { s with mats := s.mats.set k (MatRt.entry g n w fmt) }
  | _ =>
    if wOp w = 0x60 then
      match g.wins.find? (fun e => e.isLocal && e.wid == bitsOf w 114 6 && e.pound == x.pound) with
      | some e => { s with wins := s.wins.set k (WinRt.entry e (readVa s t tn.pasid (tn.wbaseOf e) e.bytes)) }
      | none => s
    else if wOp w = 0x61 then
      { s with gates := s.gates.set k (GateRt.entry g n w (s.nowOn ({ tn with place := some l.place }.dieOf n)) (leNat (readVa s t tn.pasid (bitsOf w 0 57) 16))) }
    else s

/-- The nodes of a pound put in place. -/
def buildNodes (t : Nat) (tn : Tenure) (l : Load) : List (NodeE × Nat) → State → State
  | [], s => s
  | (x, n) :: r, s => buildNodes t tn l r (if x.pound = l.place.pound then buildNode s t tn l x n else s)

/-- The parity of each tap: its gate's gen[0] at pound entry (R309). -/
def setTaps (s : State) (t : Nat) : State :=
  { s with opers := s.opers.map (fun (e : Nat × OperRt) =>
      if keyT e.1 == t && wOp e.2.word == 0x37 then
        match (gateAt s t (bitsOf e.2.word 32 32)).bind (fun g => s.gates.get? (key2 t g)) with
        | some g => (e.1, { e.2 with par := bitOf g.gen 0 })
        | none => e
      else e) }

/-- Global-home windows that name a pound and have init = 1 are zeroed as it is entered (R291). -/
def zeroWins (t : Nat) (tn : Tenure) (pound : Nat) : List WinE → State → State
  | [], s => s
  | w :: r, s =>
    zeroWins t tn pound r
      (if !w.isLocal && w.init && w.pound == pound then
        writeVa s t tn.pasid (tn.wbaseOf w) (winImage (readVa s t tn.pasid (tn.wbaseOf w) w.bytes) w.count (fun _ => (0, 0)))
      else s)

/-- The ranges of memory that the entry of a pound reaches. -/
def entryRanges (tn : Tenure) (l : Load) : List MemRange :=
  let pound := l.place.pound
  tn.g.wins.flatMap (fun w =>
    if w.pound != pound then []
    else if w.isLocal then (if w.init then [] else [(tn.wbaseOf w, w.bytes, false)])
    else if w.init then [(tn.wbaseOf w, w.bytes, false), (tn.wbaseOf w, w.bytes, true)] else [])
  ++ tn.g.nodes.zipIdx.flatMap (fun (e : NodeE × Nat) =>
    let w := l.word e.2
    if e.1.pound == pound && e.1.kind == 5 && wOp w == 0x61 && !bitOf w 113 then [(bitsOf w 0 57, 16, false)] else [])

/-- The records of a virtual queue count as injected for the tenure that enters the channel's pound (R71). -/
def countQueue (s : State) (t id : Nat) : State :=
  match s.vqs.get? id with
  | some q =>
    if q.output then s
    else ({ s with vqs := s.vqs.set id { q with counted := q.ring.length } }).modTenure t (fun tn => tn.injG (vqPoint id) q.ring.length)
  | none => s

/-- The channels of a pound put in place; the records of a bound range wait to enter, and count as injected at once; so do the records of
a bound virtual queue (R71, R233). -/
def buildChans (t : Nat) (tn : Tenure) (pound : Nat) : List (ChanE × Nat) → State → State
  | [], s => s
  | (e, c) :: r, s =>
    if tn.chanPound e ≠ pound then buildChans t tn pound r s
    else
      let put (feed : List Rec) : State := { s with chans := s.chans.set (key2 t c) { ChanRt.entry e with feed := feed } }
      let s := match tn.binds.get? c with
        | some (.arg off len) =>
          let rs := match argRecords tn.args off len with
            | .ok rs => rs
            | .error _ => []
          -- a record longer than the channel's width is not delivered (R35)
          let fits := rs.filter (fun r => decide (hLen r.hdr ≤ e.width))
          let s := (put fits).modTenure t (fun x => x.injP (chanPoint extEnd c) fits.length)
          match rs.find? (fun r => decide (e.width < hLen r.hdr)) with
          | some r => passageFault s t cRecordLength r.hdr
          | none => s
        | some (.vq id) => countQueue (put []) t id
        | _ => put []
      buildChans t tn pound r s

/-- The plane switch of `enter`: every part of the pound takes its entry state (R356). -/
def switchPound (s : State) (t : Nat) (tn : Tenure) (l : Load) : State :=
  let pound := l.place.pound
  let s := zeroWins t tn pound tn.g.wins (clearParts s t)
  let s := s.modTenure t (fun x => { x with
    place := some l.place, load := none, haltedStreams := [], enteredAt := s.clk, leftWins := [], leftGates := [], streamCache := [], lkEnter := tn.lk
    lk := { tn.lk with lpound := BitVec.ofNat 16 pound, lstate := 1, lhint := 0xFFFF, ireq := 0 } })
  let s := buildChans t tn pound tn.g.chans.zipIdx (buildNodes t tn l tn.g.nodes.zipIdx s)
  launchFirst (wakeWaiters (setTaps s t)) t

/-- Whether every external end of a pound but a combine result channel is bound (R356). -/
def endsBound (tn : Tenure) (pound : Nat) : Bool :=
  tn.g.chans.zipIdx.all (fun (e : ChanE × Nat) =>
    !(e.1.src == extEnd || e.1.dst == extEnd) || tn.chanPound e.1 != pound || isResultChan tn.g e.2 || (tn.binds.get? e.2).isSome)

/-- `enter k` (R356): its own load, or the hinted one, is awaited; then the planes switch. Whether loads that failed under the hint count
toward the four of R98 is not said: here they do not, and the load that `enter` starts has four tries (DESIGN CHOICE, assumption 75). -/
def doEnter (k : Nat) (s : State) (t : Nat) (tn : Tenure) : PStep :=
  if tn.lk.lstate == 1 || !endsBound tn k then badPassage s t tn
  else
    let own := tn.lk.lhint.toNat != k || tn.lk.ireq != 0
    let begin_ (s : State) : PStep := .stay (readLoad (s.modTenure t (fun x => { x with load := none, lkWait := .begun })) t k 0)
    match tn.load with
    | none => begin_ s
    | some l =>
      if own && tn.lkWait != .begun then begin_ s
      else if !l.committed then .stay s
      else withRanges s t tn (entryRanges tn l) (.next (switchPound s t tn l))

/-- `enter` (R356). -/
def execEnter (k : BitVec 12) (s : State) : Host.Outcome State Fault Refusal := runPassage 1 (doEnter k.toNat) s

/-! ### Quiet, locks and settling (R355, R357, R359) -/

/-- Waits for a wave of a scope to declare quiet, then goes on (R325): `before` precedes the request. -/
def awaitQuiet (graph : Bool) (before : State → State) (s : State) (t : Nat) (tn : Tenure) (k : PStep) : PStep :=
  match tn.lkWait with
  | .quiet _ .quiet => k
  | .quiet _ _ => .stay s
  | _ => .stay ((before s).modTenure t (fun x => { x with lkWait := .quiet graph .asked }))

/-- Whether the root controller of the pound, where it has controllers, has reported its final Done (R227). -/
def rootsDone (s : State) (t : Nat) : Bool := (partsOf s.ctrls t).all (fun (e : Nat × CtrlRt) => !e.2.root || e.2.rootDone)

/-- A lock's root Done, flush and quiet (R357). -/
def drainPound (s : State) (t : Nat) (tn : Tenure) (k : PStep) : PStep :=
  match tn.lkWait with
  | .quiet _ _ => awaitQuiet true id s t tn k
  | _ => if rootsDone s t then awaitQuiet true (fun s => flushTiles s t) s t tn k else .stay s

/-- Records that a pound's virtual queues counted as injected are counted no more once it is left (R71). -/
def uncountQueues (t : Nat) : List (Nat × VqRt) → State → State
  | [], s => s
  | (id, q) :: r, s =>
    uncountQueues t r (match q.bound with
      | some (o, _) => if o = t ∧ 0 < q.counted then
          ({ s with vqs := s.vqs.set id { q with counted := 0 } }).modTenure t (fun tn => tn.conG (vqPoint id) q.counted) else s
      | none => s)

/-- A pound is left (R357): its parts are gone, what its virtual queues hold is counted at the next `enter`, and its writes come before every access
of a pound entered later (R338). -/
def leavePound (s : State) (t : Nat) : State := fenceWrites (uncountQueues t s.vqs (clearParts s t)) t (fun _ => true)

/-- `lock` (R357). -/
def doLock (hv : Bool) (k : Nat) (s : State) (t : Nat) (tn : Tenure) : PStep :=
  if tn.lk.lstate != 1 then badPassage s t tn
  else
    match tn.lkWait with
    | .none =>
      if hv then
        let s1 := s.modTenure t (fun x => { x with lk := { x.lk with lhint := BitVec.ofNat 16 k }, lkWait := .begun })
        let same := tn.lk.lhint.toNat == k && tn.load.isSome
        .stay (if tn.partner.isSome || same then s1
          -- the hinted load's reading begins under no `enter`
          else (readLoad (s1.modTenure t (fun x => { x with load := none, codePage := none })) t k 0))
      else drainPound s t tn (.stay s)
    | _ => drainPound s t tn (writeBacks s t tn (fun s => .next (modLk (leavePound (keepLeft s t tn) t) t (fun l => { l with lstate := 2 }))))

/-- `lock` (R357). -/
def execLock (hv : Bool) (k : BitVec 12) (s : State) : Host.Outcome State Fault Refusal := runPassage 1 (doLock hv k.toNat) s

/-- `quiet` (R325, R355); `p`: pound scope. -/
def execQuiet (p : Bool) (s : State) : Host.Outcome State Fault Refusal :=
  runPassage 1 (fun s t tn => if tn.lk.lstate != 1 then badPassage s t tn else awaitQuiet (!p) id s t tn (.next s)) s

/-- `settle w` (R359). -/
def doSettle (w : Nat) (s : State) (t : Nat) (tn : Tenure) : PStep :=
  match tn.g.wins.find? (fun x => x.wid == w) with
  | none => badPassage s t tn
  | some x =>
    if tn.lk.lstate != 1 || (x.isLocal && x.pound != tn.lk.lpound.toNat) then badPassage s t tn
    else
      awaitQuiet true (fun s => flushTiles s t) s t tn
        (withRanges s t tn (publishRanges tn true x) (.next (wakeWaiters (publish t tn true [x] s))))

/-- `settle` (R359). -/
def execSettle (w : BitVec 6) (s : State) : Host.Outcome State Fault Refusal := runPassage 1 (doSettle w.toNat) s

/-! ### Retirement (R355, R366) -/

/-- Steps 4 to 6 of R366. -/
def retire (s : State) (t status : Nat) (result detail : W64) : State :=
  removeTenure (leaveRegion (launchLast (releaseBinds s t) t status result detail) t) t

/-- `done` and `fault` (R366): the last lock, the write-backs, with which the pound's gates are live no more (R305), the confirming read, and
retirement. -/
def doRetire (status : Nat) (result detail : Tenure → W64) (s : State) (t : Nat) (tn : Tenure) : PStep :=
  match tn.lkWait with
  | .begun => .retired (retire s t status (result tn) (detail tn))
  | .confirm => .stay s
  | _ =>
    let last := writeBacks s t tn (fun s =>
      .stay ({ s with gates := dropParts s.gates t }.modTenure t (fun x => { x with lkWait := .confirm })))
    if tn.lk.lstate == 2 then last else drainPound s t tn last

/-- `done` (R366). -/
def execDone (s : State) : Host.Outcome State Fault Refusal :=
  runPassage 1 (doRetire stOk (fun tn => BitVec.ofNat 64 tn.handle) (fun _ => 0)) s

/-- `fault v` (R355, R366): the detail word is the one R355 gives it, not the node and pound that R66 gives any other fault code (DEDUCED,
assumption 74). -/
def execFault (v : BitVec 16) (s : State) : Host.Outcome State Fault Refusal :=
  runPassage 1 (doRetire cUserFault (fun _ => v.setWidth 64) (fun tn => BitVec.ofNat 64 (v.toNat + tn.lk.lpound.toNat * 2 ^ 24))) s

/-! ### Binding (R358) -/

/-- A channel's binding set; the virtual queue of an earlier one is free again (R358). -/
def setBind (s : State) (t c : Nat) (b : Binding) : State :=
  let s := { s with vqs := s.vqs.map (fun (e : Nat × VqRt) =>
    if e.2.bound == some (t, c) then (e.1, { e.2 with bound := none, counted := 0 }) else e) }
  s.modTenure t (fun tn => { tn with binds := tn.binds.set c b })

/-- `bind` (R358): not while the channel's pound is entered. -/
def doBind (c : Nat) (b : Binding) (s : State) (t : Nat) (tn : Tenure) : PStep :=
  match tn.g.chans[c]? with
  | none => badPassage s t tn
  | some e => if tn.lk.lstate == 1 && tn.chanPound e == tn.lk.lpound.toNat then badPassage s t tn else .next (setBind s t c b)

/-- `bind c, vq, off` (R70, R358, R391): BIND_QUEUE for a queue that is unknown, another process's, of the other direction, or cut off from
its peer; BIND_BUSY for one that is bound to another port. -/
def doBindVq (c off : Nat) (s : State) (t : Nat) (tn : Tenure) : PStep :=
  let id := tn.argWord off % 4294967296
  let wrong (code : Nat) : PStep := .stay (passageFault s t code (BitVec.ofNat 64 c))
  match doBind c (.vq id) s t tn with
  | .next s' =>
    match s.vqs.get? id with
    | none => wrong cBindQueue
    | some q =>
      if q.pasid != tn.pasid || q.output != extDst tn.g c || q.bridgeLost then wrong cBindQueue
      else
        match q.bound with
        | some p => if p = (t, c) then .next s else wrong cBindBusy
        | none => .next { s' with vqs := s'.vqs.modify id (fun q => { q with bound := some (t, c), counted := 0 }) }
  | x => x

/-- BIND_ARG (R358). -/
def execBindArg (c : BitVec 24) (off : BitVec 28) (len : BitVec 32) (s : State) : Host.Outcome State Fault Refusal :=
  runPassage 3 (doBind c.toNat (.arg off.toNat len.toNat)) s

/-- BIND_VQ (R358). -/
def execBindVq (c : BitVec 24) (off : BitVec 28) (s : State) : Host.Outcome State Fault Refusal :=
  runPassage 3 (doBindVq c.toNat off.toNat) s

/-- BIND_XFER (R358). -/
def execBindXfer (c : BitVec 24) (port : BitVec 28) (s : State) : Host.Outcome State Fault Refusal :=
  runPassage 3 (doBind c.toNat (.xfer port.toNat)) s

/-- BIND_ACCS (R358). -/
def execBindAccs (c : BitVec 24) (port : BitVec 28) (wid : BitVec 32) (s : State) : Host.Outcome State Fault Refusal :=
  runPassage 3 (doBind c.toNat (.accs port.toNat wid.toNat)) s

/-- BIND_XF (R358): the ratio fields hold `a - 1` and `b - 1` (R279). -/
def execBindXf (c : BitVec 24) (x : BitVec 28) (a b : BitVec 4) (s : State) : Host.Outcome State Fault Refusal :=
  runPassage 3 (doBind c.toNat (.xf x.toNat (a.toNat + 1) (b.toNat + 1))) s

/-- BIND_PRED (R358). -/
def execBindPred (c : BitVec 24) (m : BitVec 28) (s : State) : Host.Outcome State Fault Refusal :=
  runPassage 3 (doBind c.toNat (.pred m.toNat)) s

/-! ### Control flow, predicates and counters (R354, R355) -/

/-- A bit of a mask set or cleared. -/
def putBit (x : BitVec 8) (m : BitVec 3) (b : Bool) : BitVec 8 :=
  if b then x ||| (1#8 <<< m.toNat) else x &&& ~~~(1#8 <<< m.toNat)

/-- The lockkeeper waits as one blocked node (R354). -/
def waitBlocked (s : State) (t : Nat) : PStep := .stay (s.modTenure t (fun tn => { tn with lkBlocked := true }))

/-- Whether a predicate record for predicate `m` stands at its channel, to be applied first (R354, R368). -/
def predicateAhead (s : State) (t : Nat) (tn : Tenure) (m : Nat) : Bool :=
  (partsOf s.chans t).any (fun (e : Nat × ChanRt) => e.2.e.dst == extEnd && !e.2.buf.isEmpty && tn.binds.get? e.1 == some (.pred m))

/-- `choose` (R355), after every record for its predicate that has come (R368). -/
def execChoose (neg : Bool) (m : BitVec 3) (t : BitVec 16) (s : State) : Host.Outcome State Fault Refusal :=
  runPassage 1 (fun s tt tn =>
    if predicateAhead s tt tn m.toNat then .stay s
    else if !tn.lk.qvalid.getLsbD m.toNat then waitBlocked s tt
    else
      let s := modLk s tt (fun l => { l with qvalid := putBit l.qvalid m false })
      if (tn.lk.qval.getLsbD m.toNat) != neg then .jump s t.toNat else .next s) s

/-- `waitp` (R355). -/
def execWaitp (m : BitVec 3) (s : State) : Host.Outcome State Fault Refusal :=
  runPassage 1 (fun s t tn => if tn.lk.qvalid.getLsbD m.toNat then .next s else waitBlocked s t) s

/-- `setp` (R354, R355). -/
def execSetp (v : Bool) (m : BitVec 3) (s : State) : Host.Outcome State Fault Refusal :=
  runPassage 1 (fun s t _ => .next (modLk s t (fun l => { l with qval := putBit l.qval m v, qvalid := putBit l.qvalid m true }))) s

/-- `jmp` (R355). -/
def execJmp (t : BitVec 16) (s : State) : Host.Outcome State Fault Refusal := runPassage 1 (fun s _ _ => .jump s t.toNat) s

/-- A passage counter. -/
def Lockkeeper.counter (l : Lockkeeper) (k : BitVec 2) : BitVec 20 :=
  match k.toNat with | 0 => l.n0 | 1 => l.n1 | 2 => l.n2 | _ => l.n3

/-- The registers with a passage counter set. -/
def Lockkeeper.setCounter (l : Lockkeeper) (k : BitVec 2) (v : BitVec 20) : Lockkeeper :=
  match k.toNat with
  | 0 => { l with n0 := v }
  | 1 => { l with n1 := v }
  | 2 => { l with n2 := v }
  | _ => { l with n3 := v }

/-- `count` (R355). -/
def execCount (k : BitVec 2) (v : BitVec 20) (s : State) : Host.Outcome State Fault Refusal :=
  runPassage 1 (fun s t _ => .next (modLk s t (fun l => l.setCounter k v))) s

/-- `dec.jnz` (R355). -/
def execDecJnz (k : BitVec 2) (t : BitVec 16) (s : State) : Host.Outcome State Fault Refusal :=
  runPassage 1 (fun s tt tn =>
    let v := tn.lk.counter k - 1
    let s := modLk s tt (fun l => l.setCounter k v)
    if v != 0 then .jump s t.toNat else .next s) s

/-- `wave P` (R322, R355). -/
def execWave (p : BitVec 17) (s : State) : Host.Outcome State Fault Refusal :=
  runPassage 1 (fun s t _ => .next (modLk s t (fun l => { l with wper := p }))) s

/-- `ireload` (R355). -/
def execIreload (s : State) : Host.Outcome State Fault Refusal :=
  runPassage 1 (fun s t tn =>
    if tn.lk.lstate != 2 then badPassage s t tn else .next (modLk s t (fun l => { l with ireq := l.ireq ||| 1 }))) s

/-- `yield` (R355, R362): without effect where there is no partner that is ready. -/
def execYield_ (s : State) : Host.Outcome State Fault Refusal :=
  runPassage 1 (fun s t tn => .next (match tn.partner with
    | some p => if ready s p then s.modTenure t (fun x => { x with yielded := true }) else s
    | none => s)) s

/-! ### Watchpoints (R360) -/

/-- `watch` (R360). -/
def execWatch (w : BitVec 2) (rd wr at_ arg : Bool) (base : BitVec 57) (units : BitVec 16) (mask : BitVec 8) (s : State) :
    Host.Outcome State Fault Refusal :=
  runPassage 4 (fun s t tn =>
    let b := if arg then tn.argWord base.toNat else base.toNat
    let p : Watchpoint := { rd := rd, wr := wr, at_ := at_, base := b, units := units.toNat + 1, mask := mask }
    .next (s.modTenure t (fun x => { x with watch := x.watch.set w.toNat (some p) }))) s

/-- `unwatch` (R355, R360). -/
def execUnwatch (w : BitVec 2) (s : State) : Host.Outcome State Fault Refusal :=
  runPassage 1 (fun s t _ => .next (s.modTenure t (fun x => { x with watch := x.watch.set w.toNat none }))) s

/-! ### Events (R354, R362) -/

/-- PREDICATE_RECORD: a record on a channel bound to a predicate is consumed, and, a Data record with a unit, sets it (R354). -/
def predicateRecord (t c : Nat) (s : State) : State :=
  match s.tenures.get? t, s.chan? t c with
  | some tn, some ch =>
    match tn.binds.get? c, ch.buf with
    | some (.pred m), r :: _ =>
      if ch.e.dst != extEnd || !partsMove s t then s
      else
        let s := orderRec (popHead s t c) t extEnd r
        match rType r == tData, r.units with
        | true, u :: _ =>
          (modLk s t (fun l => { l with qval := putBit l.qval (BitVec.ofNat 3 m) (u.getLsbD 0),
                                        qvalid := putBit l.qvalid (BitVec.ofNat 3 m) true })).modTenure t
            (fun tn => { tn with lkBlocked := false })
        | _, _ => s
    | _, _ => s
  | _, _ => s

/-- PREDICATE_RECORD (R354). -/
def execPredicateRecord (s : State) : Host.Outcome State Fault Refusal :=
  match s.subj with
  | .chan t c => .next (predicateRecord t c s)
  | _ => .next s

/-- Whether a tenure's pound is at a segment boundary (R43): no segment is open, no activation runs, and nothing is in transit, a
lighter's request included (R281). R43 does not say whether a task that forwards the Nulls of a Null trigger, without an activation, leaves its pound
at one; the model's choice is that it does not (DESIGN CHOICE, assumption 95). -/
def atBoundary (s : State) (t : Nat) : Bool :=
  (partsOf s.chans t).all (fun (e : Nat × ChanRt) => !e.2.seg && e.2.transit.isEmpty && e.2.opn.isNone)
    && (partsOf s.tasks t).all (fun (e : Nat × TaskRt) =>
        e.2.nullLeft.isNone && !(e.2.st == .running || e.2.st == .blocked))
    && s.lighters.all (fun (e : Nat × LighterRt) => e.2.reqs.all (fun q => q.t != t))

/-- SEGMENT_BOUNDARY_SWITCH: at a segment boundary of the active tenure a slot ends; a ready partner takes its turn after a `yield`, or
after seven slots, once the residuals are flushed (R362). -/
def segmentSwitch (t : Nat) (s : State) : State :=
  match s.tenures.get? t with
  | none => s
  | some tn =>
    match tn.partner with
    | none => s
    | some p =>
      if !tn.active || !(tn.phase == .running) || !atBoundary s t then s
      else
        let slots := tn.slots + 1
        if ready s p && (tn.yielded || decide (7 ≤ slots)) then
          let s := flushTiles s t
          if residualsHeld s t = 0 then takeTurn s p else s
        else s.modTenure t (fun x => { x with slots := slots })

/-- SEGMENT_BOUNDARY_SWITCH (R362). -/
def execSegmentBoundarySwitch (s : State) : Host.Outcome State Fault Refusal :=
  match s.subj with
  | .tenure t => .next (if s.powered then segmentSwitch t s else s)
  | _ => .next s

end Sys2Proof.Machine
end

