-- ==== Sys2Proof/Machine/Image.lean ====
section
/-! DEFINITION. The context image of a paused tenure (R155, R231, R254, R363, R364): its header, and the entries of its nodes and channels as
bytes. What the entries hold and in what order is R364's; how the pieces inside an entry are packed is not said, and is the model's choice
(assumption 32). -/

namespace Sys2Proof.Machine

/-! ### Pieces -/

/-- A list of numbers of `n` bytes each, preceded by its length. -/
def bytesList (n : Nat) (xs : List Nat) : List Byte := leBytes xs.length 4 ++ xs.flatMap (fun x => leBytes x n)

/-- A record whole: header and units (R38). -/
def recBytes (r : Rec) : List Byte := leBytes r.hdr.toNat 8 ++ unitBytes r.units

/-- Records whole, preceded by their number. -/
def recsBytes (rs : List Rec) : List Byte := leBytes rs.length 4 ++ rs.flatMap recBytes

/-- A number that may be absent. -/
def optBytes (x : Option Nat) : List Byte := match x with | some v => leBytes 1 1 ++ leBytes v 8 | none => leBytes 0 1

/-- A truth value. -/
def boolBytes (b : Bool) : List Byte := leBytes (if b then 1 else 0) 1

/-- Entries of a map with values of `n` bytes. -/
def mapBytes (n : Nat) (m : Map Nat) : List Byte := leBytes m.length 4 ++ m.flatMap (fun (e : Nat × Nat) => leBytes e.1 8 ++ leBytes e.2 n)

/-- A format table and scale registers (R125, R126). -/
def Fmt.bytes (f : Fmt) : List Byte :=
  (f.ins.toList ++ f.outs.toList ++ f.scl.toList).flatMap (fun w => leBytes w.toNat 4) ++ leBytes f.sclkind.toNat 1

/-! ### Node entries (R364) -/

/-- What a task waits for. -/
def WaitSt.bytes (w : WaitSt) : List Byte :=
  match w with
  | .none => leBytes 0 1
  | .quiet g _ => leBytes 1 1 ++ boolBytes g
  | .gate g e => leBytes 2 1 ++ leBytes g 4 ++ leBytes e.toNat 4
  | .word va _ least done => leBytes 3 1 ++ leBytes va 8 ++ leBytes least 8 ++ boolBytes done
  | .lookup va least => leBytes 4 1 ++ leBytes va 8 ++ leBytes least 8
  | .confirm => leBytes 5 1
  | .begun => leBytes 6 1
  | .lost => leBytes 7 1

/-- A watch flag with its pending destination: the operand specifier of the destination, the atomic's instruction, the argument, and the instructions issued
since (R380, R383). -/
def WFlag.bytes (f : WFlag) : List Byte :=
  optBytes (f.dst.map (fun o => o.bits.toNat)) ++ leBytes f.pc 8 ++ leBytes f.arg.toNat 8 ++ leBytes f.issued 4

/-- A task: bank partition; registers and predicates; RW system registers; activation state, its PC whole, in two's complement (R135); scoreboard,
with watch flags and their pending destinations (R155, R157, R159, R269, R290, R374, R383). -/
def TaskRt.image (k : TaskRt) : List Byte :=
  k.bank.read 0 k.bankBytes
    ++ k.g.toList.flatMap (fun x => leBytes x.toNat 4) ++ k.a.toList.flatMap (fun x => leBytes x.toNat 8)
    ++ k.v.toList.flatMap (fun x => leBytes x.toNat 8) ++ k.p.toList.flatMap (fun x => leBytes x.toNat 1)
    ++ leBytes k.fflags.toNat 1 ++ leBytes k.srseed.toNat 4 ++ leBytes k.nullfwd.toNat 2 ++ k.fmt.bytes ++ leBytes k.tvec.toNat 2
    ++ leBytes k.tpc.toNat 2 ++ leBytes k.tcause.toNat 2 ++ leBytes k.targ.toNat 8 ++ leBytes k.tsrc.toNat 2 ++ leBytes k.tstat.toNat 1
    ++ leBytes (match k.st with | .idle => 0 | .running => 1 | .blocked => 2 | .halted => 3) 1 ++ leBytes (k.pc % 2 ^ 64).toNat 8
    ++ leBytes k.acts.toNat 4 ++ k.inp.toList.flatMap (fun p => boolBytes p.cur ++ leBytes p.idx 2) ++ leBytes k.trigSeq 2
    ++ leBytes k.srCount 4 ++ k.wait.bytes ++ boolBytes k.hostDirty
    ++ (match k.nullLeft with | some (r, ps) => boolBytes true ++ recBytes r ++ bytesList 1 ps | none => boolBytes false)
    ++ mapBytes 8 k.rounds
    ++ k.sbcnt.toList.flatMap (fun x => leBytes x.toNat 1) ++ leBytes k.sberr.toNat 1 ++ leBytes k.updpend.toNat 1
    ++ leBytes k.wflags.length 4 ++ k.wflags.flatMap WFlag.bytes

/-- An operator: the state of R231. -/
def OperRt.image (o : OperRt) : List Byte :=
  boolBytes o.halted ++ leBytes o.ctr 4 ++ recsBytes o.window ++ leBytes o.last 1 ++ optBytes o.inSeg ++ boolBytes o.drain ++ boolBytes o.par
    ++ leBytes o.copies 4

/-- A record that may be absent. -/
def optRecBytes (r : Option Rec) : List Byte := r.elim (boolBytes false) (fun r => boolBytes true ++ recBytes r)

/-- An address generator: its bank partition, and the position in its nest, with what its run has read (R225, R231). -/
def GenRt.image (g : GenRt) : List Byte :=
  g.bank.read 0 g.bankBytes ++ boolBytes g.halted ++ leBytes g.made 4 ++ leBytes g.last 1
    ++ (match g.nest with
      | some n => boolBytes true ++ leBytes n.base 8 ++ leBytes n.seq 2 ++ leBytes n.run 8 ++ leBytes n.phase 1 ++ leBytes n.asked 8
          ++ mapBytes 8 n.got ++ optRecBytes n.held ++ boolBytes n.ended
      | none => boolBytes false)

/-- A controller: its counts (R228, R231). -/
def CtrlRt.image (c : CtrlRt) : List Byte :=
  boolBytes c.halted ++ leBytes c.want 8 ++ bytesList 8 c.issued.toList ++ bytesList 8 c.returned.toList ++ boolBytes c.rootDone
    ++ bytesList 8 c.made.toList ++ leBytes c.last 1

/-- A matrix node: the state of R254. -/
def MatRt.image (m : MatRt) : List Byte :=
  boolBytes m.halted
    ++ m.wbufs.flatMap (fun b => boolBytes b.full ++ leBytes b.cols.length 4 ++ b.cols.flatMap (fun c => leBytes c.length 4 ++ unitBytes c))
    ++ leBytes m.wfill 1 ++ leBytes m.wcur 1 ++ recsBytes m.rows
    ++ leBytes m.acc.length 4 ++ m.acc.flatMap (fun (e : Nat × W32) => leBytes e.1 4 ++ leBytes e.2.toNat 4)
    ++ leBytes m.live.length 4 ++ m.live.flatMap (fun (e : Nat × Bool) => leBytes e.1 4 ++ boolBytes e.2) ++ mapBytes 2 m.seqreg
    ++ leBytes m.r 4 ++ leBytes m.p 4 ++ boolBytes m.fired
    ++ (match m.drain with | some d => boolBytes true ++ leBytes d.row 4 ++ boolBytes d.clear ++ boolBytes d.cmd ++ boolBytes d.gone | none => boolBytes false)

/-- A gate: its word, with its owed counts, its waiters, and the cycles its timer has counted (R304, R307, R310, R327). -/
def GateRt.image (g : GateRt) : List Byte :=
  leBytes (g.arrived + g.early * 2 ^ 16 + g.gen * 2 ^ 32) 16
    ++ g.outs.flatMap (fun o => leBytes o.1 1 ++ leBytes o.2.2 4)
    ++ leBytes g.waiters.length 4 ++ g.waiters.flatMap (fun w => leBytes w.1 4 ++ leBytes w.2 4) ++ optBytes g.timer ++ boolBytes g.halted

/-- A local window: its settled words and flag bytes (R292). -/
def WinRt.image (w : WinRt) : List Byte :=
  leBytes w.words.length 4 ++ w.words.flatMap (fun (e : Nat × W128) => leBytes e.1 4 ++ leBytes e.2.toNat 16)
    ++ leBytes w.flags.length 4 ++ w.flags.flatMap (fun (e : Nat × BitVec 8) => leBytes e.1 4 ++ leBytes e.2.toNat 1)

/-- Runs of bytes by number. -/
def runsBytes (m : Map (List Byte)) : List Byte :=
  leBytes m.length 4 ++ m.flatMap (fun (e : Nat × List Byte) => leBytes e.1 8 ++ leBytes e.2.length 4 ++ e.2)

/-- A request parked in a lighter: its units and how far it has come, of a transform the row that is in it, what of it has been sent, and what has
come back (R279, R281). -/
def LReq.image (q : LReq) : List Byte :=
  unitBytes [q.u0, q.u1, q.u2, q.u3] ++ boolBytes q.started ++ bytesList 8 q.done ++ runsBytes q.parts ++ leBytes q.row 4 ++ leBytes q.sent 8
    ++ runsBytes q.got ++ bytesList 8 q.lost ++ boolBytes q.stopped ++ boolBytes q.err

/-- The requests of a node that are parked in lighters; any lighter may go on with one (R281). -/
def parkedBytes (s : State) (t n : Nat) : List Byte :=
  s.lighters.flatMap (fun (e : Nat × LighterRt) =>
    (e.2.reqs.filter (fun q => q.t == t && q.node == n)).flatMap LReq.image)

/-- The contents of a node's entry, by what stands in place of it (R364). -/
def nodeContents (s : State) (t n : Nat) : List Byte :=
  let k := key2 t n
  ((s.tasks.get? k).elim [] TaskRt.image) ++ ((s.opers.get? k).elim [] OperRt.image) ++ ((s.gens.get? k).elim [] GenRt.image)
    ++ ((s.ctrls.get? k).elim [] CtrlRt.image) ++ ((s.mats.get? k).elim [] MatRt.image) ++ ((s.gates.get? k).elim [] GateRt.image)
    ++ ((s.wins.get? k).elim [] WinRt.image) ++ parkedBytes s t n

/-- A node entry: identity, kind, length in bytes, contents (R364). -/
def nodeEntry (s : State) (t : Nat) (x : NodeE) (n : Nat) : List Byte :=
  let c := nodeContents s t n
  leBytes (n + x.kind * 2 ^ 24 + (8 + c.length) * 2 ^ 32) 8 ++ c

/-- The sticky uses left of a channel's head record (R37). -/
def ChanRt.usesLeft (c : ChanRt) : Nat := if c.e.sticky = 0xFFFF then 0xFFFF else max c.e.sticky 1 - c.used

/-- A channel entry: identity, sticky uses left, its records whole (R364), and the open bit of R42. -/
def chanEntry (n : Nat) (c : ChanRt) : List Byte :=
  leBytes n 4 ++ leBytes c.usesLeft 2 ++ boolBytes c.seg ++ recsBytes c.buf ++ recsBytes c.feed

/-! ### The image (R364) -/

/-- The passage block: the registers of R353 in offset order at their widths. -/
def Lockkeeper.packed (l : Lockkeeper) : Nat :=
  l.lpc.toNat + l.lpound.toNat * 2 ^ 16 + l.lstate.toNat * 2 ^ 32 + l.lhint.toNat * 2 ^ 40 + l.n0.toNat * 2 ^ 56 + l.n1.toNat * 2 ^ 76
    + l.n2.toNat * 2 ^ 96 + l.n3.toNat * 2 ^ 116 + l.qval.toNat * 2 ^ 136 + l.qvalid.toNat * 2 ^ 144 + l.wper.toNat * 2 ^ 152
    + l.ireq.toNat * 2 ^ 169

/-- Whether an access that is parked or pending names a host-shared address (R364): a request in a lighter, a `waita`, or the nest of a
stream that accesses global memory (R225). -/
def hostAccessHeld (s : State) (t : Nat) : Bool :=
  s.lighters.any (fun (e : Nat × LighterRt) => e.2.reqs.any (fun q => q.t == t && (!isDevice q.src || !isDevice q.dst)))
    || (partsOf s.tasks t).any (fun (e : Nat × TaskRt) => match e.2.wait with
      | .word va _ _ _ => !isDevice va
      | .lookup va _ => !isDevice va
      | _ => false)
    || (partsOf s.gens t).any (fun (e : Nat × GenRt) => 
      (e.2.op == 0x41 || e.2.op == 0x42) && e.2.mode != 2 && e.2.nest.any (fun n => !isDevice n.base))

/-- The capability bits a saved image needs (R364): bit 3, accumulators of form 0x08; bit 0, a host-shared access held. -/
def imageFeatures (s : State) (t : Nat) : Nat :=
  let dots := (partsOf s.mats t).any (fun (e : Nat × MatRt) => wOp e.2.word == 8 && !(e.2.acc.isEmpty && e.2.live.isEmpty))
  (if dots then 8 else 0) + (if hostAccessHeld s t then 1 else 0)

/-- The nodes of the pound that a tenure is in, with their identities. -/
def imageNodes (tn : Tenure) : List (NodeE × Nat) :=
  if tn.lk.lstate = 1 then tn.g.nodes.zipIdx.filter (fun (e : NodeE × Nat) => e.1.pound == tn.lk.lpound.toNat) else []

/-- The 512-bit header (R364). -/
def imageHeader (tn : Tenure) (features nnodes nchans : Nat) : Nat :=
  0x31474D49 + 1 * 2 ^ 32 + tn.lk.lpound.toNat * 2 ^ 48 + features * 2 ^ 64 + tn.objAddr * 2 ^ 128 + nnodes * 2 ^ 192 + nchans * 2 ^ 224
    + tn.lk.packed * 2 ^ 256

/-- A tenure's context image (R364): nodes, then channels, in ascending identity. -/
def imageOf (s : State) (t : Nat) (tn : Tenure) : Image :=
  let ns := imageNodes tn
  let cs := partsOf s.chans t
  let f := imageFeatures s t
  { features := f, pound := tn.lk.lpound.toNat, nnodes := ns.length, nchans := cs.length, lk := tn.lk
    bytes := leBytes (imageHeader tn f ns.length cs.length) 64
      ++ ns.flatMap (fun (e : NodeE × Nat) => nodeEntry s t e.1 e.2) ++ cs.flatMap (fun (e : Nat × ChanRt) => chanEntry e.1 e.2) }

end Sys2Proof.Machine
end

