-- ==== Sys2Proof/Machine/Pause.lean ====
section
/-! DEFINITION. Pausing, resuming and ending tenures (R43, R65, R100, R155, R363 to R368, R371 to R373): PAUSE, RESUME and KILL, fault records,
the held state, re-placement and migration. -/

namespace Sys2Proof.Machine

/-! ### Finding a tenure (R65) -/

/-- The tenure of a process that a handle names (R65). -/
def tenureOf (s : State) (pasid handle : Nat) : Option (Nat × Tenure) :=
  s.tenures.find? (fun (e : Nat × Tenure) => e.2.pasid == pasid && e.2.handle == handle)

/-- The handle in a PAUSE, RESUME or KILL command (R64). -/
def Cmd.handle (c : Cmd) : Nat := bitsOf (c.w 1) 0 32

/-! ### Starting a pause (R65, R363) -/

/-- A pause starts (R363). -/
def startPause (s : State) (t : Nat) (forced fault : Bool) (owner : Option (Nat × Nat)) : State :=
  s.modTenure t (fun tn => { tn with
    phase := .pausing, pause := some { forced := forced, since := s.clk, fault := fault, owner := owner, cmds := [] } })

/-- The FORCEDPAUSE capability (R68). -/
def State.forcedPause (s : State) : Bool := bitOf s.dawn.caps.toNat 1

/-- PAUSE (R65, R102, R363, R373). A graph with segmax = 0 is paused by force alone (R43). The spec does not say what a PAUSE does to a tenure
that a RESUME is placing anew: it completes with BAD_STATE, as one of a paused tenure does (DESIGN CHOICE, assumption 78). -/
def runPause (s : State) (q : Nat) (x : QueueRt) (c : Cmd) : State :=
  let forced := c.w 2 = 1
  let done (st : Nat) : State := complete s q c.idx st 0 0
  if forced && !s.forcedPause then done stBadCommand
  else
    match tenureOf s x.pasid c.handle with
    | none => done stBadHandle
    | some (t, tn) =>
      match tn.phase with
      | .admission => complete (releaseTokens (s.modTenure t (fun y => { y with phase := .pausedAdmission })) t) q c.idx stOk 0 0
      | .running => setCmd (startPause s t (forced || tn.g.segmax = 0) false (some (q, c.idx))) q c.idx .active
      | .pausing =>
        setCmd (s.modTenure t (fun y => { y with pause := y.pause.map (fun p => { p with cmds := p.cmds ++ [(q, c.idx)] }) })) q c.idx .active
      | _ => done stBadState

/-- PAUSE_PREFERRED (R65, R363). -/
def execPausePreferred (s : State) : Host.Outcome State Fault Refusal :=
  .next (commandEvent (fun c => c.op == 6 && c.w 2 == 0) runPause s)

/-- PAUSE_FORCED (R65, R363). -/
def execPauseForced (s : State) : Host.Outcome State Fault Refusal :=
  .next (commandEvent (fun c => c.op == 6 && c.w 2 == 1) runPause s)

/-- SEGMAX_EXPIRY: a preferred pause that has waited segmax cycles goes on as a forced one (R43, R363). -/
def segmaxExpiry (t : Nat) (s : State) : State :=
  match s.tenures.get? t with
  | none => s
  | some tn =>
    match tn.phase, tn.pause with
    | .pausing, some p =>
      if p.forced || decide (s.nowOn tn.baseDie < (p.since[tn.baseDie]?.getD 0) + tn.g.segmax) then s
      else s.modTenure t (fun x => { x with pause := some { p with forced := true, since := s.clk } })
    | _, _ => s

/-- SEGMAX_EXPIRY (R43). -/
def execSegmaxExpiry (s : State) : Host.Outcome State Fault Refusal :=
  match s.subj with
  | .tenure t => .next (if s.powered then segmaxExpiry t s else s)
  | _ => .next s

/-! ### Completing a pause (R363, R372) -/

/-- Whether the lockkeeper of a tenure, or Gykan for it, has reported a fault: the lockkeeper runs no further (R372). -/
def Tenure.lkFaulted (tn : Tenure) : Bool := (tn.laneFaults ++ tn.log).any (fun r => r.src == 9 || r.src == 10)

/-- Whether everything of a tenure has come to rest (R155, R347, R363): no output record is open, no message of it is in flight, every host-shared
write is performed in host memory, every record has landed, no residual is held, no lock stands between its quiet and its write-back (R368), and every fault record has been taken. -/
def atRest (s : State) (t : Nat) (tn : Tenure) : Bool :=
  (partsOf s.chans t).all (fun (e : Nat × ChanRt) => e.2.opn.isNone && e.2.transit.isEmpty) && !s.net.any (fun x => x.t == t)
    && !s.hostPort.any (fun w => w.t == t) && residualsHeld s t == 0 && tn.faultLane.isEmpty
    && (tn.lkFaulted || (match tn.lkWait with
      | .quiet _ .quiet => false
      | _ => true))

/-- A wait of a paused task: a request that a wave had taken up is made again (R327). -/
def WaitSt.restart (w : WaitSt) : WaitSt :=
  match w with
  | .quiet g .served => .quiet g .asked
  | _ => w

/-- The detail word of a fault record in a completion (R66): what Gykan found at an `enter` names the pound entered; a DETERMINISM_CLAIM
names its node alone; every other one names node and pound. -/
def faultDetail (tn : Tenure) (r : FaultRec) : Nat :=
  let at_ := match tn.passageAt with
    | some (.enter k) => k.toNat
    | _ => tn.lk.lpound.toNat
  if r.src = 10 then (if r.code = cConfigLoadUe ∨ r.code = cCodePage then at_ * 2 ^ 24 else r.arg.toNat)
  else if r.code = cDeterminism then r.node % 2 ^ 24
  else r.node % 2 ^ 24 + tn.lk.lpound.toNat * 2 ^ 24

/-- The image of a tenure is saved: the lockkeeper's waits are given up, timers stand still, waves stop, and a ready partner runs (R327, R361,
R363). -/
def saveImage (s : State) (t : Nat) (tn : Tenure) (p : PauseSt) : State :=
  let s := freeze (mapWaits s t WaitSt.restart) t tn p.since
  let s := s.modTenure t (fun x => { x with
    phase := .paused, image := some (imageOf s t tn), wave := none, lkWait := .none, lkBlocked := false })
  match tn.partner with
  | some p => if tn.active then takeTurn s p else s
  | none => s

/-- The tenure ends its pause faulted and held: an event is raised on a control core of the region's base die, and the `LAUNCH` completes with
the first fault record (R372, R373). -/
def hold (s : State) (t : Nat) (tn : Tenure) : State :=
  let s := { s with osEvents := s.osEvents ++ [OsEvent.fault t tn.baseDie] }.modTenure t (fun x => { x with phase := .held, heldSince := s.nowNs })
  match tn.log with
  | r :: _ => launchLast s t r.code r.arg (BitVec.ofNat 64 (faultDetail tn r))
  | [] => s

/-- The requests of a tenure are parked in its context image: they start again after resume (R281). -/
def parkReqs (s : State) (t : Nat) : State :=
  { s with lighters := s.lighters.map (fun (e : Nat × LighterRt) =>
      (e.1, { e.2 with reqs := e.2.reqs.map (fun q => if q.t == t then { q with started := false } else q) })) }

/-- A pause that has come to rest is complete (R65, R281, R363, R372, R383). -/
def finishPause (s : State) (t : Nat) (tn : Tenure) (p : PauseSt) : State :=
  let s := parkReqs (saveImage s t tn p) t
  let s := if p.fault then hold s t tn else s
  let s := match p.owner with
    | some (q, c) => complete s q c stOk 0 0
    | none => s
  completeAll (if p.fault then stBadState else stOk) 0 p.cmds s

/-- PAUSE_COMPLETE: a preferred pause takes effect at a segment boundary; then the tiles flush, and once everything rests the image is saved
(R43, R298, R363). -/
def pauseComplete (t : Nat) (s : State) : State :=
  match s.tenures.get? t with
  | none => s
  | some tn =>
    match tn.phase, tn.pause with
    | .pausing, some p =>
      if !p.forced && !atBoundary s t then s
      else
        let p := if p.forced then p else { p with forced := true, since := s.clk }
        let s := flushTiles (s.modTenure t (fun x => { x with pause := some p })) t
        match s.tenures.get? t with
        | some tn => if atRest s t tn then finishPause s t tn p else s
        | none => s
    | _, _ => s

/-- PAUSE_COMPLETE (R363). -/
def execPauseComplete (s : State) : Host.Outcome State Fault Refusal :=
  match s.subj with
  | .tenure t => .next (if s.powered then pauseComplete t s else s)
  | _ => .next s

/-! ### Fault records (R371 to R373) -/

/-- The fault log of a tenure with one record more: the first and fifteen further ones, and a count of the rest. A record that arrives in the
cycle of the first, from a lower node, is taken for the first (R372). -/
def Tenure.logFault (tn : Tenure) (now : Nat) (r : FaultRec) : Tenure :=
  match tn.log with
  | [] => { tn with log := [r], faultAt := now }
  | f :: rest =>
    let log := if tn.faultAt = now ∧ r.node < f.node then r :: f :: rest else tn.log ++ [r]
    { tn with log := log.take 16, logOver := tn.logOver + (log.length - 16) }

/-- FAULT_RECORD_ARRIVAL: the lockkeeper takes a fault record; the first forces a pause, or takes over the one in progress (R372, R383). A
record that reaches a held tenure is in no log; one that reaches a tenure paused without a fault stands in its log and starts no pause (DESIGN
CHOICE, assumption 47). -/
def faultArrival (t k : Nat) (s : State) : State :=
  match s.tenures.get? t with
  | none => s
  | some tn =>
    match tn.laneFaults[k]? with
    | none => s
    | some r =>
      let s := s.modTenure t (fun x => { x with faultLane := x.faultLane.eraseIdx k })
      let log (s : State) : State := s.modTenure t (fun x => x.logFault (s.nowOn tn.baseDie) r)
      match tn.phase with
      | .held => s
      | .running => startPause (log s) t true true none
      | .pausing => (log s).modTenure t (fun x => { x with pause := x.pause.map (fun p =>
          if p.forced then { p with fault := true } else { p with fault := true, forced := true, since := s.clk }) })
      | _ => log s

/-- FAULT_RECORD_ARRIVAL (R372). -/
def execFaultRecordArrival (s : State) : Host.Outcome State Fault Refusal :=
  match s.subj with
  | .faultRecord t k => .next (if s.powered then faultArrival t k s else s)
  | _ => .next s

/-- The blocks that lighters have issued for a tenure and that are not performed yet are discarded, and so is every host-shared write of it that still
stands at the host port (R281, R348). -/
def dropBlocks (s : State) (t : Nat) : State :=
  { s with
    net := s.net.filter (fun x => !(x.t == t && x.lighter.isSome && (match x.kind with
      | .block _ _ _ _ _ => true
      | _ => false)))
    hostPort := s.hostPort.filter (fun w => w.t != t) }

/-- A tenure leaves the fabric, without a completion (R281, R366): its bindings are released, its region drains. -/
def endTenure (s : State) (t : Nat) : State := removeTenure (leaveRegion (releaseBinds (dropBlocks s t) t) t) t

/-- HOLD_TIMEOUT: the device OS ends a tenure held for 10 s, and writes no completion (R373). -/
def holdTimeout (t : Nat) (s : State) : State :=
  match s.tenures.get? t with
  | some tn => if tn.phase == .held && decide (tn.heldSince + 10000000000 ≤ s.nowNs) then endTenure s t else s
  | none => s

/-- HOLD_TIMEOUT (R373). -/
def execHoldTimeout (s : State) : Host.Outcome State Fault Refusal :=
  match s.subj with
  | .tenure t => .next (if s.powered then holdTimeout t s else s)
  | _ => .next s

/-! ### KILL (R65, R102, R366, R373) -/

/-- A command completes with KILLED, no earlier than the KILL does (R65). -/
def completeAfter (s : State) (after : Nat × Nat) (q idx : Nat) : State :=
  let s := complete s q idx stKilled 0 0
  s.modQueue q (fun x => { x with pending := x.pending.map (fun p => if p.cmd == idx && p.fin then { p with after := some after } else p) })

/-- Commands that wait for a tenure complete with KILLED. -/
def killWaiting (after : Nat × Nat) : List (Nat × Nat) → State → State
  | [], s => s
  | (q, c) :: r, s => killWaiting after r (completeAfter s after q c)

/-- The PAUSE and RESUME commands that wait for a tenure. -/
def Tenure.waitingCmds (tn : Tenure) : List (Nat × Nat) :=
  tn.resumes ++ (match tn.pause with
    | some p => if tn.phase == .pausing then p.owner.toList ++ p.cmds else []
    | none => [])

/-- KILL (R65, R366): the tenure is gone at once; what it has in flight is dropped by its tag (R78, R348). -/
def runKill (s : State) (q : Nat) (x : QueueRt) (c : Cmd) : State :=
  match tenureOf s x.pasid c.handle with
  | none => complete s q c.idx stBadHandle 0 0
  | some (t, tn) =>
    let s := match tn.phase with
      | .admission => complete s tn.queue tn.cmd stKilled 0 0
      | .pausedAdmission => complete s tn.queue tn.cmd stKilled 0 0
      | .held => s
      | _ => launchLast s t stKilled (BitVec.ofNat 64 tn.handle) 0
    killWaiting (q, c.idx) tn.waitingCmds (complete (endTenure s t) q c.idx stOk 0 0)

/-- KILL (R65). -/
def execKill (s : State) : Host.Outcome State Fault Refusal := .next (commandEvent (fun c => c.op == 8) runKill s)

/-! ### RESUME (R65, R100, R102, R363, R365) -/

/-- The capability bits that an image needs and the module lacks (R365). -/
def missingFeatures (s : State) (tn : Tenure) : Nat :=
  let need := (tn.image.map Image.features).getD 0
  (List.range 4).foldl (fun m k => if bitOf need k && !bitOf s.dawn.caps.toNat k then m + 2 ^ k else m) 0

/-- RESUME (R65, R363): of a tenure that waits in admission, or whose pause is still in progress, the spec gives no result, and it completes with
BAD_STATE (DESIGN CHOICE, assumption 78). It goes on in place where the region is still held, and otherwise by re-placement (R100); a tenure paused in admission goes back
to it with its wait as it was (R102). -/
def runResume (s : State) (q : Nat) (x : QueueRt) (c : Cmd) : State :=
  let done (st : Nat) (detail : Nat) : State := complete s q c.idx st 0 (BitVec.ofNat 64 detail)
  match tenureOf s x.pasid c.handle with
  | none => done stBadHandle 0
  | some (t, tn) =>
    let wait (s : State) : State := setCmd (s.modTenure t (fun y => { y with resumes := y.resumes ++ [(q, c.idx)] })) q c.idx .active
    match tn.phase with
    | .pausedAdmission => (wait s).modTenure t (fun y => { y with phase := .admission })
    | .paused =>
      let miss := missingFeatures s tn
      if miss ≠ 0 then done cRestoreFeature miss
      else if tn.region.isSome then runAgain (wait s) t
      else (wait s).modTenure t (fun y => { y with phase := .replacing, tried := [], failures := [] })
    | _ => done stBadState 0

/-- RESUME (R65). -/
def execResume (s : State) : Host.Outcome State Fault Refusal := .next (commandEvent (fun c => c.op == 7) runResume s)

/-- REGION_RECLAIM: the device OS takes the region of a paused tenure back (R363). -/
def regionReclaim (t : Nat) (s : State) : State :=
  match s.tenures.get? t with
  | some tn =>
    if tn.phase == .paused && tn.region.isSome then
      let s := leaveRegion s t
      { s with tlbs := s.tlbs.filter (fun (e : Layer × Tlb) => match e.1 with
          | .cell x _ => x != t
          | .stream x _ _ => x != t
          | _ => true) }.modTenure t (fun x => { x with load := none, codePage := none })
    else s
  | none => s

/-- REGION_RECLAIM (R363). -/
def execRegionReclaim (s : State) : Host.Outcome State Fault Refusal :=
  match s.subj with
  | .tenure t => .next (if s.powered then regionReclaim t s else s)
  | _ => .next s

/-- Every virtual queue bound to a tenure counts none of its records. -/
def zeroCounted (s : State) (t : Nat) : State :=
  { s with vqs := s.vqs.map (fun (e : Nat × VqRt) => match e.2.bound with
      | some (o, _) => if o == t then (e.1, { e.2 with counted := 0 }) else e
      | none => e) }

/-- REPLACEMENT_FALLBACK: after RESTORE_FEATURE the device OS re-places the graph from its object; the passage goes on at the `enter` of the
current pound with the passage block kept there, and nothing of the image is restored (R365). -/
def replacementFallback (t : Nat) (s : State) : State :=
  match s.tenures.get? t with
  | some tn =>
    if tn.phase == .paused && missingFeatures s tn != 0 then
      let s := clearParts (leaveRegion (zeroCounted s t) t) t
      let s := { s with lighters := s.lighters.map (fun (e : Nat × LighterRt) => (e.1, e.2.without t)) }
      s.modTenure t (fun x => { x with
        phase := .replacing, tried := [], failures := [], lk := x.lkEnter, place := none, load := none, codePage := none, leftWins := [],
        leftGates := [], iP := 0, cP := 0, iG := 0, cG := 0 })
    else s
  | none => s

/-- REPLACEMENT_FALLBACK (R365). -/
def execReplacementFallback (s : State) : Host.Outcome State Fault Refusal :=
  match s.subj with
  | .tenure t => .next (if s.powered then replacementFallback t s else s)
  | _ => .next s

/-! ### Migration (R367) -/

/-- The tenures of a process. -/
def tenuresOf (s : State) (pasid : Nat) : List (Nat × Tenure) := s.tenures.filter (fun (e : Nat × Tenure) => e.2.pasid == pasid)

/-- Whether a process has a host-shared mapping in use: a translation held for one of its engines, or a graph object in host memory. -/
def hostInUse (s : State) (pasid : Nat) : Bool :=
  s.tlbs.any (fun (e : Layer × Tlb) => e.2.pasid == pasid && !isDevice e.2.va)
    || (tenuresOf s pasid).any (fun (e : Nat × Tenure) => !isDevice e.2.objAddr)

/-- The pages below a table entry: address, size, permissions, physical address (R266). -/
def pagesUnder (s : State) (pasid : Nat) : Nat → Nat → Nat → List (Nat × Nat × Bool × Bool × Nat)
  | level, table, va =>
    match level with
    | 0 =>
      (List.range 512).filterMap (fun i =>
        match walkFrom s pasid (va + i * 4096) 0 table with
        | .ok e => match e.pa with
          | .dev a => some (va + i * 4096, 4096, e.r, e.w, a + (va + i * 4096 - e.va))
          | .host _ => none
        | _ => none)
    | l + 1 =>
      (List.range (if l + 1 = 4 then 256 else 512)).flatMap (fun i =>
        let span := match l + 1 with | 4 => 2 ^ 48 | 3 => 2 ^ 39 | 2 => 2 ^ 30 | _ => 2 ^ 21
        let at_ := va + i * span
        let e := pte s table i
        if !bitOf e 0 then []
        else if bitOf e 1 then
          match walkFrom s pasid at_ (l + 1) table with
          | .ok e => match e.pa with
            | .dev a => [(at_, span, e.r, e.w, a)]
            | .host _ => []
          | _ => []
        else pagesUnder s pasid l (bitsOf e 12 28 * 4096) at_)

/-- What memory lists of a range, by offset. -/
def memorySlice (m : Memory) (a n : Nat) : Memory :=
  (m.filter (fun e => decide (a ≤ e.1) && decide (e.1 < a + n))).map (fun e => (e.1 - a, e.2))

/-- The device-local pages of a process with their contents. -/
def processPages (s : State) (pasid : Nat) : List PageImage :=
  match s.roots.get? pasid with
  | some root => (pagesUnder s pasid 4 root (2 ^ 56)).map (fun (e : Nat × Nat × Bool × Bool × Nat) =>
      { va := e.1, size := e.2.1, r := e.2.2.1, w := e.2.2.2.1, bytes := memorySlice s.devMem e.2.2.2.2 e.2.1 })
  | none => []

/-- What a process carries to the peer. -/
def bundleOf (s : State) (pasid : Nat) : Bundle :=
  let ts := (tenuresOf s pasid).map Prod.fst
  let mine (k : Nat) : Bool := ts.contains (keyT k)
  { pages := processPages s pasid
    vqs := s.vqs.filter (fun (e : Nat × VqRt) => e.2.pasid == pasid)
    tenures := tenuresOf s pasid
    tasks := s.tasks.keep mine, opers := s.opers.keep mine, gens := s.gens.keep mine, ctrls := s.ctrls.keep mine
    mats := s.mats.keep mine, chans := s.chans.keep mine, gates := s.gates.keep mine, wins := s.wins.keep mine
    combs := s.combs.keep (fun k => ts.contains (combKeyT k))
    reqs := s.lighters.flatMap (fun (e : Nat × LighterRt) => (e.2.reqs.filter (fun q => ts.contains q.t)).map (fun q => (e.1, q))) }

/-- Each tenure of a list leaves the module, without a completion. -/
def endAll : List (Nat × Tenure) → State → State
  | [], s => s
  | (t, _) :: r, s => endAll r (endTenure s t)

/-- Each tenure of a list that runs or waits in admission is paused (R367). -/
def pauseAll : List (Nat × Tenure) → State → State
  | [], s => s
  | (t, tn) :: r, s =>
    pauseAll r (match tn.phase with
      | .admission => releaseTokens (s.modTenure t (fun x => { x with phase := .pausedAdmission })) t
      | .running => startPause s t (tn.g.segmax == 0) false none
      | _ => s)

/-- PROCESS_MIGRATION: the device OS pauses every tenure of a process, and once all are paused streams it to a peer (R367). A process that is
refused sends nothing. -/
def processMigration (pasid : Nat) (s : State) : State :=
  let ts := tenuresOf s pasid
  if !bitOf s.dawn.caps.toNat 2 || hostInUse s pasid || !s.ethUp.toList.any id then s
  else if ts.all (fun (e : Nat × Tenure) => e.2.phase == .paused || e.2.phase == .pausedAdmission) then
    let b := bundleOf s pasid
    let s := endAll ts s
    { s with ethOut := s.ethOut ++ [b], roots := s.roots.erase pasid,
             vqs := s.vqs.filter (fun (e : Nat × VqRt) => e.2.pasid != pasid) }
  else pauseAll ts s

/-- PROCESS_MIGRATION (R367). -/
def execProcessMigration (s : State) : Host.Outcome State Fault Refusal :=
  match s.subj with
  | .process pasid _ => .next (if s.powered then processMigration pasid s else s)
  | _ => .next s

/-- Whether every page of a bundle is mapped for the process it becomes here (R266). -/
def pagesMapped (s : State) (pasid : Nat) (b : Bundle) : Bool :=
  b.pages.all (fun (e : PageImage) => e.bytes.all (fun (x : Nat × Byte) =>
    match walk s pasid (e.va + x.1) with
    | .ok _ => true
    | _ => false))

/-- The contents of pages written (R367). -/
def writePages (pasid : Nat) : List (Nat × Byte) → State → State
  | [], s => s
  | (a, x) :: r, s =>
    writePages pasid r (match walk s pasid a with
      | .ok e => physWrite s (e.phys a) [x]
      | _ => s)

/-- A part map of a bundle joined to the module's, its keys renumbered. -/
def joinMap {α : Type} (ren : Nat → Nat) : Map α → Map α → Map α
  | [], m => m
  | (k, x) :: r, m => joinMap ren r (m.set (ren k) x)

/-- A task that comes to a module: a `waita` looks its word up again, for the word stands elsewhere there (R268, R280). -/
def TaskRt.moved (k : TaskRt) : TaskRt :=
  match k.wait with
  | .word va _ least false => { k with wait := .lookup va least }
  | _ => k

/-- Fresh identifiers for virtual queues that come to a module (R70). -/
def freshVqs (m : Map VqRt) (n : Nat) : List (Nat × VqRt) → List Nat
  | [] => []
  | (_, q) :: r => freshId m n :: freshVqs (m.set (freshId m n) q) ((freshId m n + 1) % 4294967296) r

/-- MIGRATION_RECEIVE: the `k`-th bundle that has arrived becomes process `pasid` here: its pages are written into the mappings the device OS
has made, its virtual queues and tenures take fresh numbers and handles, and each paused tenure is restored by re-placement, or stays paused where
its image needs a feature that the module lacks (R100, R365, R367). -/
def migrationReceive (k pasid : Nat) (s : State) : State :=
  match s.ethIn[k]? with
  | none => s
  | some b =>
    if !bitOf s.dawn.caps.toNat 2 || !pagesMapped s pasid b then s
    else
      let base := s.nextTenure
      let ids := freshVqs s.vqs s.nextVq b.vqs
      let num (t : Nat) : Nat := base + (b.tenures.map Prod.fst).idxOf t
      let vnum (v : Nat) : Nat := ids[(b.vqs.map Prod.fst).idxOf v]?.getD 0
      let ren (x : Nat) : Nat := key2 (num (keyT x)) (keyN x)
      let handle := s.handles.getD pasid 1
      let s := writePages pasid (b.pages.flatMap (fun (e : PageImage) => e.bytes.map (fun (x : Nat × Byte) => (e.va + x.1, x.2)))) s
      let vqs := b.vqs.map (fun (e : Nat × VqRt) =>
        (vnum e.1, { e.2 with pasid := pasid, bound := e.2.bound.map (fun (p : Nat × Nat) => (num p.1, p.2)) }))
      let tns := b.tenures.map (fun (e : Nat × Tenure) =>
        (num e.1, { e.2 with
          pasid := pasid, handle := (handle + (num e.1 - base)) % 4294967296, queue := 0, cmd := 0, partner := none, active := true,
          region := none, place := none, load := none, tried := [], failures := [], resumes := [],
          phase := if e.2.phase == .paused then (if missingFeatures s e.2 = 0 then Phase.replacing else Phase.paused) else Phase.admission,
          binds := e.2.binds.map (fun (x : Nat × Binding) => match x.2 with
            | .vq id => (x.1, .vq (vnum id))
            | _ => x) }))
      { s with
        ethIn := s.ethIn.eraseIdx k, nextTenure := base + b.tenures.length, nextVq := (ids.getLast?.elim s.nextVq (fun v => v + 1)) % 4294967296
        handles := s.handles.set pasid ((handle + b.tenures.length) % 4294967296)
        vqs := joinMap id vqs s.vqs, tenures := joinMap id tns s.tenures
        tasks := joinMap ren (b.tasks.map (fun (e : Nat × TaskRt) => (e.1, e.2.moved))) s.tasks, opers := joinMap ren b.opers s.opers, gens := joinMap ren b.gens s.gens
        ctrls := joinMap ren b.ctrls s.ctrls, mats := joinMap ren b.mats s.mats, chans := joinMap ren b.chans s.chans
        gates := joinMap ren b.gates s.gates, wins := joinMap ren b.wins s.wins
        combs := joinMap (fun x => num (combKeyT x) * 1099511627776 + x % 1099511627776) b.combs s.combs
        lighters := b.reqs.foldl (fun (m : Map LighterRt) (e : Nat × LReq) =>
          let l := m.getD e.1 LighterRt.empty
          m.set e.1 { l with reqs := l.reqs ++ [{ e.2 with t := num e.2.t, id := s.nextMsg + e.2.id }] }) s.lighters
        nextMsg := s.nextMsg + (b.reqs.foldl (fun m (e : Nat × LReq) => max m (e.2.id + 1)) 0) }

/-- MIGRATION_RECEIVE (R367). -/
def execMigrationReceive (s : State) : Host.Outcome State Fault Refusal :=
  match s.subj with
  | .bundle k pasid => .next (if s.powered then migrationReceive k pasid s else s)
  | _ => .next s

end Sys2Proof.Machine
end

