-- ==== Sys2Proof/Machine/Commands.lean ====
section
/-! DEFINITION. The commands `PUSH`, `PULL` and `QUERY` (R64, R65, R69 to R73). -/

namespace Sys2Proof.Machine

/-! ### Virtual queues (R70 to R73) -/

/-- The bytes a record takes, packed (R65). -/
def Rec.bytes (r : Rec) : Nat := 8 + 8 * r.units.length

/-- The bytes a ring holds. -/
def ringBytes (rs : List Rec) : Nat := rs.foldl (fun n r => n + Rec.bytes r) 0

/-- The bytes of a record, header first (R38). -/
def packRec (r : Rec) : List Byte := leBytes r.hdr.toNat 8 ++ unitBytes r.units

/-- Whether a channel's pound is the one its tenure has entered (R71). -/
def entered (s : State) (t c : Nat) : Bool :=
  match s.tenures.get? t with
  | some tn => tn.lk.lstate == 1 && (match tn.g.chans[c]? with
      | some e => tn.chanPound e == tn.lk.lpound.toNat
      | none => false)
  | none => false

/-- Records appended to the ring of an input queue; they count as injected for the tenure that is bound and has entered the channel's pound
(R71). -/
def appendRecs (s : State) (v : Nat) (q : VqRt) (rs : List Rec) : State :=
  let counts := match q.bound with
    | some (t, c) => entered s t c
    | none => false
  let s := { s with vqs := s.vqs.set v { q with ring := q.ring ++ rs, counted := if counts then q.counted + rs.length else q.counted } }
  match q.bound with
  | some (t, _) => if counts then s.modTenure t (fun tn => tn.injG (vqPoint v) rs.length) else s
  | none => s

/-- What the walk of a `PUSH` buffer finds: its records, or the status to complete with (R65). Of a record whose header is malformed and whose payload
runs past the buffer too, R65 does not say which comes first; the model's choice is the header (DESIGN CHOICE, assumption 54). -/
def pushRecords : Nat → List Byte → Except Nat (List Rec)
  | 0, bs => if bs.isEmpty then .ok [] else .error stBadCommand
  | n + 1, bs =>
    if bs.length < 8 then .error stBadCommand
    else
      let h : W64 := BitVec.ofNat 64 (leNat (bs.take 8))
      match checkHeader h with
      | some code => .error code
      | none =>
        let len := 8 * hLen h
        if bs.length < 8 + len then .error stBadCommand
        else
          match pushRecords n (bs.drop (8 + len)) with
          | .ok rs => .ok ({ hdr := h, units := bytesUnits ((bs.drop 8).take len) } :: rs)
          | e => e

/-- The virtual queue a `PUSH` or `PULL` names, where the process may use it so (R65, R70, R391). -/
def usableVq (s : State) (pasid id : Nat) (output : Bool) : Option VqRt :=
  match s.vqs.get? id with
  | some q => if q.pasid == pasid && q.output == output && !(q.bridgeLost && !output) then some q else none
  | none => none

/-- The detail of a status: a fault code without a node or a pound names neither (R66). -/
def plainDetail (st : Nat) : W64 := if st < 0x100 then 0 else BitVec.ofNat 64 (nodeDetail extEnd noPound)

/-- PUSH (R65): all or nothing. -/
def runPush (s : State) (q : Nat) (x : QueueRt) (c : Cmd) : State :=
  let id := bitsOf (c.w 1) 0 32
  let bytes := bitsOf (c.w 3) 0 32
  let n := bitsOf (c.w 3) 32 32
  match usableVq s x.pasid id false with
  | none => complete s q c.idx stBadQueue 0 0
  | some v =>
    withAligned s q x c (c.w 2) bytes false (fun parts =>
      match pushRecords n (readParts s parts) with
      | .error st => complete s q c.idx st 0 (plainDetail st)
      | .ok rs =>
        if v.capacity < ringBytes v.ring + ringBytes rs then complete s q c.idx stVqFull 0 0
        else complete (appendRecs s id v rs) q c.idx stOk (BitVec.ofNat 64 n) 0)

/-- PUSH (R65). -/
def execPush (s : State) : Host.Outcome State Fault Refusal := .next (commandEvent (fun c => c.op == 2) runPush s)

/-- The oldest records that fit in `room` bytes, at most `n` of them (R65). -/
def pullRecords : Nat → Nat → List Rec → List Rec
  | 0, _, _ => []
  | _, _, [] => []
  | n + 1, room, r :: rs => if Rec.bytes r ≤ room then r :: pullRecords n (room - Rec.bytes r) rs else []

/-- PULL (R65): it never waits. -/
def runPull (s : State) (q : Nat) (x : QueueRt) (c : Cmd) : State :=
  let id := bitsOf (c.w 1) 0 32
  match usableVq s x.pasid id true with
  | none => complete s q c.idx stBadQueue 0 0
  | some v =>
    let rs := pullRecords (bitsOf (c.w 3) 32 32) (bitsOf (c.w 3) 0 32) v.ring
    let bs := rs.flatMap packRec
    withAligned s q x c (c.w 2) bs.length true (fun parts =>
      let s := wakeWaiters (writeParts s parts bs)
      complete { s with vqs := s.vqs.set id { v with ring := v.ring.drop rs.length } } q c.idx stOk
        (BitVec.ofNat 64 (bs.length + rs.length * 2 ^ 32)) 0)

/-- PULL (R65). -/
def execPull (s : State) : Host.Outcome State Fault Refusal := .next (commandEvent (fun c => c.op == 3) runPull s)

/-! ### `QUERY` (R68, R69) -/

/-- 32-bit fields as bytes, with zeros up to `n` bytes. -/
def fieldBytes (fs : List Nat) (n : Nat) : List Byte :=
  let bs := fs.flatMap (fun f => leBytes f 4)
  bs ++ List.replicate (n - bs.length) 0

/-- The state of a tenure as selector 1 numbers it (R69, R373). The four states do not cover a tenure whose pause is in progress, which reads as
running, nor one that a RESUME is placing anew, which reads as paused (DESIGN CHOICE, assumption 78). -/
def phaseCode (p : Phase) : Nat :=
  match p with
  | .admission => 0
  | .running => 1
  | .pausing => 1
  | .paused => 2
  | .pausedAdmission => 2
  | .replacing => 2
  | .held => 3

/-- The reply of selector 1 (R69). -/
def tenureReply (tn : Tenure) : List Byte :=
  let r := tn.region.getD { b := 0, j := 0 }
  let z (x : Nat) : Nat := if phaseCode tn.phase = 0 then 0 else x
  fieldBytes [phaseCode tn.phase, tn.lk.lpound.toNat, z (tn.gtag % 256), z r.b, z r.j, tn.homeOr.toNat] 32

/-- The live modules of a die pair (R75). -/
def pairModules (m : RepairMap) (a b : Nat) : Nat :=
  match m.pairs.find? (fun p => p.1 == 4 * a + b) with
  | some (_, f, h) => f + h
  | none => 24

/-- The six die pairs (R15). -/
def diePairs : List (Nat × Nat) := [(0, 1), (0, 2), (0, 3), (1, 2), (1, 3), (2, 3)]

/-- How many of `n` things a list names. -/
def named (n : Nat) (xs : List Nat) (p : Nat → Bool) : Nat := ((List.range n).filter (fun k => p k && xs.contains k)).length

/-- The fenced elements of a type; each counts once. -/
def fencedCount (m : RepairMap) (mat : Bool) : Nat := (m.fenced.eraseDups.filter (fun e => decide (e < 524288) && isElement mat e)).length

/-- The engines and ports as built (R15, R19): host ports, Ethernet ports, NVMe drives, lockkeepers, lighters, control cores, queue processors,
Gykans. -/
def builtUnits : List Nat := [1, 8, 1, 2048, 48, 16, 4, 4]

/-- The reply of selector 2: the as-built counts less the losses of the repair map, a die whose root switch is cut among them, and less what the part record does not enable (R15, R18, R19,
R69, R75, R404). -/
def countsReply (m : RepairMap) (units : List Nat) : List Byte :=
  let dead := named 512 m.deadChannels (fun _ => true)
  let hbms := ((List.range 16).filter (fun k => (List.range 32).any (fun i => !m.deadChannels.contains (32 * k + i)))).length
  let mods := diePairs.map (fun p => pairModules m p.1 p.2)
  let reduced := ((m.reduced.map Prod.fst).eraseDups.filter (fun e => !m.fenced.contains e)).length
  let dies := ((List.range 4).filter (fun d => !m.cutSwitch.contains (9, d))).length
  fieldBytes ([dies, hbms, 512 - dead, (mods.filter (fun n => n != 0)).length, sumNat mods] ++ units.take 3
    ++ [393216 - fencedCount m false, reduced, 32768 - fencedCount m true] ++ units.drop 3) 64

/-- The reply of selector 3 (R28, R69). -/
def governorReply (g : GovRt) : List Byte := fieldBytes [g.budget.toNat, g.now.toNat, g.fclk.toNat, g.floor.toNat, g.events.toNat] 20

/-- The reply of selector 4 (R69). -/
def vqReply (s : State) (q : VqRt) : List Byte :=
  let handle := match q.bound with
    | some (t, _) => ((s.tenures.get? t).map Tenure.handle).getD 0
    | none => 0
  fieldBytes [q.ring.length, ringBytes q.ring, q.capacity % 2 ^ 31 + (if q.output then 2 ^ 31 else 0), handle] 16

/-- The reply to a `QUERY`, or the status to complete with (R69). -/
def queryReply (s : State) (pasid sel arg : Nat) : Except Nat (List Byte) :=
  match sel with
  | 0 => .ok (leBytes 1 8 ++ leBytes s.dawn.caps.toNat 8)
  | 1 => match tenureOf s pasid arg with
    | some (_, tn) => .ok (tenureReply tn)
    | none => .error stBadHandle
  | 2 => .ok (countsReply s.repair s.dawn.units)
  | 3 => match s.gov[arg]? with
    | some g => .ok (governorReply g)
    | none => .error stBadCommand
  | 4 => match s.vqs.get? arg with
    | some q => if q.pasid = pasid then .ok (vqReply s q) else .error stBadQueue
    | none => .error stBadQueue
  | _ => .error stBadCommand

/-- FCLK_NOW of a die has been read: a step in the same cycle would have come before the read (R28). -/
def noteRead (die : Nat) (s : State) : State :=
  if h : die < 4 then { s with gov := s.gov.set die { s.gov[die] with readAt := some (s.nowOn die) } } else s

/-- QUERY (R65, R69). -/
def runQuery (s : State) (q : Nat) (x : QueueRt) (c : Cmd) : State :=
  match queryReply s x.pasid (bitsOf (c.w 1) 0 16) (bitsOf (c.w 1) 32 32) with
  | .error st => complete s q c.idx st 0 0
  | .ok bs =>
    withAligned s q x c (c.w 2) bs.length true (fun parts =>
      let s := complete (wakeWaiters (writeParts s parts bs)) q c.idx stOk (BitVec.ofNat 64 bs.length) 0
      if bitsOf (c.w 1) 0 16 = 3 then noteRead (bitsOf (c.w 1) 32 32) s else s)

/-- A `QUERY` of selector `sel`. -/
def queryEvent (sel : Nat) (s : State) : State := commandEvent (fun c => c.op == 9 && bitsOf (c.w 1) 0 16 == sel) runQuery s

/-- QUERY_CAPABILITIES (R68). -/
def execQueryCapabilities (s : State) : Host.Outcome State Fault Refusal := .next (queryEvent 0 s)

/-- QUERY_TENURE (R69). -/
def execQueryTenure (s : State) : Host.Outcome State Fault Refusal := .next (queryEvent 1 s)

/-- QUERY_COUNTS (R69). -/
def execQueryCounts (s : State) : Host.Outcome State Fault Refusal := .next (queryEvent 2 s)

/-- QUERY_GOVERNOR (R69). -/
def execQueryGovernor (s : State) : Host.Outcome State Fault Refusal := .next (queryEvent 3 s)

/-- QUERY_VIRTUAL_QUEUE (R69). -/
def execQueryVirtualQueue (s : State) : Host.Outcome State Fault Refusal := .next (queryEvent 4 s)

end Sys2Proof.Machine
end

