-- ==== Sys2Proof/Machine/VirtualQueues.lean ====
section
/-! DEFINITION. Virtual queues (R70 to R73, R391): their assignment, their agents, and the bridge to peer modules. -/

namespace Sys2Proof.Machine

/-- VIRTUAL_QUEUE_ASSIGN: the device OS takes the submitted request for a virtual queue, with a fixed direction and a ring, which it may link to a
queue of a peer module; before Dawn 3 the request completes with the not-ready status (R70, R386, R391, R397). -/
def execVirtualQueueAssign (s : State) : Host.Outcome State Fault Refusal :=
  match s.subj with
  | .newVq pasid output capacity peer =>
    .next (if !mboxSubmitted s then s
      else if s.stage != 3 then mboxAnswer s .notReady
      else
        let v := freshId s.vqs s.nextVq
        let q : VqRt := { pasid := pasid, output := output, capacity := capacity % 2 ^ 31, ring := [], bound := none, counted := 0,
                          bridge := peer, bridgeLost := peer.isSome && !s.ethUp.toList.any id }
        mboxAnswer { s with vqs := s.vqs.set v q, nextVq := (v + 1) % 4294967296 } .ok)
  | _ => .next s

/-- The agent node of a channel (R229). -/
def agentNode (tn : Tenure) (c : Nat) : Nat :=
  ((tn.g.nodes.zipIdx.find? (fun (x : NodeE × Nat) => x.1.kind == 5 &&
    (match (tn.g.cfg.get? x.2).bind List.head? with
      | some w => wOp w == 0x62 && bitsOf w 80 24 == c
      | none => false))).map Prod.snd).getD extEnd

/-- Whether an agent of a tenure moves records into its channels: the tenure runs in its pound, no declared quiet waits for the lockkeeper,
and none of its records has been too long (R35, R71). -/
def agentRuns (s : State) (t c : Nat) (tn : Tenure) : Bool :=
  partsMove s t && entered s t c
    && (match tn.lkWait with
      | .quiet _ .quiet => false
      | .confirm => false
      | .begun => tn.passageAt != some .done
      | _ => true)
    && !(tn.laneFaults.any (fun r => r.node == agentNode tn c))

/-- VQ_AGENT_MOVE: the oldest record of an input queue's ring enters the external channel as a slot frees (R71). A record longer than the
channel's width is not delivered (R35). -/
def vqAgentMove (v : Nat) (s : State) : State :=
  match s.vqs.get? v with
  | none => s
  | some q =>
    match q.bound, q.ring with
    | some (t, c), r :: rest =>
      match s.tenures.get? t, s.chan? t c with
      | some tn, some ch =>
        if q.output || !agentRuns s t c tn || ch.free = 0 then s
        else if ch.e.width < hLen r.hdr then nodeFault s t (agentNode tn c) cRecordLength r.hdr
        else
          let s := { s with vqs := s.vqs.set v { q with ring := rest, counted := q.counted - 1 } }
          sendRec (s.modTenure t (fun x => x.conG (vqPoint v) (min q.counted 1))) t c r
      | _, _ => s
    | _, _ => s

/-- VQ_AGENT_MOVE (R71). -/
def execVqAgentMove (s : State) : Host.Outcome State Fault Refusal :=
  match s.subj with
  | .vq v => .next (vqAgentMove v s)
  | _ => .next s

/-- The bridge carries every record of a linked output queue to its peer, while a path is up (R391). -/
def pumpBridge (s : State) (v : Nat) : State :=
  match s.vqs.get? v with
  | some q =>
    match q.bridge with
    | some p =>
      if !q.output || q.bridgeLost then s
      else { s with vqs := s.vqs.set v { q with ring := [] }, bridgeOut := s.bridgeOut ++ q.ring.map (fun r => (p, r)) }
    | none => s
  | none => s

/-- VQ_AGENT_APPEND: a record that an output channel delivers is appended to the ring, when it has room (R72). -/
def vqAgentAppend (v : Nat) (s : State) : State :=
  match s.vqs.get? v with
  | none => s
  | some q =>
    match q.bound with
    | none => s
    | some (t, c) =>
      match (s.chan? t c).bind (fun ch => ch.buf.head?) with
      | none => s
      | some r =>
        if !q.output || !partsMove s t || decide (q.capacity < ringBytes q.ring + Rec.bytes r) then s
        else pumpBridge (popHead { s with vqs := s.vqs.set v { q with ring := q.ring ++ [r] } } t c) v

/-- VQ_AGENT_APPEND (R72). -/
def execVqAgentAppend (s : State) : Host.Outcome State Fault Refusal :=
  match s.subj with
  | .vq v => .next (vqAgentAppend v s)
  | _ => .next s

/-- BRIDGED_RECORD_ARRIVAL: a record from a peer is appended whole to the linked input queue's ring, when it has room; else the transport
holds it (R71, R391). -/
def bridgedArrival (v : Nat) (r : Rec) (s : State) : State :=
  match s.vqs.get? v with
  | none => s
  | some q =>
    if q.output || q.bridge.isNone || q.bridgeLost || decide (q.capacity < ringBytes q.ring + Rec.bytes r) then s
    else appendRecs s v q [r]

/-- BRIDGED_RECORD_ARRIVAL (R391). -/
def execBridgedRecordArrival (s : State) : Host.Outcome State Fault Refusal :=
  match s.subj with
  | .bridged v r => .next (if s.powered then bridgedArrival v r s else s)
  | _ => .next s

/-- Whether each bridged queue has lost every path to its peer (R391). -/
def markBridges (s : State) : State :=
  let lost := !s.ethUp.toList.any id
  { s with vqs := s.vqs.map (fun (e : Nat × VqRt) => (e.1, { e.2 with bridgeLost := e.2.bridge.isSome && lost })) }

/-- ETHERNET_PORT_DOWN: traffic moves to the ports that are up; with none left the bridge stops and keeps its records (R391). -/
def execEthernetPortDown (s : State) : Host.Outcome State Fault Refusal :=
  match s.subj with
  | .port p => .next (if h : p < 8 then markBridges { s with ethUp := s.ethUp.set p false } else s)
  | _ => .next s

/-- Every linked output queue sends what it kept. -/
def pumpAll : List Nat → State → State
  | [], s => s
  | v :: r, s => pumpAll r (pumpBridge s v)

/-- ETHERNET_PORT_UP: the transport may use the port again, if the part record enables it (R391, R404; assumption 61). -/
def execEthernetPortUp (s : State) : Host.Outcome State Fault Refusal :=
  match s.subj with
  | .port p => 
    .next (if h : p < 8 then
        if p < s.enabled 1 8 then pumpAll (s.vqs.map Prod.fst) (markBridges { s with ethUp := s.ethUp.set p true }) else s
      else s)
  | _ => .next s

end Sys2Proof.Machine
end

