-- ==== Sys2Proof/Machine/Translation.lean ====
section
/-! DEFINITION. Translations as they are refilled, requested and invalidated (R265 to R268, R387). -/

namespace Sys2Proof.Machine

/-- How many translations a place holds (R265); no rule bounds an agent, nor what the accumulate streams of a lighter share. -/
def layerEntries (l : Layer) : Option Nat :=
  match l with
  | .stream _ _ _ => some 1
  | .cell _ _ => some 4
  | .s5 _ => some 1024
  | .agent _ => none
  | .lighter _ _ _ => some 1
  | .accs _ _ => none
  | .command _ _ => some 0
  | .ring _ => some 0
  | .passage _ => some 0
  | .gone => some 0

/-- Whether a place holds translations (R265): the queue processors and the lockkeepers hold none of their own. -/
def Layer.caches (l : Layer) : Bool := layerEntries l != some 0

/-- A translation put into a place; beyond its entries the oldest goes (R265). -/
def insertTlb (s : State) (l : Layer) (e : Tlb) : State :=
  let mine := s.tlbs.filter (fun x => x.1 == l)
  let others := s.tlbs.filter (fun x => x.1 != l)
  let kept := match layerEntries l with
    | some n => mine.drop (mine.length + 1 - n)
    | none => mine
  { s with tlbs := others ++ kept ++ [(l, e)] }

/-- TRANSLATION_REFILL: a miss is refilled from the layer above, and the access that stalled may proceed (R265). -/
def translationRefill (l : Layer) (pasid va : Nat) (s : State) : State :=
  if !Layer.caches l || (s.tlb? l pasid va).isSome || !canonical va || (!isDevice va && s.noHost pasid) then s
  else
    match walk s pasid va with
    | .ok e => insertTlb s l e
    | _ => s

/-- TRANSLATION_REFILL (R265). -/
def execTranslationRefill (s : State) : Host.Outcome State Fault Refusal :=
  match s.subj with
  | .refill l pasid va => .next (if s.powered then translationRefill l pasid va s else s)
  | _ => .next s

/-- Every request for a page is answered; after a failure each requester that is still there finds it (R267). -/
def answerPage (s : State) (pasid va : Nat) (ok : Bool) : State :=
  let mine (r : Layer × Nat × Nat) : Bool := r.2.1 == pasid && r.2.2 == pageOf va
  let hit := s.pageReqs.filter (fun r => mine r && r.1 != .gone)
  { s with pageReqs := s.pageReqs.filter (fun r => !mine r), pageFails := if ok then s.pageFails else s.pageFails ++ hit }

/-- Whether a page is one that R260 allows, holds the address, and is aligned. -/
def pageOk (va base size : Nat) : Bool :=
  [4096, 65536, 2 ^ 21, 2 ^ 30].contains size && base % size == 0 && decide (base ≤ va) && decide (va < base + size)

/-- PRI_RESPONSE: the host maps the page and the translation is retried, or the failure is final (R267, R387). -/
def priResponse (pasid va : Nat) (page : Option (Nat × Nat × Nat × Bool × Bool)) (s : State) : State :=
  if isDevice va || !(s.pageReqs.any (fun r => r.2.1 == pasid && r.2.2 == pageOf va)) then s
  else
    match page with
    | none => answerPage s pasid va false
    | some (base, size, pa, r, w) =>
      if !pageOk va base size then s
      else
        let old := s.hostPages.filter (fun p => !(p.pasid == pasid && overlaps (p.va, p.size) (base, size)))
        answerPage { s with hostPages := { pasid := pasid, va := base, size := size, pa := pa, r := r, w := w } :: old } pasid va true

/-- PRI_RESPONSE (R267). -/
def execPriResponse (s : State) : Host.Outcome State Fault Refusal :=
  match s.subj with
  | .hostPage pasid va page => .next (if s.powered then priResponse pasid va page s else s)
  | _ => .next s

/-- Table entries written (R266). -/
def writeEntries : List (Nat × W64) → State → State
  | [], s => s
  | (a, e) :: r, s => writeEntries r (perform s (.dev a) (leBytes e.toNat 8))

/-- OS_PAGE_RESPONSE: the device OS installs entries in the process's tables and the translation is retried, or it answers with failure
(R266, R267). -/
def osPageResponse (pasid va root : Nat) (writes : List (Nat × W64)) (ok : Bool) (s : State) : State :=
  if !isDevice va || !(s.pageReqs.any (fun r => r.2.1 == pasid && r.2.2 == pageOf va)) then s
  else if !ok then answerPage s pasid va false
  else answerPage (writeEntries writes { s with roots := s.roots.set pasid root }) pasid va true

/-- OS_PAGE_RESPONSE (R267). -/
def execOsPageResponse (s : State) : Host.Outcome State Fault Refusal :=
  match s.subj with
  | .osPage pasid va root writes ok => .next (if s.powered then osPageResponse pasid va root writes ok s else s)
  | _ => .next s

/-- The bytes a message that is still to be performed touches: address and length. -/
def MsgKind.reach (k : MsgKind) : Option (Nat × Nat) :=
  match k with
  | .acc _ va _ _ _ => some (va, 16)
  | .flush _ va _ _ _ => some (va, 16)
  | .block _ _ va segs _ => some (va, segs.foldl (fun m (x : Nat × List Byte) => max m (x.1 + x.2.length)) 0)
  | k => k.range

/-- The ranges of addresses that an invalidation of a range concerns: itself, and the pages of every entry that maps part of it (R268). -/
def affected (s : State) (pasid : Nat) (r : Nat × Nat) : List (Nat × Nat) :=
  r :: (s.tlbs.filter (fun e => e.2.pasid == pasid && overlaps (e.2.va, e.2.size) r)).map (fun e => (e.2.va, e.2.size))

/-- Whether an access of a process that an invalidation of a range concerns has been translated and not yet performed (R268). -/
def translatedInFlight (s : State) (pasid : Nat) (r : Nat × Nat) : Bool :=
  s.net.any (fun x => ((s.tenures.get? x.t).map Tenure.pasid) == some pasid && (match x.kind.reach with
    | some q => (affected s pasid r).any (fun a => overlaps a q)
    | none => false))

/-- An invalidation completes (R268): every copy of an entry that maps part of a range of a process is gone, and a `waita` whose word such an entry
translates looks it up again. It waits while an access translated before is still to be performed. -/
def invalidate (pasid va bytes : Nat) (s : State) : State :=
  let r := (va, bytes)
  let hit (e : Layer × Tlb) : Bool := e.2.pasid == pasid && overlaps (e.2.va, e.2.size) r
  let lost (t w : Nat) : Bool := ((s.tenures.get? t).map Tenure.pasid) == some pasid
    && (overlaps (w, 8) r || s.tlbs.any (fun e => hit e && e.2.covers pasid w))
  { s with
    tlbs := s.tlbs.filter (fun e => !hit e)
    tasks := s.tasks.map (fun (e : Nat × TaskRt) =>
      match e.2.wait with
      | .word w _ least false => if lost (keyT e.1) w then (e.1, { e.2 with wait := .lookup w least }) else e
      | _ => e) }

/-- ATS_INVALIDATION: once every access translated with the affected entries has been performed, every copy of them is gone, and so is the
host's own mapping (R268, R387). -/
def atsInvalidation (pasid va bytes : Nat) (s : State) : State :=
  if translatedInFlight s pasid (va, bytes) then s
  else
    { invalidate pasid va bytes s with
      hostPages := s.hostPages.filter (fun p => !(p.pasid == pasid && overlaps (p.va, p.size) (va, bytes))) }

/-- The device OS invalidates the translations of a range of device-local pages, whose table entries its cores have written before (R266,
R268). -/
def osInvalidate (pasid va bytes : Nat) (s : State) : State :=
  if !isDevice va || translatedInFlight s pasid (va, bytes) then s else invalidate pasid va bytes s

/-- The host disables a PASID, or enables it again (R387). -/
def setPasid (pasid : Nat) (enabled : Bool) (s : State) : State :=
  let off := s.pasidOff.filter (fun p => p != pasid)
  { s with pasidOff := if enabled then off else pasid :: off }

/-- ATS_INVALIDATION (R268). -/
def execAtsInvalidation (s : State) : Host.Outcome State Fault Refusal :=
  match s.subj with
  | .pages pasid va bytes => .next (if s.powered then atsInvalidation pasid va bytes s else s)
  | _ => .next s

end Sys2Proof.Machine
end

