-- ==== Sys2Proof/Machine/Governor.lean ====
section
/-! DEFINITION. The power governors (R26 to R28). -/

namespace Sys2Proof.Machine

/-- The budgets of the other dies. -/
def otherBudgets (s : State) (die : Nat) : Nat :=
  (List.range 4).foldl (fun m d => if d = die then m else m + ((s.gov[d]?.map (fun g => g.budget.toNat)).getD 0)) 0

/-- A die's budget written; a value outside 600 to 1,250, or one that brings the sum above 5,000, is ignored (R28). -/
def setBudget (die : Nat) (w : W32) (s : State) : State :=
  if h : die < 4 then
    if w.toNat < 600 ∨ 1250 < w.toNat ∨ 5000 < otherBudgets s die + w.toNat then s
    else { s with gov := s.gov.set die { s.gov[die] with budget := w } }
  else s

/-- PWR_BUDGET_WRITE (R28). -/
def execPwrBudgetWrite (s : State) : Host.Outcome State Fault Refusal :=
  match s.subj with
  | .die d w => .next (if s.powered then setBudget d w s else s)
  | _ => .next s

/-- A governor after it has compared measured power `w` with its budget (R26, R28). -/
def GovRt.tick (g : GovRt) (w : W32) : GovRt :=
  let g := { g with now := w }
  if g.budget.toNat < w.toNat then
    if g.floor.toNat < g.fclk.toNat then { g with fclk := g.fclk - 1, events := g.events ||| 1 } else { g with events := g.events ||| 2 }
  else if w.toNat + 150 ≤ g.budget.toNat ∧ g.fclk.toNat < 33 then { g with fclk := g.fclk + 1 }
  else g

/-- A report of the management controller over MCTP (R28, R398, R405, R406). -/
def report (s : State) (code : Nat) (body : List Nat) : State := { s with mctp := s.mctp ++ [{ type := 0x7F, code := code, body := body }] }

/-- An answer of the management controller, from Dawn 0 on (R406). -/
def answer (s : State) (type code : Nat) (body : List Nat) : State :=
  if s.powered then { s with mctp := s.mctp ++ [{ type := type, code := code, body := body }] } else s

/-- The number of the 50 µs interval that runs (R26). -/
def State.interval (s : State) : Nat := s.nowNs / 50000

/-- GOVERNOR_TICK: the comparison that ends an interval, once in each; demand above the budget at the floor clock is reported over MCTP and to the
device OS (R26, R28). Budgets written in an interval stand before the comparison that ends it (R406), and one that would follow a read of
FCLK_NOW in its cycle waits for the next cycle (R28; DEDUCED, assumption 101). -/
def governorTick (die : Nat) (w : W32) (s : State) : State :=
  if h : die < 4 then
    let g := s.gov[die]
    if s.interval ≤ g.last ∨ g.readAt = some (s.nowOn die) then s
    else
      let s := { s with gov := s.gov.set die { g.tick w with last := s.interval } }
      if g.budget.toNat < w.toNat ∧ g.fclk.toNat ≤ g.floor.toNat then
        report { s with osEvents := s.osEvents ++ [OsEvent.governor die] } 1 [die]
      else s
  else s

/-- GOVERNOR_TICK (R26). -/
def execGovernorTick (s : State) : Host.Outcome State Fault Refusal :=
  match s.subj with
  | .die d w => .next (if s.powered then governorTick d w s else s)
  | _ => .next s

end Sys2Proof.Machine
end

