-- ==== Sys2Proof/Machine/Dawn.lean ====
section
/-! DEFINITION. Dawn (R397 to R405): the stages, the loader, the anti-rollback counter, the repair map, and loss of power. -/

namespace Sys2Proof.Machine

/-! ### Loss of power (R397, R405) -/

/-- The module without power: all is as at power-on but the flash, the anti-rollback counter, and what lies outside the module. -/
def powerReset (s : State) (p : Power) : State :=
  { State.reset with
    clk := s.clk, nowNs := s.nowNs, agenda := s.agenda, cur := s.cur, subj := s.subj, freeCtr := s.freeCtr, nextMsg := s.nextMsg
    nextTenure := s.nextTenure, hostMem := s.hostMem, hostPages := s.hostPages, pasidOff := s.pasidOff, irqs := s.irqs
    mctp := s.mctp, osEvents := s.osEvents, gov := Vector.replicate 4 { GovRt.reset with last := s.interval }, bridgeOut := s.bridgeOut, ethOut := s.ethOut, ethIn := s.ethIn, ethUp := s.ethUp
    dawn := { DawnRt.reset with power := p, flash := s.dawn.flash, counter := s.dawn.counter } }

/-- UNDERVOLTAGE: below 40 V every die is held in reset (R405). -/
def execUndervoltage (s : State) : Host.Outcome State Fault Refusal := .next (if s.powered then powerReset s .held else s)

/-- THERMAL_TRIP: a die past its trip point at the floor clock switches the module off, and the management controller logs it (R405). -/
def thermalTrip (die : Nat) (s : State) : State :=
  match s.gov[die]? with
  | some g => if s.powered && decide (g.fclk.toNat ≤ g.floor.toNat) then powerReset (report s 2 [die]) .off else s
  | none => s

/-- THERMAL_TRIP (R405). -/
def execThermalTrip (s : State) : Host.Outcome State Fault Refusal :=
  match s.subj with
  | .die d _ => .next (thermalTrip d s)
  | _ => .next s

/-! ### The loader (R399 to R403) -/

/-- DAWN_STATUS (R400). -/
def dawnStatus (stage : Nat) (idfail : Bool) (cause : Nat) : W32 :=
  BitVec.ofNat 32 (stage + (if cause = 0 then 0 else 4) + (if idfail then 8 else 0) + cause * 256)

/-- The ERROR bit (R398, R400). -/
def State.dawnError (s : State) : Bool := bitOf s.dawn.status.toNat 2

/-- The IDFAIL bit (R400, R402). -/
def State.idfail (s : State) : Bool := bitOf s.dawn.status.toNat 3

/-- The parts of the flash (R399): 64 KiB each. -/
def flashPart (flash : Memory) (k : Nat) : List Byte := flash.read (k * 65536) 65536

/-- The offset of an image slot (R399): 0 A, 1 B. -/
def slotOffset (slot : Nat) : Nat := if slot = 0 then 0x00100000 else 0x10000000

/-- An image header, and the bytes of a slot's image (R399). -/
def slotHeader (flash : Memory) (slot : Nat) : Nat := leNat (flash.read (slotOffset slot) 128)

/-- The svn of an image header. -/
def headerSvn (h : Nat) : Nat := bitsOf h 32 32

/-- Whether a slot's magic, Reserved bits, key, signature and digest all check (R399). -/
def slotOk (flash : Memory) (slot : Nat) : Bool :=
  let h := slotHeader flash slot
  let size := bitsOf h 64 64
  let unsigned := h - bitsOf h 384 512 * 2 ^ 384
  bitsOf h 0 32 == 0x4B414931 && bitsOf h 898 126 == 0 && decide (1 ≤ size) && decide (size ≤ 255 * 1048576 - 128)
    && Config.manifestOk (flashPart flash 0)
    && (match Config.manifestKey (flashPart flash 0) (bitsOf h 896 2) with
      | some key => Config.ecdsaOk key (Config.sha256 (leBytes unsigned 128)) (BitVec.ofNat 512 (bitsOf h 384 512))
      | none => false)
    && (Config.sha256 (flash.read (slotOffset slot + 128) size)).toNat == bitsOf h 128 256

/-- The slot that the loader accepts: A, then B (R399, R401). -/
def acceptSlot (flash : Memory) (counter : W32) : Option Nat :=
  [0, 1].find? (fun slot => slotOk flash slot && decide (counter.toNat ≤ headerSvn (slotHeader flash slot)))

/-- The digest of an accepted image, with its slot and svn (R403). -/
def imageDigest (flash : Memory) (slot : Nat) : BitVec 256 :=
  let h := slotHeader flash slot
  Config.sha256 (flash.read (slotOffset slot) (128 + bitsOf h 64 64) ++ leBytes slot 1 ++ leBytes (headerSvn h) 4)

/-- What the loader measures before it looks for an image (R403): mask ROM, key manifest, anti-rollback counter. -/
def firstLog (flash : Memory) (counter : W32) : Map (BitVec 256) :=
  [(1, Config.sha256 Config.maskRom), (2, Config.sha256 (flashPart flash 0)), (8, Config.sha256 (leBytes counter.toNat 4))]

/-- What the loader has measured at Dawn 1 (R403): the accepted image and the part record as well. -/
def loaderLog (flash : Memory) (counter : W32) (slot : Nat) : Map (BitVec 256) :=
  ((firstLog flash counter).set 3 (imageDigest flash slot)).set 4 (Config.sha256 (flashPart flash 1))

/-- The module stops at stage `stage` with a cause, which is also reported over MCTP (R398). -/
def stopDawn (s : State) (stage cause : Nat) : State :=
  report { s with dawn := { s.dawn with status := dawnStatus stage s.idfail cause } } 3 [stage, cause]

/-- POWER_GOOD: Dawn 0 begins; the loader finds its identity, checks the manifest and the slots, and Dawn 1 begins with the image it accepts.
It stops with cause 1 or 2 where it accepts none, and, at Dawn 1, with cause 3 where the part record does not check (R397 to R404). -/
def powerGood (sram : BitVec 256) (s : State) : State :=
  let s := powerReset s .on
  let d := s.dawn
  let record := flashPart d.flash 1
  let seed := Config.reconstruct sram (flashPart d.flash 2)
  let d := { d with seed := seed, counterAtPowerOn := d.counter, status := dawnStatus 0 seed.isNone 0, log := firstLog d.flash d.counter }
  match acceptSlot d.flash d.counter with
  | none => stopDawn { s with dawn := d } 0 (if slotOk d.flash 0 || slotOk d.flash 1 then 2 else 1)
  | some slot =>
    let d := { d with
      status := dawnStatus 1 seed.isNone 0, log := loaderLog d.flash d.counter slot
      image := some (slot, BitVec.ofNat 32 (headerSvn (slotHeader d.flash slot))) }
    if Config.recordOk record then
      let units := builtUnits.zipIdx.map (fun (e : Nat × Nat) => min e.1 (Config.recordUnits record e.2))
      -- an Ethernet port that the record does not enable is not used (R404)
      { s with dawn := { d with serial := Config.recordSerial record, units := units }
               ethUp := Vector.ofFn (fun p => s.ethUp[p] && decide (p.val < units[1]?.getD 8)) }
    else stopDawn { s with dawn := d } 1 3

/-- POWER_GOOD (R397). -/
def execPowerGood (s : State) : Host.Outcome State Fault Refusal :=
  match s.subj with
  | .sram x => .next (if s.powered && s.dawn.status != 0 then s else powerGood x s)
  | _ => .next s

/-! ### Dawn 2 and Dawn 3 (R397, R403, R404) -/

/-- Whether every channel of some slice failed (R404). -/
def sliceLost (cs : List Nat) : Bool := (List.range 32).any (fun h => (List.range 16).all (fun i => cs.contains (16 * h + i)))

/-- HBM_TRAINING_COMPLETE: Dawn 2 begins, or the module stops at Dawn 1 with cause 4; the device OS has measured its tables and the self-test
code (R397, R403, R404). -/
def hbmTrained (failed : List Nat) (s : State) : State :=
  if !s.powered || s.stage != 1 || s.dawnError then s
  else if sliceLost failed then stopDawn s 1 4
  else
    { s with dawn := { s.dawn with
      status := dawnStatus 2 s.idfail 0, failedChannels := failed
      log := (s.dawn.log.set 5 (Config.sha256 Config.policyTables)).set 6 (Config.sha256 Config.selfTestCode) } }

/-- HBM_TRAINING_COMPLETE (R397). -/
def execHbmTrainingComplete (s : State) : Host.Outcome State Fault Refusal :=
  match s.subj with
  | .failed cs => .next (hbmTrained cs s)
  | _ => .next s

/-- Whether a repair map leaves a usable region (R75, R404). -/
def anyRegion (m : RepairMap) : Bool := (List.range 12).any (fun j => (regionsOf j).any (Region.usable m))

/-- The modules of a die pair as the repair map has them (R75, R392). -/
def pairMods (m : RepairMap) (a b : Nat) : List ModRt :=
  match m.pairs.find? (fun p => p.1 == 4 * a + b) with
  | some (_, f, h) =>
    List.replicate f ModRt.reset ++ List.replicate h { ModRt.reset with st := .half, wasHalf := true }
      ++ List.replicate (24 - f - h) { ModRt.reset with st := .retired }
  | none => List.replicate 24 ModRt.reset

/-- Both directions of every die pair at dawn. -/
def dawnLinks (m : RepairMap) : List (Nat × Nat) → Map LinkRt → Map LinkRt
  | [], l => l
  | (a, b) :: r, l =>
    let x := { LinkRt.reset with mods := pairMods m a b }
    dawnLinks m r ((l.set (linkKey a b) x).set (linkKey b a) x)

/-- The modules of a die pair, full and half width, that two maps both leave live. -/
def minPair (a b : Nat × Nat × Nat) : Nat × Nat × Nat :=
  let full := min a.2.1 b.2.1
  (a.1, full, min (a.2.1 + a.2.2) (b.2.1 + b.2.2) - full)

/-- A repair map without the units that `off` takes away (R404). -/
def lessUnits (m off : RepairMap) : RepairMap :=
  { fenced := m.fenced ++ off.fenced, reduced := m.reduced ++ off.reduced, cutSwitch := m.cutSwitch ++ off.cutSwitch
    cutUplink := m.cutUplink ++ off.cutUplink, deadChannels := (m.deadChannels ++ off.deadChannels).eraseDups
    pairs := m.pairs.map (fun p => match off.pairs.find? (fun q => q.1 == p.1) with
      | some q => minPair p q
      | none => p) ++ off.pairs.filter (fun q => !m.pairs.any (fun p => p.1 == q.1)) }

/-- SELF_TEST_COMPLETE: the repair map is sealed and reconciled with the part record, and Dawn 3 begins, or the module stops at Dawn 2 with
cause 5 (R397, R403, R404). Whether governor registers that were changed during dawn, such as a budget (R406), take their Reset values when it ends,
the rules do not say beyond "after dawn" (R8, R26); the model's choice is that they stand as they are (DESIGN CHOICE, assumption 100). -/
def selfTested (map : RepairMap) (s : State) : State :=
  if !s.powered || s.stage != 2 || s.dawnError then s
  else
    let record := flashPart s.dawn.flash 1
    let m := lessUnits { map with deadChannels := s.dawn.failedChannels } (Config.recordOff record)
    if !anyRegion m || decide (sliceBytes m < 536870912) then stopDawn s 2 5
    else
      { s with
        repair := m, links := dawnLinks m diePairs []
        dawn := { s.dawn with
          status := dawnStatus 3 s.idfail 0, caps := Config.recordCaps record &&& Config.hardwareCaps &&& 0xF
          log := s.dawn.log.set 7 (Config.sha256 (Config.repairImage m)) } }

/-- SELF_TEST_COMPLETE (R404). -/
def execSelfTestComplete (s : State) : Host.Outcome State Fault Refusal :=
  match s.subj with
  | .repair m => .next (selfTested m s)
  | _ => .next s

/-! ### The anti-rollback counter (R401) -/

/-- COUNTER_RAISE: only above the counter and at most to the svn of the running image (R401). The management controller answers the message that
carries it (R406). -/
def counterRaise (v : W32) (s : State) : State :=
  answer (match s.dawn.image with
    | some (_, svn) =>
      if s.powered && decide (s.dawn.counter.toNat < v.toNat) && decide (v.toNat ≤ svn.toNat) then
        { s with dawn := { s.dawn with counter := v } }
      else s
    | none => s) 0x7F 0x13 []

/-- COUNTER_RAISE (R401). -/
def execCounterRaise (s : State) : Host.Outcome State Fault Refusal :=
  match s.subj with
  | .value v => .next (counterRaise v s)
  | _ => .next s

end Sys2Proof.Machine
end

