-- ==== Sys2Proof/Machine/Management.lean ====
section
/-! DEFINITION. Management and what the outside does to the module (R386, R388, R389, R396, R402, R403, R406): MCTP and SPDM, resets, links,
corrected errors, and reads of registers. -/

namespace Sys2Proof.Machine

/-! ### MCTP (R406) and SPDM (R403) -/

/-- A free number taken for a content that no rule gives. -/
def takeNat (s : State) (f : Nat → State → State) : State := f (Config.freeNat s.freeCtr) { s with freeCtr := s.freeCtr + 1 }

/-- READ_STATUS: DAWN_STATUS, the dies' power, and temperatures, which no rule gives (R406). -/
def execReadStatus (s : State) : Host.Outcome State Fault Refusal :=
  .next (takeNat s (fun temp s => answer s 0x7F 0x10 (s.dawn.status.toNat :: temp :: s.gov.toList.map (fun g => g.now.toNat))))

/-- SET_BUDGET (R26, R28, R406). -/
def execSetBudget (s : State) : Host.Outcome State Fault Refusal :=
  match s.subj with
  | .die d w => .next (answer (if s.powered then setBudget d w s else s) 0x7F 0x11 [])
  | _ => .next s

/-- POWER_CYCLE_REQUEST: the module loses power, and the next power-on follows (R398, R406). -/
def execPowerCycleRequest (s : State) : Host.Outcome State Fault Refusal :=
  .next (if s.powered then powerReset (answer s 0x7F 0x12 []) .held else s)

/-- MCTP_CONTROL_MESSAGE: answered; the contents are the MCTP standard's (R406). -/
def execMctpControlMessage (s : State) : Host.Outcome State Fault Refusal :=
  match s.subj with
  | .command c => .next (takeNat s (fun x s => answer s 0x00 c.toNat [x]))
  | _ => .next s

/-- An answer of the SPDM responder: `code` is the request it answers, and 0 an error. -/
def spdm (s : State) (code : Nat) (body : List Nat) : State := answer s 0x05 code body

/-- GET_VERSION: SPDM 1.2 (R403). -/
def execGetVersion (s : State) : Host.Outcome State Fault Refusal := .next (spdm s 1 [0x12])

/-- GET_CAPABILITIES: certificates, challenges and measurements (R403); the flags' layout is the SPDM standard's. -/
def execGetCapabilities (s : State) : Host.Outcome State Fault Refusal := .next (takeNat s (fun x s => spdm s 2 [x]))

/-- NEGOTIATE_ALGORITHMS: ECDSA P-256 and SHA-256 only (R403). -/
def execNegotiateAlgorithms (s : State) : Host.Outcome State Fault Refusal := .next (spdm s 3 [256, 256])

/-- The identity certificate (R399, R402). -/
def State.certificate (s : State) : List Byte := Config.certificate (flashPart s.dawn.flash 2)

/-- GET_DIGESTS: the digest of the identity certificate (R402, R403). -/
def execGetDigests (s : State) : Host.Outcome State Fault Refusal := .next (spdm s 4 [(Config.sha256 s.certificate).toNat])

/-- GET_CERTIFICATE: a part of the identity certificate; slot 0 alone holds one (R402, R403). -/
def execGetCertificate (s : State) : Host.Outcome State Fault Refusal :=
  match s.subj with
  | .certificate slot off len =>
    .next (if slot = 0 then spdm s 5 (((s.certificate.drop off).take len).map BitVec.toNat) else spdm s 0 [5])
  | _ => .next s

/-- The attestation log as numbers, by index 1 to 8; an index not measured yet reads as zeros (R403). -/
def State.measurement (s : State) (k : Nat) : Nat := (s.dawn.log.getD k 0).toNat

/-- CHALLENGE: signed with the identity key; an error when IDFAIL is set (R402, R403). -/
def execChallenge (s : State) : Host.Outcome State Fault Refusal :=
  match s.subj with
  | .challenge slot nonce =>
    .next (match s.dawn.seed with
      | some k => if slot = 0 then spdm s 6 [(Config.spdmSign k [6, nonce.toNat, (Config.sha256 s.certificate).toNat]).toNat] else spdm s 0 [6]
      | none => spdm s 0 [6])
  | _ => .next s

/-- GET_MEASUREMENTS: the measurement of an index, all of them for 255, their number for 0; signed ones are an error when IDFAIL is set
(R402, R403). -/
def execGetMeasurements (s : State) : Host.Outcome State Fault Refusal :=
  match s.subj with
  | .measurements idx signed nonce =>
    let body := if idx = 0 then [8] else if idx = 255 then (List.range 8).map (fun k => s.measurement (k + 1)) else [s.measurement idx]
    .next (if 8 < idx ∧ idx ≠ 255 then spdm s 0 [7]
      else if !signed then spdm s 7 body
      else match s.dawn.seed with
        | some k => spdm s 7 (body ++ [(Config.spdmSign k (7 :: nonce.toNat :: body)).toNat])
        | none => spdm s 0 [7])
  | _ => .next s

/-! ### Resets and links (R386, R388, R389) -/

/-- FUNCTION_LEVEL_RESET (R8, R388): tenures are stopped as by KILL without a completion; queues, virtual queues and host-shared requests are
gone; registers take their Reset values. Regions drain afterwards, and the dawn stage stays. -/
def functionReset (s : State) : State :=
  let s := endAll s.tenures { s with queues := [] }
  { s with vqs := [], hostPort := [], pageReqs := s.pageReqs.filter (fun r => isDevice r.2.2), bar2 := msixReset, mboxDoor := 0, msixPba := [], mboxRsp := none,
           gov := Vector.replicate 4 { GovRt.reset with last := s.interval } }

/-- FUNCTION_LEVEL_RESET (R388). -/
def execFunctionLevelReset (s : State) : Host.Outcome State Fault Refusal := .next (if s.powered then functionReset s else s)

/-- LINK_DOWN: a surprise link-down acts as a function-level reset (R388). -/
def execLinkDown (s : State) : Host.Outcome State Fault Refusal := .next (if s.powered then functionReset s else s)

/-- PCIE_RETRAIN: the width and the rate in force are reported (R389). -/
def execPcieRetrain (s : State) : Host.Outcome State Fault Refusal :=
  match s.subj with
  | .link rate width => .next { s with pcie := (rate, width) }
  | _ => .next s

/-- CORRECTABLE_ERROR: corrected in place and counted for the device OS (R396). -/
def execCorrectableError (s : State) : Host.Outcome State Fault Refusal :=
  match s.subj with
  | .corrected x => .next (if s.powered then { s with corrected := s.corrected ++ [x] } else s)
  | _ => .next s

/-! ### Reads of registers (R7, R28, R60, R386, R400, R403) -/

/-- A word of bytes at an offset of a window. -/
def bytesAt (n : Nat) (f : Nat → Byte) (off : Nat) : W64 := BitVec.ofNat 64 (leNat ((List.range n).map (fun i => f (off + i))))

/-- A kick-page register (R60); a slot with no queue reads 0 (R386). -/
def readKick (s : State) (slot off : Nat) : W64 :=
  match queueAt? s slot with
  | none => 0
  | some (_, x) => match off with
    | 0x00 => x.kickTail.setWidth 64
    | 0x04 => x.head.setWidth 64
    | 0x08 => x.cplHead.setWidth 64
    | 0x0C => x.status.setWidth 64
    | 0x10 => s.dawn.caps
    | _ => 0

/-- A byte of MBOX_RSP: 0 until the device OS has answered, and then its own (R386, assumption 15). -/
def rspByte (s : State) (off : Nat) : Byte :=
  match s.mboxRsp with
  | none => 0
  | some (_, k) => Config.freeByte (4096 * k + off % 4096)

/-- A byte of the pending bits (R386). -/
def pbaByte (s : State) (off : Nat) : Byte :=
  BitVec.ofNat 8 ((List.range 8).foldl (fun m i => if s.msixPba.contains (8 * (off - 0x18000) + i) then m + 2 ^ i else m) 0)

/-- A BAR2 register (R386, R400). -/
def readBar2 (s : State) (off : Nat) : W64 :=
  if off < 0x1000 then bytesAt 8 s.bar2.get off
  else if off < 0x2000 then bytesAt 8 (rspByte s) off
  else if off = 0x2000 then s.mboxDoor.setWidth 64
  else if off = 0x3000 then s.dawn.status.setWidth 64
  else if 0x10000 ≤ off ∧ off < 0x18000 then bytesAt 8 s.bar2.get off
  else if 0x18000 ≤ off ∧ off < 0x18100 then bytesAt 8 (pbaByte s) off
  else 0

/-- A byte of the measurement log window: the digest of index `k` stands at offset 32 (k - 1) (R386, R403). -/
def attestByte (s : State) (off : Nat) : Byte := BitVec.ofNat 8 (s.measurement (off / 32 + 1) >>> (8 * (off % 32)))

/-- A governor register (R28). -/
def readGov (g : GovRt) (off : Nat) : W64 :=
  match off with
  | 0x00 => g.budget.setWidth 64
  | 0x04 => g.now.setWidth 64
  | 0x08 => g.fclk.setWidth 64
  | 0x0C => g.floor.setWidth 64
  | 0x10 => g.events.setWidth 64
  | _ => 0

/-- What a register reads as (R7). -/
def readRegister (s : State) (r : RegAddr) : W64 :=
  match r with
  | .kick slot off => readKick s slot off
  | .bar2 off => readBar2 s off
  | .bar4 off => bytesAt 8 (attestByte s) off
  | .gov die off => match s.gov[die]? with
    | some g => readGov g off
    | none => 0

/-- A register read by the host or the device OS: its value, and the state, which remembers a read of FCLK_NOW for the rest of its cycle (R28). -/
def registerRead (r : RegAddr) (s : State) : W64 × State :=
  (readRegister s r, match r with
    | .gov die 0x08 => noteRead die s
    | _ => s)

end Sys2Proof.Machine
end

