-- ==== Sys2Proof/Machine/Cores.lean ====
section
/-! DEFINITION. The control cores' accesses to device-local memory (R19, R336, R349): each core's memory instructions are performed at their
home in an order that RVWMO allows. An instruction waits for every earlier one that its preserved program order names; a load takes what
earlier stores of its core have not written yet (assumption 79). -/

namespace Sys2Proof.Machine

/-! ### What an instruction touches -/

/-- The bytes an instruction reads or writes. -/
def CoreKind.range (k : CoreKind) : Option (Nat × Nat) :=
  match k with
  | .load pa size => some (pa, size)
  | .store pa bs => some (pa, bs.length)
  | .lr pa size => some (pa, size)
  | .sc pa bs => some (pa, bs.length)
  | .amo _ pa size _ _ => some (pa, size)
  | .fence _ _ _ _ => none

/-- The bytes an instruction reads or writes, one by one. -/
def CoreKind.bytes (k : CoreKind) : List Nat := k.range.elim [] (fun r => (List.range r.2).map (r.1 + ·))

/-- Whether an instruction only reads memory. -/
def CoreKind.isLoad (k : CoreKind) : Bool :=
  match k with
  | .load _ _ => true
  | .lr _ _ => true
  | _ => false

/-- Whether an instruction is a plain store. -/
def CoreKind.isStore (k : CoreKind) : Bool := match k with | .store _ _ => true | _ => false

/-- Whether an instruction reads memory. -/
def CoreKind.reads (k : CoreKind) : Bool := k.isLoad || (match k with | .amo _ _ _ _ _ => true | _ => false)

/-- Whether an instruction writes memory. -/
def CoreKind.writes (k : CoreKind) : Bool := !k.isLoad && k.range.isSome

/-- Whether two instructions touch a common byte. -/
def CoreKind.meets (a b : CoreKind) : Bool :=
  match a.range, b.range with
  | some x, some y => overlaps x y
  | _, _ => false

/-- The pending instructions of a core that come before place `id` of its program. -/
def CoreRt.upTo (c : CoreRt) (id : Nat) : List CoreOp := c.pending.filter (fun a => decide (a.id < id))

/-- The pending store before place `id` of the program from which a load there takes a byte (R349). -/
def CoreRt.source? (c : CoreRt) (id pa : Nat) : Option CoreOp :=
  ((c.upTo id).filter (fun a => a.kind.isStore && a.kind.bytes.contains pa)).getLast?

/-! ### Preserved program order -/

/-- Whether an earlier instruction `a`, not performed yet, must be performed before `b` by what the two are: a common byte, fences, acquire and
release, a dependency, a load-reserved and its store-conditional (R349). A load passes an earlier plain store, whose bytes it takes; and it
passes an earlier load, as `CoreRt.passes` says. -/
def CoreOp.before (a b : CoreOp) : Bool :=
  (a.kind.meets b.kind && !((a.kind.isStore || a.kind.isLoad) && b.kind.isLoad))
    || (match a.kind with
      | .fence _ _ sr sw => (sr && b.kind.reads) || (sw && b.kind.writes)
      | _ => false)
    || (match b.kind with
      | .fence pr pw _ _ => (pr && a.kind.reads) || (pw && a.kind.writes)
      | _ => false)
    || a.aq || b.rl || b.deps.contains a.id || b.adr.contains a.id || b.pair == some a.id

/-- Whether a pending instruction `a` must be performed before `b` (R349): by what the two are; before a write, where the address of an instruction
between them depends on `a`; before a load, where a store whose bytes it takes depends on `a`. -/
def CoreRt.needs (c : CoreRt) (a b : CoreOp) : Bool :=
  a.before b
    || (b.kind.writes && (c.upTo b.id).any (fun m => m.adr.contains a.id))
    || (b.kind.isLoad && b.kind.bytes.any (fun x => (c.source? b.id x).any (fun m => m.deps.contains a.id || m.adr.contains a.id)))

/-- Those of a list of instructions, latest first, that must be performed before one of `later`, directly or through others. -/
def CoreRt.waitsOn (c : CoreRt) : List CoreOp → List CoreOp → List CoreOp
  | _, [] => []
  | later, a :: r => if later.any (c.needs a) then a :: c.waitsOn (a :: later) r else c.waitsOn later r

/-- Whether an earlier load of a core still has to find a byte as a later one, performed already, found it: both read it, and no store between
or before them that would give it is pending (R349). -/
def CoreRt.opens (c : CoreRt) (pa : Nat) : Bool :=
  c.early.any (fun (e : Nat × Nat × Nat) => decide (e.2.1 ≤ pa) && decide (pa < e.2.1 + e.2.2) && (c.source? e.1 pa).isNone
    && (c.upTo e.1).any (fun a => a.kind.isLoad && a.kind.bytes.contains pa))

/-- Whether an earlier load of a core still has to find any byte as a later one found it. -/
def CoreRt.anyOpen (c : CoreRt) : Bool := c.early.any (fun (e : Nat × Nat × Nat) => (List.range e.2.2).any (fun i => c.opens (e.2.1 + i)))

/-- Whether another control core's load still has to find a byte of an instruction as it stands. -/
def heldOpen (s : State) (c : Nat) (b : CoreOp) : Bool :=
  s.cores.any (fun (e : Nat × CoreRt) => e.1 != c && b.kind.bytes.any e.2.opens)

/-- The earlier loads of a core that `b`, a load, would pass: pending, with a common byte that no store between them gives to `b`. -/
def CoreRt.passed (c : CoreRt) (b : CoreOp) : List CoreOp :=
  (c.upTo b.id).filter (fun a => a.kind.isLoad && b.kind.isLoad &&
    b.kind.bytes.any (fun x => a.kind.bytes.contains x && !((c.source? b.id x).any (fun m => decide (a.id < m.id)))))

/-- Whether control core `n` may perform `b` before the earlier loads that it passes: they are to read what the same writes left, so a control
core's write to such a byte then waits for them. Where one of them waits for a write of its own core, no other core holds a byte so (R349, assumption
79). -/
def CoreRt.passes (s : State) (n : Nat) (c : CoreRt) (b : CoreOp) : Bool :=
  (c.passed b).all (fun a => (c.waitsOn [a] (c.upTo a.id).reverse).all (fun x => !x.kind.writes)
    || s.cores.all (fun (e : Nat × CoreRt) => e.1 == n || !e.2.anyOpen))

/-- Whether a pending instruction of control core `n` may be performed now: nothing that must come first is pending (R349). -/
def CoreRt.allows (s : State) (n : Nat) (c : CoreRt) (b : CoreOp) : Bool :=
  (c.upTo b.id).all (fun a => !c.needs a b) && c.passes s n b && !(b.kind.writes && heldOpen s n b)

/-! ### Effects -/

/-- The value a load of a core returns: each byte as the latest of its earlier pending stores leaves it, else as memory has it (R349). -/
def coreLoad (s : State) (c : CoreRt) (id pa size : Nat) : Nat :=
  leNat ((List.range size).map (fun i =>
    match (c.source? id (pa + i)).map CoreOp.kind with
    | some (.store p bs) => (bs[pa + i - p]?).getD 0
    | _ => s.devMem.get (pa + i)))

/-- Bytes of a core performed at their home, which refuses those of a live gate's word (R305, R336). A core's own write ends no reservation of
its own. -/
def coreStore (s : State) (n : Nat) (pa : Nat) (bs : List Byte) : State :=
  if clobbers s (.dev pa) bs.length then s
  else
    let s' := perform s (.dev pa) bs
    match s.cores.get? n with
    | some c => { s' with cores := s'.cores.modify n (fun x => { x with held := c.held }) }
    | none => s'

/-- Whether a store-conditional succeeds: the reservation of its load-reserved stands and covers its bytes, and it does not fail for a reason of
the implementation's own, which is free (R349, assumption 79). -/
def scSucceeds (s : State) (c : CoreRt) (b : CoreOp) (pa n : Nat) : Bool :=
  (b.pair.bind c.held.get?).any (fun r => decide (r.1 ≤ pa) && decide (pa + n ≤ r.1 + r.2)) && (Config.freeWord s.freeCtr).getLsbD 0

/-- The effect of an instruction of control core `n` as it is performed, and what it returns. -/
def coreEffect (s : State) (n : Nat) (c : CoreRt) (b : CoreOp) : State × Option Nat :=
  match b.kind with
  | .load pa size => (s, some (coreLoad s c b.id pa size))
  | .lr pa size => (s, some (coreLoad s c b.id pa size))
  | .store pa bs => (coreStore s n pa bs, none)
  | .sc pa bs => if scSucceeds s c b pa bs.length then (coreStore s.tookFree n pa bs, some 0) else (s.tookFree, some 1)
  | .amo op pa size x e =>
    let old := leNat (s.devMem.read pa size)
    (coreStore s n pa (leBytes (atomNew op size old x e).1 size), some old)
  | .fence _ _ _ _ => (s, none)

/-- A core once its instruction `b` has been performed and has returned `v`. -/
def CoreRt.done (c : CoreRt) (b : CoreOp) (v : Option Nat) : CoreRt :=
  let early := if (c.passed b).isEmpty then c.early else c.early ++ b.kind.range.toList.map (fun r => (b.id, r))
  let c := { c with
    pending := c.pending.filter (fun a => a.id != b.id)
    loaded := v.elim c.loaded (c.loaded.set b.id)
    held := match b.kind with
      | .lr pa size => c.held.set b.id (pa, size)
      | .sc _ _ => b.pair.elim c.held c.held.erase
      | _ => c.held }
  { c with early := early.filter (fun (e : Nat × Nat × Nat) => (c.upTo e.1).any (fun a => a.kind.isLoad)) }

/-! ### The two turns of a core -/

/-- Whether an access lies in the device physical space and is naturally aligned (R262). -/
def coreOk (s : State) (k : CoreKind) : Bool :=
  match k.range with
  | some (pa, n) => [1, 2, 4, 8].contains n && pa % n == 0 && paInSpace s.repair (pa + n - 1)
  | none => true

/-- A core's state before its first memory instruction. -/
def CoreRt.empty : CoreRt := { pending := [], next := 0, loaded := [], early := [], lastLr := none, held := [] }

/-- Control core `n`, of sixteen, comes to a memory instruction (R19). A store-conditional belongs to the load-reserved before it, with no other
store-conditional between. -/
def coreIssue (n : Nat) (kind : CoreKind) (aq rl : Bool) (deps adr : List Nat) (s : State) : State :=
  let r := s.cores.getD n CoreRt.empty
  if 16 ≤ n ∨ coreOk s kind = false then s
  else
    let sc := match kind with | .sc _ _ => true | _ => false
    let lr := match kind with | .lr _ _ => true | _ => false
    let op : CoreOp := { id := r.next, kind := kind, aq := aq, rl := rl, deps := deps, adr := adr, pair := if sc then r.lastLr else none }
    { s with cores := s.cores.set n { r with
        pending := r.pending ++ [op], next := r.next + 1, lastLr := if lr then some r.next else if sc then none else r.lastLr } }

/-- The pending instruction `k` of control core `n` is performed, if its order allows (R349). -/
def corePerform (n k : Nat) (s : State) : State :=
  match s.cores.get? n with
  | none => s
  | some c =>
    match c.pending.find? (fun a => a.id == k) with
    | none => s
    | some b =>
      if !c.allows s n b then s
      else
        let (s, v) := coreEffect s n c b
        { s with cores := s.cores.modify n (fun x => x.done b v) }

end Sys2Proof.Machine
end

