-- ==== Sys2Proof/Machine/Vector.lean ====
section
/-! DEFINITION. Vector and conversion instructions: majors 0x30 to 0x36 (R184 to R203). -/

namespace Sys2Proof.Machine

/-- The lanes of an operand in a vector format (R184). -/
def VFmt.lanesOf (f : VFmt) (x : W64) : List Nat := Sys2Proof.Machine.lanesOf f.width f.lanes x

/-- Lanes packed in a vector format (R184). -/
def VFmt.pack (f : VFmt) (xs : List Nat) : W64 := packLanes f.width xs

/-- Two 64-bit sources (R186). -/
def read2 (a b : Opnd) : TM (W64 × W64) := do
  let x ← read64 a
  let y ← read64 b
  pure (x, y)

/-- Lanes with their flags, packed and written; the flags of all lanes are set (R187). -/
def writeLanes (d : Opnd) (f : VFmt) (rs : List (Nat × Flags)) : TM Unit := do
  write64 d (VFmt.pack f (rs.map Prod.fst))
  setFlags (orFlags (rs.map Prod.snd))

/-! ### Major 0x30 (R189, R190) -/

/-- d.lane[k] := f(s1.lane[k], s2.lane[k]) (R189). -/
def vec2 (op : Arith) (d a b : Opnd) (f : VFmt) : TM Unit := do
  let (x, y) ← read2 a b
  writeLanes d f (List.zipWith (arithElem op (vElem f)) (VFmt.lanesOf f x) (VFmt.lanesOf f y))

/-- d.lane[k] := f(s1.lane[k]) (R189). -/
def vec1 (op : Arith) (d a : Opnd) (f : VFmt) : TM Unit := do
  let x ← read64 a
  writeLanes d f ((VFmt.lanesOf f x).map (fun e => arithElem op (vElem f) e 0))

/-! ### Major 0x31 (R191, R192) -/

/-- The floating-point format of a vector format. -/
def VFmt.flt (f : VFmt) : FFmt :=
  match f with
  | .bf16 => .bf16
  | .fp16 => .fp16
  | .e4m3 => .e4m3
  | .e5m2 => .e5m2
  | _ => .fp32

/-- The fused forms: d is read before it is written (R191). With `lane0`, lane 0 of s2 takes the place of every lane of it. -/
def vecFused (negProd negAdd lane0 : Bool) (d a b : Opnd) (f : VFmt) : TM Unit := do
  let (x, y) ← read2 a b
  let z ← read64 d
  let ys := VFmt.lanesOf f y
  let ys := if lane0 then ys.map (fun _ => ys.headD 0) else ys
  let op (p : Nat × Nat) (c : Nat) : Nat × Flags := fmaElem (VFmt.flt f) negProd negAdd p.1 p.2 c
  writeLanes d f (List.zipWith op (List.zip (VFmt.lanesOf f x) ys) (VFmt.lanesOf f z))

/-- A sum of products and an initial value, exact and rounded once into fp32 (R192). -/
def dotRound (init : XReal) (ps : List XReal) : Nat × Flags := FFmt.fp32.rnd (exactSum (init :: ps))

/-- The products of `dot.tw8`: the two terms of each weight with its activation (R118, R119). No rule gives a zero product of a term and an integer a
sign, on which the sign of an exact zero sum rests; the model's choice is that of a floating-point product, with 0 positive (DESIGN CHOICE,
assumption 96). -/
def twProducts (ws xs : List Nat) : List XReal :=
  let term (s : Bool) (k : Nat) : XReal := (XReal.ofInt (tw8Term s k)).scale2 (-6)
  (List.zipWith (fun w x =>
    let a := EFmt.decode (vElem .s8) x
    [a.mul (term (bitOf w 7) (bitsOf w 4 3)), a.mul (term (bitOf w 3) (bitsOf w 0 3))]) ws xs).flatten

/-- `dot` (R192). -/
def vecDot (d a b : Opnd) (f : VFmt) : TM Unit := do
  let (x, y) ← read2 a b
  let z ← read64 d
  let ps := if f == .tw8 then twProducts (VFmt.lanesOf f x) (VFmt.lanesOf .s8 y)
    else List.zipWith XReal.mul ((VFmt.lanesOf f x).map (vElem f).decode) ((VFmt.lanesOf f y).map (vElem f).decode)
  let r := dotRound (FFmt.fp32.decode (z.toNat % 2 ^ 32)) ps
  write64 d (z.extractLsb' 32 32 ++ BitVec.ofNat 32 r.1)
  setFlags r.2

/-! ### Major 0x32 (R193, R194) -/

/-- The compares of R193. -/
inductive VCmp where
  | eq | lt | le | un
  deriving DecidableEq, Repr

/-- A compare of two elements, with its flags (R193). -/
def cmpElem (c : VCmp) (f : EFmt) (x y : Nat) : Bool × Flags :=
  let a := f.decode x
  let b := f.decode y
  let nan := a.isNaN || b.isNaN
  let sig := a.isSig || b.isSig
  match c with
  | .eq => (a.eqv b, if sig then fNV else 0)
  | .lt => (a.lt b, if nan then fNV else 0)
  | .le => (a.lt b || a.eqv b, if nan then fNV else 0)
  | .un => (nan, if sig then fNV else 0)

/-- d.lane[k] := all ones where the condition holds, zeros otherwise (R193). -/
def vecCmp (c : VCmp) (d a b : Opnd) (f : VFmt) : TM Unit := do
  let (x, y) ← read2 a b
  let rs := List.zipWith (cmpElem c (vElem f)) (VFmt.lanesOf f x) (VFmt.lanesOf f y)
  writeLanes d f (rs.map (fun r => (if r.1 then 2 ^ f.width - 1 else 0, r.2)))

/-- `sel`: a bitwise select with d as its mask (R194). -/
def vecSel (d a b : Opnd) : TM Unit := do
  let (x, y) ← read2 a b
  let z ← read64 d
  write64 d ((x &&& z) ||| (y &&& ~~~z))

/-! ### Major 0x33 (R195, R196) -/

/-- d := lanes made from the lanes of one source (R195). -/
def perm1 (d a : Opnd) (f : VFmt) (g : List Nat → List Nat) : TM Unit := do
  let x ← read64 a
  write64 d (VFmt.pack f (g (VFmt.lanesOf f x)))

/-- d := lanes made from the lanes of two sources (R195). -/
def perm2 (d a b : Opnd) (f : VFmt) (g : List Nat → List Nat → List Nat) : TM Unit := do
  let (x, y) ← read2 a b
  write64 d (VFmt.pack f (g (VFmt.lanesOf f x) (VFmt.lanesOf f y)))

/-- `shuf` (R195). -/
def lanesShuf (x y : List Nat) : List Nat := y.map (fun j => x[j]?.getD 0)

/-- `zip` (R195). -/
def lanesZip (n : Nat) (x y : List Nat) : List Nat := (List.zipWith (fun p q => [p, q]) (x.take (n / 2)) (y.take (n / 2))).flatten

/-- Every second lane, from lane 0. -/
def evens : List Nat → List Nat
  | a :: _ :: r => a :: evens r
  | l => l

/-- `unzip` (R195). -/
def lanesUnzip (x y : List Nat) : List Nat := evens x ++ evens y

/-- `rot` (R195). -/
def lanesRot (m : Nat) (x : List Nat) : List Nat := x.drop m ++ x.take m

/-- `ins`: lane `m` of d := lane 0 of s1 (R195). -/
def vecIns (d a : Opnd) (m : Nat) (f : VFmt) : TM Unit := do
  let x ← read64 a
  let z ← read64 d
  write64 d (VFmt.pack f ((VFmt.lanesOf f z).set m ((VFmt.lanesOf f x).headD 0)))

/-- `ext`: lane `m`, sign-extended for the signed formats (R195). -/
def vecExt (d a : Opnd) (m : Nat) (f : VFmt) : TM Unit := do
  let x ← read64 a
  let e := lane f.width x m
  let signed := f == .s8 || f == .s16 || f == .s32
  write64 d (if signed then BitVec.ofInt 64 (sextInt e f.width) else BitVec.ofNat 64 e)

/-- The rank of a 16-bit lane for `cmpr.2of4` (R196): a NaN above every magnitude. -/
def cmprRank (f : VFmt) (x : Nat) : Nat :=
  match f with
  | .s16 => (sextInt x 16).natAbs
  | .z16 => x
  | g => if ((vElem g).decode x).isNaN then 65536 else x % 32768

/-- Whether lane `j` is better than lane `k` (R196). -/
def cmprBetter (r : List Nat) (j k : Nat) : Bool :=
  let a := r[j]?.getD 0
  let b := r[k]?.getD 0
  decide (b < a) || (a == b && decide (j < k))

/-- The best lane of a list, by `cmprBetter`. -/
def cmprBest (r : List Nat) : List Nat → Nat
  | [] => 0
  | [k] => k
  | k :: ks => let b := cmprBest r ks; if cmprBetter r k b then k else b

/-- The two lanes that `cmpr.2of4` keeps (R196). -/
def cmprKeep (r : List Nat) : Nat × Nat :=
  let a := cmprBest r [0, 1, 2, 3]
  let b := cmprBest r ([0, 1, 2, 3].filter (fun k => k != a))
  (min a b, max a b)

/-- `cmpr.2of4` (R196). -/
def vecCmpr (d a : Opnd) (p : Fin 4) (f : VFmt) : TM Unit := do
  let x ← read64 a
  let xs := VFmt.lanesOf f x
  let (lo, hi) := cmprKeep (xs.map (cmprRank f))
  write64 d (packLanes 16 [xs[lo]?.getD 0, xs[hi]?.getD 0])
  writePred p (BitVec.ofNat 4 (2 ^ lo + 2 ^ hi))

/-! ### Major 0x34 (R197, R198) -/

/-- One element converted between vector formats (R197): between equal formats with sat = 0 it is unchanged, but for a NaN. -/
def cvtElem (mode : Mode) (sat : Bool) (src dst : VFmt) (rho x : Nat) : Nat × Flags :=
  let v := (vElem src).decode x
  if src == dst && !sat && !v.isNaN then (x, 0) else (vElem dst).convert mode sat rho v

/-- The mixed value of lane `k` (R198). -/
def cvtRho (k : TaskRt) (i : Nat) : Nat :=
  (mix k.srseed (BitVec.ofNat 32 k.trigSeq) (BitVec.ofNat 32 (8 * k.srCount + i))).toNat

/-- `cvt`: the low lanes, as many as both formats have (R197). -/
def vecCvt (d a : Opnd) (mode : Mode) (sat : Bool) (src dst : VFmt) : TM Unit := do
  let x ← read64 a
  let k ← getTk
  let xs := ((VFmt.lanesOf src x).take (min src.lanes dst.lanes)).zipIdx
  writeLanes d dst (xs.map (fun e => cvtElem mode sat src dst (cvtRho k e.2) e.1))
  if mode == .sr then modTk (fun k => { k with srCount := (k.srCount + 1) % 536870912 })

/-! ### Major 0x35 (R199) -/

/-- The term of a floating-point lane: its value as fp32 bits (R199). -/
def redTerm (f : VFmt) (x : Nat) : Nat × Flags := if f == .fp32 then (x, 0) else FFmt.fp32.rnd ((vElem f).decode x)

/-- The sum of terms by R129, with the flags of the terms. -/
def redSum (ts : List (Nat × Flags)) : Nat × Flags :=
  let r := pairwise addRnd (ts.map Prod.fst)
  (r.1, orFlags (ts.map Prod.snd) ||| r.2)

/-- Whether a vector format holds integers. -/
def VFmt.isInt (f : VFmt) : Bool := decide (f.idx ≤ 5)

/-- An integer lane extended to 32 bits (R199). -/
def lane32 (f : VFmt) (x : Nat) : Nat := wrapInt (intVal (f.idx % 2 == 0) f.width x) 32

/-- `rsum` (R199). -/
def vecRsum (d a : Opnd) (f : VFmt) : TM Unit := do
  let xs := VFmt.lanesOf f (← read64 a)
  if VFmt.isInt f then write32 d (BitVec.ofNat 32 ((xs.map (lane32 f)).foldl (fun x y => x + y) 0))
  else
    let r := redSum (xs.map (redTerm f))
    write32 d (BitVec.ofNat 32 r.1)
    setFlags r.2

/-- `rdot` (R199). -/
def vecRdot (d a b : Opnd) (f : VFmt) : TM Unit := do
  let (x, y) ← read2 a b
  let xs := VFmt.lanesOf f x
  let ys := VFmt.lanesOf f y
  if VFmt.isInt f then
    write32 d (BitVec.ofNat 32 ((List.zipWith (fun p q => lane32 f p * lane32 f q) xs ys).foldl (fun p q => p + q) 0))
  else
    let r := redSum (List.zipWith (fun p q => FFmt.fp32.rnd (((vElem f).decode p).mul ((vElem f).decode q))) xs ys)
    write32 d (BitVec.ofNat 32 r.1)
    setFlags r.2

/-- The largest or least value of a list. -/
def pickInt (isMax : Bool) : List Int → Int
  | [] => 0
  | [x] => x
  | x :: xs => let y := pickInt isMax xs; if isMax then (if x < y then y else x) else (if y < x then y else x)

/-- The largest or least value of a list of values that are no NaN, minus zero below plus zero (R199). -/
def pickReal (isMax : Bool) : List XReal → XReal
  | [] => .fin false 0 0
  | [x] => x
  | x :: xs => let y := pickReal isMax xs; if isMax then (if x.ltz y then y else x) else (if y.ltz x then y else x)

/-- `rmax` and `rmin` (R199). -/
def vecRext (isMax : Bool) (d a : Opnd) (f : VFmt) : TM Unit := do
  let xs := VFmt.lanesOf f (← read64 a)
  if VFmt.isInt f then write32 d (BitVec.ofInt 32 (pickInt isMax (xs.map (intVal (f.idx % 2 == 0) f.width))))
  else
    let vs := xs.map (vElem f).decode
    if vs.any XReal.isNaN then
      write32 d (BitVec.ofNat 32 FFmt.fp32.canonNaN)
      if vs.any XReal.isSig then setFlags fNV
    else write32 d (BitVec.ofNat 32 (FFmt.fp32.rnd (pickReal isMax vs)).1)

/-! ### Major 0x36 (R200 to R202) -/

/-- Scale register `m` as a value (R126). -/
def scaleOf (k : Fmt) (m : Nat) : XReal := scaleVal (k.scl[m]?.getD 0) (bitOf k.sclkind.toNat m)

/-- `scl` (R200). -/
def vecScl (d a : Opnd) (m : Nat) (f : VFmt) : TM Unit := do
  let x ← read64 a
  let c := scaleOf (← getTk).fmt m
  writeLanes d f ((VFmt.lanesOf f x).map (fun e => (VFmt.flt f).rnd (((vElem f).decode e).mul c)))

/-- `ldexp` (R200). Beyond a power of two of 2000 either way every format overflows or underflows alike. -/
def vecLdexp (d a b : Opnd) (f : VFmt) : TM Unit := do
  let (x, y) ← read2 a b
  let power (e : Nat) : Int := max (-2000) (min 2000 (sextInt e f.width))
  writeLanes d f (List.zipWith (fun p q => (VFmt.flt f).rnd (((vElem f).decode p).scale2 (power q))) (VFmt.lanesOf f x)
    (VFmt.lanesOf f y))

/-- The block scale for a largest magnitude (R121, R201). -/
def sclxScale (kind : Nat) : XReal → Nat
  | .nan _ => 0
  | .inf _ => 254
  | .fin _ m e => mxScale kind m e

/-- `sclx` (R201). What a NaN in the amax of s2 gives, the spec does not say: where a largest magnitude is taken with it, amax is a free
value, and so is a scale computed from it (assumption 8). -/
def vecSclx (d a b : Opnd) (f : VFmt) : TM Unit := do
  let (x, y) ← read2 a b
  let z ← read64 d
  let _ := z
  let vs := (VFmt.lanesOf f x).map (vElem f).decode
  let kind := bitsOf y.toNat 40 2
  let spec := bitOf y.toNat 32 || vs.any XReal.special
  let start := FFmt.fp32.decode (y.toNat % 2 ^ 32)
  let mags := (vs.filter (fun v => !v.special)).map (fun v => match v with | .fin _ m e => .fin false m e | w => w)
  let open_ := start.isNaN && !mags.isEmpty
  let free := (Config.sclxNaN x y).toNat
  let amax := pickReal true (start :: mags)
  let amaxBits := if open_ then free % 2 ^ 32
    else if mags.any (fun v => start.ltz v) then (FFmt.fp32.rnd amax).1 else y.toNat % 2 ^ 32
  let scale := if spec then 255 else if start.isNaN then bitsOf free 32 8 else sclxScale kind amax
  write64 d (BitVec.ofNat 64 (amaxBits + spec.toNat * 2 ^ 32 + kind * 2 ^ 40 + scale * 2 ^ 48))

/-- One element packed by `mxpack` (R202). -/
def mxpackElem (kind scale : Nat) (x : XReal) : Nat × Flags :=
  if x.special then (0, fNV)
  else if scale = 255 then (0, 0)
  else mxEncode kind .rne 0 (x.scale2 (127 - (scale : Int)))

/-- `mxpack` (R202). -/
def vecMxpack (d a b : Opnd) (f : VFmt) : TM Unit := do
  let (x, y) ← read2 a b
  let kind := bitsOf y.toNat 40 2
  let rs := (VFmt.lanesOf f x).map (fun e => mxpackElem kind (bitsOf y.toNat 48 8) ((vElem f).decode e))
  write64 d (packLanes (mxWidth kind) (rs.map Prod.fst))
  setFlags (orFlags (rs.map Prod.snd))

/-- `mxunpack` (R202). With scale = 0xFF every lane is the canonical NaN, and no rule says whether a signalling element then raises NV; the model's choice
is that no flag is raised, for no element is decoded (DESIGN CHOICE, assumption 93). -/
def vecMxunpack (d a b : Opnd) (f : VFmt) : TM Unit := do
  let (x, y) ← read2 a b
  let kind := bitsOf y.toNat 40 2
  let scale := bitsOf y.toNat 48 8
  let g := VFmt.flt f
  let one (e : Nat) : Nat × Flags := if scale = 255 then (g.canonNaN, 0) else g.rnd ((mxDecode kind e).scale2 ((scale : Int) - 127))
  writeLanes d f ((lanesOf (mxWidth kind) f.lanes x).map one)

/-! ### The instructions -/

/-- `add` (R189). -/
def execVAdd (d a b : Opnd) (f : VFmt) (s : State) : Host.Outcome State Fault Refusal :=
  run1 (.vAdd d a b f) (vec2 .add d a b f) s

/-- `sub` (R189). -/
def execVSub (d a b : Opnd) (f : VFmt) (s : State) : Host.Outcome State Fault Refusal :=
  run1 (.vSub d a b f) (vec2 .sub d a b f) s

/-- `mul` (R189). -/
def execVMul (d a b : Opnd) (f : VFmt) (s : State) : Host.Outcome State Fault Refusal :=
  run1 (.vMul d a b f) (vec2 .mul d a b f) s

/-- `min` (R189). -/
def execVMin (d a b : Opnd) (f : VFmt) (s : State) : Host.Outcome State Fault Refusal :=
  run1 (.vMin d a b f) (vec2 .min d a b f) s

/-- `max` (R189). -/
def execVMax (d a b : Opnd) (f : VFmt) (s : State) : Host.Outcome State Fault Refusal :=
  run1 (.vMax d a b f) (vec2 .max d a b f) s

/-- `abs` (R189, R190). -/
def execVAbs (d a : Opnd) (f : VFmt) (s : State) : Host.Outcome State Fault Refusal :=
  run1 (.vAbs d a f) (vec1 .abs d a f) s

/-- `neg` (R189, R190). -/
def execVNeg (d a : Opnd) (f : VFmt) (s : State) : Host.Outcome State Fault Refusal :=
  run1 (.vNeg d a f) (vec1 .neg d a f) s

/-- `adds` (R189). -/
def execVAdds (d a b : Opnd) (f : VFmt) (s : State) : Host.Outcome State Fault Refusal :=
  run1 (.vAdds d a b f) (vec2 .adds d a b f) s

/-- `subs` (R189). -/
def execVSubs (d a b : Opnd) (f : VFmt) (s : State) : Host.Outcome State Fault Refusal :=
  run1 (.vSubs d a b f) (vec2 .subs d a b f) s

/-- `and` (R189). -/
def execVAnd (d a b : Opnd) (f : VFmt) (s : State) : Host.Outcome State Fault Refusal :=
  run1 (.vAnd d a b f) (vec2 .and d a b f) s

/-- `or` (R189). -/
def execVOr (d a b : Opnd) (f : VFmt) (s : State) : Host.Outcome State Fault Refusal :=
  run1 (.vOr d a b f) (vec2 .or d a b f) s

/-- `xor` (R189). -/
def execVXor (d a b : Opnd) (f : VFmt) (s : State) : Host.Outcome State Fault Refusal :=
  run1 (.vXor d a b f) (vec2 .xor d a b f) s

/-- `sll` (R189). -/
def execVSll (d a b : Opnd) (f : VFmt) (s : State) : Host.Outcome State Fault Refusal :=
  run1 (.vSll d a b f) (vec2 .sll d a b f) s

/-- `srl` (R189). -/
def execVSrl (d a b : Opnd) (f : VFmt) (s : State) : Host.Outcome State Fault Refusal :=
  run1 (.vSrl d a b f) (vec2 .srl d a b f) s

/-- `sra` (R189). -/
def execVSra (d a b : Opnd) (f : VFmt) (s : State) : Host.Outcome State Fault Refusal :=
  run1 (.vSra d a b f) (vec2 .sra d a b f) s

/-- `fma` (R191). -/
def execVFma (d a b : Opnd) (f : VFmt) (s : State) : Host.Outcome State Fault Refusal :=
  run1 (.vFma d a b f) (vecFused false false false d a b f) s

/-- `fms` (R191). -/
def execVFms (d a b : Opnd) (f : VFmt) (s : State) : Host.Outcome State Fault Refusal :=
  run1 (.vFms d a b f) (vecFused false true false d a b f) s

/-- `fnma` (R191). -/
def execVFnma (d a b : Opnd) (f : VFmt) (s : State) : Host.Outcome State Fault Refusal :=
  run1 (.vFnma d a b f) (vecFused true false false d a b f) s

/-- `fmab` (R191). -/
def execVFmab (d a b : Opnd) (f : VFmt) (s : State) : Host.Outcome State Fault Refusal :=
  run1 (.vFmab d a b f) (vecFused false false true d a b f) s

/-- `dot` (R192). -/
def execVDot (d a b : Opnd) (f : VFmt) (s : State) : Host.Outcome State Fault Refusal :=
  run1 (.vDot d a b f) (vecDot d a b f) s

/-- `cmp.eq` (R193). -/
def execVCmpEq (d a b : Opnd) (f : VFmt) (s : State) : Host.Outcome State Fault Refusal :=
  run1 (.vCmpEq d a b f) (vecCmp .eq d a b f) s

/-- `cmp.lt` (R193). -/
def execVCmpLt (d a b : Opnd) (f : VFmt) (s : State) : Host.Outcome State Fault Refusal :=
  run1 (.vCmpLt d a b f) (vecCmp .lt d a b f) s

/-- `cmp.le` (R193). -/
def execVCmpLe (d a b : Opnd) (f : VFmt) (s : State) : Host.Outcome State Fault Refusal :=
  run1 (.vCmpLe d a b f) (vecCmp .le d a b f) s

/-- `cmp.un` (R193). -/
def execVCmpUn (d a b : Opnd) (f : VFmt) (s : State) : Host.Outcome State Fault Refusal :=
  run1 (.vCmpUn d a b f) (vecCmp .un d a b f) s

/-- `sel` (R194). -/
def execVSel (d a b : Opnd) (f : VFmt) (s : State) : Host.Outcome State Fault Refusal :=
  run1 (.vSel d a b f) (vecSel d a b) s

/-- `shuf` (R195). -/
def execVShuf (d a b : Opnd) (f : VFmt) (s : State) : Host.Outcome State Fault Refusal :=
  run1 (.vShuf d a b f) (perm2 d a b f lanesShuf) s

/-- `bcast` (R195). -/
def execVBcast (d a : Opnd) (m : BitVec 6) (f : VFmt) (s : State) : Host.Outcome State Fault Refusal :=
  run1 (.vBcast d a m f) (perm1 d a f (fun x => x.map (fun _ => x[m.toNat]?.getD 0))) s

/-- `zip` (R195). -/
def execVZip (d a b : Opnd) (f : VFmt) (s : State) : Host.Outcome State Fault Refusal :=
  run1 (.vZip d a b f) (perm2 d a b f (lanesZip f.lanes)) s

/-- `unzip` (R195). -/
def execVUnzip (d a b : Opnd) (f : VFmt) (s : State) : Host.Outcome State Fault Refusal :=
  run1 (.vUnzip d a b f) (perm2 d a b f lanesUnzip) s

/-- `rot` (R195). -/
def execVRot (d a : Opnd) (m : BitVec 6) (f : VFmt) (s : State) : Host.Outcome State Fault Refusal :=
  run1 (.vRot d a m f) (perm1 d a f (lanesRot m.toNat)) s

/-- `ins` (R195). -/
def execVIns (d a : Opnd) (m : BitVec 6) (f : VFmt) (s : State) : Host.Outcome State Fault Refusal :=
  run1 (.vIns d a m f) (vecIns d a m.toNat f) s

/-- `ext` (R195). -/
def execVExt (d a : Opnd) (m : BitVec 6) (f : VFmt) (s : State) : Host.Outcome State Fault Refusal :=
  run1 (.vExt d a m f) (vecExt d a m.toNat f) s

/-- `cmpr.2of4` (R196). -/
def execCmpr2of4 (d a : Opnd) (p : Fin 4) (f : VFmt) (s : State) : Host.Outcome State Fault Refusal :=
  run1 (.cmpr2of4 d a p f) (vecCmpr d a p f) s

/-- `cvt` (R197). -/
def execVCvt (d a : Opnd) (mode : Mode) (sat : Bool) (src dst : VFmt) (s : State) : Host.Outcome State Fault Refusal :=
  run1 (.vCvt d a mode sat src dst) (vecCvt d a mode sat src dst) s

/-- `rsum` (R199). -/
def execVRsum (d a : Opnd) (f : VFmt) (s : State) : Host.Outcome State Fault Refusal :=
  run1 (.vRsum d a f) (vecRsum d a f) s

/-- `rmax` (R199). -/
def execVRmax (d a : Opnd) (f : VFmt) (s : State) : Host.Outcome State Fault Refusal :=
  run1 (.vRmax d a f) (vecRext true d a f) s

/-- `rmin` (R199). -/
def execVRmin (d a : Opnd) (f : VFmt) (s : State) : Host.Outcome State Fault Refusal :=
  run1 (.vRmin d a f) (vecRext false d a f) s

/-- `rdot` (R199). -/
def execVRdot (d a b : Opnd) (f : VFmt) (s : State) : Host.Outcome State Fault Refusal :=
  run1 (.vRdot d a b f) (vecRdot d a b f) s

/-- `scl` (R200). -/
def execVScl (d a : Opnd) (m : BitVec 6) (f : VFmt) (s : State) : Host.Outcome State Fault Refusal :=
  run1 (.vScl d a m f) (vecScl d a m.toNat f) s

/-- `sclx` (R201). -/
def execVSclx (d a b : Opnd) (f : VFmt) (s : State) : Host.Outcome State Fault Refusal :=
  run1 (.vSclx d a b f) (vecSclx d a b f) s

/-- `mxpack` (R202). -/
def execVMxpack (d a b : Opnd) (f : VFmt) (s : State) : Host.Outcome State Fault Refusal :=
  run1 (.vMxpack d a b f) (vecMxpack d a b f) s

/-- `mxunpack` (R202). -/
def execVMxunpack (d a b : Opnd) (f : VFmt) (s : State) : Host.Outcome State Fault Refusal :=
  run1 (.vMxunpack d a b f) (vecMxunpack d a b f) s

/-- `ldexp` (R200). -/
def execVLdexp (d a b : Opnd) (f : VFmt) (s : State) : Host.Outcome State Fault Refusal :=
  run1 (.vLdexp d a b f) (vecLdexp d a b f) s

end Sys2Proof.Machine
end

