-- ==== Sys2Proof/Machine/Dispatch.lean ====
section
/-! DEFINITION. What each instruction and each event does: one arm for each constructor of `Instr`. -/

namespace Sys2Proof.Machine

/-- One instruction executed, or one event that takes place. -/
def exec (i : Instr) (s : State) : Host.Outcome State Fault Refusal :=
  match i with
  | .addW d a b => Sys2Proof.Machine.execAddW d a b s
  | .subW d a b => Sys2Proof.Machine.execSubW d a b s
  | .andW d a b => Sys2Proof.Machine.execAndW d a b s
  | .orW d a b => Sys2Proof.Machine.execOrW d a b s
  | .xorW d a b => Sys2Proof.Machine.execXorW d a b s
  | .sllW d a b => Sys2Proof.Machine.execSllW d a b s
  | .srlW d a b => Sys2Proof.Machine.execSrlW d a b s
  | .sraW d a b => Sys2Proof.Machine.execSraW d a b s
  | .mulW d a b => Sys2Proof.Machine.execMulW d a b s
  | .mulhsW d a b => Sys2Proof.Machine.execMulhsW d a b s
  | .mulhzW d a b => Sys2Proof.Machine.execMulhzW d a b s
  | .divsW d a b => Sys2Proof.Machine.execDivsW d a b s
  | .divzW d a b => Sys2Proof.Machine.execDivzW d a b s
  | .remsW d a b => Sys2Proof.Machine.execRemsW d a b s
  | .remzW d a b => Sys2Proof.Machine.execRemzW d a b s
  | .minsW d a b => Sys2Proof.Machine.execMinsW d a b s
  | .maxsW d a b => Sys2Proof.Machine.execMaxsW d a b s
  | .minzW d a b => Sys2Proof.Machine.execMinzW d a b s
  | .maxzW d a b => Sys2Proof.Machine.execMaxzW d a b s
  | .addsW d a b => Sys2Proof.Machine.execAddsW d a b s
  | .subsW d a b => Sys2Proof.Machine.execSubsW d a b s
  | .clzW d a => Sys2Proof.Machine.execClzW d a s
  | .cntW d a => Sys2Proof.Machine.execCntW d a s
  | .movW d a => Sys2Proof.Machine.execMovW d a s
  | .cmpEqW p a b => Sys2Proof.Machine.execCmpEqW p a b s
  | .cmpNeW p a b => Sys2Proof.Machine.execCmpNeW p a b s
  | .cmpLtsW p a b => Sys2Proof.Machine.execCmpLtsW p a b s
  | .cmpLtzW p a b => Sys2Proof.Machine.execCmpLtzW p a b s
  | .cmpGesW p a b => Sys2Proof.Machine.execCmpGesW p a b s
  | .cmpGezW p a b => Sys2Proof.Machine.execCmpGezW p a b s
  | .pand p q r => Sys2Proof.Machine.execPand p q r s
  | .por p q r => Sys2Proof.Machine.execPor p q r s
  | .pxor p q r => Sys2Proof.Machine.execPxor p q r s
  | .pandn p q r => Sys2Proof.Machine.execPandn p q r s
  | .pset p a => Sys2Proof.Machine.execPset p a s
  | .pget d q => Sys2Proof.Machine.execPget d q s
  | .addiW d a imm => Sys2Proof.Machine.execAddiW d a imm s
  | .andiW d a imm => Sys2Proof.Machine.execAndiW d a imm s
  | .oriW d a imm => Sys2Proof.Machine.execOriW d a imm s
  | .xoriW d a imm => Sys2Proof.Machine.execXoriW d a imm s
  | .slliW d a sh => Sys2Proof.Machine.execSlliW d a sh s
  | .srliW d a sh => Sys2Proof.Machine.execSrliW d a sh s
  | .sraiW d a sh => Sys2Proof.Machine.execSraiW d a sh s
  | .liW d imm => Sys2Proof.Machine.execLiW d imm s
  | .luiW d imm => Sys2Proof.Machine.execLuiW d imm s
  | .addA d a b => Sys2Proof.Machine.execAddA d a b s
  | .addzA d a b => Sys2Proof.Machine.execAddzA d a b s
  | .subA d a b => Sys2Proof.Machine.execSubA d a b s
  | .movA d a => Sys2Proof.Machine.execMovA d a s
  | .loA d a => Sys2Proof.Machine.execLoA d a s
  | .hiA d a => Sys2Proof.Machine.execHiA d a s
  | .catA d a b => Sys2Proof.Machine.execCatA d a b s
  | .cmpEqA p a b => Sys2Proof.Machine.execCmpEqA p a b s
  | .cmpLtzA p a b => Sys2Proof.Machine.execCmpLtzA p a b s
  | .addiA d a imm => Sys2Proof.Machine.execAddiA d a imm s
  | .br p imm => Sys2Proof.Machine.execBr p imm s
  | .brz a p imm => Sys2Proof.Machine.execBrz a p imm s
  | .brnz a p imm => Sys2Proof.Machine.execBrnz a p imm s
  | .brneg a p imm => Sys2Proof.Machine.execBrneg a p imm s
  | .brNp p imm => Sys2Proof.Machine.execBrNp p imm s
  | .brzNp a p imm => Sys2Proof.Machine.execBrzNp a p imm s
  | .brnzNp a p imm => Sys2Proof.Machine.execBrnzNp a p imm s
  | .brnegNp a p imm => Sys2Proof.Machine.execBrnegNp a p imm s
  | .call imm => Sys2Proof.Machine.execCall imm s
  | .jr a => Sys2Proof.Machine.execJr a s
  | .callr a => Sys2Proof.Machine.execCallr a s
  | .dbnz d imm => Sys2Proof.Machine.execDbnz d imm s
  | .open_ d a => Sys2Proof.Machine.execOpen_ d a s
  | .close d => Sys2Proof.Machine.execClose d s
  | .next_ a => Sys2Proof.Machine.execNext_ a s
  | .hdr d a => Sys2Proof.Machine.execHdr d a s
  | .send d a => Sys2Proof.Machine.execSend d a s
  | .left d a => Sys2Proof.Machine.execLeft d a s
  | .cpy d a b => Sys2Proof.Machine.execCpy d a b s
  | .ldS8 d b off => Sys2Proof.Machine.execLdS8 d b off s
  | .ldZ8 d b off => Sys2Proof.Machine.execLdZ8 d b off s
  | .ldS16 d b off => Sys2Proof.Machine.execLdS16 d b off s
  | .ldZ16 d b off => Sys2Proof.Machine.execLdZ16 d b off s
  | .ldW d b off => Sys2Proof.Machine.execLdW d b off s
  | .ldD d b off => Sys2Proof.Machine.execLdD d b off s
  | .stB d b off => Sys2Proof.Machine.execStB d b off s
  | .stH d b off => Sys2Proof.Machine.execStH d b off s
  | .stW d b off => Sys2Proof.Machine.execStW d b off s
  | .stD d b off => Sys2Proof.Machine.execStD d b off s
  | .gldS8 d a tk tok => Sys2Proof.Machine.execGldS8 d a tk tok s
  | .gldZ8 d a tk tok => Sys2Proof.Machine.execGldZ8 d a tk tok s
  | .gldS16 d a tk tok => Sys2Proof.Machine.execGldS16 d a tk tok s
  | .gldZ16 d a tk tok => Sys2Proof.Machine.execGldZ16 d a tk tok s
  | .gldW d a tk tok => Sys2Proof.Machine.execGldW d a tk tok s
  | .gldD d a tk tok => Sys2Proof.Machine.execGldD d a tk tok s
  | .gstB d a tk tok => Sys2Proof.Machine.execGstB d a tk tok s
  | .gstH d a tk tok => Sys2Proof.Machine.execGstH d a tk tok s
  | .gstW d a tk tok => Sys2Proof.Machine.execGstW d a tk tok s
  | .gstD d a tk tok => Sys2Proof.Machine.execGstD d a tk tok s
  | .xfer a port => Sys2Proof.Machine.execXfer a port s
  | .accFp32 wid a b => Sys2Proof.Machine.execAccFp32 wid a b s
  | .accBf16 wid a b => Sys2Proof.Machine.execAccBf16 wid a b s
  | .accFp16 wid a b => Sys2Proof.Machine.execAccFp16 wid a b s
  | .accS8 wid a b => Sys2Proof.Machine.execAccS8 wid a b s
  | .accZ8 wid a b => Sys2Proof.Machine.execAccZ8 wid a b s
  | .accS16 wid a b => Sys2Proof.Machine.execAccS16 wid a b s
  | .accZ16 wid a b => Sys2Proof.Machine.execAccZ16 wid a b s
  | .accS32 wid a b => Sys2Proof.Machine.execAccS32 wid a b s
  | .accZ32 wid a b => Sys2Proof.Machine.execAccZ32 wid a b s
  | .accS64 wid a b => Sys2Proof.Machine.execAccS64 wid a b s
  | .flushr wid => Sys2Proof.Machine.execFlushr wid s
  | .atomAdd a b dbl => Sys2Proof.Machine.execAtomAdd a b dbl s
  | .atomMin a b dbl => Sys2Proof.Machine.execAtomMin a b dbl s
  | .atomMax a b dbl => Sys2Proof.Machine.execAtomMax a b dbl s
  | .atomMinz a b dbl => Sys2Proof.Machine.execAtomMinz a b dbl s
  | .atomMaxz a b dbl => Sys2Proof.Machine.execAtomMaxz a b dbl s
  | .atomAnd a b dbl => Sys2Proof.Machine.execAtomAnd a b dbl s
  | .atomOr a b dbl => Sys2Proof.Machine.execAtomOr a b dbl s
  | .atomXor a b dbl => Sys2Proof.Machine.execAtomXor a b dbl s
  | .atomAddF d a b ord dbl => Sys2Proof.Machine.execAtomAddF d a b ord dbl s
  | .atomMinF d a b ord dbl => Sys2Proof.Machine.execAtomMinF d a b ord dbl s
  | .atomMaxF d a b ord dbl => Sys2Proof.Machine.execAtomMaxF d a b ord dbl s
  | .atomMinzF d a b ord dbl => Sys2Proof.Machine.execAtomMinzF d a b ord dbl s
  | .atomMaxzF d a b ord dbl => Sys2Proof.Machine.execAtomMaxzF d a b ord dbl s
  | .atomAndF d a b ord dbl => Sys2Proof.Machine.execAtomAndF d a b ord dbl s
  | .atomOrF d a b ord dbl => Sys2Proof.Machine.execAtomOrF d a b ord dbl s
  | .atomXorF d a b ord dbl => Sys2Proof.Machine.execAtomXorF d a b ord dbl s
  | .atomSwap d a b ord dbl => Sys2Proof.Machine.execAtomSwap d a b ord dbl s
  | .atomCas d a b ord dbl => Sys2Proof.Machine.execAtomCas d a b ord dbl s
  | .atomFaddFp32 a b => Sys2Proof.Machine.execAtomFaddFp32 a b s
  | .atomFaddBf16 a b => Sys2Proof.Machine.execAtomFaddBf16 a b s
  | .atomFaddFp32F d a b => Sys2Proof.Machine.execAtomFaddFp32F d a b s
  | .atomFaddBf16F d a b => Sys2Proof.Machine.execAtomFaddBf16F d a b s
  | .vAdd d a b f => Sys2Proof.Machine.execVAdd d a b f s
  | .vSub d a b f => Sys2Proof.Machine.execVSub d a b f s
  | .vMul d a b f => Sys2Proof.Machine.execVMul d a b f s
  | .vMin d a b f => Sys2Proof.Machine.execVMin d a b f s
  | .vMax d a b f => Sys2Proof.Machine.execVMax d a b f s
  | .vAbs d a f => Sys2Proof.Machine.execVAbs d a f s
  | .vNeg d a f => Sys2Proof.Machine.execVNeg d a f s
  | .vAdds d a b f => Sys2Proof.Machine.execVAdds d a b f s
  | .vSubs d a b f => Sys2Proof.Machine.execVSubs d a b f s
  | .vAnd d a b f => Sys2Proof.Machine.execVAnd d a b f s
  | .vOr d a b f => Sys2Proof.Machine.execVOr d a b f s
  | .vXor d a b f => Sys2Proof.Machine.execVXor d a b f s
  | .vSll d a b f => Sys2Proof.Machine.execVSll d a b f s
  | .vSrl d a b f => Sys2Proof.Machine.execVSrl d a b f s
  | .vSra d a b f => Sys2Proof.Machine.execVSra d a b f s
  | .vFma d a b f => Sys2Proof.Machine.execVFma d a b f s
  | .vFms d a b f => Sys2Proof.Machine.execVFms d a b f s
  | .vFnma d a b f => Sys2Proof.Machine.execVFnma d a b f s
  | .vFmab d a b f => Sys2Proof.Machine.execVFmab d a b f s
  | .vDot d a b f => Sys2Proof.Machine.execVDot d a b f s
  | .vCmpEq d a b f => Sys2Proof.Machine.execVCmpEq d a b f s
  | .vCmpLt d a b f => Sys2Proof.Machine.execVCmpLt d a b f s
  | .vCmpLe d a b f => Sys2Proof.Machine.execVCmpLe d a b f s
  | .vCmpUn d a b f => Sys2Proof.Machine.execVCmpUn d a b f s
  | .vSel d a b f => Sys2Proof.Machine.execVSel d a b f s
  | .vShuf d a b f => Sys2Proof.Machine.execVShuf d a b f s
  | .vBcast d a m f => Sys2Proof.Machine.execVBcast d a m f s
  | .vZip d a b f => Sys2Proof.Machine.execVZip d a b f s
  | .vUnzip d a b f => Sys2Proof.Machine.execVUnzip d a b f s
  | .vRot d a m f => Sys2Proof.Machine.execVRot d a m f s
  | .vIns d a m f => Sys2Proof.Machine.execVIns d a m f s
  | .vExt d a m f => Sys2Proof.Machine.execVExt d a m f s
  | .cmpr2of4 d a p f => Sys2Proof.Machine.execCmpr2of4 d a p f s
  | .vCvt d a mode sat src dst => Sys2Proof.Machine.execVCvt d a mode sat src dst s
  | .vRsum d a f => Sys2Proof.Machine.execVRsum d a f s
  | .vRmax d a f => Sys2Proof.Machine.execVRmax d a f s
  | .vRmin d a f => Sys2Proof.Machine.execVRmin d a f s
  | .vRdot d a b f => Sys2Proof.Machine.execVRdot d a b f s
  | .vScl d a m f => Sys2Proof.Machine.execVScl d a m f s
  | .vSclx d a b f => Sys2Proof.Machine.execVSclx d a b f s
  | .vMxpack d a b f => Sys2Proof.Machine.execVMxpack d a b f s
  | .vMxunpack d a b f => Sys2Proof.Machine.execVMxunpack d a b f s
  | .vLdexp d a b f => Sys2Proof.Machine.execVLdexp d a b f s
  | .wsb mask => Sys2Proof.Machine.execWsb mask s
  | .gateArr gid a => Sys2Proof.Machine.execGateArr gid a s
  | .gateWait gid a => Sys2Proof.Machine.execGateWait gid a s
  | .combSend a b => Sys2Proof.Machine.execCombSend a b s
  | .waita a b => Sys2Proof.Machine.execWaita a b s
  | .sysr d reg => Sys2Proof.Machine.execSysr d reg s
  | .sysw d reg => Sys2Proof.Machine.execSysw d reg s
  | .trap a => Sys2Proof.Machine.execTrap a s
  | .longImmediatePrefix imm third => Sys2Proof.Machine.execLongImmediatePrefix imm third s
  | .enter k => Sys2Proof.Machine.execEnter k s
  | .lock hv k => Sys2Proof.Machine.execLock hv k s
  | .bindArg c off len => Sys2Proof.Machine.execBindArg c off len s
  | .bindVq c off => Sys2Proof.Machine.execBindVq c off s
  | .bindXfer c port => Sys2Proof.Machine.execBindXfer c port s
  | .bindAccs c port wid => Sys2Proof.Machine.execBindAccs c port wid s
  | .bindXf c x a b => Sys2Proof.Machine.execBindXf c x a b s
  | .bindPred c m => Sys2Proof.Machine.execBindPred c m s
  | .choose neg m t => Sys2Proof.Machine.execChoose neg m t s
  | .jmp t => Sys2Proof.Machine.execJmp t s
  | .watch w rd wr at_ arg base units mask => Sys2Proof.Machine.execWatch w rd wr at_ arg base units mask s
  | .unwatch w => Sys2Proof.Machine.execUnwatch w s
  | .fault v => Sys2Proof.Machine.execFault v s
  | .wave p => Sys2Proof.Machine.execWave p s
  | .quiet s1 => Sys2Proof.Machine.execQuiet s1 s
  | .setp v m => Sys2Proof.Machine.execSetp v m s
  | .waitp m => Sys2Proof.Machine.execWaitp m s
  | .count k v => Sys2Proof.Machine.execCount k v s
  | .decJnz k t => Sys2Proof.Machine.execDecJnz k t s
  | .settle w => Sys2Proof.Machine.execSettle w s
  | .illegalInstruction word => Sys2Proof.Machine.execIllegalInstruction word s
  | .codeRangeFetch index => Sys2Proof.Machine.execCodeRangeFetch index s
  | .kickTailWrite => Sys2Proof.Machine.execKickTailWrite s
  | .cplHeadWrite => Sys2Proof.Machine.execCplHeadWrite s
  | .completionWrite => Sys2Proof.Machine.execCompletionWrite s
  | .launch => Sys2Proof.Machine.execLaunch s
  | .push => Sys2Proof.Machine.execPush s
  | .pull => Sys2Proof.Machine.execPull s
  | .signalSet => Sys2Proof.Machine.execSignalSet s
  | .signalAdd => Sys2Proof.Machine.execSignalAdd s
  | .wait => Sys2Proof.Machine.execWait s
  | .waitSatisfied => Sys2Proof.Machine.execWaitSatisfied s
  | .waitTimeout => Sys2Proof.Machine.execWaitTimeout s
  | .pausePreferred => Sys2Proof.Machine.execPausePreferred s
  | .pauseForced => Sys2Proof.Machine.execPauseForced s
  | .resume => Sys2Proof.Machine.execResume s
  | .kill => Sys2Proof.Machine.execKill s
  | .queryCapabilities => Sys2Proof.Machine.execQueryCapabilities s
  | .queryTenure => Sys2Proof.Machine.execQueryTenure s
  | .queryCounts => Sys2Proof.Machine.execQueryCounts s
  | .queryGovernor => Sys2Proof.Machine.execQueryGovernor s
  | .queryVirtualQueue => Sys2Proof.Machine.execQueryVirtualQueue s
  | .mboxDoorWrite => Sys2Proof.Machine.execMboxDoorWrite s
  | .createQueue => Sys2Proof.Machine.execCreateQueue s
  | .destroyQueue => Sys2Proof.Machine.execDestroyQueue s
  | .registerWrite => Sys2Proof.Machine.execRegisterWrite s
  | .pwrBudgetWrite => Sys2Proof.Machine.execPwrBudgetWrite s
  | .governorTick => Sys2Proof.Machine.execGovernorTick s
  | .candidateAttempt => Sys2Proof.Machine.execCandidateAttempt s
  | .loadCommit => Sys2Proof.Machine.execLoadCommit s
  | .codePageResolved => Sys2Proof.Machine.execCodePageResolved s
  | .planeGrant => Sys2Proof.Machine.execPlaneGrant s
  | .drainComplete => Sys2Proof.Machine.execDrainComplete s
  | .drainTimeout => Sys2Proof.Machine.execDrainTimeout s
  | .zeroingComplete => Sys2Proof.Machine.execZeroingComplete s
  | .reserveSubtree => Sys2Proof.Machine.execReserveSubtree s
  | .releaseSubtree => Sys2Proof.Machine.execReleaseSubtree s
  | .replyExpiry => Sys2Proof.Machine.execReplyExpiry s
  | .replyArrival => Sys2Proof.Machine.execReplyArrival s
  | .recordVisible => Sys2Proof.Machine.execRecordVisible s
  | .vqAgentMove => Sys2Proof.Machine.execVqAgentMove s
  | .vqAgentAppend => Sys2Proof.Machine.execVqAgentAppend s
  | .activationStart => Sys2Proof.Machine.execActivationStart s
  | .nullTrigger => Sys2Proof.Machine.execNullTrigger s
  | .end_ => Sys2Proof.Machine.execEnd_ s
  | .nop => Sys2Proof.Machine.execNop s
  | .loadReply => Sys2Proof.Machine.execLoadReply s
  | .storePerformed => Sys2Proof.Machine.execStorePerformed s
  | .translationRefill => Sys2Proof.Machine.execTranslationRefill s
  | .priResponse => Sys2Proof.Machine.execPriResponse s
  | .osPageResponse => Sys2Proof.Machine.execOsPageResponse s
  | .atsInvalidation => Sys2Proof.Machine.execAtsInvalidation s
  | .transferRequestRecord => Sys2Proof.Machine.execTransferRequestRecord s
  | .lighterRequest => Sys2Proof.Machine.execLighterRequest s
  | .lighterComplete => Sys2Proof.Machine.execLighterComplete s
  | .transformRow => Sys2Proof.Machine.execTransformRow s
  | .accumulateStreamRecord => Sys2Proof.Machine.execAccumulateStreamRecord s
  | .flushrAll => Sys2Proof.Machine.execFlushrAll s
  | .accumulateArrival => Sys2Proof.Machine.execAccumulateArrival s
  | .flushDelivery => Sys2Proof.Machine.execFlushDelivery s
  | .refusalReply => Sys2Proof.Machine.execRefusalReply s
  | .residualAgeExpiry => Sys2Proof.Machine.execResidualAgeExpiry s
  | .acceptanceIntervalEnd => Sys2Proof.Machine.execAcceptanceIntervalEnd s
  | .atomicPerform => Sys2Proof.Machine.execAtomicPerform s
  | .atomicReply => Sys2Proof.Machine.execAtomicReply s
  | .quietP => Sys2Proof.Machine.execQuietP s
  | .quietG => Sys2Proof.Machine.execQuietG s
  | .fenceG => Sys2Proof.Machine.execFenceG s
  | .fenceS => Sys2Proof.Machine.execFenceS s
  | .rte => Sys2Proof.Machine.execRte s
  | .halt => Sys2Proof.Machine.execHalt s
  | .brk => Sys2Proof.Machine.execBrk s
  | .arithmeticFiring => Sys2Proof.Machine.execArithmeticFiring s
  | .controlTokenFiring => Sys2Proof.Machine.execControlTokenFiring s
  | .nullFiring => Sys2Proof.Machine.execNullFiring s
  | .convert => Sys2Proof.Machine.execConvert s
  | .mxPack => Sys2Proof.Machine.execMxPack s
  | .mxUnpack => Sys2Proof.Machine.execMxUnpack s
  | .fork => Sys2Proof.Machine.execFork s
  | .steer => Sys2Proof.Machine.execSteer s
  | .filter => Sys2Proof.Machine.execFilter s
  | .merge => Sys2Proof.Machine.execMerge s
  | .nullMerge => Sys2Proof.Machine.execNullMerge s
  | .fairMerge => Sys2Proof.Machine.execFairMerge s
  | .sequenceTag => Sys2Proof.Machine.execSequenceTag s
  | .reorder => Sys2Proof.Machine.execReorder s
  | .tap => Sys2Proof.Machine.execTap s
  | .combineSend => Sys2Proof.Machine.execCombineSend s
  | .compareExchange => Sys2Proof.Machine.execCompareExchange s
  | .loopExitDrain => Sys2Proof.Machine.execLoopExitDrain s
  | .constantSource => Sys2Proof.Machine.execConstantSource s
  | .sink => Sys2Proof.Machine.execSink s
  | .repeat_ => Sys2Proof.Machine.execRepeat_ s
  | .bankStream => Sys2Proof.Machine.execBankStream s
  | .globalStream => Sys2Proof.Machine.execGlobalStream s
  | .globalGather => Sys2Proof.Machine.execGlobalGather s
  | .generatorCompletion => Sys2Proof.Machine.execGeneratorCompletion s
  | .controllerPermit => Sys2Proof.Machine.execControllerPermit s
  | .controllerDone => Sys2Proof.Machine.execControllerDone s
  | .weightColumn => Sys2Proof.Machine.execWeightColumn s
  | .activationRow => Sys2Proof.Machine.execActivationRow s
  | .rowFiring => Sys2Proof.Machine.execRowFiring s
  | .mmDrain => Sys2Proof.Machine.execMmDrain s
  | .mmClear => Sys2Proof.Machine.execMmClear s
  | .nullRow => Sys2Proof.Machine.execNullRow s
  | .matrixControlToken => Sys2Proof.Machine.execMatrixControlToken s
  | .sort => Sys2Proof.Machine.execSort s
  | .gateArrival => Sys2Proof.Machine.execGateArrival s
  | .gatePermit => Sys2Proof.Machine.execGatePermit s
  | .gateTimeout => Sys2Proof.Machine.execGateTimeout s
  | .contributionArrival => Sys2Proof.Machine.execContributionArrival s
  | .combineTimeout => Sys2Proof.Machine.execCombineTimeout s
  | .wavePeriod => Sys2Proof.Machine.execWavePeriod s
  | .wavePass => Sys2Proof.Machine.execWavePass s
  | .yield_ => Sys2Proof.Machine.execYield_ s
  | .ireload => Sys2Proof.Machine.execIreload s
  | .done => Sys2Proof.Machine.execDone s
  | .predicateRecord => Sys2Proof.Machine.execPredicateRecord s
  | .segmentBoundarySwitch => Sys2Proof.Machine.execSegmentBoundarySwitch s
  | .segmaxExpiry => Sys2Proof.Machine.execSegmaxExpiry s
  | .pauseComplete => Sys2Proof.Machine.execPauseComplete s
  | .faultRecordArrival => Sys2Proof.Machine.execFaultRecordArrival s
  | .holdTimeout => Sys2Proof.Machine.execHoldTimeout s
  | .processMigration => Sys2Proof.Machine.execProcessMigration s
  | .functionLevelReset => Sys2Proof.Machine.execFunctionLevelReset s
  | .linkDown => Sys2Proof.Machine.execLinkDown s
  | .pcieRetrain => Sys2Proof.Machine.execPcieRetrain s
  | .ethernetPortDown => Sys2Proof.Machine.execEthernetPortDown s
  | .flitReceive => Sys2Proof.Machine.execFlitReceive s
  | .retrainComplete => Sys2Proof.Machine.execRetrainComplete s
  | .powerGood => Sys2Proof.Machine.execPowerGood s
  | .hbmTrainingComplete => Sys2Proof.Machine.execHbmTrainingComplete s
  | .selfTestComplete => Sys2Proof.Machine.execSelfTestComplete s
  | .undervoltage => Sys2Proof.Machine.execUndervoltage s
  | .thermalTrip => Sys2Proof.Machine.execThermalTrip s
  | .counterRaise => Sys2Proof.Machine.execCounterRaise s
  | .readStatus => Sys2Proof.Machine.execReadStatus s
  | .setBudget => Sys2Proof.Machine.execSetBudget s
  | .powerCycleRequest => Sys2Proof.Machine.execPowerCycleRequest s
  | .getVersion => Sys2Proof.Machine.execGetVersion s
  | .getCapabilities => Sys2Proof.Machine.execGetCapabilities s
  | .negotiateAlgorithms => Sys2Proof.Machine.execNegotiateAlgorithms s
  | .getDigests => Sys2Proof.Machine.execGetDigests s
  | .getCertificate => Sys2Proof.Machine.execGetCertificate s
  | .challenge => Sys2Proof.Machine.execChallenge s
  | .getMeasurements => Sys2Proof.Machine.execGetMeasurements s
  | .accumulateAcknowledgement => Sys2Proof.Machine.execAccumulateAcknowledgement s
  | .confirmingReadCompletion => Sys2Proof.Machine.execConfirmingReadCompletion s
  | .virtualQueueAssign => Sys2Proof.Machine.execVirtualQueueAssign s
  | .regionReclaim => Sys2Proof.Machine.execRegionReclaim s
  | .replacementFallback => Sys2Proof.Machine.execReplacementFallback s
  | .migrationReceive => Sys2Proof.Machine.execMigrationReceive s
  | .ethernetPortUp => Sys2Proof.Machine.execEthernetPortUp s
  | .bridgedRecordArrival => Sys2Proof.Machine.execBridgedRecordArrival s
  | .mctpControlMessage => Sys2Proof.Machine.execMctpControlMessage s
  | .correctableError => Sys2Proof.Machine.execCorrectableError s

end Sys2Proof.Machine
end

