-- ==== Sys2Proof/Machine/Step.lean ====
section
/-! DEFINITION. One step: the agenda says what moves next, a task processor, a lockkeeper, an event, or time (assumption 1). -/

namespace Sys2Proof.Machine

/-- Whether a task holds an output record open (R155). -/
def holdsOpen (s : State) (t : Nat) (tk : TaskRt) : Bool := (openPort s t tk.outCh.toList 0).isSome

/-- Whether the processor of a node may issue (R150, R155, R361, R397): an activation runs or waits, its plane is active, and its
tenure runs; under a forced pause it goes on only while it holds an output record open. -/
def mayIssue (s : State) (t : Nat) (tk : TaskRt) : Bool :=
  (tk.st == .running || tk.st == .blocked) && tk.nullLeft.isNone && s.dawn.power == .on &&
  (match s.tenures.get? t with
    | some tn => tn.moves || (tn.active && tn.phase == .pausing && holdsOpen s t tk)
    | none => false)

/-- The instruction that a task processor fetches (R134, R135): the words of its code partition at its PC, or the first index at
which there is none. -/
def fetchTask (tk : TaskRt) : Instr :=
  if tk.pc < 0 then .codeRangeFetch tk.pc
  else
    let rest := tk.code.drop tk.pc.toNat
    match decodeTask rest with
    | some (i, _) => i
    | none => .codeRangeFetch (tk.pc + rest.length)

/-- The task processor of node `n` of tenure `t` issues one instruction. -/
def issueTask (t n : Nat) (s : State) : Host.Outcome State Fault Refusal :=
  match s.tasks.get? (key2 t n) with
  | some tk => if mayIssue s t tk then exec (fetchTask tk) { s with cur := (t, n) } else .next s
  | none => .next s

/-- Whether the lockkeeper of a tenure may go on (R352, R363, R368, R372): it has reported no fault of its own, and its tenure runs, or is
about to pause with a quiet already declared. -/
def mayPass (s : State) (tn : Tenure) : Bool :=
  tn.region.isSome && s.dawn.power == .on && !tn.lkFaulted &&
  (match tn.phase, tn.lkWait with
    | .running, _ => true
    | .pausing, .quiet _ .quiet => true
    | _, _ => false)

/-- The lockkeeper of tenure `t` runs its next instruction; past the last word it raises PASSAGE_STATE (R352). -/
def issuePassage (t : Nat) (s : State) : Host.Outcome State Fault Refusal :=
  match s.tenures.get? t with
  | some tn =>
    if mayPass s tn then
      match decodePassage (tn.g.passage.drop tn.lk.lpc.toNat) with
      | some (i, _) => exec i { s with cur := (t, 0) }
      | none => .next (engineFault s t cPassageState 9 extEnd 0xFF (tn.lk.lpc.setWidth 64))
    else .next s
  | none => .next s

/-- Whether an instruction is an event, which is no word of a program. -/
def Instr.isEvent (i : Instr) : Bool :=
  match i with
  | .illegalInstruction _ => false
  | .codeRangeFetch _ => false
  | _ => (encode i).isNone

/-- Time passes: fabric cycles of each die, and nanoseconds (R20). -/
def passTime (cycles : Vector Nat 4) (ns : Nat) (s : State) : State :=
  { s with clk := Vector.ofFn (fun d => s.clk[d] + cycles[d]), nowNs := s.nowNs + ns }

/-- What a turn changes that is none of a processor or an event. -/
def turnEffect (turn : Turn) (s : State) : State :=
  match turn with
  | .loadRead t => loadReads s t
  -- device-local memory is there from Dawn 2 on (R397, R398); a control core that the part record does not enable is not used (R404)
  | .core c kind aq rl deps adr => if c < s.enabled 5 16 ∧ 2 ≤ s.stage then coreIssue c kind aq rl deps adr s else s
  | .corePerform c k => if 2 ≤ s.stage then corePerform c k s else s
  | .cacheFill t va => cacheFill t va s
  | .cacheDrop t pa => cacheDrop t pa s
  | .osInvalidate pasid va bytes => osInvalidate pasid va bytes s
  | .regRead r => (registerRead r s).2
  | _ => s

/-- One step (assumption 1): the oldest turn of the agenda is taken; with none, a cycle of every die passes. -/
def step (s : State) : Host.Outcome State Fault Refusal :=
  match s.agenda with
  | [] => .next (passTime (Vector.replicate 4 1) 0 s)
  | turn :: rest =>
    let s := { s with agenda := rest }
    match turn with
    | .issue t n => issueTask t n s
    | .passage t => issuePassage t s
    | .event i x => if Instr.isEvent i then exec i { s with subj := x } else .next s
    | .tick cycles ns => .next (passTime cycles ns s)
    | .pasid p enabled => .next (setPasid p enabled s)
    | turn => .next (if s.powered then turnEffect turn s else s)

/-! ### Placing one instruction where it is fetched next (assumption 7) -/

/-- A tenure with one node and a passage program, running in pound 0 of the region at the first subtree. -/
def bareTenure (kind : Nat) (passage : List W32) : Tenure :=
  { handle := 0, pasid := 0, queue := 0, cmd := 0, fin0 := true, phase := .running, die := 0, since := 0, objAddr := 0,
    g := { size := 64, det := false, cands := 1, segmax := 0,
           nodes := [{ kind := kind, pound := 0, cls := 0, bank := 0, code := 4, body := 0 }], chans := [],
           pounds := [{ jmin := 0, jmax := 0, loc := [0], pats := [] }], passage := passage, trees := [], wins := [],
           relocs := [], argSize := 0, fmts := [], blocks := [], cfg := [] },
    args := [], tried := [], failures := [], codePage := none, region := some { b := 0, j := 0 }, gtag := 1,
    place := some { pound := 0, sites := [(0, 0)], slices := [], slots := [], combs := [] }, load := none, partner := none,
    active := true, slots := 0, yielded := false,
    lk := { Lockkeeper.reset with lpound := 0, lstate := 1 }, lkWait := .none, lkBlocked := false, binds := [], haltedStreams := [],
    watch := Vector.replicate 4 none, wave := none, lastWave := 0, iP := 0, cP := 0, iG := 0,
    cG := 0, cL := 0, wOff := 0, suspect := false, homeFlags := Vector.replicate 32 0, pause := none, image := none,
    lkEnter := Lockkeeper.reset, faultLane := [], log := [], logOver := 0, faultAt := 0, heldSince := 0, resumes := [],
    enteredAt := Vector.replicate 4 0, leftWins := [], leftGates := [], streamCache := [] }

/-- `s` with an instruction where it is fetched next: as the code partition of a running task, or as the passage program of a tenure
(assumption 7). -/
def State.withFetchWord (s : State) (nbits w : Nat) : State :=
  let ws := tableWords (w % 2 ^ nbits)
  let t := s.nextTenure
  let dawn := { s.dawn with power := .on }
  let isTask := match decodeTableWord nbits w with
    | some i => (decodePassage ws).map Prod.fst != some i
    | none => true
  if isTask then
    let tk := { TaskRt.entry ws 0 Fmt.zero (Vector.replicate 16 none) (Vector.replicate 16 none) 0 with st := .running }
    { s with dawn := dawn, nextTenure := t + 1, tenures := s.tenures.set t (bareTenure 0 []), tasks := s.tasks.set (key2 t 0) tk,
             agenda := .issue t 0 :: s.agenda }
  else
    { s with dawn := dawn, nextTenure := t + 1, tenures := s.tenures.set t (bareTenure 1 ws), agenda := .passage t :: s.agenda }

end Sys2Proof.Machine
end

