-- ==== Sys2Proof/Safety.lean ====
section
/-! DEFINITION. The terms in which statements are made: the canonical forms that every step keeps, and when an instruction of a task
or of a passage program starts and what it leaves. -/

namespace Sys2Proof

/-- Whether an instruction belongs to the passage space (R130, R355). -/
def Instr.isPassage : Instr → Bool
  | .enter _ | .lock _ _ | .bindArg _ _ _ | .bindVq _ _ | .bindXfer _ _ | .bindAccs _ _ _ | .bindXf _ _ _ _ | .bindPred _ _
  | .choose _ _ _ | .jmp _ | .yield_ | .ireload | .watch _ _ _ _ _ _ _ _ | .unwatch _ | .fault _ | .done | .wave _ | .quiet _
  | .setp _ _ | .waitp _ | .count _ _ | .decJnz _ _ | .settle _ => true
  | _ => false

end Sys2Proof

namespace Sys2Proof.Machine

/-- Both memories are in canonical form (assumption 2). -/
def State.memWf (s : State) : Prop := s.hostMem.wf = true ∧ s.devMem.wf = true

/-- Task instruction `i`, of `len` words, starts in context `c` at the node that issues: the node stands in the fabric, the checks at
decode find nothing (R55, R132, R147), and no atomic holds the node back (R380). -/
structure Starts (i : Instr) (len : Nat) (s : State) (c : TCtx) : Prop where
  task : ∃ tk, s.tasks.get? (key2 s.cur.1 s.cur.2) = some tk ∧
    c = { s := s, t := s.cur.1, n := s.cur.2, tk := { tk with st := .running }, next := tk.pc + len }
  tenure : ∃ tn, s.tenures.get? s.cur.1 = some tn ∧
    (tn.g.det = true → classBits i &&& ((tn.g.nodes[s.cur.2]?.map NodeE.cls).getD 0) = classBits i) ∧
    (tn.watch.toList.any (fun w => (w.map Watchpoint.at_).getD false) = true → c.tk.atoms.any (fun x => decide (8 ≤ x.2)) = false)
  formed : i.wf = true
  bound : unboundPort c.tk (operands i) = none
  unflagged : c.tk.wflags.find? (fun f => decide (8 ≤ f.issued)) = none

/-- Whether a register of the issuing node is held back by nothing: it awaits no reply (R272, R286), and no atomic has brought a watch
flag for it (R380). -/
def usable (c : TCtx) (o : Opnd) : Prop := c.tk.wflags.find? (fun f => f.dst == some o) = none ∧ c.tk.pend.contains o = false

/-- The state when an instruction of the issuing node has completed in context `c` (R133): what it changed, with the node's own state,
whose PC is the one that the context gives. -/
def completed (s : State) (c : TCtx) : State :=
  { c.s with tasks := c.s.tasks.set (key2 s.cur.1 s.cur.2) { c.tk.issued with pc := c.next } }

/-- The state in which nothing has changed but that the issuing node counts as running, or as BLOCKED (R153). -/
def waiting (s : State) (tk : TaskRt) (blocked : Bool) : State :=
  { s with tasks := s.tasks.set (key2 s.cur.1 s.cur.2) { tk with st := if blocked then .blocked else .running } }

end Sys2Proof.Machine
end

