-- ==== Sys2Proof/Certificates/Slice0/Obligations.lean ====
section
/-! DEFINITION. The statements for the provers. -/

open Sys2Proof Sys2Proof.Machine

/-! ### Reset, a step, and decoding -/

/-- Reset leaves host-shared and device-local memory (R258) in canonical form. The form, and the 0 that a byte nothing has written reads as, are the
model's choice (DESIGN CHOICE, assumption 2). -/
def Obligations.ResetMemoryCanonical : Prop := State.reset.memWf

/-- R28: the governor block of every die holds its Reset values after reset. -/
def resetGovernorRegisters : Prop :=
  ∀ d : Fin 4, (State.reset.gov[d]).budget = 1250 ∧ (State.reset.gov[d]).now = 0 ∧ (State.reset.gov[d]).fclk = 33 ∧
    (State.reset.gov[d]).floor = 20 ∧ (State.reset.gov[d]).events = 0

/-- R157: at each pound entry every register and predicate of a task node is 0, for every code, bank, format table and binding of its
ports; R353: the lockkeeper's registers at admission. -/
def entryRegistersZero : Prop :=
  (∀ (code : List W32) (bank : Nat) (fmt : Fmt) (i o : Vector (Option Nat) 16) (p : Nat),
    let k := TaskRt.entry code bank fmt i o p
    (∀ r : Fin 16, k.g[r] = 0) ∧ (∀ r : Fin 8, k.a[r] = 0 ∧ k.v[r] = 0) ∧ (∀ r : Fin 4, k.p[r] = 0)) ∧
  (Lockkeeper.reset.lpc = 0 ∧ Lockkeeper.reset.lpound = 0xFFFF ∧ Lockkeeper.reset.lstate = 0 ∧ Lockkeeper.reset.lhint = 0xFFFF ∧
    Lockkeeper.reset.n0 = 0 ∧ Lockkeeper.reset.n1 = 0 ∧ Lockkeeper.reset.n2 = 0 ∧ Lockkeeper.reset.n3 = 0 ∧
    Lockkeeper.reset.qval = 0 ∧ Lockkeeper.reset.qvalid = 0 ∧ Lockkeeper.reset.wper = 4096 ∧ Lockkeeper.reset.ireq = 0)

/-- R28, R157, R353: the governor block of every die after reset; the registers of a task node at each pound entry; the lockkeeper's registers at
admission. -/
def Obligations.ResetAndEntryValues : Prop := resetGovernorRegisters ∧ entryRegistersZero

/-- A step runs the instruction that the words at the PC decode to; a fetch outside the code partition runs CODE_RANGE with the first
index at which there is no word (R134, R135). A step with a turn of the lockkeeper runs the passage instruction at `lpc`; an event turn
takes the event; with no turn left, one fabric cycle of each die passes (the order of turns is the model's: assumption 1). -/
def Obligations.StepRunsDecodedInstruction : Prop :=
  (∀ (s : State) (t n : Nat) (rest : List Turn) (tk : TaskRt) (i : Instr) (len : Nat), s.agenda = .issue t n :: rest →
    s.tasks.get? (key2 t n) = some tk → mayIssue { s with agenda := rest } t tk = true → 0 ≤ tk.pc →
    decodeTask (tk.code.drop tk.pc.toNat) = some (i, len) → step s = exec i { s with agenda := rest, cur := (t, n) }) ∧
  (∀ (s : State) (t n : Nat) (rest : List Turn) (tk : TaskRt), s.agenda = .issue t n :: rest →
    s.tasks.get? (key2 t n) = some tk → mayIssue { s with agenda := rest } t tk = true → 0 ≤ tk.pc →
    decodeTask (tk.code.drop tk.pc.toNat) = none →
    step s = exec (.codeRangeFetch (tk.pc + (tk.code.drop tk.pc.toNat).length)) { s with agenda := rest, cur := (t, n) }) ∧
  (∀ (s : State) (t n : Nat) (rest : List Turn) (tk : TaskRt), s.agenda = .issue t n :: rest →
    s.tasks.get? (key2 t n) = some tk → mayIssue { s with agenda := rest } t tk = true → tk.pc < 0 →
    step s = exec (.codeRangeFetch tk.pc) { s with agenda := rest, cur := (t, n) }) ∧
  (∀ (s : State) (t : Nat) (rest : List Turn) (tn : Tenure) (i : Instr) (len : Nat), s.agenda = .passage t :: rest →
    s.tenures.get? t = some tn → mayPass { s with agenda := rest } tn = true →
    decodePassage (tn.g.passage.drop tn.lk.lpc.toNat) = some (i, len) → step s = exec i { s with agenda := rest, cur := (t, 0) }) ∧
  (∀ (s : State) (i : Instr) (x : Subject) (rest : List Turn), s.agenda = .event i x :: rest → Instr.isEvent i = true →
    step s = exec i { s with agenda := rest, subj := x }) ∧
  (∀ s : State, s.agenda = [] → step s = .next (passTime (Vector.replicate 4 1) 0 s))

/-- Decoding and encoding agree: the words of every well-formed instruction of the task space decode to it at the front of any words,
with every operand at every value that its encoding admits. -/
def taskWordsRoundTrip : Prop :=
  ∀ (i : Instr) (ws rest : List W32), encode i = some ws → i.wf = true → i.isPassage = false →
    decodeTask (ws ++ rest) = some (i, ws.length)

/-- Decoding and encoding agree in the passage space. -/
def passageWordsRoundTrip : Prop :=
  ∀ (i : Instr) (ws rest : List W32), encode i = some ws → i.wf = true → i.isPassage = true →
    decodePassage (ws ++ rest) = some (i, ws.length)

/-- Decoding and encoding agree, in the task space and in the passage space: the words of every well-formed instruction decode to it at the
front of any words, with every operand at every value that its encoding admits. -/
def Obligations.WordsRoundTrip : Prop := taskWordsRoundTrip ∧ passageWordsRoundTrip

/-- R132: what a word decodes to is well formed; a word whose operands are of a class it does not allow, or of an unassigned major
opcode, is an illegal instruction, which carries the word. -/
def Obligations.DecodedInstructionsWellFormed : Prop :=
  (∀ w : W32, (decodeTaskWord w).wf = true) ∧
  (∀ w : W32, (decodeRaw w).wf = false → decodeTaskWord w = .illegalInstruction w) ∧
  (∀ w : W32, (w.extractLsb' 26 6).toNat ∈ [0x0C, 0x0D, 0x0E, 0x0F, 0x15, 0x16, 0x17, 0x19, 0x1A, 0x1B, 0x1C, 0x1D, 0x1E, 0x1F, 0x27,
    0x2D, 0x2E, 0x2F, 0x37, 0x3A, 0x3B] → decodeTaskWord w = .illegalInstruction w) ∧
  (∀ ws i n, decodePassage ws = some (i, n) → i.wf = true)

/-- Words written out from the encodings of R131 and R136 decode to what they stand for (a sanity statement). -/
def Obligations.WrittenWordsDecode : Prop :=
  -- add.w g1, g2, i3: major 0x00, d = 1, s1 = 2, s2 = 35, function 0
  decodeTask [0b000000_000001_000010_100011_00000000#32] = some (.addW (.g 1) (.g 2) (.i 3), 1) ∧
  -- brneg.np2 g5, -1: major 0x11, s1 = 5, predicate 2, condition 3
  decodeTask [0b010001_000101_10_11_1111111111111111#32] = some (.brnegNp (.g 5) 2 0xFFFF#16, 1) ∧
  -- st.h v7, [a1 - 2]: major 0x26, data 31, base 17, selector 1, offset -2
  decodeTask [0b100110_011111_010001_01_111111111110#32] = some (.stH (.v 7) (.a 1) 0xFFE#12, 1) ∧
  -- enter 5, in the passage space: major 0x01
  decodePassage [0b000001_000000_00000000_000000000101#32] = some (.enter 5#12, 1)

/-- The machine never stops by itself: every step of every state comes to a next state. -/
def machineNeverStops : Prop := ∀ s : State, ∃ s', step s = .next s'

/-- `exec` is never a refusal, and stops only where the instruction of a program is executed with no node, or no lockkeeper, to execute
it: a condition that no fetch meets. -/
def instructionsAnswer : Prop :=
  ∀ (i : Instr) (s : State),
    (∃ s', exec i s = .next s') ∨
    (exec i s = .fault .noTask ∧ s.tasks.get? (key2 s.cur.1 s.cur.2) = none) ∨
    (exec i s = .fault .noLockkeeper ∧ s.tenures.get? s.cur.1 = none)

/-- `exec` is never a refusal and stops only where no program runs the instruction, be it one that decodes or one whose fetch leaves the code
partition (R135), so that every step of every state comes to a next state. That the machine never stops by itself is the model's choice: a
state with no turn left lets time pass (DESIGN CHOICE, assumption 1). -/
def Obligations.InstructionsNeverRefused : Prop := instructionsAnswer ∧ machineNeverStops

/-- Every step keeps host-shared and device-local memory (R258) in canonical form, which is the model's form (DESIGN CHOICE, assumption 2). -/
def Obligations.StepKeepsMemoryCanonical : Prop := ∀ s s' : State, s.memWf → step s = .next s' → s'.memWf


/-! ### Operands of task instructions -/

/-- R133: a source operand read at 64 and at 32 bits, for each register class that nothing holds back: an operand of class G is
sign-extended to 64 bits, and 32 bits of a 64-bit source are bits [31:0]. The context is left as it was. -/
def registerSourceRead : Prop :=
  ∀ (c : TCtx),
    (∀ r : Fin 16, usable c (.g r) → read32 (.g r) c = .ok (c.tk.g[r], c) ∧ read64 (.g r) c = .ok (c.tk.g[r].signExtend 64, c)) ∧
    (∀ r : Fin 8, usable c (.a r) → read32 (.a r) c = .ok (c.tk.a[r].extractLsb' 0 32, c) ∧ read64 (.a r) c = .ok (c.tk.a[r], c)) ∧
    (∀ r : Fin 8, usable c (.v r) → read32 (.v r) c = .ok (c.tk.v[r].extractLsb' 0 32, c) ∧ read64 (.v r) c = .ok (c.tk.v[r], c))

/-- R176, R177: a source operand of class I pops the unit at the index of the port's current record and moves the index by one; at the
record's end it raises RECORD_OVERRUN; the first access of an activation takes the head record, one of its firings, as far as it is sticky
(R37), and the order that the record carries (R339); with no record visible the instruction waits, its node BLOCKED (R153). -/
def portSourcePop : Prop :=
  ∀ (c : TCtx) (p : Fin 16) (ch : Nat) (x : ChanRt), c.tk.inCh[p] = some ch → c.s.chan? c.t ch = some x →
    (∀ (r : Rec) (rest : List Rec), x.buf = r :: rest → c.tk.inp[p].cur = true →
      (∀ u, r.units[c.tk.inp[p].idx]? = some u →
        read64 (.i p) c = .ok (u, { c with tk := { c.tk with inp := c.tk.inp.set p { cur := true, idx := c.tk.inp[p].idx + 1 } } }) ∧
        read32 (.i p) c =
          .ok (u.extractLsb' 0 32, { c with tk := { c.tk with inp := c.tk.inp.set p { cur := true, idx := c.tk.inp[p].idx + 1 } } })) ∧
      (r.units[c.tk.inp[p].idx]? = none → read64 (.i p) c = .error (.trap 0x0205 (BitVec.ofNat 64 p.val)))) ∧
    (∀ (r : Rec) (rest : List Rec) (u : W64), x.buf = r :: rest → x.over = false → c.tk.inp[p].cur = false →
      fmtAccepts c.tk.fmt.ins[p] r.hdr = true → r.units[0]? = some u →
      ∃ c', read64 (.i p) c = .ok (u, c') ∧ c'.s = orderRec (c.s.modChan c.t ch ChanRt.access) c.t c.n r ∧ c'.tk.inp[p] = { cur := true, idx := 1 }) ∧
    (∀ (r : Rec) (rest : List Rec), x.buf = r :: rest → x.over = false → c.tk.inp[p].cur = false → fmtAccepts c.tk.fmt.ins[p] r.hdr = true →
      r.units[0]? = none → read64 (.i p) c = .error (.trap 0x0205 (BitVec.ofNat 64 p.val))) ∧
    (x.buf = [] → read64 (.i p) c = .error (.wait true))

/-- R133: a result written into each register class that nothing holds back. A 64-bit result in a G register is its bits [31:0], a
32-bit result in a 64-bit register is sign-extended, and every other register, and the state outside the node, is left as it was. -/
def registerResultWrite : Prop :=
  ∀ (c : TCtx) (x : W64) (y : W32),
    (∀ r : Fin 16, usable c (.g r) →
      write64 (.g r) x c = .ok ((), { c with tk := { c.tk with g := c.tk.g.set r (x.extractLsb' 0 32) } }) ∧
      write32 (.g r) y c = .ok ((), { c with tk := { c.tk with g := c.tk.g.set r y } })) ∧
    (∀ r : Fin 8, usable c (.a r) →
      write64 (.a r) x c = .ok ((), { c with tk := { c.tk with a := c.tk.a.set r x } }) ∧
      write32 (.a r) y c = .ok ((), { c with tk := { c.tk with a := c.tk.a.set r (y.signExtend 64) } })) ∧
    (∀ r : Fin 8, usable c (.v r) →
      write64 (.v r) x c = .ok ((), { c with tk := { c.tk with v := c.tk.v.set r x } }) ∧
      write32 (.v r) y c = .ok ((), { c with tk := { c.tk with v := c.tk.v.set r (y.signExtend 64) } }))

/-- R133: source operands read from, and results written to, registers of classes G, A and V that nothing holds back. -/
def Obligations.RegisterOperands : Prop := registerSourceRead ∧ registerResultWrite

/-- R179: a push adds one unit to the record open on the port; with none open it raises RECORD_STATE, with the record full
RECORD_LENGTH, and nothing changes (R133). -/
def portResultPush : Prop :=
  ∀ (c : TCtx) (p : Fin 16) (ch : Nat) (x : ChanRt) (u : W64), c.tk.outCh[p] = some ch → c.s.chan? c.t ch = some x →
    (∀ r, x.opn = some r → r.units.length < hLen r.hdr →
      write64 (.o p) u c = .ok ((), { c with s := c.s.modChan c.t ch (fun k => { k with opn := some { r with units := r.units ++ [u] } }) })) ∧
    (∀ r, x.opn = some r → hLen r.hdr ≤ r.units.length → write64 (.o p) u c = .error (.trap 0x0301 r.hdr)) ∧
    (x.opn = none → write64 (.o p) u c = .error (.trap 0x0206 (BitVec.ofNat 64 p.val)))

/-- R176, R177, R179: source operands popped from the current record of an input port, and results pushed to the record open on an output port. -/
def Obligations.PortOperands : Prop := portSourcePop ∧ portResultPush

/-- R272, R380: a register that awaits a reply makes the instruction that names it wait, uncounted; one that an atomic brought a watch
flag for makes it take the watchpoint's trap.
The model's own readings in it: assumption 26. -/
def Obligations.PendingRegisterHoldsBack : Prop :=
  ∀ (c : TCtx) (o : Opnd),
    (c.tk.wflags.find? (fun f => f.dst == some o) = none → c.tk.pend.contains o = true → useReg o c = .error (.wait false)) ∧
    (∀ f, c.tk.wflags.find? (fun f => f.dst == some o) = some f → useReg o c = .error (.watch f))


/-! ### Scalar, predicate, immediate and address instructions -/

/-- R162, R163: the 32-bit instructions of two sources, and f(x, y). -/
def scalarTwoRules : List ((Opnd → Opnd → Opnd → Instr) × (W32 → W32 → W32)) :=
  [(.addW, fun x y => x + y), (.subW, fun x y => x - y), (.andW, fun x y => x &&& y), (.orW, fun x y => x ||| y),
   (.xorW, fun x y => x ^^^ y), (.sllW, fun x y => x <<< (y.toNat % 32)), (.srlW, fun x y => x >>> (y.toNat % 32)),
   (.sraW, fun x y => x.sshiftRight (y.toNat % 32)), (.mulW, fun x y => x * y),
   (.mulhsW, fun x y => BitVec.ofInt 32 (x.toInt * y.toInt / 2 ^ 32)),
   (.mulhzW, fun x y => BitVec.ofNat 32 (x.toNat * y.toNat / 2 ^ 32)),
   (.divsW, fun x y => if y = 0 then 0xFFFFFFFF#32 else BitVec.ofInt 32 (x.toInt.tdiv y.toInt)),
   (.divzW, fun x y => if y = 0 then 0xFFFFFFFF#32 else BitVec.ofNat 32 (x.toNat / y.toNat)),
   (.remsW, fun x y => if y = 0 then x else BitVec.ofInt 32 (x.toInt.tmod y.toInt)),
   (.remzW, fun x y => if y = 0 then x else BitVec.ofNat 32 (x.toNat % y.toNat)),
   (.minsW, fun x y => if x.toInt ≤ y.toInt then x else y), (.maxsW, fun x y => if x.toInt ≤ y.toInt then y else x),
   (.minzW, fun x y => if x.toNat ≤ y.toNat then x else y), (.maxzW, fun x y => if x.toNat ≤ y.toNat then y else x),
   (.addsW, fun x y => BitVec.ofInt 32 (max (-2 ^ 31) (min (2 ^ 31 - 1) (x.toInt + y.toInt)))),
   (.subsW, fun x y => BitVec.ofInt 32 (max (-2 ^ 31) (min (2 ^ 31 - 1) (x.toInt - y.toInt))))]

/-- R162, R163: each 32-bit instruction of two sources, in every operand form: it reads s1, then s2, writes f(s1, s2), and completes;
nothing else changes but what those accesses change. -/
def scalarTwoSourceResult : Prop :=
  ∀ e ∈ scalarTwoRules, ∀ (d a b : Opnd) (s : State) (c c1 c2 c3 : TCtx) (x y : W32), Starts (e.1 d a b) 1 s c →
    read32 a c = .ok (x, c1) → read32 b c1 = .ok (y, c2) → write32 d (e.2 x y) c2 = .ok ((), c3) →
    exec (e.1 d a b) s = .next (completed s c3)

/-- R162, R166: the 32-bit instructions of one source and a constant, and f(x). -/
def scalarOneRules : List ((Opnd → Opnd → Instr) × (W32 → W32)) :=
  [(.clzW, fun x => BitVec.ofNat 32 ((List.range 32).takeWhile (fun i => !bitOf x.toNat (31 - i))).length),
   (.cntW, fun x => BitVec.ofNat 32 ((List.range 32).filter (fun i => bitOf x.toNat i)).length), (.movW, fun x => x)]

/-- R166: the immediate forms, and f(x, imm). -/
def scalarImmediateRules : List ((Opnd → Opnd → BitVec 14 → Instr) × (W32 → BitVec 14 → W32)) :=
  [(.addiW, fun x i => x + i.signExtend 32), (.andiW, fun x i => x &&& i.setWidth 32), (.oriW, fun x i => x ||| i.setWidth 32),
   (.xoriW, fun x i => x ^^^ i.setWidth 32)]

/-- R166: the shifts by an immediate. -/
def shiftImmediateRules : List ((Opnd → Opnd → BitVec 5 → Instr) × (W32 → BitVec 5 → W32)) :=
  [(.slliW, fun x i => x <<< i.toNat), (.srliW, fun x i => x >>> i.toNat), (.sraiW, fun x i => x.sshiftRight i.toNat)]

/-- R162, R166, R167: the instructions of one source, the immediate forms, and the instructions that write a constant, in every operand
form. -/
def scalarOneSourceResult : Prop :=
  (∀ e ∈ scalarOneRules, ∀ (d a : Opnd) (s : State) (c c1 c2 : TCtx) (x : W32), Starts (e.1 d a) 1 s c → read32 a c = .ok (x, c1) →
    write32 d (e.2 x) c1 = .ok ((), c2) → exec (e.1 d a) s = .next (completed s c2)) ∧
  (∀ e ∈ scalarImmediateRules, ∀ (d a : Opnd) (i : BitVec 14) (s : State) (c c1 c2 : TCtx) (x : W32), Starts (e.1 d a i) 1 s c →
    read32 a c = .ok (x, c1) → write32 d (e.2 x i) c1 = .ok ((), c2) → exec (e.1 d a i) s = .next (completed s c2)) ∧
  (∀ e ∈ shiftImmediateRules, ∀ (d a : Opnd) (i : BitVec 5) (s : State) (c c1 c2 : TCtx) (x : W32), Starts (e.1 d a i) 1 s c →
    read32 a c = .ok (x, c1) → write32 d (e.2 x i) c1 = .ok ((), c2) → exec (e.1 d a i) s = .next (completed s c2)) ∧
  (∀ (d : Opnd) (i : BitVec 20) (s : State) (c c1 : TCtx), Starts (.liW d i) 1 s c → write32 d (i.signExtend 32) c = .ok ((), c1) →
    exec (.liW d i) s = .next (completed s c1)) ∧
  (∀ (d : Opnd) (i : BitVec 20) (s : State) (c c1 : TCtx), Starts (.luiW d i) 1 s c → write32 d (i ++ 0#12) c = .ok ((), c1) →
    exec (.luiW d i) s = .next (completed s c1))

/-- R162, R163, R166, R167: the 32-bit instructions, the immediate forms, and the instructions that write a constant. -/
def Obligations.ScalarResult : Prop := scalarTwoSourceResult ∧ scalarOneSourceResult

/-- A node's predicate set. -/
def withPred (c : TCtx) (p : Fin 4) (x : BitVec 4) : TCtx := { c with tk := { c.tk with p := c.tk.p.set p x } }

/-- R158, R164: the 32-bit compares, and their conditions. -/
def compareRules : List ((Fin 4 → Opnd → Opnd → Instr) × (W32 → W32 → Bool)) :=
  [(.cmpEqW, fun x y => decide (x = y)), (.cmpNeW, fun x y => decide (x ≠ y)), (.cmpLtsW, fun x y => decide (x.toInt < y.toInt)),
   (.cmpLtzW, fun x y => decide (x.toNat < y.toNat)), (.cmpGesW, fun x y => decide (y.toInt ≤ x.toInt)),
   (.cmpGezW, fun x y => decide (y.toNat ≤ x.toNat))]

/-- R168: the 64-bit compares. -/
def compareAddressRules : List ((Fin 4 → Opnd → Opnd → Instr) × (W64 → W64 → Bool)) :=
  [(.cmpEqA, fun x y => decide (x = y)), (.cmpLtzA, fun x y => decide (x.toNat < y.toNat))]

/-- R164, R168: each compare writes all four bits of its predicate, 1 where its condition holds and 0 where not, and completes. -/
def compareResult : Prop :=
  (∀ e ∈ compareRules, ∀ (p : Fin 4) (a b : Opnd) (s : State) (c c1 c2 : TCtx) (x y : W32), Starts (e.1 p a b) 1 s c →
    read32 a c = .ok (x, c1) → read32 b c1 = .ok (y, c2) →
    exec (e.1 p a b) s = .next (completed s (withPred c2 p (if e.2 x y then 0b1111#4 else 0#4)))) ∧
  (∀ e ∈ compareAddressRules, ∀ (p : Fin 4) (a b : Opnd) (s : State) (c c1 c2 : TCtx) (x y : W64), Starts (e.1 p a b) 1 s c →
    read64 a c = .ok (x, c1) → read64 b c1 = .ok (y, c2) →
    exec (e.1 p a b) s = .next (completed s (withPred c2 p (if e.2 x y then 0b1111#4 else 0#4))))

/-- R165: the instructions on whole predicates. -/
def predicateRules : List ((Fin 4 → Fin 4 → Fin 4 → Instr) × (BitVec 4 → BitVec 4 → BitVec 4)) :=
  [(.pand, fun x y => x &&& y), (.por, fun x y => x ||| y), (.pxor, fun x y => x ^^^ y), (.pandn, fun x y => x &&& ~~~y)]

/-- A predicate as an instruction reads it: `p0` is all true (R157). -/
def predValue (c : TCtx) (p : Fin 4) : BitVec 4 := if p = 0 then 0b1111#4 else c.tk.p[p]

/-- R157, R165: the predicate instructions; `p0` reads as all true. -/
def predicateResult : Prop :=
  (∀ e ∈ predicateRules, ∀ (p q r : Fin 4) (s : State) (c : TCtx), Starts (e.1 p q r) 1 s c →
    exec (e.1 p q r) s = .next (completed s (withPred c p (e.2 (predValue c q) (predValue c r))))) ∧
  (∀ (p : Fin 4) (a : Opnd) (s : State) (c c1 : TCtx) (x : W32), Starts (.pset p a) 1 s c → read32 a c = .ok (x, c1) →
    exec (.pset p a) s = .next (completed s (withPred c1 p (x.extractLsb' 0 4)))) ∧
  (∀ (d : Opnd) (q : Fin 4) (s : State) (c c1 : TCtx), Starts (.pget d q) 1 s c →
    write32 d ((predValue c q).setWidth 32) c = .ok ((), c1) → exec (.pget d q) s = .next (completed s c1))

/-- R132: a word that names predicate 0 as its destination is an illegal instruction, whatever its sources: the compares, the instructions on whole predicates, and `cmpr.2of4`. -/
def predicateZeroIllegal : Prop :=
  (∀ e ∈ compareRules, ∀ (w : W32) (a b : Opnd), (e.1 0 a b).wf = false ∧ (decodeRaw w = e.1 0 a b → decodeTaskWord w = .illegalInstruction w)) ∧
  (∀ e ∈ compareAddressRules, ∀ (w : W32) (a b : Opnd),
    (e.1 0 a b).wf = false ∧ (decodeRaw w = e.1 0 a b → decodeTaskWord w = .illegalInstruction w)) ∧
  (∀ e ∈ predicateRules, ∀ (w : W32) (q r : Fin 4),
    (e.1 0 q r).wf = false ∧ (decodeRaw w = e.1 0 q r → decodeTaskWord w = .illegalInstruction w)) ∧
  (∀ (w : W32) (a : Opnd), (Instr.pset 0 a).wf = false ∧ (decodeRaw w = .pset 0 a → decodeTaskWord w = .illegalInstruction w)) ∧
  (∀ (w : W32) (d a : Opnd) (f : VFmt),
    (Instr.cmpr2of4 d a 0 f).wf = false ∧ (decodeRaw w = .cmpr2of4 d a 0 f → decodeTaskWord w = .illegalInstruction w))

/-- R132, R157, R158, R164, R165, R168, R196: the compares and the predicate instructions, and a predicate destination of 0, which is illegal. -/
def Obligations.CompareAndPredicateResult : Prop := compareResult ∧ predicateResult ∧ predicateZeroIllegal

/-- R168: the address instructions compute in 64 bits modulo 2^64, in every operand form; s2 of `add.a` is sign-extended, of `addz.a`
zero-extended. -/
def Obligations.AddressResult : Prop :=
  (∀ (d a b : Opnd) (s : State) (c c1 c2 c3 : TCtx) (x y : W64), Starts (.addA d a b) 1 s c → read64 a c = .ok (x, c1) →
    read64 b c1 = .ok (y, c2) → write64 d (x + y) c2 = .ok ((), c3) → exec (.addA d a b) s = .next (completed s c3)) ∧
  (∀ (d a b : Opnd) (s : State) (c c1 c2 c3 : TCtx) (x : W64) (y : W32), Starts (.addzA d a b) 1 s c → read64 a c = .ok (x, c1) →
    read32 b c1 = .ok (y, c2) → write64 d (x + y.setWidth 64) c2 = .ok ((), c3) → exec (.addzA d a b) s = .next (completed s c3)) ∧
  (∀ (d a b : Opnd) (s : State) (c c1 c2 c3 : TCtx) (x y : W64), Starts (.subA d a b) 1 s c → read64 a c = .ok (x, c1) →
    read64 b c1 = .ok (y, c2) → write64 d (x - y) c2 = .ok ((), c3) → exec (.subA d a b) s = .next (completed s c3)) ∧
  (∀ (d a : Opnd) (s : State) (c c1 c2 : TCtx) (x : W64), Starts (.movA d a) 1 s c → read64 a c = .ok (x, c1) →
    write64 d x c1 = .ok ((), c2) → exec (.movA d a) s = .next (completed s c2)) ∧
  (∀ (d a : Opnd) (s : State) (c c1 c2 : TCtx) (x : W64), Starts (.loA d a) 1 s c → read64 a c = .ok (x, c1) →
    write32 d (x.extractLsb' 0 32) c1 = .ok ((), c2) → exec (.loA d a) s = .next (completed s c2)) ∧
  (∀ (d a : Opnd) (s : State) (c c1 c2 : TCtx) (x : W64), Starts (.hiA d a) 1 s c → read64 a c = .ok (x, c1) →
    write32 d (x.extractLsb' 32 32) c1 = .ok ((), c2) → exec (.hiA d a) s = .next (completed s c2)) ∧
  (∀ (d a b : Opnd) (s : State) (c c1 c2 c3 : TCtx) (x y : W32), Starts (.catA d a b) 1 s c → read32 a c = .ok (x, c1) →
    read32 b c1 = .ok (y, c2) → write64 d (x.setWidth 64 * 0x100000000#64 + y.setWidth 64) c2 = .ok ((), c3) →
    exec (.catA d a b) s = .next (completed s c3)) ∧
  (∀ (d a : Opnd) (i : BitVec 14) (s : State) (c c1 c2 : TCtx) (x : W64), Starts (.addiA d a i) 1 s c → read64 a c = .ok (x, c1) →
    write64 d (x + i.signExtend 64) c1 = .ok ((), c2) → exec (.addiA d a i) s = .next (completed s c2))

/-! ### Control flow -/

/-- R136, R169: the branches: the sense of the predicate, and the condition on the source. -/
def branchRules : List ((Opnd → Fin 4 → BitVec 16 → Instr) × Bool × (W32 → Bool)) :=
  [(.brz, true, fun x => decide (x = 0)), (.brnz, true, fun x => decide (x ≠ 0)), (.brneg, true, fun x => decide (x.toInt < 0)),
   (.brzNp, false, fun x => decide (x = 0)), (.brnzNp, false, fun x => decide (x ≠ 0)), (.brnegNp, false, fun x => decide (x.toInt < 0))]

/-- R169: a branch is taken when its predicate and its condition agree with its opcode; the PC goes to its own index plus the signed
displacement, computed exactly, or to the next word. Nothing else changes. -/
def branchTarget : Prop :=
  (∀ e ∈ branchRules, ∀ (a : Opnd) (p : Fin 4) (i : BitVec 16) (s : State) (c c1 : TCtx) (x : W32), Starts (e.1 a p i) 1 s c →
    read32 a c = .ok (x, c1) → exec (e.1 a p i) s = .next (completed s
      { c1 with next := if decide (predValue c p ≠ 0) = e.2.1 ∧ e.2.2 x = true then c.tk.pc + i.toInt else c.tk.pc + 1 })) ∧
  (∀ (p : Fin 4) (i : BitVec 16) (s : State) (c : TCtx), Starts (.br p i) 1 s c → exec (.br p i) s = .next (completed s
      { c with next := if predValue c p ≠ 0 then c.tk.pc + i.toInt else c.tk.pc + 1 })) ∧
  (∀ (p : Fin 4) (i : BitVec 16) (s : State) (c : TCtx), Starts (.brNp p i) 1 s c → exec (.brNp p i) s = .next (completed s
      { c with next := if predValue c p ≠ 0 then c.tk.pc + 1 else c.tk.pc + i.toInt }))

/-- R170 to R172: calls write the PC of the next word to `g15`, `callr` after reading its source; jumps go to their source,
zero-extended; `nop` does nothing; `dbnz` decrements its register modulo 2^32 and branches while it is not 0. -/
def jumpCallLoopResult : Prop :=
  (∀ (i : BitVec 16) (s : State) (c c1 : TCtx), Starts (.call i) 1 s c → write32 (.g 15) (BitVec.ofInt 32 (c.tk.pc + 1)) c = .ok ((), c1) →
    exec (.call i) s = .next (completed s { c1 with next := c.tk.pc + i.toInt })) ∧
  (∀ (a : Opnd) (s : State) (c c1 : TCtx) (x : W32), Starts (.jr a) 1 s c → read32 a c = .ok (x, c1) →
    exec (.jr a) s = .next (completed s { c1 with next := (x.toNat : Int) })) ∧
  (∀ (a : Opnd) (s : State) (c c1 c2 : TCtx) (x : W32), Starts (.callr a) 1 s c → read32 a c = .ok (x, c1) →
    write32 (.g 15) (BitVec.ofInt 32 (c1.tk.pc + 1)) c1 = .ok ((), c2) →
    exec (.callr a) s = .next (completed s { c2 with next := (x.toNat : Int) })) ∧
  (∀ (s : State) (c : TCtx), Starts .nop 1 s c → exec .nop s = .next (completed s c)) ∧
  (∀ (r : Fin 16) (i : BitVec 14) (s : State) (c : TCtx), Starts (.dbnz (.g r) i) 1 s c → usable c (.g r) →
    exec (.dbnz (.g r) i) s = .next (completed s { c with
      tk := { c.tk with g := c.tk.g.set r (c.tk.g[r] - 1) },
      next := if c.tk.g[r] - 1 ≠ 0 then c.tk.pc + i.toInt else c.tk.pc + 1 }))

/-- R169 to R172: where branches, calls and jumps go, and what else they change. -/
def Obligations.ControlFlowResult : Prop := branchTarget ∧ jumpCallLoopResult


/-! ### Vector and conversion instructions -/

/-- Flags raised at the node (R187): they are sticky. -/
def withFlags (c : TCtx) (f : Flags) : TCtx := { c with tk := { c.tk with fflags := c.tk.fflags ||| f } }

/-- Lanes packed in a vector format. -/
def packed (f : VFmt) (rs : List (Nat × Flags)) : W64 := VFmt.pack f (rs.map Prod.fst)

/-- R189: the lanewise instructions of two sources, and the operation of their lanes. -/
def laneRules : List ((Opnd → Opnd → Opnd → VFmt → Instr) × Arith) :=
  [(.vAdd, .add), (.vSub, .sub), (.vMul, .mul), (.vMin, .min), (.vMax, .max), (.vAdds, .adds), (.vSubs, .subs), (.vAnd, .and),
   (.vOr, .or), (.vXor, .xor), (.vSll, .sll), (.vSrl, .srl), (.vSra, .sra)]

/-- R187, R189: lane k of the result is f(s1.lane[k], s2.lane[k]), or f(s1.lane[k]) for `abs` and `neg`, in every operand form and every
format that the instruction has; the flags of all lanes are raised. -/
def vectorLanewiseResult : Prop :=
  (∀ e ∈ laneRules, ∀ (d a b : Opnd) (f : VFmt) (s : State) (c c1 c2 c3 : TCtx) (x y : W64), Starts (e.1 d a b f) 1 s c →
    read64 a c = .ok (x, c1) → read64 b c1 = .ok (y, c2) →
    let rs := List.zipWith (arithElem e.2 (vElem f)) (VFmt.lanesOf f x) (VFmt.lanesOf f y)
    write64 d (packed f rs) c2 = .ok ((), c3) →
    exec (e.1 d a b f) s = .next (completed s (withFlags c3 (orFlags (rs.map Prod.snd))))) ∧
  (∀ e ∈ [(Instr.vAbs, Arith.abs), (Instr.vNeg, Arith.neg)], ∀ (d a : Opnd) (f : VFmt) (s : State) (c c1 c2 : TCtx) (x : W64),
    Starts (e.1 d a f) 1 s c → read64 a c = .ok (x, c1) →
    let rs := (VFmt.lanesOf f x).map (fun z => arithElem e.2 (vElem f) z 0)
    write64 d (packed f rs) c1 = .ok ((), c2) →
    exec (e.1 d a f) s = .next (completed s (withFlags c2 (orFlags (rs.map Prod.snd)))))

/-- R189: a sum or difference clamped to the range of a signed lane of `w` bits, as the lane's bits. -/
def signedClamp (w : Nat) (z : Int) : Nat := wrapInt (max (-2 ^ (w - 1)) (min (2 ^ (w - 1) - 1) z)) w

/-- R189: the lanes of the integer formats add, subtract and multiply modulo 2^w, and `adds` and `subs` clamp to the range of the format, signed or
unsigned; no flag is raised. -/
def integerLaneArithmetic : Prop :=
  ∀ f ∈ [VFmt.s8, .z8, .s16, .z16, .s32, .z32], ∀ x y : Nat, x < 2 ^ f.width → y < 2 ^ f.width →
    arithElem .add (vElem f) x y = ((x + y) % 2 ^ f.width, 0) ∧
    arithElem .sub (vElem f) x y = ((x + 2 ^ f.width - y) % 2 ^ f.width, 0) ∧
    arithElem .mul (vElem f) x y = (x * y % 2 ^ f.width, 0) ∧
    (f.idx % 2 = 1 → arithElem .adds (vElem f) x y = (min (x + y) (2 ^ f.width - 1), 0) ∧ arithElem .subs (vElem f) x y = (x - y, 0)) ∧
    (f.idx % 2 = 0 → arithElem .adds (vElem f) x y = (signedClamp f.width (sextInt x f.width + sextInt y f.width), 0) ∧
      arithElem .subs (vElem f) x y = (signedClamp f.width (sextInt x f.width - sextInt y f.width), 0))

/-- R187, R189: the lanewise vector instructions, and the arithmetic of the integer lanes. -/
def Obligations.VectorLanewise : Prop := vectorLanewiseResult ∧ integerLaneArithmetic

/-- R191: the fused forms: whether the product and the added value are negated, and whether lane 0 of s2 serves every lane. -/
def fusedRules : List ((Opnd → Opnd → Opnd → VFmt → Instr) × Bool × Bool × Bool) :=
  [(.vFma, false, false, false), (.vFms, false, true, false), (.vFnma, true, false, false), (.vFmab, false, false, true)]

/-- R191, R192: the fused forms and `dot` read s1, s2 and then the accumulating operand, and write it. `dot` changes lane 0 alone. -/
def vectorFusedResult : Prop :=
  (∀ e ∈ fusedRules, ∀ (d a b : Opnd) (f : VFmt) (s : State) (c c1 c2 c3 c4 : TCtx) (x y z : W64), Starts (e.1 d a b f) 1 s c →
    read64 a c = .ok (x, c1) → read64 b c1 = .ok (y, c2) → read64 d c2 = .ok (z, c3) →
    let ys := VFmt.lanesOf f y
    let ys := if e.2.2.2 then ys.map (fun _ => ys.headD 0) else ys
    let rs := List.zipWith (fun (p : Nat × Nat) (q : Nat) => fmaElem (VFmt.flt f) e.2.1 e.2.2.1 p.1 p.2 q)
      (List.zip (VFmt.lanesOf f x) ys) (VFmt.lanesOf f z)
    write64 d (packed f rs) c3 = .ok ((), c4) →
    exec (e.1 d a b f) s = .next (completed s (withFlags c4 (orFlags (rs.map Prod.snd))))) ∧
  (∀ (d a b : Opnd) (f : VFmt) (s : State) (c c1 c2 c3 c4 : TCtx) (x y z : W64), Starts (.vDot d a b f) 1 s c →
    read64 a c = .ok (x, c1) → read64 b c1 = .ok (y, c2) → read64 d c2 = .ok (z, c3) →
    let ps := if f = .tw8 then twProducts (VFmt.lanesOf f x) (VFmt.lanesOf .s8 y)
      else List.zipWith XReal.mul ((VFmt.lanesOf f x).map (vElem f).decode) ((VFmt.lanesOf f y).map (vElem f).decode)
    let r := dotRound (FFmt.fp32.decode (z.toNat % 2 ^ 32)) ps
    write64 d (z.extractLsb' 32 32 ++ BitVec.ofNat 32 r.1) c3 = .ok ((), c4) →
    exec (.vDot d a b f) s = .next (completed s (withFlags c4 r.2)))

/-- R193: the vector compares. -/
def vectorCompareRules : List ((Opnd → Opnd → Opnd → VFmt → Instr) × VCmp) :=
  [(.vCmpEq, .eq), (.vCmpLt, .lt), (.vCmpLe, .le), (.vCmpUn, .un)]

/-- R193, R194: a compare writes all ones to a lane where its condition holds and zeros where not; `sel` takes the bits of s1 where its
mask d is 1 and of s2 where it is 0. -/
def vectorCompareSelectResult : Prop :=
  (∀ e ∈ vectorCompareRules, ∀ (d a b : Opnd) (f : VFmt) (s : State) (c c1 c2 c3 : TCtx) (x y : W64), Starts (e.1 d a b f) 1 s c →
    read64 a c = .ok (x, c1) → read64 b c1 = .ok (y, c2) →
    let rs := List.zipWith (cmpElem e.2 (vElem f)) (VFmt.lanesOf f x) (VFmt.lanesOf f y)
    write64 d (VFmt.pack f (rs.map (fun r => if r.1 then 2 ^ f.width - 1 else 0))) c2 = .ok ((), c3) →
    exec (e.1 d a b f) s = .next (completed s (withFlags c3 (orFlags (rs.map Prod.snd))))) ∧
  (∀ (d a b : Opnd) (f : VFmt) (s : State) (c c1 c2 c3 c4 : TCtx) (x y z : W64), Starts (.vSel d a b f) 1 s c →
    read64 a c = .ok (x, c1) → read64 b c1 = .ok (y, c2) → read64 d c2 = .ok (z, c3) →
    write64 d ((x &&& z) ||| (y &&& ~~~z)) c3 = .ok ((), c4) → exec (.vSel d a b f) s = .next (completed s c4))

/-- R191 to R194: the fused forms, `dot`, the vector compares and `sel`.
The model's own readings in it: assumption 30. -/
def Obligations.VectorFusedCompareSelect : Prop := vectorFusedResult ∧ vectorCompareSelectResult

/-- R195: `zip`'s lanes: those of the low halves of its sources by turns. -/
def zipLanes (n : Nat) (x y : List Nat) : List Nat := (List.zipWith (fun p q => [p, q]) (x.take (n / 2)) (y.take (n / 2))).flatten

/-- R195: the permutes of two sources: `shuf` takes of s1 the lanes that s2 names, 0 where it names none; `zip` the low lanes of both by
turns; `unzip` the even lanes of s1, then of s2. -/
def permuteRules : List ((Opnd → Opnd → Opnd → VFmt → Instr) × (VFmt → List Nat → List Nat → List Nat)) :=
  [(.vShuf, fun _ x y => y.map (fun j => x[j]?.getD 0)), (.vZip, fun f x y => zipLanes f.lanes x y),
   (.vUnzip, fun _ x y => evens x ++ evens y)]

/-- R195, R196: the permutes, `bcast`, `rot`, `ins`, `ext` and `cmpr.2of4`; none raises a flag. -/
def vectorPermuteResult : Prop :=
  (∀ e ∈ permuteRules, ∀ (d a b : Opnd) (f : VFmt) (s : State) (c c1 c2 c3 : TCtx) (x y : W64), Starts (e.1 d a b f) 1 s c →
    read64 a c = .ok (x, c1) → read64 b c1 = .ok (y, c2) →
    write64 d (VFmt.pack f (e.2 f (VFmt.lanesOf f x) (VFmt.lanesOf f y))) c2 = .ok ((), c3) →
    exec (e.1 d a b f) s = .next (completed s c3)) ∧
  (∀ (d a : Opnd) (m : BitVec 6) (f : VFmt) (s : State) (c c1 c2 : TCtx) (x : W64), Starts (.vBcast d a m f) 1 s c →
    read64 a c = .ok (x, c1) →
    write64 d (VFmt.pack f ((VFmt.lanesOf f x).map (fun _ => (VFmt.lanesOf f x)[m.toNat]?.getD 0))) c1 = .ok ((), c2) →
    exec (.vBcast d a m f) s = .next (completed s c2)) ∧
  (∀ (d a : Opnd) (m : BitVec 6) (f : VFmt) (s : State) (c c1 c2 : TCtx) (x : W64), Starts (.vRot d a m f) 1 s c →
    read64 a c = .ok (x, c1) →
    write64 d (VFmt.pack f ((VFmt.lanesOf f x).drop m.toNat ++ (VFmt.lanesOf f x).take m.toNat)) c1 = .ok ((), c2) →
    exec (.vRot d a m f) s = .next (completed s c2)) ∧
  (∀ (d a : Opnd) (m : BitVec 6) (f : VFmt) (s : State) (c c1 c2 c3 : TCtx) (x z : W64), Starts (.vIns d a m f) 1 s c →
    read64 a c = .ok (x, c1) → read64 d c1 = .ok (z, c2) →
    write64 d (VFmt.pack f ((VFmt.lanesOf f z).set m.toNat ((VFmt.lanesOf f x).headD 0))) c2 = .ok ((), c3) →
    exec (.vIns d a m f) s = .next (completed s c3)) ∧
  (∀ (d a : Opnd) (m : BitVec 6) (f : VFmt) (s : State) (c c1 c2 : TCtx) (x : W64), Starts (.vExt d a m f) 1 s c →
    read64 a c = .ok (x, c1) →
    write64 d (if f = .s8 ∨ f = .s16 ∨ f = .s32 then BitVec.ofInt 64 (sextInt (lane f.width x m.toNat) f.width)
      else BitVec.ofNat 64 (lane f.width x m.toNat)) c1 = .ok ((), c2) →
    exec (.vExt d a m f) s = .next (completed s c2)) ∧
  (∀ (d a : Opnd) (p : Fin 4) (f : VFmt) (s : State) (c c1 c2 : TCtx) (x : W64), Starts (.cmpr2of4 d a p f) 1 s c →
    read64 a c = .ok (x, c1) →
    let k := cmprKeep ((VFmt.lanesOf f x).map (cmprRank f))
    write64 d (packLanes 16 [(VFmt.lanesOf f x)[k.1]?.getD 0, (VFmt.lanesOf f x)[k.2]?.getD 0]) c1 = .ok ((), c2) →
    exec (.cmpr2of4 d a p f) s = .next (completed s (withPred c2 p (BitVec.ofNat 4 (2 ^ k.1 + 2 ^ k.2)))))

/-- R196: the two lanes that `cmpr.2of4` keeps: different, in rising order, and neither is outranked by a lane that it drops. -/
def compressKeepsTheLargest : Prop :=
  ∀ a b c d : Nat, let r := [a, b, c, d]
    let k := cmprKeep r
    k.1 < k.2 ∧ k.2 < 4 ∧ ∀ j < 4, j ≠ k.1 → j ≠ k.2 → r[j]?.getD 0 ≤ r[k.1]?.getD 0 ∧ r[j]?.getD 0 ≤ r[k.2]?.getD 0

/-- R195, R196: the permutes and `cmpr.2of4`, and what it keeps. -/
def Obligations.VectorPermute : Prop := vectorPermuteResult ∧ compressKeepsTheLargest

/-- R197 to R199: `cvt` converts the low lanes, as many as both formats have; with stochastic rounding it moves the node's count of mixed
values on. The reductions write one 32-bit result. -/
def vectorConvertReduceResult : Prop :=
  (∀ (d a : Opnd) (mode : Mode) (sat : Bool) (f g : VFmt) (s : State) (c c1 c2 : TCtx) (x : W64), Starts (.vCvt d a mode sat f g) 1 s c →
    read64 a c = .ok (x, c1) →
    let rs := ((VFmt.lanesOf f x).take (min f.lanes g.lanes)).zipIdx.map (fun e => cvtElem mode sat f g (cvtRho c1.tk e.2) e.1)
    write64 d (packed g rs) c1 = .ok ((), c2) →
    let c3 := withFlags c2 (orFlags (rs.map Prod.snd))
    exec (.vCvt d a mode sat f g) s = .next (completed s (if mode = .sr then
      { c3 with tk := { c3.tk with srCount := (c3.tk.srCount + 1) % 536870912 } } else c3))) ∧
  (∀ (d a : Opnd) (f : VFmt) (s : State) (c c1 c2 : TCtx) (x : W64), Starts (.vRsum d a f) 1 s c → read64 a c = .ok (x, c1) →
    (f.idx ≤ 5 → write32 d (BitVec.ofNat 32 (((VFmt.lanesOf f x).map (lane32 f)).foldl (fun p q => p + q) 0)) c1 = .ok ((), c2) →
      exec (.vRsum d a f) s = .next (completed s c2)) ∧
    (¬ f.idx ≤ 5 → let r := redSum ((VFmt.lanesOf f x).map (redTerm f))
      write32 d (BitVec.ofNat 32 r.1) c1 = .ok ((), c2) → exec (.vRsum d a f) s = .next (completed s (withFlags c2 r.2)))) ∧
  (∀ (d a b : Opnd) (f : VFmt) (s : State) (c c1 c2 c3 : TCtx) (x y : W64), Starts (.vRdot d a b f) 1 s c → read64 a c = .ok (x, c1) →
    read64 b c1 = .ok (y, c2) →
    (f.idx ≤ 5 → write32 d (BitVec.ofNat 32
        ((List.zipWith (fun p q => lane32 f p * lane32 f q) (VFmt.lanesOf f x) (VFmt.lanesOf f y)).foldl (fun p q => p + q) 0)) c2 = .ok ((), c3) →
      exec (.vRdot d a b f) s = .next (completed s c3)) ∧
    (¬ f.idx ≤ 5 → let r := redSum (List.zipWith (fun p q => FFmt.fp32.rnd (((vElem f).decode p).mul ((vElem f).decode q)))
        (VFmt.lanesOf f x) (VFmt.lanesOf f y))
      write32 d (BitVec.ofNat 32 r.1) c2 = .ok ((), c3) → exec (.vRdot d a b f) s = .next (completed s (withFlags c3 r.2)))) ∧
  (∀ e ∈ [(Instr.vRmax, true), (Instr.vRmin, false)], ∀ (d a : Opnd) (f : VFmt) (s : State) (c c1 c2 : TCtx) (x : W64),
    Starts (e.1 d a f) 1 s c → read64 a c = .ok (x, c1) →
    (f.idx ≤ 5 → write32 d (BitVec.ofInt 32 (pickInt e.2 ((VFmt.lanesOf f x).map (intVal (f.idx % 2 == 0) f.width)))) c1 = .ok ((), c2) →
      exec (e.1 d a f) s = .next (completed s c2)) ∧
    (¬ f.idx ≤ 5 → ((VFmt.lanesOf f x).map (vElem f).decode).any XReal.isNaN = true → write32 d 0x7FC00000#32 c1 = .ok ((), c2) →
      exec (e.1 d a f) s = .next (completed s
        (if ((VFmt.lanesOf f x).map (vElem f).decode).any XReal.isSig then withFlags c2 fNV else c2))) ∧
    (¬ f.idx ≤ 5 → ((VFmt.lanesOf f x).map (vElem f).decode).any XReal.isNaN = false →
      write32 d (BitVec.ofNat 32 (FFmt.fp32.rnd (pickReal e.2 ((VFmt.lanesOf f x).map (vElem f).decode))).1) c1 = .ok ((), c2) →
      exec (e.1 d a f) s = .next (completed s c2)))

/-- R200 to R202: `scl` multiplies by a scale register, `ldexp` by a power of two, `mxpack` and `mxunpack` by the block scale in s2; `sclx`
reads the word it extends, and where no NaN stands in s2's amax its result is a function of the sources (with one there its amax is a
free value: assumption 8). -/
def vectorScaleResult : Prop :=
  (∀ (d a : Opnd) (m : BitVec 6) (f : VFmt) (s : State) (c c1 c2 : TCtx) (x : W64), Starts (.vScl d a m f) 1 s c →
    read64 a c = .ok (x, c1) →
    let rs := (VFmt.lanesOf f x).map (fun e => (VFmt.flt f).rnd (((vElem f).decode e).mul (scaleOf c1.tk.fmt m.toNat)))
    write64 d (packed f rs) c1 = .ok ((), c2) →
    exec (.vScl d a m f) s = .next (completed s (withFlags c2 (orFlags (rs.map Prod.snd))))) ∧
  (∀ (d a b : Opnd) (f : VFmt) (s : State) (c c1 c2 c3 : TCtx) (x y : W64), Starts (.vLdexp d a b f) 1 s c →
    read64 a c = .ok (x, c1) → read64 b c1 = .ok (y, c2) →
    let rs := List.zipWith (fun p q => (VFmt.flt f).rnd (((vElem f).decode p).scale2 (max (-2000) (min 2000 (sextInt q f.width)))))
      (VFmt.lanesOf f x) (VFmt.lanesOf f y)
    write64 d (packed f rs) c2 = .ok ((), c3) →
    exec (.vLdexp d a b f) s = .next (completed s (withFlags c3 (orFlags (rs.map Prod.snd))))) ∧
  (∀ (d a b : Opnd) (f : VFmt) (s : State) (c c1 c2 c3 : TCtx) (x y : W64), Starts (.vMxpack d a b f) 1 s c →
    read64 a c = .ok (x, c1) → read64 b c1 = .ok (y, c2) →
    let kind := bitsOf y.toNat 40 2
    let rs := (VFmt.lanesOf f x).map (fun e => mxpackElem kind (bitsOf y.toNat 48 8) ((vElem f).decode e))
    write64 d (packLanes (mxWidth kind) (rs.map Prod.fst)) c2 = .ok ((), c3) →
    exec (.vMxpack d a b f) s = .next (completed s (withFlags c3 (orFlags (rs.map Prod.snd))))) ∧
  (∀ (d a b : Opnd) (f : VFmt) (s : State) (c c1 c2 c3 : TCtx) (x y : W64), Starts (.vMxunpack d a b f) 1 s c →
    read64 a c = .ok (x, c1) → read64 b c1 = .ok (y, c2) →
    let kind := bitsOf y.toNat 40 2
    let scale := bitsOf y.toNat 48 8
    let rs := (lanesOf (mxWidth kind) f.lanes x).map (fun e => if scale = 255 then ((VFmt.flt f).canonNaN, 0)
      else (VFmt.flt f).rnd ((mxDecode kind e).scale2 ((scale : Int) - 127)))
    write64 d (packed f rs) c2 = .ok ((), c3) →
    exec (.vMxunpack d a b f) s = .next (completed s (withFlags c3 (orFlags (rs.map Prod.snd))))) ∧
  (∀ (d a b : Opnd) (f : VFmt) (s : State) (c c1 c2 c3 : TCtx) (x y z : W64), Starts (.vSclx d a b f) 1 s c →
    read64 a c = .ok (x, c1) → read64 b c1 = .ok (y, c2) → read64 d c2 = .ok (z, c3) →
    (FFmt.fp32.decode (y.toNat % 2 ^ 32)).isNaN = false →
    let vs := (VFmt.lanesOf f x).map (vElem f).decode
    let kind := bitsOf y.toNat 40 2
    let special := bitOf y.toNat 32 || vs.any XReal.special
    let start := FFmt.fp32.decode (y.toNat % 2 ^ 32)
    let mags := (vs.filter (fun v => !v.special)).map (fun v => match v with | .fin _ m e => .fin false m e | w => w)
    let amax := if mags.any (fun v => start.ltz v) then (FFmt.fp32.rnd (pickReal true (start :: mags))).1 else y.toNat % 2 ^ 32
    let scale := if special then 255 else sclxScale kind (pickReal true (start :: mags))
    ∀ c4, write64 d (BitVec.ofNat 64 (amax + special.toNat * 2 ^ 32 + kind * 2 ^ 40 + scale * 2 ^ 48)) c3 = .ok ((), c4) →
    exec (.vSclx d a b f) s = .next (completed s c4))

/-- R197 to R202: conversions, reductions and scaling. That `mxunpack` with scale 0xFF raises no flag is the model's choice (assumption 93). -/
def Obligations.VectorConvertReduceScale : Prop := vectorConvertReduceResult ∧ vectorScaleResult


/-! ### Bank memory -/

/-- R173: the loads of at most 32 bits, whether they extend the sign, and their size in bytes. -/
def bankLoadRules : List ((Opnd → Opnd → BitVec 14 → Instr) × Bool × Nat) :=
  [(.ldS8, true, 1), (.ldZ8, false, 1), (.ldS16, true, 2), (.ldZ16, false, 2), (.ldW, false, 4)]

/-- R173: a bank load in range and aligned writes the extended little-endian bytes at base + offset, and completes; outside the partition
it raises BANK_RANGE, unaligned within it BANK_ALIGN, with the address as argument, and its destination is not written. -/
def bankLoadResult : Prop :=
  (∀ e ∈ bankLoadRules, ∀ (d b : Opnd) (off : BitVec 14) (s : State) (c c1 : TCtx) (x : W64), Starts (e.1 d b off) 1 s c →
    read64 b c = .ok (x, c1) →
    let ea := x.toInt + off.toInt
    (∀ c2, 0 ≤ ea → ea + e.2.2 ≤ c1.tk.bankBytes → ea % e.2.2 = 0 →
      write32 d (extendTo32 e.2.1 e.2.2 (leNat (c1.tk.bank.read ea.toNat e.2.2))) c1 = .ok ((), c2) →
      exec (e.1 d b off) s = .next (completed s c2)) ∧
    (ea < 0 ∨ (c1.tk.bankBytes : Int) < ea + e.2.2 →
      exec (e.1 d b off) s = .next (takeTrap s s.cur.1 s.cur.2 c.tk 0x0203 (BitVec.ofInt 64 ea) c.tk.pc)) ∧
    (0 ≤ ea → ea + e.2.2 ≤ c1.tk.bankBytes → ea % e.2.2 ≠ 0 →
      exec (e.1 d b off) s = .next (takeTrap s s.cur.1 s.cur.2 c.tk 0x0204 (BitVec.ofInt 64 ea) c.tk.pc))) ∧
  (∀ (d b : Opnd) (off : BitVec 14) (s : State) (c c1 : TCtx) (x : W64), Starts (.ldD d b off) 1 s c → read64 b c = .ok (x, c1) →
    let ea := x.toInt + off.toInt
    (∀ c2, 0 ≤ ea → ea + 8 ≤ c1.tk.bankBytes → ea % 8 = 0 →
      write64 d (BitVec.ofNat 64 (leNat (c1.tk.bank.read ea.toNat 8))) c1 = .ok ((), c2) →
      exec (.ldD d b off) s = .next (completed s c2)) ∧
    (ea < 0 ∨ (c1.tk.bankBytes : Int) < ea + 8 →
      exec (.ldD d b off) s = .next (takeTrap s s.cur.1 s.cur.2 c.tk 0x0203 (BitVec.ofInt 64 ea) c.tk.pc)) ∧
    (0 ≤ ea → ea + 8 ≤ c1.tk.bankBytes → ea % 8 ≠ 0 →
      exec (.ldD d b off) s = .next (takeTrap s s.cur.1 s.cur.2 c.tk 0x0204 (BitVec.ofInt 64 ea) c.tk.pc)))

/-- R174: the stores of at most 32 bits, and their size in bytes. -/
def bankStoreRules : List ((Opnd → Opnd → BitVec 12 → Instr) × Nat) := [(.stB, 1), (.stH, 2), (.stW, 4)]

/-- R174: a bank store in range and aligned writes the low bytes of its data at base + offset, little-endian, and completes; outside the
partition it raises BANK_RANGE, unaligned within it BANK_ALIGN, with the address as argument, before its data is read: whatever the data
operand is, nothing is stored. -/
def bankStoreResult : Prop :=
  (∀ e ∈ bankStoreRules, ∀ (d b : Opnd) (off : BitVec 12) (s : State) (c c1 : TCtx) (x : W64), Starts (e.1 d b off) 1 s c →
    read64 b c = .ok (x, c1) →
    let ea := x.toInt + off.toInt
    (∀ (c2 : TCtx) (y : W32), 0 ≤ ea → ea + e.2 ≤ c1.tk.bankBytes → ea % e.2 = 0 → read32 d c1 = .ok (y, c2) →
      exec (e.1 d b off) s = .next (completed s
        { c2 with tk := { c2.tk with bank := c2.tk.bank.write ea.toNat (leBytes y.toNat e.2) } })) ∧
    (ea < 0 ∨ (c1.tk.bankBytes : Int) < ea + e.2 →
      exec (e.1 d b off) s = .next (takeTrap s s.cur.1 s.cur.2 c.tk 0x0203 (BitVec.ofInt 64 ea) c.tk.pc)) ∧
    (0 ≤ ea → ea + e.2 ≤ c1.tk.bankBytes → ea % e.2 ≠ 0 →
      exec (e.1 d b off) s = .next (takeTrap s s.cur.1 s.cur.2 c.tk 0x0204 (BitVec.ofInt 64 ea) c.tk.pc))) ∧
  (∀ (d b : Opnd) (off : BitVec 12) (s : State) (c c1 : TCtx) (x : W64), Starts (.stD d b off) 1 s c → read64 b c = .ok (x, c1) →
    let ea := x.toInt + off.toInt
    (∀ (c2 : TCtx) (y : W64), 0 ≤ ea → ea + 8 ≤ c1.tk.bankBytes → ea % 8 = 0 → read64 d c1 = .ok (y, c2) →
      exec (.stD d b off) s = .next (completed s
        { c2 with tk := { c2.tk with bank := c2.tk.bank.write ea.toNat (leBytes y.toNat 8) } })) ∧
    (ea < 0 ∨ (c1.tk.bankBytes : Int) < ea + 8 →
      exec (.stD d b off) s = .next (takeTrap s s.cur.1 s.cur.2 c.tk 0x0203 (BitVec.ofInt 64 ea) c.tk.pc)) ∧
    (0 ≤ ea → ea + 8 ≤ c1.tk.bankBytes → ea % 8 ≠ 0 →
      exec (.stD d b off) s = .next (takeTrap s s.cur.1 s.cur.2 c.tk 0x0204 (BitVec.ofInt 64 ea) c.tk.pc)))

/-- R173, R174: bank loads and stores: in range, out of range, and unaligned. That a 64-bit A base is signed is the model's choice (assumption 90). -/
def Obligations.BankLoadStoreResult : Prop := bankLoadResult ∧ bankStoreResult

/-- R173 to R175: bytes stored to a bank in canonical form are read back by a load of the same address and size, and every byte outside
those stored reads as before. -/
def Obligations.BankStoreThenLoad : Prop :=
  ∀ (m : Memory) (a size x : Nat), m.wf = true → x < 256 ^ size →
    leNat ((m.write a (leBytes x size)).read a size) = x ∧
    (∀ b, b < a ∨ a + size ≤ b → (m.write a (leBytes x size)).get b = m.get b) ∧
    (m.write a (leBytes x size)).wf = true

/-! ### Channels and records -/

/-- R178: `hdr`, `left` and `next` on a current record: its header, the units not yet popped, and its release; `next` on the trigger port
raises RECORD_STATE. -/
def inputRecordResult : Prop :=
  (∀ (d : Opnd) (p : Fin 16) (s : State) (c c1 c2 : TCtx) (r : Rec), Starts (.hdr d (.i p)) 1 s c → currentRec p c = .ok (r, c1) →
    write64 d r.hdr c1 = .ok ((), c2) → exec (.hdr d (.i p)) s = .next (completed s c2)) ∧
  (∀ (d : Opnd) (p : Fin 16) (s : State) (c c1 c2 : TCtx) (r : Rec), Starts (.left d (.i p)) 1 s c → currentRec p c = .ok (r, c1) →
    write32 d (BitVec.ofNat 32 (hLen r.hdr - c1.tk.inp[p].idx)) c1 = .ok ((), c2) → exec (.left d (.i p)) s = .next (completed s c2)) ∧
  (∀ (p : Fin 16) (s : State) (c c1 : TCtx) (r : Rec) (ch : Nat), Starts (.next_ (.i p)) 1 s c → p.val ≠ c.tk.trigp →
    currentRec p c = .ok (r, c1) → c1.tk.inCh[p] = some ch →
    exec (.next_ (.i p)) s = .next (completed s { c1 with
      s := releaseHead c1.s c1.t ch, tk := { c1.tk with inp := c1.tk.inp.set p { cur := false, idx := 0 } } })) ∧
  (∀ (p : Fin 16) (s : State) (c : TCtx), Starts (.next_ (.i p)) 1 s c → p.val = c.tk.trigp →
    exec (.next_ (.i p)) s = .next (takeTrap s s.cur.1 s.cur.2 c.tk 0x0206 (BitVec.ofNat 64 p.val) c.tk.pc))

/-- R179, R180: `open` reserves a free slot for a record with a sound header that fits the channel; without a free slot it waits, its node
BLOCKED, and nothing is performed (R153); `close` sends the complete record on (a stern after the cell's residuals: R298), behind
the writes of its node that a `wsb` has found complete (R339), and an incomplete one raises RECORD_LENGTH; `send` is `open` and `close` of a record of no units; `cpy` copies units whole, or raises RECORD_LENGTH for a count over 1,024,
RECORD_OVERRUN past the source record and RECORD_STATE with none open (R181; the argument of the first with none open is free: assumption
67). -/
def outputRecordResult : Prop :=
  (∀ (p : Fin 16) (a : Opnd) (s : State) (c c1 : TCtx) (h : W64) (ch : Nat) (x : ChanRt), Starts (.open_ (.o p) a) 1 s c →
    read64 a c = .ok (h, c1) → c1.tk.outCh[p] = some ch → c1.s.chan? c1.t ch = some x → x.opn = none → checkHeader h = none →
    hLen h ≤ x.e.width →
    (0 < x.free → exec (.open_ (.o p) a) s = .next (completed s { c1 with
      s := c1.s.modChan c1.t ch (fun k => { k with opn := some { hdr := h, units := [] } }) })) ∧
    (∀ tk, s.tasks.get? (key2 s.cur.1 s.cur.2) = some tk → x.free = 0 → exec (.open_ (.o p) a) s = .next (waiting s tk true))) ∧
  (∀ (p : Fin 16) (s : State) (c : TCtx) (ch : Nat) (x : ChanRt) (r : Rec), Starts (.close (.o p)) 1 s c → c.tk.outCh[p] = some ch →
    c.s.chan? c.t ch = some x → x.opn = some r →
    (∀ c1, r.units.length = hLen r.hdr → (if rType r = tStern then taskFlush (fun _ => true) c else .ok ((), c)) = .ok ((), c1) →
      exec (.close (.o p)) s = .next (completed s { c1 with
        s := sendRec (c1.s.modChan c1.t ch (fun k => { k with opn := none })) c1.t ch (Rec.follow r (closedOrd c1.s c1.t c1.n)) })) ∧
    (r.units.length ≠ hLen r.hdr → exec (.close (.o p)) s = .next (takeTrap s s.cur.1 s.cur.2 c.tk 0x0301 r.hdr c.tk.pc))) ∧
  (∀ (p : Fin 16) (a : Opnd) (s : State) (c c1 c2 c3 : TCtx) (h : W64) (ch : Nat) (x : ChanRt), Starts (.send (.o p) a) 1 s c →
    read64 a c = .ok (h, c1) → c1.tk.outCh[p] = some ch → c1.s.chan? c1.t ch = some x → x.opn = none → checkHeader h = none →
    hLen h = 0 → 0 < x.free →
    openSlot ch h c1 = .ok ((), c2) → closePort p c2 = .ok ((), c3) → exec (.send (.o p) a) s = .next (completed s c3)) ∧
  (∀ (p q : Fin 16) (b : Opnd) (s : State) (c c1 c2 : TCtx) (r : Rec) (n : W32) (ch : Nat) (x : ChanRt), Starts (.cpy (.o p) (.i q) b) 1 s c →
    currentRec q c = .ok (r, c1) → read32 b c1 = .ok (n, c2) → c2.tk.outCh[p] = some ch → c2.s.chan? c2.t ch = some x →
    (∀ o, x.opn = some o → n.toNat ≤ 1024 → c2.tk.inp[q].idx + n.toNat ≤ hLen r.hdr → o.units.length + n.toNat ≤ hLen o.hdr →
      exec (.cpy (.o p) (.i q) b) s = .next (completed s { c2 with
        tk := { c2.tk with inp := c2.tk.inp.set q { cur := true, idx := c2.tk.inp[q].idx + n.toNat } },
        s := c2.s.modChan c2.t ch (fun k => { k with
          opn := some { o with units := o.units ++ (r.units.drop c2.tk.inp[q].idx).take n.toNat } }) })) ∧
    (∀ o, x.opn = some o → 1024 < n.toNat →
      exec (.cpy (.o p) (.i q) b) s = .next (takeTrap s s.cur.1 s.cur.2 c.tk 0x0301 o.hdr c.tk.pc)) ∧
    (x.opn = none → 1024 < n.toNat → exec (.cpy (.o p) (.i q) b) s =
      .next (takeTrap s.tookFree s.cur.1 s.cur.2 c.tk 0x0301 (Config.freeWord c2.s.freeCtr) c.tk.pc)) ∧
    (x.opn = none → n.toNat ≤ 1024 → c2.tk.inp[q].idx + n.toNat ≤ hLen r.hdr → exec (.cpy (.o p) (.i q) b) s =
      .next (takeTrap s s.cur.1 s.cur.2 c.tk 0x0206 (BitVec.ofNat 64 p.val) c.tk.pc)) ∧
    (n.toNat ≤ 1024 → hLen r.hdr < c2.tk.inp[q].idx + n.toNat → exec (.cpy (.o p) (.i q) b) s =
      .next (takeTrap s s.cur.1 s.cur.2 c.tk 0x0205 (BitVec.ofNat 64 q.val) c.tk.pc)))

/-- R178, R180, R181: the instructions on current records, and on open records.
The model's own readings in it: assumptions 19, 67. -/
def Obligations.RecordInstructions : Prop := inputRecordResult ∧ outputRecordResult

/-- R154, R171: `end` releases the input records, the trigger record last, which it counts as fired (R176), counts the activation and leaves the node IDLE, its trap status
cleared, once no register awaits a reply; with a record open on an output it raises RECORD_STATE with the lowest such port.
The model's own readings in it: assumptions 19, 26. -/
def Obligations.EndRetiresActivation : Prop :=
  (∀ (s : State) (c : TCtx) (ch : Nat) (hp : c.tk.trigp < 16), Starts .end_ 1 s c → openPort c.s c.t c.tk.outCh.toList 0 = none →
    c.tk.wflags = [] → c.tk.pend = [] → c.tk.inCh[c.tk.trigp] = some ch →
    exec .end_ s = .next (completed s { c with
      s := newActivation (useHead (releasePorts c.s c.t c.tk.trigp c.tk.inp c.tk.inCh.toList 0) c.t ch) c.t c.tk.inCh.toList,
      tk := { c.tk with st := .idle, acts := c.tk.acts + 1, tstat := 0, inp := Vector.replicate 16 { cur := false, idx := 0 } },
      next := 0 })) ∧
  (∀ (s : State) (c : TCtx) (p : Nat), Starts .end_ 1 s c → openPort c.s c.t c.tk.outCh.toList 0 = some p →
    exec .end_ s = .next (takeTrap s s.cur.1 s.cur.2 c.tk 0x0206 (BitVec.ofNat 64 p) c.tk.pc)) ∧
  (∀ (s : State) (c : TCtx) (tk : TaskRt), Starts .end_ 1 s c → s.tasks.get? (key2 s.cur.1 s.cur.2) = some tk →
    openPort c.s c.t c.tk.outCh.toList 0 = none → c.tk.wflags = [] → c.tk.pend ≠ [] → exec .end_ s = .next (waiting s tk false))

/-! ### System registers and traps -/

/-- R375, R376: a precise fault of a node whose handler is enabled and not running saves the PC, the cause, the argument and the source,
sets `tstat`, and goes to the handler's entry, the node RUNNING; nothing else changes. A fault within the handler, or with no handler
enabled, or TASK_HALT, halts the node and reports a precise fault record. -/
def Obligations.TrapEntry : Prop :=
  ∀ (s : State) (t n : Nat) (tk : TaskRt) (code : Nat) (arg : W64) (src : Int),
    (tk.tvec.getLsbD 15 = true → tk.tstat ≠ 1 → code ≠ 0x0209 →
      takeTrap s t n tk code arg src = { s with tasks := s.tasks.set (key2 t n) { tk with
        st := .running, pc := ((tk.tvec.toNat % 4096 : Nat) : Int), tpc := BitVec.ofInt 16 tk.pc, tcause := BitVec.ofNat 16 code,
        targ := arg, tsrc := BitVec.ofInt 16 src, tstat := 1 } }) ∧
    (tk.tvec.getLsbD 15 = false ∨ tk.tstat = 1 ∨ code = 0x0209 →
      takeTrap s t n tk code arg src = reportFault (haltNode { s with tasks := s.tasks.set (key2 t n) tk } t n) t
        { code := code, src := 0, prec := true, nest := tk.tstat == 1, node := n, engine := 0xFF, pc := (tk.pc % 256).toNat, arg := arg })

/-- R376, R378: `rte` in a handler goes to `tpc` and clears `tstat`; outside one it raises ILLEGAL_INSTRUCTION with its word. `trap`, `halt`
and `brk` take their traps, `trap` with its source as argument; so do an illegal word and a fetch outside the code partition (the trap PC of a
prefix group that runs off the end is the model's choice: assumption 89). -/
def Obligations.TrapInstructions : Prop :=
  (∀ (s : State) (c : TCtx), Starts .rte 1 s c → c.tk.tstat = 1 →
    exec .rte s = .next (completed s { c with
      tk := { c.tk with pc := (c.tk.tpc.toNat : Int), tstat := 0 }, next := (c.tk.tpc.toNat : Int) })) ∧
  (∀ (s : State) (c : TCtx), Starts .rte 1 s c → c.tk.tstat ≠ 1 →
    exec .rte s = .next (takeTrap s s.cur.1 s.cur.2 c.tk 0x0200 0xF8000001#64 c.tk.pc)) ∧
  (∀ (a : Opnd) (s : State) (c c1 : TCtx) (x : W32), Starts (.trap a) 1 s c → read32 a c = .ok (x, c1) →
    exec (.trap a) s = .next (takeTrap s s.cur.1 s.cur.2 c.tk 0x0207 (x.setWidth 64) c.tk.pc)) ∧
  (∀ (s : State) (c : TCtx), Starts .halt 1 s c → exec .halt s = .next (takeTrap s s.cur.1 s.cur.2 c.tk 0x0209 0 c.tk.pc)) ∧
  (∀ (s : State) (c : TCtx), Starts .brk 1 s c → exec .brk s = .next (takeTrap s s.cur.1 s.cur.2 c.tk 0x0208 0 c.tk.pc)) ∧
  (∀ (s : State) (c : TCtx) (w : W32), Starts (.illegalInstruction w) 1 s c →
    exec (.illegalInstruction w) s = .next (takeTrap s s.cur.1 s.cur.2 c.tk 0x0200 (w.setWidth 64) c.tk.pc)) ∧
  (∀ (s : State) (c : TCtx) (i : Int), Starts (.codeRangeFetch i) 1 s c →
    exec (.codeRangeFetch i) s = .next (takeTrap s s.cur.1 s.cur.2 c.tk 0x0202 (BitVec.ofInt 64 i) c.tk.pc))

/-- R159, R377: `sysr` writes the register's value, zero-extended, and `sysw` changes the register by its access code; while a
floating-point atomic of the node is not yet performed, both wait at `fflags.home`, with nothing performed (R289). -/
def systemRegisterAccess : Prop :=
  (∀ (d : Opnd) (r : BitVec 20) (s : State) (c c1 : TCtx) (tn : Tenure), Starts (.sysr d r) 1 s c → c.s.tenures.get? c.t = some tn →
    (r.toNat = 0x400 → faddPending c.s c.t c.n = false) → write64 d (sysRead c.s c.t c.n tn c.tk r.toNat) c = .ok ((), c1) →
    exec (.sysr d r) s = .next (completed s c1)) ∧
  (∀ (d : Opnd) (r : BitVec 20) (s : State) (c c1 : TCtx) (x : W32), Starts (.sysw d r) 1 s c → read32 d c = .ok (x, c1) → r.toNat ≠ 0x400 →
    exec (.sysw d r) s = .next (completed s { c1 with tk := sysWrite c1.tk r.toNat x })) ∧
  (∀ (d : Opnd) (r : BitVec 20) (s : State) (c c1 : TCtx) (x : W32), Starts (.sysw d r) 1 s c → read32 d c = .ok (x, c1) → r.toNat = 0x400 →
    faddPending c1.s c1.t c1.n = false →
    exec (.sysw d r) s = .next (completed s { c1 with s := c1.s.modTenure c1.t (fun tn =>
      { tn with homeFlags := tn.homeFlags.map (fun f => f &&& ~~~(x.truncate 5 : BitVec 5)) }) })) ∧
  (∀ (d : Opnd) (r : BitVec 20) (s : State) (c : TCtx) (tk : TaskRt), Starts (.sysr d r) 1 s c →
    s.tasks.get? (key2 s.cur.1 s.cur.2) = some tk → r.toNat = 0x400 → faddPending c.s c.t c.n = true →
    exec (.sysr d r) s = .next (waiting s tk false)) ∧
  (∀ (d : Opnd) (r : BitVec 20) (s : State) (c c1 : TCtx) (tk : TaskRt) (x : W32), Starts (.sysw d r) 1 s c →
    s.tasks.get? (key2 s.cur.1 s.cur.2) = some tk → read32 d c = .ok (x, c1) → r.toNat = 0x400 → faddPending c1.s c1.t c1.n = true →
    exec (.sysw d r) s = .next (waiting s tk false))

/-- R159, R374, R377: the value that `sysr` reads from each system register of node `n` of tenure `t`: identity, pound, activations,
trigger port, flags, seed, `nullfwd`; the cycles of its die since pound entry; visible records and free slots by port. -/
def coreRegisterValues : Prop :=
  ∀ (s : State) (t n : Nat) (tn : Tenure) (k : TaskRt),
    sysRead s t n tn k 0 = BitVec.ofNat 64 n ∧ sysRead s t n tn k 1 = tn.lk.lpound.setWidth 64 ∧ sysRead s t n tn k 2 = k.acts.setWidth 64 ∧
    sysRead s t n tn k 3 = BitVec.ofNat 64 k.trigp ∧ sysRead s t n tn k 4 = k.fflags.setWidth 64 ∧
    sysRead s t n tn k 5 = k.srseed.setWidth 64 ∧ sysRead s t n tn k 6 = k.nullfwd.setWidth 64 ∧
    (∀ d : Fin 4, tn.dieOf n = d.val →
      sysRead s t n tn k 8 = BitVec.ofNat 64 ((s.clk[d] - tn.enteredAt[d]) % 2 ^ 32) ∧
      sysRead s t n tn k 9 = BitVec.ofNat 64 ((s.clk[d] - tn.enteredAt[d]) / 2 ^ 32 % 2 ^ 32)) ∧
    (∀ (p : Fin 16),
      (k.inCh[p] = none → sysRead s t n tn k (0x10 + p.val) = 0) ∧ (k.outCh[p] = none → sysRead s t n tn k (0x20 + p.val) = 0) ∧
      (∀ c x, s.chan? t c = some x →
        (k.inCh[p] = some c → sysRead s t n tn k (0x10 + p.val) = BitVec.ofNat 64 x.buf.length) ∧
        (k.outCh[p] = some c → sysRead s t n tn k (0x20 + p.val) = BitVec.ofNat 64 x.free)))

/-- R126, R270, R289, R290, R374: the values of the format and scale registers (an E8M0 scale in bits [7:0]), the trap registers, the
scoreboard, the OR of the home flags, the updates pending and the tile. -/
def unitRegisterValues : Prop :=
  ∀ (s : State) (t n : Nat) (tn : Tenure) (k : TaskRt),
    (∀ p : Fin 16, sysRead s t n tn k (0x100 + p.val) = (k.fmt.ins[p]).setWidth 64 ∧
      sysRead s t n tn k (0x110 + p.val) = (k.fmt.outs[p]).setWidth 64) ∧
    (∀ m : Fin 8,
      (k.fmt.sclkind.getLsbD m.val = false → sysRead s t n tn k (0x120 + m.val) = (k.fmt.scl[m]).setWidth 64) ∧
      (k.fmt.sclkind.getLsbD m.val = true → sysRead s t n tn k (0x120 + m.val) = ((k.fmt.scl[m]).extractLsb' 0 8).setWidth 64)) ∧
    sysRead s t n tn k 0x128 = k.fmt.sclkind.setWidth 64 ∧
    sysRead s t n tn k 0x200 = k.tvec.setWidth 64 ∧ sysRead s t n tn k 0x201 = k.tpc.setWidth 64 ∧
    sysRead s t n tn k 0x202 = k.tcause.setWidth 64 ∧ sysRead s t n tn k 0x203 = (k.targ.extractLsb' 0 32).setWidth 64 ∧
    sysRead s t n tn k 0x204 = (k.targ.extractLsb' 32 32).setWidth 64 ∧ sysRead s t n tn k 0x205 = k.tsrc.setWidth 64 ∧
    sysRead s t n tn k 0x206 = k.tstat.setWidth 64 ∧ sysRead s t n tn k 0x301 = k.sberr.setWidth 64 ∧
    (∀ j : Fin 8, sysRead s t n tn k (0x308 + j.val) = (k.sbcnt[j]).setWidth 64 ∧
      (sysRead s t n tn k 0x300).getLsbD j.val = (k.sbcnt[j] != 0)) ∧ (sysRead s t n tn k 0x300).toNat < 256 ∧
    (∀ j : Fin 5, (sysRead s t n tn k 0x400).getLsbD j.val = tn.homeFlags.toList.any (fun f => f.getLsbD j.val)) ∧
    (sysRead s t n tn k 0x400).toNat < 32 ∧
    sysRead s t n tn k 0x401 = k.updpend.setWidth 64 ∧ sysRead s t n tn k 0x402 = BitVec.ofNat 64 k.tile.length

/-- R7, R159, R374: the effect of a write on each of the node's system registers: `fflags`, `srseed`, `nullfwd`, the scale registers and
their kinds, `tvec` and `tpc` take the bits they hold (an E8M0 scale register holds bits [7:0]: R9, R126); `sberr` is cleared where the word holds 1; a read-only register is left alone. -/
def systemRegisterWrites : Prop :=
  ∀ (k : TaskRt) (x : W32),
    sysWrite k 4 x = { k with fflags := x.extractLsb' 0 5 } ∧ sysWrite k 5 x = { k with srseed := x } ∧
    sysWrite k 6 x = { k with nullfwd := x.extractLsb' 0 16 } ∧
    (∀ m : Fin 8,
      (k.fmt.sclkind.getLsbD m.val = false → sysWrite k (0x120 + m.val) x = { k with fmt := { k.fmt with scl := k.fmt.scl.set m x } }) ∧
      (k.fmt.sclkind.getLsbD m.val = true →
        sysWrite k (0x120 + m.val) x = { k with fmt := { k.fmt with scl := k.fmt.scl.set m ((x.extractLsb' 0 8).setWidth 32) } })) ∧
    sysWrite k 0x128 x = { k with fmt := { k.fmt with sclkind := x.extractLsb' 0 8 } } ∧
    sysWrite k 0x200 x = { k with tvec := x.extractLsb' 0 16 &&& 0x8FFF#16 } ∧ sysWrite k 0x201 x = { k with tpc := x.extractLsb' 0 16 } ∧
    sysWrite k 0x301 x = { k with sberr := k.sberr &&& ~~~(x.extractLsb' 0 8) } ∧
    (∀ r ∈ [0, 1, 2, 3, 8, 9, 0x10, 0x1F, 0x20, 0x2F, 0x100, 0x11F, 0x202, 0x203, 0x204, 0x205, 0x206, 0x300, 0x308, 0x30F, 0x401, 0x402],
      sysWrite k r x = k)

/-- R7, R159, R374, R377: `sysr` and `sysw`, their waits, the value read from each system register of the node, and the effect of a write on
each. -/
def Obligations.SystemRegisters : Prop := systemRegisterAccess ∧ (coreRegisterValues ∧ unitRegisterValues) ∧ systemRegisterWrites

/-- R134: the immediate forms of 32 bits with the 32-bit immediate of a prefix in place of their own. -/
def prefixedRules : List ((Opnd → Opnd → BitVec 14 → Instr) × (W32 → W32 → W32)) :=
  [(.addiW, fun x i => x + i), (.andiW, fun x i => x &&& i), (.oriW, fun x i => x ||| i), (.xoriW, fun x i => x ^^^ i)]

/-- R134: whether an instruction takes the immediate of a prefix: an I format but the shifts and `dbnz`, a load, `li.w`, `lui.w`, `sysr`, `sysw` or a B
format, whose own field is 0. -/
def takesPrefix (i : Instr) : Bool :=
  match i with
  | .addiW _ _ k => k == 0
  | .andiW _ _ k => k == 0
  | .oriW _ _ k => k == 0
  | .xoriW _ _ k => k == 0
  | .addiA _ _ k => k == 0
  | .ldS8 _ _ k => k == 0
  | .ldZ8 _ _ k => k == 0
  | .ldS16 _ _ k => k == 0
  | .ldZ16 _ _ k => k == 0
  | .ldW _ _ k => k == 0
  | .ldD _ _ k => k == 0
  | .liW _ k => k == 0
  | .luiW _ k => k == 0
  | .sysr _ k => k == 0
  | .sysw _ k => k == 0
  | .br _ k => k == 0
  | .brz _ _ k => k == 0
  | .brnz _ _ k => k == 0
  | .brneg _ _ k => k == 0
  | .brNp _ k => k == 0
  | .brzNp _ _ k => k == 0
  | .brnzNp _ _ k => k == 0
  | .brnegNp _ _ k => k == 0
  | .call k => k == 0
  | _ => false

/-- R134: the forms that compute, and those that write a constant, with the immediate of a prefix. -/
def prefixedResult : Prop :=
  (∀ e ∈ prefixedRules, ∀ (d a : Opnd) (imm third : W32) (s : State) (c c1 c2 : TCtx) (x : W32), decodeTaskWord third = e.1 d a 0 →
    Starts (e.1 d a 0) 3 s c → read32 a c = .ok (x, c1) → write32 d (e.2 x imm) c1 = .ok ((), c2) →
    exec (.longImmediatePrefix imm third) s = .next (completed s c2)) ∧
  (∀ (d a : Opnd) (imm third : W32) (s : State) (c c1 c2 : TCtx) (x : W64), decodeTaskWord third = .addiA d a 0 → Starts (.addiA d a 0) 3 s c →
    read64 a c = .ok (x, c1) → write64 d (x + imm.signExtend 64) c1 = .ok ((), c2) →
    exec (.longImmediatePrefix imm third) s = .next (completed s c2)) ∧
  (∀ (d : Opnd) (imm third : W32) (s : State) (c c1 : TCtx), decodeTaskWord third = .liW d 0 → Starts (.liW d 0) 3 s c →
    write32 d imm c = .ok ((), c1) → exec (.longImmediatePrefix imm third) s = .next (completed s c1)) ∧
  (∀ (d : Opnd) (imm third : W32) (s : State) (c c1 : TCtx), decodeTaskWord third = .luiW d 0 → Starts (.luiW d 0) 3 s c →
    write32 d (imm <<< 12) c = .ok ((), c1) → exec (.longImmediatePrefix imm third) s = .next (completed s c1))

/-- R134, R173: the loads with the immediate of a prefix as their offset: in range and aligned, out of range, and unaligned. -/
def prefixedLoad : Prop :=
  (∀ e ∈ bankLoadRules, ∀ (d b : Opnd) (imm third : W32) (s : State) (c c1 : TCtx) (x : W64), decodeTaskWord third = e.1 d b 0 →
    Starts (e.1 d b 0) 3 s c → read64 b c = .ok (x, c1) →
    let ea := x.toInt + imm.toInt
    (∀ c2, 0 ≤ ea → ea + e.2.2 ≤ c1.tk.bankBytes → ea % e.2.2 = 0 →
      write32 d (extendTo32 e.2.1 e.2.2 (leNat (c1.tk.bank.read ea.toNat e.2.2))) c1 = .ok ((), c2) →
      exec (.longImmediatePrefix imm third) s = .next (completed s c2)) ∧
    (ea < 0 ∨ (c1.tk.bankBytes : Int) < ea + e.2.2 →
      exec (.longImmediatePrefix imm third) s = .next (takeTrap s s.cur.1 s.cur.2 c.tk 0x0203 (BitVec.ofInt 64 ea) c.tk.pc)) ∧
    (0 ≤ ea → ea + e.2.2 ≤ c1.tk.bankBytes → ea % e.2.2 ≠ 0 →
      exec (.longImmediatePrefix imm third) s = .next (takeTrap s s.cur.1 s.cur.2 c.tk 0x0204 (BitVec.ofInt 64 ea) c.tk.pc))) ∧
  (∀ (d b : Opnd) (imm third : W32) (s : State) (c c1 c2 : TCtx) (x : W64), decodeTaskWord third = .ldD d b 0 → Starts (.ldD d b 0) 3 s c →
    read64 b c = .ok (x, c1) → 0 ≤ x.toInt + imm.toInt → x.toInt + imm.toInt + 8 ≤ c1.tk.bankBytes → (x.toInt + imm.toInt) % 8 = 0 →
    write64 d (BitVec.ofNat 64 (leNat (c1.tk.bank.read (x.toInt + imm.toInt).toNat 8))) c1 = .ok ((), c2) →
    exec (.longImmediatePrefix imm third) s = .next (completed s c2))

/-- R134, R135, R169, R170: the branches and `call` with the immediate of a prefix as their displacement, which counts from the prefix. -/
def prefixedBranch : Prop :=
  (∀ e ∈ branchRules, ∀ (a : Opnd) (p : Fin 4) (imm third : W32) (s : State) (c c1 : TCtx) (x : W32), decodeTaskWord third = e.1 a p 0 →
    Starts (e.1 a p 0) 3 s c → read32 a c = .ok (x, c1) → exec (.longImmediatePrefix imm third) s = .next (completed s
      { c1 with next := if decide (predValue c p ≠ 0) = e.2.1 ∧ e.2.2 x = true then c.tk.pc + imm.toInt else c.tk.pc + 3 })) ∧
  (∀ (p : Fin 4) (imm third : W32) (s : State) (c : TCtx), decodeTaskWord third = .br p 0 → Starts (.br p 0) 3 s c →
    exec (.longImmediatePrefix imm third) s = .next (completed s
      { c with next := if predValue c p ≠ 0 then c.tk.pc + imm.toInt else c.tk.pc + 3 })) ∧
  (∀ (p : Fin 4) (imm third : W32) (s : State) (c : TCtx), decodeTaskWord third = .brNp p 0 → Starts (.brNp p 0) 3 s c →
    exec (.longImmediatePrefix imm third) s = .next (completed s
      { c with next := if predValue c p ≠ 0 then c.tk.pc + 3 else c.tk.pc + imm.toInt })) ∧
  (∀ (imm third : W32) (s : State) (c c1 : TCtx), decodeTaskWord third = .call 0 → Starts (.call 0) 3 s c →
    write32 (.g 15) (BitVec.ofInt 32 (c.tk.pc + 3)) c = .ok ((), c1) →
    exec (.longImmediatePrefix imm third) s = .next (completed s { c1 with next := c.tk.pc + imm.toInt }))

/-- R134, R159: `sysr` and `sysw` with the immediate of a prefix as the number of their register; a number that is not assigned is illegal. -/
def prefixedSystemRegister : Prop :=
  (∀ (d : Opnd) (imm third : W32) (s : State) (c c1 : TCtx) (tn : Tenure), decodeTaskWord third = .sysr d 0 → imm.toNat < 2 ^ 20 →
    Starts (.sysr d (imm.truncate 20)) 3 s c → c.s.tenures.get? c.t = some tn → (imm.toNat = 0x400 → faddPending c.s c.t c.n = false) →
    write64 d (sysRead c.s c.t c.n tn c.tk imm.toNat) c = .ok ((), c1) →
    exec (.longImmediatePrefix imm third) s = .next (completed s c1)) ∧
  (∀ (d : Opnd) (imm third : W32) (s : State) (c c1 : TCtx) (x : W32), decodeTaskWord third = .sysw d 0 → imm.toNat < 2 ^ 20 →
    imm.toNat ≠ 0x400 → Starts (.sysw d (imm.truncate 20)) 3 s c → read32 d c = .ok (x, c1) →
    exec (.longImmediatePrefix imm third) s = .next (completed s { c1 with tk := sysWrite c1.tk imm.toNat x })) ∧
  (∀ (d : Opnd) (imm third : W32) (s : State) (c : TCtx), decodeTaskWord third = .sysr d 0 ∨ decodeTaskWord third = .sysw d 0 →
    sysRegKnown imm.toNat = false ∨ 2 ^ 20 ≤ imm.toNat → Starts (.illegalInstruction third) 3 s c →
    exec (.longImmediatePrefix imm third) s = .next (takeTrap s s.cur.1 s.cur.2 c.tk 0x0200 (third.setWidth 64) c.tk.pc))

/-- R134: a prefix group runs its third word with the 32-bit immediate in place of a short field of 0 and takes three words; a group whose
third word takes no prefix (an R or V format, a store, a shift by an immediate, `dbnz`, `wsb`, a second prefix, an illegal word), or whose short field
is not 0, is illegal whole.
The model's own readings in it: assumptions 25, 90. -/
def Obligations.PrefixGroupResult : Prop :=
  prefixedResult ∧ prefixedLoad ∧ prefixedBranch ∧ prefixedSystemRegister ∧
  (∀ (imm third : W32) (s : State) (c : TCtx), takesPrefix (decodeTaskWord third) = false → Starts (.illegalInstruction third) 3 s c →
    exec (.longImmediatePrefix imm third) s = .next (takeTrap s s.cur.1 s.cur.2 c.tk 0x0200 (third.setWidth 64) c.tk.pc))

/-! ### Global memory, atomics and accumulates: what leaves the cell -/

/-- A message of the issuing node sent to a unit. -/
def sent (c : TCtx) (tn : Tenure) (unit : Nat) (k : MsgKind) : State := sendMsg c.s c.t c.n none (tn.dieOf c.n) (unitDie unit) unit k

/-- A node with one more operation counted on a token, where the instruction names one (R269). -/
def tokenTaken (k : TaskRt) (tk : Bool) (tok : BitVec 3) : TaskRt :=
  if tk then { k with sbcnt := k.sbcnt.set tok.toFin (k.sbcnt[tok.toFin] + 1) } else k

/-- R259, R265, R267, R272: what an access of a task meets on its way to memory. An address that is not canonical, or not aligned, faults;
an address of the host under a PASID that is turned off, or in a module without HOSTSHARED, gives PAGE_FAULT with cause 1 (R387; R68 as assumption 55
reads it); a translation that is at hand gives the
physical address, or PAGE_FAULT with cause 3 for an operation that needs a home slice at a
host-shared address, or cause 2 where the permission is missing; a page that the tables map but the cell's translations do not hold makes
the instruction wait. A page that no table maps is asked for, once, and the instruction waits for the answer; a request that has failed gives
PAGE_FAULT with cause 1, and is used up.
The model's own readings in it: assumptions 24, 28, 55. -/
def Obligations.AccessTranslation : Prop :=
  (∀ (c : TCtx) (va : W64) (n : Nat),
    (va.toNat < 2 ^ 57 → va.toNat % n = 0 → checkAddr va n c = .ok ((), c)) ∧
    (2 ^ 57 ≤ va.toNat → checkAddr va n c = .error (.trap 0x0400 (BitVec.ofNat 64 (va.toNat % 2 ^ 57)))) ∧
    (va.toNat < 2 ^ 57 → va.toNat % n ≠ 0 → checkAddr va n c = .error (.trap 0x0401 va))) ∧
  (∀ (c : TCtx) (tn : Tenure) (va : Nat) (r w home : Bool) (e : Tlb), c.s.tenures.get? c.t = some tn →
    (isDevice va = false → c.s.noHost tn.pasid = false) → c.s.tlb? (.cell c.t c.n) tn.pasid va = some e →
    ((home = true → isDevice va = true) → (r = true → e.r = true) → (w = true → e.w = true) → taskXlate va r w home c = .ok (e.phys va, c)) ∧
    (home = true → isDevice va = false → taskXlate va r w home c = .error (.trap 0x0400 (pageArg va 3))) ∧
    ((home = true → isDevice va = true) → (r = true ∧ e.r = false ∨ w = true ∧ e.w = false) →
      taskXlate va r w home c = .error (.trap 0x0400 (pageArg va 2)))) ∧
  (∀ (c : TCtx) (tn : Tenure) (va : Nat) (r w home : Bool) (e : Tlb), c.s.tenures.get? c.t = some tn →
    (isDevice va = false → c.s.noHost tn.pasid = false) → c.s.tlb? (.cell c.t c.n) tn.pasid va = none →
    walk c.s tn.pasid va = .ok e → taskXlate va r w home c = .error (.wait false)) ∧
  (∀ (c : TCtx) (tn : Tenure) (va : Nat) (r w home : Bool), c.s.tenures.get? c.t = some tn →
    (isDevice va = false → c.s.noHost tn.pasid = false) → c.s.tlb? (.cell c.t c.n) tn.pasid va = none →
    walk c.s tn.pasid va = .invalid →
    let page := (Layer.cell c.t c.n, tn.pasid, va / 4096 * 4096)
    (page ∈ c.s.pageFails → taskXlate va r w home c = .error (.trapAfter (dropPageFail (.cell c.t c.n) tn.pasid va) 0x0400 (pageArg va 1))) ∧
    (page ∉ c.s.pageFails → page ∈ c.s.pageReqs → taskXlate va r w home c = .error (.wait false)) ∧
    (page ∉ c.s.pageFails → page ∉ c.s.pageReqs →
      taskXlate va r w home c = .error (.ask (fun s => askPage s (.cell c.t c.n) tn.pasid va)))) ∧
  (∀ (s : State) (l : Layer) (pasid va : Nat), (isDevice va = true ∨ (s.pageReqs.filter (fun r => !isDevice r.2.2)).length < 512) →
    askPage s l pasid va = { s with pageReqs := s.pageReqs ++ [(l, pasid, va / 4096 * 4096)] }) ∧
  (∀ (s : State) (l : Layer) (pasid va : Nat), isDevice va = false → 512 ≤ (s.pageReqs.filter (fun r => !isDevice r.2.2)).length →
    askPage s l pasid va = s) ∧
  (∀ (s : State) (l : Layer) (pasid va : Nat) (e : Layer × Nat × Nat), e ∈ (dropPageFail l pasid va s).pageFails ↔
    e ∈ s.pageFails ∧ e ≠ (l, pasid, va / 4096 * 4096)) ∧
  (∀ (c : TCtx) (tn : Tenure) (va : Nat) (r w home : Bool), c.s.tenures.get? c.t = some tn → isDevice va = false →
    (tn.pasid ∈ c.s.pasidOff ∨ c.s.dawn.caps.getLsbD 0 = false) → taskXlate va r w home c = .error (.trap 0x0400 (pageArg va 1))) ∧
  (∀ (s : State) (pasid : Nat), pasid ∉ s.pasidOff → s.dawn.caps.getLsbD 0 = true → s.noHost pasid = false)

/-- R272: the global loads: whether they extend the sign, and their size. -/
def globalLoadRules : List ((Opnd → Opnd → Bool → BitVec 3 → Instr) × Bool × Nat) :=
  [(.gldS8, true, 1), (.gldZ8, false, 1), (.gldS16, true, 2), (.gldZ16, false, 2), (.gldW, false, 4), (.gldD, false, 8)]

/-- R272: a global load whose address is translated, readable and watched by no armed watchpoint leaves for the home of its address, its
token counted, and completes: its destination awaits the reply, and is not written yet. -/
def globalLoadIssues : Prop :=
  ∀ e ∈ globalLoadRules, ∀ (d a : Opnd) (tk : Bool) (tok : BitVec 3) (s : State) (c c1 : TCtx) (va : W64) (pa : Phys) (tn : Tenure),
    Starts (e.1 d a tk tok) 1 s c → read64 a c = .ok (va, c1) → c1.s.tenures.get? c1.t = some tn →
    va.toNat < 2 ^ 57 → va.toNat % e.2.2 = 0 → taskXlate va.toNat true false false c1 = .ok (pa, c1) →
    tn.watchHit 0 va.toNat e.2.2 = none → usable c1 d → (tk = true → c1.tk.sbcnt[tok.toFin] ≠ 255) →
    exec (e.1 d a tk tok) s = .next (completed s { c1 with
      s := sent c1 tn (physUnit pa)
        (.load va.toNat e.2.2 pa e.2.1 d (if tk then some tok.toNat else none) (c1.tk.pc % 65536).toNat),
      tk := { tokenTaken c1.tk tk tok with pend := c1.tk.pend ++ [d] } })

/-- R272: the global stores of at most 32 bits. -/
def globalStoreRules : List ((Opnd → Opnd → Bool → BitVec 3 → Instr) × Nat) := [(.gstB, 1), (.gstH, 2), (.gstW, 4)]

/-- R272, R305: a global store of translated, writable bytes that touch no live gate word and no armed watchpoint leaves with its
little-endian bytes, its token counted, and completes. -/
def globalStoreIssues : Prop :=
  (∀ e ∈ globalStoreRules, ∀ (d a : Opnd) (tk : Bool) (tok : BitVec 3) (s : State) (c c1 c2 : TCtx) (va : W64) (x : W32) (pa : Phys)
    (tn : Tenure), Starts (e.1 d a tk tok) 1 s c → read64 a c = .ok (va, c1) → va.toNat < 2 ^ 57 → va.toNat % e.2 = 0 →
    read32 d c1 = .ok (x, c2) → c2.s.tenures.get? c2.t = some tn → taskXlate va.toNat false true false c2 = .ok (pa, c2) →
    clobbers c2.s pa e.2 = false → tn.watchHit 1 va.toNat e.2 = none → (tk = true → c2.tk.sbcnt[tok.toFin] ≠ 255) →
    exec (e.1 d a tk tok) s = .next (completed s { c2 with
      s := sent c2 tn (physUnit pa) (.store va.toNat (leBytes x.toNat e.2) pa (if tk then some tok.toNat else none)),
      tk := if isDevice va.toNat then tokenTaken c2.tk tk tok else { tokenTaken c2.tk tk tok with hostDirty := true } })) ∧
  (∀ (d a : Opnd) (tk : Bool) (tok : BitVec 3) (s : State) (c c1 c2 : TCtx) (va x : W64) (pa : Phys) (tn : Tenure),
    Starts (.gstD d a tk tok) 1 s c → read64 a c = .ok (va, c1) → va.toNat < 2 ^ 57 → va.toNat % 8 = 0 → read64 d c1 = .ok (x, c2) →
    c2.s.tenures.get? c2.t = some tn → taskXlate va.toNat false true false c2 = .ok (pa, c2) → clobbers c2.s pa 8 = false →
    tn.watchHit 1 va.toNat 8 = none → (tk = true → c2.tk.sbcnt[tok.toFin] ≠ 255) →
    exec (.gstD d a tk tok) s = .next (completed s { c2 with
      s := sent c2 tn (physUnit pa) (.store va.toNat (leBytes x.toNat 8) pa (if tk then some tok.toNat else none)),
      tk := if isDevice va.toNat then tokenTaken c2.tk tk tok else { tokenTaken c2.tk tk tok with hostDirty := true } }))

/-- R272: the global loads and stores leave the cell. -/
def Obligations.GlobalAccessIssues : Prop := globalLoadIssues ∧ globalStoreIssues

/-- The message of an atomic, and what the node notes: the destination of a fetch form awaits the reply; `updpend` rises for a form
without one (R286). -/
def atomicSent (c : TCtx) (tn : Tenure) (op : AtomOp) (size : Nat) (dst : Option Opnd) (ord : Bool) (va : W64) (pa x e : Nat) : TCtx :=
  { c with
    s := sent c tn (homeUnit pa) (.atomic op va.toNat size pa x e dst ord (c.tk.pc % 65536).toNat),
    tk := { c.tk with
      updpend := if dst.isNone then c.tk.updpend + 1 else c.tk.updpend,
      atoms := c.tk.atoms ++ [(c.s.nextMsg, 0)], pend := c.tk.pend ++ dst.toList } }

/-- What an atomic needs to leave: an aligned address that is translated, readable, writable and at home in a slice, no live gate word
there, a destination that is free, or room in `updpend` (R261, R286, R305). -/
def atomicReady (c : TCtx) (tn : Tenure) (size : Nat) (dst : Option Opnd) (va : W64) (pa : Nat) : Prop :=
  c.s.tenures.get? c.t = some tn ∧ va.toNat < 2 ^ 57 ∧ va.toNat % size = 0 ∧
  taskXlate va.toNat true true true c = .ok (.dev pa, c) ∧ clobbers c.s (.dev pa) size = false ∧
  (∀ d, dst = some d → usable c d) ∧ (dst = none → c.tk.updpend ≠ 255)

/-- R286: the integer atomics with and without a fetched result. -/
def atomicRules : List ((Opnd → Opnd → Bool → Instr) × AtomOp) :=
  [(.atomAdd, .add), (.atomMin, .min), (.atomMax, .max), (.atomMinz, .minz), (.atomMaxz, .maxz), (.atomAnd, .and), (.atomOr, .or),
   (.atomXor, .xor)]
/-- R286: the fetch forms. -/
def atomicFetchRules : List ((Opnd → Opnd → Opnd → Bool → Bool → Instr) × AtomOp) :=
  [(.atomAddF, .add), (.atomMinF, .min), (.atomMaxF, .max), (.atomMinzF, .minz), (.atomMaxzF, .maxz), (.atomAndF, .and),
   (.atomOrF, .or), (.atomXorF, .xor), (.atomSwap, .swap)]

/-- R286: an integer atomic reads its address and its operand, at 64 bits for a double word and at 32 bits otherwise; `cas` reads the
expected value and the new one from its pair of registers; it leaves for the home of its address and completes. -/
def atomicIssues : Prop :=
  (∀ e ∈ atomicRules, ∀ (a b : Opnd) (dbl : Bool) (s : State) (c c1 c2 : TCtx) (va : W64) (x pa : Nat) (tn : Tenure),
    Starts (e.1 a b dbl) 1 s c → read64 a c = .ok (va, c1) → atomOperand b dbl c1 = .ok (x, c2) →
    atomicReady c2 tn (if dbl then 8 else 4) none va pa →
    exec (e.1 a b dbl) s = .next (completed s (atomicSent c2 tn e.2 (if dbl then 8 else 4) none false va pa x 0))) ∧
  (∀ e ∈ atomicFetchRules, ∀ (d a b : Opnd) (ord dbl : Bool) (s : State) (c c1 c2 : TCtx) (va : W64) (x pa : Nat) (tn : Tenure),
    Starts (e.1 d a b ord dbl) 1 s c → read64 a c = .ok (va, c1) → atomOperand b dbl c1 = .ok (x, c2) →
    atomicReady c2 tn (if dbl then 8 else 4) (some d) va pa →
    exec (e.1 d a b ord dbl) s = .next (completed s (atomicSent c2 tn e.2 (if dbl then 8 else 4) (some d) ord va pa x 0))) ∧
  (∀ (d a b : Opnd) (ord dbl : Bool) (s : State) (c c1 c2 c3 : TCtx) (va : W64) (x e pa : Nat) (tn : Tenure),
    Starts (.atomCas d a b ord dbl) 1 s c → read64 a c = .ok (va, c1) → atomOperand b dbl c1 = .ok (e, c2) →
    atomOperand (nextReg b) dbl c2 = .ok (x, c3) → atomicReady c3 tn (if dbl then 8 else 4) (some d) va pa →
    exec (.atomCas d a b ord dbl) s = .next (completed s (atomicSent c3 tn .cas (if dbl then 8 else 4) (some d) ord va pa x e))) ∧
  (∀ (b : Opnd) (c : TCtx), (atomOperand b true c = (read64 b c).map (fun r => (r.1.toNat, r.2))) ∧
    (atomOperand b false c = (read32 b c).map (fun r => (r.1.toNat, r.2))))

/-- R288: the floating-point atomic adds. -/
def floatAtomicIssues : Prop :=
  (∀ e ∈ [(Instr.atomFaddFp32, AtomOp.faddFp32, 4), (Instr.atomFaddBf16, AtomOp.faddBf16, 2)],
    ∀ (a b : Opnd) (s : State) (c c1 c2 : TCtx) (va : W64) (x : W32) (pa : Nat) (tn : Tenure), Starts (e.1 a b) 1 s c →
    read64 a c = .ok (va, c1) → read32 b c1 = .ok (x, c2) → atomicReady c2 tn e.2.2 none va pa →
    exec (e.1 a b) s = .next (completed s (atomicSent c2 tn e.2.1 e.2.2 none false va pa (x.toNat % 2 ^ (8 * e.2.2)) 0))) ∧
  (∀ e ∈ [(Instr.atomFaddFp32F, AtomOp.faddFp32, 4), (Instr.atomFaddBf16F, AtomOp.faddBf16, 2)],
    ∀ (d a b : Opnd) (s : State) (c c1 c2 : TCtx) (va : W64) (x : W32) (pa : Nat) (tn : Tenure), Starts (e.1 d a b) 1 s c →
    read64 a c = .ok (va, c1) → read32 b c1 = .ok (x, c2) → atomicReady c2 tn e.2.2 (some d) va pa →
    exec (e.1 d a b) s = .next (completed s (atomicSent c2 tn e.2.1 e.2.2 (some d) false va pa (x.toNat % 2 ^ (8 * e.2.2)) 0)))

/-- R286, R288: the atomics leave the cell. -/
def atomicsIssue : Prop := atomicIssues ∧ floatAtomicIssues

/-- R286: the word that an atomic leaves at its home, of a word `old` and an operand below the word's range: `size` is 4 or 8 bytes. -/
def atomicNewWord : Prop :=
  ∀ (size old x e : Nat), (size = 4 ∨ size = 8) → old < 2 ^ (8 * size) → x < 2 ^ (8 * size) → e < 2 ^ (8 * size) →
    atomNew .add size old x e = ((old + x) % 2 ^ (8 * size), 0) ∧
    atomNew .minz size old x e = (min old x, 0) ∧ atomNew .maxz size old x e = (max old x, 0) ∧
    atomNew .swap size old x e = (x, 0) ∧ atomNew .cas size old x e = (if old = e then x else old, 0) ∧
    (sextInt (atomNew .min size old x e).1 (8 * size) = min (sextInt old (8 * size)) (sextInt x (8 * size))) ∧
    (sextInt (atomNew .max size old x e).1 (8 * size) = max (sextInt old (8 * size)) (sextInt x (8 * size))) ∧
    atomNew .and size old x e = (old &&& x, 0) ∧ atomNew .or size old x e = (old ||| x, 0) ∧ atomNew .xor size old x e = (old ^^^ x, 0)

/-- R285 to R288: the atomics leave the cell, and the word that each leaves at its home.
The model's own readings in it: assumption 29. -/
def Obligations.AtomicsIssueAndResult : Prop := atomicsIssue ∧ atomicNewWord

/-- R293: the accumulates of at most 32 bits, and the format of their addends. -/
def accumulateRules : List ((BitVec 6 → Opnd → Opnd → Instr) × EFmt) :=
  [(.accFp32, .flt .fp32), (.accBf16, .flt .bf16), (.accFp16, .flt .fp16), (.accS8, .int true 8), (.accZ8, .int false 8),
   (.accS16, .int true 16), (.accZ16, .int false 16), (.accS32, .int true 32), (.accZ32, .int false 32)]

/-- The context when an accumulate has left: its partial, combined with the residual that the tile held for the word, which the tile holds
no more; `updpend` has risen, and its word is noted for the cycle (R301). -/
def accumulateSent (c : TCtx) (tn : Tenure) (wid : Nat) (va : W64) (w : WinE) (pa : Option Nat) (part : W128 × BitVec 8) : TCtx :=
  let mine (r : Residual) : Bool := r.wid == wid && r.addr == va.toNat
  let part := match c.tk.tile.find? mine with
    | some r => Aw.combine part (r.part, r.flags)
    | none => part
  { c with
    s := sent c tn (tn.winUnit w pa) (.acc wid va.toNat pa part.1 part.2),
    tk := { c.tk with
      tile := c.tk.tile.filter (fun r => !mine r), updpend := c.tk.updpend + 1
      accNow := (c.s.nowOn (tn.dieOf c.n),
        (wid, va.toNat) :: (if c.tk.accNow.1 = c.s.nowOn (tn.dieOf c.n) then c.tk.accNow.2 else [])) } }

/-- R293, R294, R298: an accumulate whose target lies in its window leaves for the window's home with its partial; `flushr` sends the
residuals of one window, `flushr.all` of every window, each raising `updpend`; a window that the graph has not raises ACC_RANGE. -/
def Obligations.AccumulateIssues : Prop :=
  (∀ e ∈ accumulateRules, ∀ (wid : BitVec 6) (a b : Opnd) (s : State) (c c1 c2 : TCtx) (va : W64) (x : W32) (w : WinE) (pa : Option Nat)
    (tn : Tenure), Starts (e.1 wid a b) 1 s c → read64 a c = .ok (va, c1) → read32 b c1 = .ok (x, c2) →
    accTarget wid.toNat va c2 = .ok ((w, pa), c2) → c2.s.tenures.get? c2.t = some tn → c2.tk.updpend ≠ 255 →
    exec (e.1 wid a b) s = .next (completed s (accumulateSent c2 tn wid.toNat va w pa (accPartial w.e0 (e.2.decode x.toNat))))) ∧
  (∀ (wid : BitVec 6) (a b : Opnd) (s : State) (c c1 c2 : TCtx) (va x : W64) (w : WinE) (pa : Option Nat)
    (tn : Tenure), Starts (.accS64 wid a b) 1 s c → read64 a c = .ok (va, c1) → read64 b c1 = .ok (x, c2) →
    accTarget wid.toNat va c2 = .ok ((w, pa), c2) → c2.s.tenures.get? c2.t = some tn → c2.tk.updpend ≠ 255 →
    exec (.accS64 wid a b) s = .next (completed s
      (accumulateSent c2 tn wid.toNat va w pa (accPartial w.e0 ((EFmt.int true 64).decode x.toNat))))) ∧
  (∀ (wid : BitVec 6) (s : State) (c c1 : TCtx) (tn : Tenure), Starts (.flushr wid) 1 s c → c.s.tenures.get? c.t = some tn →
    ((tn.win? wid.toNat).isSome → taskFlush (fun r => r.wid == wid.toNat) c = .ok ((), c1) → exec (.flushr wid) s = .next (completed s c1)) ∧
    (tn.win? wid.toNat = none →
      exec (.flushr wid) s = .next (takeTrap s s.cur.1 s.cur.2 c.tk 0x0405 (accArg wid.toNat 0) c.tk.pc))) ∧
  (∀ (s : State) (c c1 : TCtx), Starts .flushrAll 1 s c → taskFlush (fun _ => true) c = .ok ((), c1) →
    exec .flushrAll s = .next (completed s c1)) ∧
  (∀ (c : TCtx) (p : Residual → Bool) (tn : Tenure), c.s.tenures.get? c.t = some tn → c.tk.updpend.toNat + (c.tk.tile.filter p).length ≤ 255 →
    taskFlush p c = .ok ((), { c with
      s := flushList c.s c.t c.n none (tn.dieOf c.n) (c.tk.tile.filter p),
      tk := { c.tk with tile := c.tk.tile.filter (fun r => !p r), updpend := c.tk.updpend + BitVec.ofNat 8 (c.tk.tile.filter p).length } }))

/-- R276, R280, R319, R396: `xfer` hands a sound request to its lighter where that has room, its token counted; `waita` waits for the node's
own earlier accesses to its word (R273) and for host-shared writes ordered before it (assumption 36), completes at once where the word at home is not
below its least value, and otherwise registers a waiter, its node BLOCKED, what it has read kept, and completes when the word has come to meet it. Its
request and its notice are counted (assumption 23); over a die pair without a live module the request, or the notice, is lost, and the node waits for
good. -/
def transferAndWaitResult : Prop :=
  (∀ (a : Opnd) (port : BitVec 3) (s : State) (c c1 : TCtx) (u0 u1 u2 u3 : W64) (tn : Tenure), Starts (.xfer a port) 1 s c →
    xferUnits a c = .ok ((u0, u1, u2, u3), c1) → c1.s.tenures.get? c1.t = some tn →
    let q := LReq.ofUnits 0 0 c1.n u0 u1 u2 u3
    q.malformed tn = false → lighterRoom c1.s (c1.s.lighterOf tn c1.n port.toNat) = true →
    (q.tk = true → c1.tk.sbcnt[(BitVec.ofNat 3 q.sbn).toFin] ≠ 255) →
    exec (.xfer a port) s = .next (completed s { c1 with
      s := injectReq c1.s c1.t c1.n (c1.s.lighterOf tn c1.n port.toNat) u0 u1 u2 u3,
      tk := tokenTaken c1.tk q.tk (BitVec.ofNat 3 q.sbn) })) ∧
  (∀ (a b : Opnd) (s : State) (c c1 c2 : TCtx) (va : W64) (y : W32) (pa : Phys) (tn : Tenure) (tk : TaskRt), Starts (.waita a b) 1 s c →
    s.tasks.get? (key2 s.cur.1 s.cur.2) = some tk → c.tk.wait = .none →
    read64 a c = .ok (va, c1) → read32 b c1 = .ok (y, c2) → c2.s.tenures.get? c2.t = some tn → va.toNat < 2 ^ 57 → va.toNat % 8 = 0 →
    taskXlate va.toNat true false true c2 = .ok (pa, c2) → tn.watchHit 0 va.toNat 8 = none →
    let here := tn.dieOf c2.n
    let home := unitDie (physUnit pa)
    let clear := earlierIn c2.s c2.t c2.n c2.s.nextMsg (pa, 8) = false ∧ fencedOut c2.s c2.t (some c2.n) c2.s.nextMsg = false
    (¬ clear → exec (.waita a b) s = .next (waiting s tk false)) ∧
    (clear → pairLost c2.s here home = false → y.toNat ≤ leNat (memRead c2.s c2.t va.toNat pa 8) →
      exec (.waita a b) s = .next (completed s { c2 with
        s := countBoth (countBoth c2.s c2.t c2.n) c2.t c2.n, tk := { c2.tk with wait := .none } })) ∧
    (clear → pairLost c2.s here home = false → leNat (memRead c2.s c2.t va.toNat pa 8) < y.toNat →
      exec (.waita a b) s = .next { countBoth c2.s c2.t c2.n with tasks := c2.s.tasks.set (key2 s.cur.1 s.cur.2) { c2.tk with
        st := .blocked, wait := .word va.toNat ((pa.dev?).getD 0) y.toNat false } }) ∧
    (clear → pairLost c2.s here home = true →
      exec (.waita a b) s = .next { loseAccess c2.s c2.t here home with
        tasks := (loseAccess c2.s c2.t here home).tasks.set (key2 s.cur.1 s.cur.2) { c2.tk with
          st := .blocked, wait := .lost } })) ∧
  (∀ (a b : Opnd) (s : State) (c : TCtx) (va pa least : Nat) (tn : Tenure), Starts (.waita a b) 1 s c → c.tk.wait = .word va pa least true →
    c.s.tenures.get? c.t = some tn →
    (pairLost c.s (unitDie (homeUnit pa)) (tn.dieOf c.n) = false →
      exec (.waita a b) s = .next (completed s { c with s := countBoth c.s c.t c.n, tk := { c.tk with wait := .none } })) ∧
    (pairLost c.s (unitDie (homeUnit pa)) (tn.dieOf c.n) = true →
      exec (.waita a b) s = .next { loseAccess c.s c.t (unitDie (homeUnit pa)) (tn.dieOf c.n) with
        tasks := (loseAccess c.s c.t (unitDie (homeUnit pa)) (tn.dieOf c.n)).tasks.set (key2 s.cur.1 s.cur.2) { c.tk with
          st := .blocked, wait := .lost } })) ∧
  (∀ (a b : Opnd) (s : State) (c : TCtx) (va pa least : Nat) (tk : TaskRt), Starts (.waita a b) 1 s c →
    (c.tk.wait = .word va pa least false ∨ c.tk.wait = .lost) → s.tasks.get? (key2 s.cur.1 s.cur.2) = some tk →
    exec (.waita a b) s = .next (waiting s tk true))

/-! ### Synchronising instructions -/

/-- R271, R326: `wsb` completes when every token of its mask has a count of 0, the tokens' writes at the host port coming before what follows
(assumption 36), and waits while one has not; `fence.g` completes when the
node has no access in flight, no register awaiting a reply and `updpend` 0; `fence.s` too, at once where no host-shared store of the node
may be outstanding, and otherwise after a confirming read. -/
def fenceAndTokenResult : Prop :=
  (∀ (m : BitVec 8) (s : State) (c : TCtx), Starts (.wsb m) 1 s c →
    ((∀ n : Fin 8, m.getLsbD n = true → c.tk.sbcnt[n] = 0) →
      exec (.wsb m) s = .next (completed s { c with s := fenceTokens c.s c.t c.n m })) ∧
    (∀ (n : Fin 8) (tk : TaskRt), s.tasks.get? (key2 s.cur.1 s.cur.2) = some tk → m.getLsbD n = true → c.tk.sbcnt[n] ≠ 0 →
      exec (.wsb m) s = .next (waiting s tk false))) ∧
  (∀ (s : State) (c : TCtx), Starts .fenceG 1 s c → c.tk.wflags = [] → accessPending c.s c.t c.n = false → c.tk.pend = [] → c.tk.updpend = 0 →
    exec .fenceG s = .next (completed s c)) ∧
  (∀ (s : State) (c : TCtx) (tk : TaskRt), Starts .fenceG 1 s c → s.tasks.get? (key2 s.cur.1 s.cur.2) = some tk → c.tk.wflags = [] →
    (accessPending c.s c.t c.n = true ∨ c.tk.pend ≠ [] ∨ c.tk.updpend ≠ 0) → exec .fenceG s = .next (waiting s tk false)) ∧
  (∀ (s : State) (c : TCtx), Starts .fenceS 1 s c → c.tk.wflags = [] → accessPending c.s c.t c.n = false → c.tk.pend = [] → c.tk.updpend = 0 →
    (c.tk.hostDirty = false → exec .fenceS s = .next (completed s c)) ∧
    (c.tk.hostDirty = true → exec .fenceS s = .next { s with
      tasks := s.tasks.set (key2 s.cur.1 s.cur.2) { c.tk with st := .running, wait := .confirm } }))

/-- R31, R269, R276, R280, R282, R325: `xfer`, `waita`, the fences, and the scoreboard instructions.
The model's own readings in it: assumptions 23, 36. -/
def Obligations.TransferWaitFenceToken : Prop := transferAndWaitResult ∧ fenceAndTokenResult

/-- R310, R316, R325: `gate.arr` leaves for its gate once the node's accesses are complete, and the tenure's writes at the host port come before what
the opening that counts it releases (assumption 36); `gate.wait` registers a waiter with the generation that it names, its node BLOCKED while no timer of
the gate runs, completes at once where the gate has moved past that generation, and completes when a gate that it waited for has released it, what the
gate's arrivals followed coming before the node's later accesses; over a die pair without a live module its request or the report is lost, and the node
waits for good (R396); `quiet.p` and `quiet.g` ask for a wave
of their scope, and complete when it has declared quiet; `comb.send` leaves for its tree's entry with its bank's units and counts its
round. -/
def Obligations.GateQuietCombineResult : Prop :=
  (∀ (gid : BitVec 6) (a : Opnd) (s : State) (c c1 : TCtx) (x : W32) (g : Nat) (r : GateRt) (tn : Tenure), Starts (.gateArr gid a) 1 s c →
    read32 a c = .ok (x, c1) → gateByGid c1.s c1.t gid.toNat = some (g, r) → 1 ≤ x.toNat % 256 → x.toNat < 512 →
    c1.s.tenures.get? c1.t = some tn → c1.tk.wflags = [] → accessPending c1.s c1.t c1.n = false → c1.tk.pend = [] → c1.tk.updpend = 0 →
    exec (.gateArr gid a) s = .next (completed s { c1 with
      s := sent { c1 with s := markArr c1.s c1.t c1.s.nextMsg (fun _ => true) } tn (tn.sliceUnit g)
        (.gateArr g (x.toNat % 256) (bitOf x.toNat 8)) })) ∧
  (∀ (gid : BitVec 6) (a : Opnd) (s : State) (c c1 : TCtx) (e : W32) (g : Nat) (r : GateRt) (tn : Tenure), Starts (.gateWait gid a) 1 s c →
    c.s.tenures.get? c.t = some tn → c.tk.wait = .none → read32 a c = .ok (e, c1) → gateByGid c1.s c.t gid.toNat = some (g, r) →
    let lost := pairLost c1.s (tn.dieOf c.n) (tn.dieOf g)
    let r1 := { r with waiters := r.waiters ++ [(c.n, e.toNat)] }.retime (c1.s.nowOn (tn.dieOf g)) false
    (lost = false → r.gen ≠ e.toNat →
      exec (.gateWait gid a) s = .next (completed s { c1 with s := orderGate c1.s c1.t c1.n g r.gen })) ∧
    (lost = false → r.gen = e.toNat → exec (.gateWait gid a) s = .next { c1.s with
      gates := c1.s.gates.set (key2 c.t g) r1
      tasks := c1.s.tasks.set (key2 s.cur.1 s.cur.2) { c1.tk with
        st := if r1.timer.isNone then .blocked else .running, wait := .gate g e } }) ∧
    (lost = true → exec (.gateWait gid a) s = .next { loseAccess c1.s c1.t (tn.dieOf c.n) (tn.dieOf g) with
      tasks := (loseAccess c1.s c1.t (tn.dieOf c.n) (tn.dieOf g)).tasks.set (key2 s.cur.1 s.cur.2) { c1.tk with
        st := .blocked, wait := .lost } })) ∧
  (∀ (gid : BitVec 6) (a : Opnd) (s : State) (c : TCtx) (e : W32) (g : Nat) (r : GateRt) (tn : Tenure), Starts (.gateWait gid a) 1 s c →
    c.s.tenures.get? c.t = some tn → c.tk.wait = .gate g e → c.s.gates.get? (key2 c.t g) = some r → (∀ w ∈ r.waiters, w.1 ≠ c.n) →
    (pairLost c.s (tn.dieOf g) (tn.dieOf c.n) = false →
      exec (.gateWait gid a) s = .next (completed s { c with
        s := orderGate c.s c.t c.n g (e.toNat + 1), tk := { c.tk with wait := .none } })) ∧
    (pairLost c.s (tn.dieOf g) (tn.dieOf c.n) = true → exec (.gateWait gid a) s = .next { loseAccess c.s c.t (tn.dieOf g) (tn.dieOf c.n) with
      tasks := (loseAccess c.s c.t (tn.dieOf g) (tn.dieOf c.n)).tasks.set (key2 s.cur.1 s.cur.2) { c.tk with
        st := .blocked, wait := .lost } })) ∧
  (∀ e ∈ [(Instr.quietP, false), (Instr.quietG, true)], ∀ (s : State) (c : TCtx), Starts e.1 1 s c →
    (∀ g, c.tk.wait = .quiet g .quiet → exec e.1 s = .next (completed s { c with tk := { c.tk with wait := .none } })) ∧
    (c.tk.wait = .none → exec e.1 s = .next { s with
      tasks := s.tasks.set (key2 s.cur.1 s.cur.2) { c.tk with st := .running, wait := .quiet e.2 .asked } })) ∧
  (∀ (a b : Opnd) (s : State) (c c1 c2 : TCtx) (x : W32) (y : W64) (tn : Tenure) (tr : TreeE) (parent slot : Nat),
    Starts (.combSend a b) 1 s c → read32 a c = .ok (x, c1) → read64 b c1 = .ok (y, c2) → c2.s.tenures.get? c2.t = some tn →
    tn.tree? (x.toNat % 65536) = some tr → tr.leaves[x.toNat / 65536]? = some (c2.n, parent, slot) →
    0 ≤ y.toInt → y.toInt + 8 * tr.ulen ≤ c2.tk.bankBytes → y.toInt % 8 = 0 →
    let round := c2.tk.rounds.getD (65536 * (x.toNat % 65536) + x.toNat / 65536) 0
    pathHolds c2.s c2.t tr parent round = false →
    exec (.combSend a b) s = .next (completed s { c2 with
      s := sent c2 tn (tn.combUnit (x.toNat % 65536) parent)
        (.contrib (x.toNat % 65536) parent slot round (bankUnits c2.tk.bank y.toInt.toNat tr.ulen) none),
      tk := { c2.tk with rounds := c2.tk.rounds.set (65536 * (x.toNat % 65536) + x.toNat / 65536) (round + 1) } }))


/-! ### Passage programs -/

/-- The lockkeeper of tenure `t` at word `pc`, waiting for nothing. -/
def passageAt (s : State) (t pc : Nat) : State :=
  s.modTenure t (fun tn => { tn with lk := { tn.lk with lpc := BitVec.ofNat 16 pc }, lkWait := .none, lkBlocked := false })

/-- The lockkeeper of the current tenure runs an instruction of `len` words, and there can be a word after it (R352). -/
def atPassage (s : State) (tn : Tenure) (len : Nat) : Prop := s.tenures.get? s.cur.1 = some tn ∧ tn.lk.lpc.toNat + len < 65536

/-- A register file of the lockkeeper changed. -/
def withLk (s : State) (f : Lockkeeper → Lockkeeper) : State := s.modTenure s.cur.1 (fun tn => { tn with lk := f tn.lk })

/-- R355: `jmp` goes to its target; `count` sets a counter; `dec.jnz` decrements it modulo 2^20 and jumps while it is not 0; `wave` sets
`wper`. Nothing else changes. -/
def passageCountersAndJumps : Prop :=
  (∀ (x : BitVec 16) (s : State) (tn : Tenure), atPassage s tn 1 → exec (.jmp x) s = .next (passageAt s s.cur.1 x.toNat)) ∧
  (∀ (k : BitVec 2) (v : BitVec 20) (s : State) (tn : Tenure), atPassage s tn 1 →
    exec (.count k v) s = .next (passageAt (withLk s (fun l => l.setCounter k v)) s.cur.1 (tn.lk.lpc.toNat + 1))) ∧
  (∀ (k : BitVec 2) (x : BitVec 16) (s : State) (tn : Tenure), atPassage s tn 1 →
    exec (.decJnz k x) s = .next (passageAt (withLk s (fun l => l.setCounter k (tn.lk.counter k - 1))) s.cur.1
      (if tn.lk.counter k - 1 ≠ 0 then x.toNat else tn.lk.lpc.toNat + 1))) ∧
  (∀ (p : BitVec 17) (s : State) (tn : Tenure), atPassage s tn 1 →
    exec (.wave p) s = .next (passageAt (withLk s (fun l => { l with wper := p })) s.cur.1 (tn.lk.lpc.toNat + 1))) ∧
  (∀ (l : Lockkeeper) (j k : BitVec 2) (v : BitVec 20), (l.setCounter k v).counter j = if j = k then v else l.counter j)

/-- R354, R355, R368: `setp` sets a predicate and marks it valid; `choose` consumes a valid predicate and jumps on its value, or on its inverse; a
record for its predicate that stands at its channel is applied first;
`waitp` waits for one and consumes nothing; while it is not valid both wait, the lockkeeper counting as one blocked node. -/
def passagePredicates : Prop :=
  (∀ (v : Bool) (m : BitVec 3) (s : State) (tn : Tenure), atPassage s tn 1 →
    exec (.setp v m) s = .next (passageAt (withLk s (fun l =>
      { l with qval := putBit l.qval m v, qvalid := putBit l.qvalid m true })) s.cur.1 (tn.lk.lpc.toNat + 1))) ∧
  (∀ (neg : Bool) (m : BitVec 3) (x : BitVec 16) (s : State) (tn : Tenure), atPassage s tn 1 → predicateAhead s s.cur.1 tn m.toNat = false →
    tn.lk.qvalid.getLsbD m.toNat = true → exec (.choose neg m x) s = .next (passageAt (withLk s (fun l => { l with qvalid := putBit l.qvalid m false })) s.cur.1
      (if tn.lk.qval.getLsbD m.toNat ≠ neg then x.toNat else tn.lk.lpc.toNat + 1))) ∧
  (∀ (neg : Bool) (m : BitVec 3) (x : BitVec 16) (s : State) (tn : Tenure), atPassage s tn 1 → predicateAhead s s.cur.1 tn m.toNat = false →
    tn.lk.qvalid.getLsbD m.toNat = false → exec (.choose neg m x) s = .next (s.modTenure s.cur.1 (fun tn => { tn with lkBlocked := true }))) ∧
  (∀ (neg : Bool) (m : BitVec 3) (x : BitVec 16) (s : State) (tn : Tenure), atPassage s tn 1 → predicateAhead s s.cur.1 tn m.toNat = true →
    exec (.choose neg m x) s = .next s) ∧
  (∀ (m : BitVec 3) (s : State) (tn : Tenure), atPassage s tn 1 → tn.lk.qvalid.getLsbD m.toNat = true →
    exec (.waitp m) s = .next (passageAt s s.cur.1 (tn.lk.lpc.toNat + 1))) ∧
  (∀ (m : BitVec 3) (s : State) (tn : Tenure), atPassage s tn 1 → tn.lk.qvalid.getLsbD m.toNat = false →
    exec (.waitp m) s = .next (s.modTenure s.cur.1 (fun tn => { tn with lkBlocked := true }))) ∧
  (∀ (x : BitVec 8) (m n : BitVec 3) (b : Bool), (putBit x m b).getLsbD n.toNat = if n = m then b else x.getLsbD n.toNat)

/-- R354, R355: jumps, counters and predicates of a passage program. -/
def Obligations.PassageCountersAndPredicates : Prop := passageCountersAndJumps ∧ passagePredicates

/-- R355, R360, R362: `ireload` is an instruction of a lock, and PASSAGE_STATE out of one; `yield` is remembered where there is a ready
partner; `watch` arms a watchpoint, its base that of the argument block where it says so, and `unwatch` disarms it. -/
def passageReloadYieldWatch : Prop :=
  (∀ (s : State) (tn : Tenure), atPassage s tn 1 →
    (tn.lk.lstate = 2 → exec .ireload s = .next (passageAt (withLk s (fun l => { l with ireq := l.ireq ||| 1 })) s.cur.1 (tn.lk.lpc.toNat + 1))) ∧
    (tn.lk.lstate ≠ 2 → exec .ireload s = .next (engineFault s s.cur.1 0x0600 9 0xFFFFFF 0xFF (tn.lk.lpc.setWidth 64)))) ∧
  (∀ (s : State) (tn : Tenure), atPassage s tn 1 →
    (tn.partner = none → exec .yield_ s = .next (passageAt s s.cur.1 (tn.lk.lpc.toNat + 1))) ∧
    (∀ p, tn.partner = some p → ready s p = true → exec .yield_ s =
      .next (passageAt (s.modTenure s.cur.1 (fun x => { x with yielded := true })) s.cur.1 (tn.lk.lpc.toNat + 1)))) ∧
  (∀ (w : BitVec 2) (rd wr at_ arg : Bool) (base : BitVec 57) (units : BitVec 16) (mask : BitVec 8) (s : State) (tn : Tenure),
    atPassage s tn 4 → exec (.watch w rd wr at_ arg base units mask) s =
      .next (passageAt (s.modTenure s.cur.1 (fun x => { x with watch := x.watch.set w.toNat (some
        { rd := rd, wr := wr, at_ := at_, base := if arg then tn.argWord base.toNat else base.toNat, units := units.toNat + 1, mask := mask }) }))
        s.cur.1 (tn.lk.lpc.toNat + 4))) ∧
  (∀ (w : BitVec 2) (s : State) (tn : Tenure), atPassage s tn 1 → exec (.unwatch w) s =
    .next (passageAt (s.modTenure s.cur.1 (fun x => { x with watch := x.watch.set w.toNat none })) s.cur.1 (tn.lk.lpc.toNat + 1)))

/-- A channel of the graph whose pound is not entered: what a `bind` needs (R358). -/
def bindable (tn : Tenure) (c : Nat) : Prop := ∃ e, tn.g.chans[c]? = some e ∧ ¬ (tn.lk.lstate = 1 ∧ tn.chanPound e = tn.lk.lpound.toNat)

/-- R358: each `bind` sets its channel's binding, and frees the virtual queue that was bound to the channel; a queue of the tenure's process
and of the right direction that no port holds is bound to the channel; BIND_QUEUE for one that does not exist, BIND_BUSY for one that is
bound to another port. -/
def passageBinds : Prop :=
  (∀ (c : BitVec 24) (off : BitVec 28) (len : BitVec 32) (s : State) (tn : Tenure), atPassage s tn 3 → bindable tn c.toNat →
    exec (.bindArg c off len) s = .next (passageAt (setBind s s.cur.1 c.toNat (.arg off.toNat len.toNat)) s.cur.1 (tn.lk.lpc.toNat + 3))) ∧
  (∀ (c : BitVec 24) (port : BitVec 28) (s : State) (tn : Tenure), atPassage s tn 3 → bindable tn c.toNat →
    exec (.bindXfer c port) s = .next (passageAt (setBind s s.cur.1 c.toNat (.xfer port.toNat)) s.cur.1 (tn.lk.lpc.toNat + 3))) ∧
  (∀ (c : BitVec 24) (port : BitVec 28) (wid : BitVec 32) (s : State) (tn : Tenure), atPassage s tn 3 → bindable tn c.toNat →
    exec (.bindAccs c port wid) s = .next (passageAt (setBind s s.cur.1 c.toNat (.accs port.toNat wid.toNat)) s.cur.1 (tn.lk.lpc.toNat + 3))) ∧
  (∀ (c : BitVec 24) (x : BitVec 28) (a b : BitVec 4) (s : State) (tn : Tenure), atPassage s tn 3 → bindable tn c.toNat →
    exec (.bindXf c x a b) s =
      .next (passageAt (setBind s s.cur.1 c.toNat (.xf x.toNat (a.toNat + 1) (b.toNat + 1))) s.cur.1 (tn.lk.lpc.toNat + 3))) ∧
  (∀ (c : BitVec 24) (m : BitVec 28) (s : State) (tn : Tenure), atPassage s tn 3 → bindable tn c.toNat →
    exec (.bindPred c m) s = .next (passageAt (setBind s s.cur.1 c.toNat (.pred m.toNat)) s.cur.1 (tn.lk.lpc.toNat + 3))) ∧
  (∀ (c : BitVec 24) (off : BitVec 28) (s : State) (tn : Tenure), atPassage s tn 3 → bindable tn c.toNat →
    let id := tn.argWord off.toNat % 4294967296
    (∀ q, s.vqs.get? id = some q → q.pasid = tn.pasid → q.output = extDst tn.g c.toNat → q.bridgeLost = false → q.bound = none →
      exec (.bindVq c off) s = .next (passageAt { setBind s s.cur.1 c.toNat (.vq id) with
        vqs := (setBind s s.cur.1 c.toNat (.vq id)).vqs.modify id (fun q => { q with bound := some (s.cur.1, c.toNat), counted := 0 }) }
        s.cur.1 (tn.lk.lpc.toNat + 3))) ∧
    (s.vqs.get? id = none → exec (.bindVq c off) s = .next (engineFault s s.cur.1 0x0602 9 0xFFFFFF 0xFF (BitVec.ofNat 64 c.toNat))) ∧
    (∀ q p, s.vqs.get? id = some q → q.pasid = tn.pasid → q.output = extDst tn.g c.toNat → q.bridgeLost = false → q.bound = some p →
      p ≠ (s.cur.1, c.toNat) → exec (.bindVq c off) s = .next (engineFault s s.cur.1 0x0601 9 0xFFFFFF 0xFF (BitVec.ofNat 64 c.toNat))))

/-- R340, R355, R358, R360, R380: `ireload`, `yield`, the watchpoints, and the bindings of external ends.
The model's own readings in it: assumption 51. -/
def Obligations.PassageReloadWatchBind : Prop := passageReloadYieldWatch ∧ passageBinds

/-- The lockkeeper reaches the ranges `rs`: each is translated, and no host-shared write that comes before its accesses is still to be performed
in host memory (R338, R340). -/
def reached (s : State) (tn : Tenure) (rs : List MemRange) : Prop :=
  (∃ ps, rangesReady s s.cur.1 tn.pasid rs = .ok ps) ∧ (rs = [] ∨ fencedOut s s.cur.1 (some extEnd) s.nextMsg = false)

/-- R356: `enter`, every external end bound, first begins its own load of its pound where it has none (or where the hint named another pound,
or a reload is asked for), waits until that load has committed, and then, its memory reached, switches the planes; within a pound, or with
an end unbound, it raises PASSAGE_STATE. -/
def passageEnter : Prop :=
  (∀ (k : BitVec 12) (s : State) (tn : Tenure), atPassage s tn 1 → tn.lk.lstate ≠ 1 → endsBound tn k.toNat = true →
    (tn.load = none → exec (.enter k) s =
      .next (readLoad (s.modTenure s.cur.1 (fun x => { x with load := none, lkWait := .begun })) s.cur.1 k.toNat 0)) ∧
    (tn.lkWait ≠ .begun → (tn.lk.lhint.toNat ≠ k.toNat ∨ tn.lk.ireq ≠ 0) → exec (.enter k) s =
      .next (readLoad (s.modTenure s.cur.1 (fun x => { x with load := none, lkWait := .begun })) s.cur.1 k.toNat 0))) ∧
  (∀ (k : BitVec 12) (s : State) (tn : Tenure) (l : Load), atPassage s tn 1 → tn.lk.lstate ≠ 1 → endsBound tn k.toNat = true →
    tn.load = some l → (tn.lkWait = .begun ∨ tn.lk.lhint.toNat = k.toNat ∧ tn.lk.ireq = 0) →
    (l.committed = false → exec (.enter k) s = .next s) ∧
    (l.committed = true → reached s tn (entryRanges tn l) →
      exec (.enter k) s = .next (passageAt (switchPound s s.cur.1 tn l) s.cur.1 (tn.lk.lpc.toNat + 1)))) ∧
  (∀ (k : BitVec 12) (s : State) (tn : Tenure), atPassage s tn 1 → (tn.lk.lstate = 1 ∨ endsBound tn k.toNat = false) →
    exec (.enter k) s = .next (engineFault s s.cur.1 0x0600 9 0xFFFFFF 0xFF (tn.lk.lpc.setWidth 64)))

/-- The records that the bound argument ranges of a pound inject: those that fit the channel's width (R35, R233). -/
def boundRecords (tn : Tenure) (pound : Nat) : Nat :=
  ((tn.g.chans.zipIdx.filter (fun e => tn.chanPound e.1 == pound)).map (fun e => match tn.binds.get? e.2 with
    | some (.arg off len) => (match argRecords tn.args off len with
      | .ok rs => (rs.filter (fun r => decide (hLen r.hdr ≤ e.1.width))).length
      | .error _ => 0)
    | _ => 0)).sum

/-- R356: what the plane switch leaves in the lockkeeper and the tenure: the pound is the entered one, nothing is hinted, no reload is asked
for, the load has been used up, the pound's cycles count from now, and each record of a bound argument range counts as injected. -/
def switchedTenure : Prop :=
  ∀ (s : State) (t : Nat) (tn : Tenure) (l : Load), s.tenures.get? t = some tn →
    ∃ x, (switchPound s t tn l).tenures.get? t = some x ∧
      x.lk = { tn.lk with lpound := BitVec.ofNat 16 l.place.pound, lstate := 1, lhint := 0xFFFF, ireq := 0 } ∧
      x.place = some l.place ∧ x.load = none ∧ x.enteredAt = s.clk ∧ x.haltedStreams = [] ∧ x.streamCache = [] ∧ x.fin0 = true ∧
      x.iP = tn.iP + BitVec.ofNat 32 (boundRecords tn l.place.pound) ∧ x.cP = tn.cP ∧ x.cG = tn.cG

/-- The parity of a tap with node word `w`: bit 0 of the generation of the gate that its locator names; no other operator has one (R309). -/
def tapParity (s : State) (t w : Nat) : Bool :=
  match (gateAt s t (bitsOf w 32 32)).bind (fun n => s.gates.get? (key2 t n)) with
  | some g => if wOp w = 0x37 then bitOf g.gen 0 else false
  | none => false

/-- R356, R157, R236, R309: what the plane switch leaves in the fabric: each node and channel of the entered pound in its entry state, from the
words and the formats of the load, and no node or channel of another pound of the tenure. -/
def switchedPlane : Prop :=
  ∀ (s : State) (t : Nat) (tn : Tenure) (l : Load), tn.g.nodes.length ≤ 2 ^ 24 → tn.g.chans.length ≤ 2 ^ 24 →
    let s' := switchPound s t tn l
    (∀ n x, tn.g.nodes[n]? = some x →
      s'.tasks.get? (key2 t n) = (if x.pound = l.place.pound ∧ x.kind = 0 then
        some (TaskRt.entry (codeOf x ((l.words.get? n).getD [])) (x.bank * 256) (l.fmts.getD n (tn.g.fmts.getD n Fmt.zero)) (inChans tn.g n)
          (outChans tn.g n) (trigPort tn.g n)) else none) ∧
      s'.opers.get? (key2 t n) = (if x.pound = l.place.pound ∧ x.kind = 1 then
        some { OperRt.entry tn.g n (l.word n) (l.fmts.getD n (tn.g.fmts.getD n Fmt.zero)) with par := tapParity s' t (l.word n) } else none) ∧
      s'.gens.get? (key2 t n) = (if x.pound = l.place.pound ∧ x.kind = 2 then
        some (GenRt.entry tn.g n x ((l.words.get? n).getD []) (l.fmts.getD n (tn.g.fmts.getD n Fmt.zero))) else none) ∧
      s'.ctrls.get? (key2 t n) = (if x.pound = l.place.pound ∧ x.kind = 3 then some (CtrlRt.entry tn.g n (l.word n) (l.fmts.getD n (tn.g.fmts.getD n Fmt.zero))) else none) ∧
      s'.mats.get? (key2 t n) = (if x.pound = l.place.pound ∧ x.kind = 4 then
        some (MatRt.entry tn.g n (l.word n) (l.fmts.getD n (tn.g.fmts.getD n Fmt.zero))) else none)) ∧
    (∀ c e, tn.g.chans[c]? = some e →
      (tn.chanPound e ≠ l.place.pound → s'.chans.get? (key2 t c) = none) ∧
      (tn.chanPound e = l.place.pound → ∃ feed, s'.chans.get? (key2 t c) = some { ChanRt.entry e with feed := feed } ∧
        ((∀ off len, tn.binds.get? c ≠ some (.arg off len)) → feed = []) ∧
        (∀ off len rs, tn.binds.get? c = some (.arg off len) → argRecords tn.args off len = .ok rs →
          feed = rs.filter (fun r => decide (hLen r.hdr ≤ e.width)))))

/-- R357: what leaving a pound leaves of it: no node, channel, gate, window or combine entry of the tenure. The parts of every other tenure are
as they were. -/
def leftPlane : Prop :=
  ∀ (s : State) (t u n : Nat), n < 2 ^ 24 →
    let s' := leavePound s t
    (s'.tasks.get? (key2 u n) = if u = t then none else s.tasks.get? (key2 u n)) ∧
    (s'.opers.get? (key2 u n) = if u = t then none else s.opers.get? (key2 u n)) ∧
    (s'.gens.get? (key2 u n) = if u = t then none else s.gens.get? (key2 u n)) ∧
    (s'.ctrls.get? (key2 u n) = if u = t then none else s.ctrls.get? (key2 u n)) ∧
    (s'.mats.get? (key2 u n) = if u = t then none else s.mats.get? (key2 u n)) ∧
    (s'.chans.get? (key2 u n) = if u = t then none else s.chans.get? (key2 u n)) ∧
    (s'.gates.get? (key2 u n) = if u = t then none else s.gates.get? (key2 u n)) ∧
    (s'.wins.get? (key2 u n) = if u = t then none else s.wins.get? (key2 u n)) ∧
    (∀ k, s'.combs.get? k = if combKeyT k = t then none else s.combs.get? k) ∧
    s'.devMem = s.devMem ∧ s'.hostMem = s.hostMem

/-- R291, R292, R304: the bytes that a lock or `settle` writes. A window's image holds each word and its flag byte where R291 places them, and
every byte that belongs to none of them as it was; a gate word holds arrived, early and gen. -/
def writtenBack : Prop :=
  (∀ (old : List Byte) (count : Nat) (word : Nat → Aw) (i : Nat), old.length = 256 * ceilDiv count 15 →
    (winImage old count word).length = old.length ∧ (i < count → imageAw (winImage old count word) i = word i) ∧
    (count ≤ i → imageAw (winImage old count word) i = imageAw old i) ∧
    (i % 256 = 255 → (winImage old count word)[i]? = old[i]?)) ∧
  (∀ g : GateRt, g.arrived < 2 ^ 16 → g.early < 2 ^ 16 → g.gen < 2 ^ 32 →
    g.wordBytes.length = 16 ∧ bitsOf (leNat g.wordBytes) 0 16 = g.arrived ∧ bitsOf (leNat g.wordBytes) 16 16 = g.early ∧
    bitsOf (leNat g.wordBytes) 32 32 = g.gen ∧ bitsOf (leNat g.wordBytes) 64 64 = 0)

/-- The ranges that leaving a pound reaches: those of its windows, and its gate words. -/
def leavingRanges (s : State) (tn : Tenure) : List MemRange :=
  tn.leavingWins.flatMap (publishRanges tn true) ++ (gateImages s s.cur.1 tn).map (fun g => (g.gaddr, 16, true))

/-- The lockkeeper has not asked for a wave yet. -/
def notAsked (tn : Tenure) : Prop := ∀ g v, tn.lkWait ≠ .quiet g v

/-- R325, R355, R357, R359: `quiet`, a `lock` and `settle`, in the entered pound alone, ask for a wave: `lock` and `settle` of graph scope with
the residuals flushed first, `lock` behind the root's final Done. While the wave runs they wait. When it has declared quiet, and the memory
they write is reached, `quiet` goes on, a `lock` writes the pound's windows and gates back and leaves it, and `settle` publishes its window
and stays. Out of a pound they raise PASSAGE_STATE, and so does `settle` of a local window in a pound that is not its own. -/
def passageQuietLockSettle : Prop :=
  (∀ (p : Bool) (s : State) (tn : Tenure), atPassage s tn 1 → tn.lk.lstate = 1 →
    (notAsked tn → exec (.quiet p) s = .next (s.modTenure s.cur.1 (fun x => { x with lkWait := .quiet (!p) .asked }))) ∧
    (∀ g v, tn.lkWait = .quiet g v → v ≠ .quiet → exec (.quiet p) s = .next s) ∧
    (∀ g, tn.lkWait = .quiet g .quiet → exec (.quiet p) s = .next (passageAt s s.cur.1 (tn.lk.lpc.toNat + 1)))) ∧
  (∀ (hv : Bool) (k : BitVec 12) (s : State) (tn : Tenure), atPassage s tn 1 → tn.lk.lstate = 1 → notAsked tn →
    ((hv = true → tn.lkWait ≠ .none) →
      (rootsDone s s.cur.1 = false → exec (.lock hv k) s = .next s) ∧
      (rootsDone s s.cur.1 = true → exec (.lock hv k) s =
        .next ((flushTiles s s.cur.1).modTenure s.cur.1 (fun x => { x with lkWait := .quiet true .asked })))) ∧
    (hv = true → tn.lkWait = .none →
      let hinted := s.modTenure s.cur.1 (fun x => { x with lk := { x.lk with lhint := BitVec.ofNat 16 k.toNat }, lkWait := .begun })
      (tn.partner ≠ none ∨ tn.lk.lhint.toNat = k.toNat ∧ tn.load ≠ none → exec (.lock hv k) s = .next hinted) ∧
      (tn.partner = none → (tn.lk.lhint.toNat ≠ k.toNat ∨ tn.load = none) → exec (.lock hv k) s =
        .next (readLoad (hinted.modTenure s.cur.1 (fun x => { x with load := none, codePage := none })) s.cur.1 k.toNat 0)))) ∧
  (∀ (hv : Bool) (k : BitVec 12) (s : State) (tn : Tenure), atPassage s tn 1 → tn.lk.lstate = 1 →
    (∀ g v, tn.lkWait = .quiet g v → v ≠ .quiet → exec (.lock hv k) s = .next s) ∧
    (∀ g, tn.lkWait = .quiet g .quiet → reached s tn (leavingRanges s tn) →
      exec (.lock hv k) s = .next (passageAt ((leavePound (keepLeft (wakeWaiters (writeGates s.cur.1 tn.pasid (gateImages s s.cur.1 tn)
        (publish s.cur.1 tn true tn.leavingWins s))) s.cur.1 tn) s.cur.1).modTenure s.cur.1 (fun x => { x with lk := { x.lk with lstate := 2 } }))
        s.cur.1 (tn.lk.lpc.toNat + 1)))) ∧
  (∀ (w : BitVec 6) (x : WinE) (s : State) (tn : Tenure), atPassage s tn 1 → tn.lk.lstate = 1 →
    tn.g.wins.find? (fun e => e.wid == w.toNat) = some x → (x.isLocal = true → x.pound = tn.lk.lpound.toNat) →
    (notAsked tn → exec (.settle w) s =
      .next ((flushTiles s s.cur.1).modTenure s.cur.1 (fun x => { x with lkWait := .quiet true .asked }))) ∧
    (∀ g v, tn.lkWait = .quiet g v → v ≠ .quiet → exec (.settle w) s = .next s) ∧
    (∀ g, tn.lkWait = .quiet g .quiet → reached s tn (publishRanges tn true x) →
      exec (.settle w) s = .next (passageAt (wakeWaiters (publish s.cur.1 tn true [x] s)) s.cur.1 (tn.lk.lpc.toNat + 1)))) ∧
  (∀ (p hv : Bool) (k : BitVec 12) (w : BitVec 6), ∀ i ∈ [Instr.quiet p, .lock hv k, .settle w], ∀ (s : State) (tn : Tenure), atPassage s tn 1 →
    tn.lk.lstate ≠ 1 → exec i s = .next (engineFault s s.cur.1 0x0600 9 0xFFFFFF 0xFF (tn.lk.lpc.setWidth 64))) ∧
  (∀ (w : BitVec 6) (x : WinE) (s : State) (tn : Tenure), atPassage s tn 1 → tn.lk.lstate = 1 →
    tn.g.wins.find? (fun e => e.wid == w.toNat) = some x → x.isLocal = true → x.pound ≠ tn.lk.lpound.toNat →
    exec (.settle w) s = .next (engineFault s s.cur.1 0x0600 9 0xFFFFFF 0xFF (tn.lk.lpc.setWidth 64)))

/-- R325, R355 to R357, R359: `enter`, `quiet`, the locks and `settle`, what the plane switch and leaving a pound do to the tenure and to the
fabric, and the bytes that are written back.
The model's own readings in it: assumptions 10, 36, 46, 56, 75. -/
def Obligations.PassageEnterAndLeave : Prop :=
  (passageEnter ∧ switchedTenure ∧ switchedPlane) ∧ passageQuietLockSettle ∧ leftPlane ∧ writtenBack

/-- R66: a completion of command `c` with index `idx`: word 0 without its phase bit, the result, the detail, and word 3. -/
def completionOf (c : Cmd) (idx status : Nat) (result detail : W64) (w3hi : Nat) (fin joined : Bool) : Cpl :=
  { cmd := idx, word0 := BitVec.ofNat 64 (bitsOf (c.w 0) 32 32 + status % 65536 * 2 ^ 32 + c.op * 2 ^ 48 + (if fin then 2 ^ 56 else 0)),
    result := result, detail := detail, word3 := BitVec.ofNat 64 (idx % 2 ^ 32 + w3hi * 2 ^ 32), fin := fin, irq := fin && bitOf (c.w 0) 10,
    after := none, joined := joined }

/-- R65, R66, R77, R366: what retirement leaves. The tenure is gone; each virtual queue that it had bound is free and keeps its records; the
subtrees that it alone held drain from now on (with a partner, its plane does); and its LAUNCH has the completion with fin = 1, the status, the
result and the detail, and the OR of its home flags, immediately behind the one with fin = 0 where that is still due. -/
def retiredTo (s s' : State) (t : Nat) (tn : Tenure) (status : Nat) (result detail : W64) : Prop :=
  s'.tenures.get? t = none ∧
  (∀ id q, s.vqs.get? id = some q → s'.vqs.get? id = some (match q.bound with
    | some (o, _) => if o = t then { q with bound := none, counted := 0 } else q
    | none => q)) ∧
  (∀ r, tn.region = some r → ∀ k ∈ r.subtrees, (s.sub k).owners = [t] → (s'.sub k).st = .draining ∧ (s'.sub k).since = subNow s k) ∧
  (∀ r p, tn.region = some r → tn.partner = some p →
    s'.planes.get? r.first = some { region := r, t := t, zeroing := false, bound := s.nextMsg, since := s.nowOn tn.baseDie }) ∧
  (∀ x c, s.queues.get? tn.queue = some x → x.cmd? tn.cmd = some c → ∃ y, s'.queues.get? tn.queue = some y ∧
    y.pending = x.pending ++ (if tn.fin0 then [] else [completionOf c tn.cmd 0 (BitVec.ofNat 64 tn.handle) 0 0 false false]) ++
      [completionOf c tn.cmd status result detail tn.homeOr.toNat true (!tn.fin0)])

/-- No gate of tenure `t` is live (R305). -/
def dropGates (t : Nat) (s : State) : State := { s with gates := dropParts s.gates t }

/-- R366: the course of an instruction that retires its tenure. In an entered pound it waits for the root's final Done, flushes the residuals
and asks for a wave of graph scope; quiet, or out of a pound at once, it writes the windows and gates back, with which its gates are live no more (R305), and awaits the confirming
read; then it retires the tenure. -/
def retireCourse (i : Instr) (status : Nat) (result detail : Tenure → W64) : Prop :=
  ∀ (s : State) (tn : Tenure), s.tenures.get? s.cur.1 = some tn →
    (tn.lk.lstate ≠ 2 → tn.lkWait = .none →
      (rootsDone s s.cur.1 = false → exec i s = .next s) ∧
      (rootsDone s s.cur.1 = true → exec i s =
        .next ((flushTiles s s.cur.1).modTenure s.cur.1 (fun x => { x with lkWait := .quiet true .asked })))) ∧
    (∀ g v, tn.lk.lstate ≠ 2 → tn.lkWait = .quiet g v → v ≠ .quiet → exec i s = .next s) ∧
    ((tn.lk.lstate = 2 ∧ tn.lkWait = .none ∨ tn.lk.lstate ≠ 2 ∧ ∃ g, tn.lkWait = .quiet g .quiet) →
      reached s tn (leavingRanges s tn) →
      exec i s = .next ((dropGates s.cur.1 (wakeWaiters (writeGates s.cur.1 tn.pasid (gateImages s s.cur.1 tn)
        (publish s.cur.1 tn true tn.leavingWins s)))).modTenure s.cur.1 (fun x => { x with lkWait := .confirm }))) ∧
    (tn.lkWait = .confirm → exec i s = .next s) ∧
    (tn.lkWait = .begun → ∃ s', exec i s = .next s' ∧ retiredTo s s' s.cur.1 tn status (result tn) (detail tn))

/-- R366, R355: `done` completes the LAUNCH with OK, the handle as its result and detail 0, `fault` with USER_FAULT, its value, and the value
with the pound above it; and the tenure leaves. The model's own readings in it: assumptions 36, 45, and
74 for the detail of `fault`. -/
def Obligations.PassageRetires : Prop :=
  retireCourse .done 0 (fun tn => BitVec.ofNat 64 tn.handle) (fun _ => 0) ∧
  (∀ v : BitVec 16, retireCourse (.fault v) 0x0603 (fun _ => v.setWidth 64)
    (fun tn => BitVec.ofNat 64 (v.toNat + tn.lk.lpound.toNat * 2 ^ 24)))

/-! ### Host queues, host registers and the governors -/

/-- R59 to R62, R386: a kick within the ring sets KICK_TAIL and the announced entries are read, oldest first; one beyond it puts the queue in
the error state with BAD_COMMAND, and in the error state nothing is read; CPL_HEAD takes the value written; a submitted CREATE_QUEUE
makes a queue with its kick page at reset in a free slot, on a queue processor that is in use, for a sound descriptor and while a slot is
free, before Dawn 3 completes with the
not-ready status, and before Dawn 1, or not submitted, does nothing; DESTROY_QUEUE removes one, whose
page requests find no one any more; MBOX_DOOR takes the value written, and 0 with
each answer. -/
def hostQueueRegisters : Prop :=
  (∀ (s : State) (q : Nat) (v : W32) (x : QueueRt), s.subj = .write q v → s.powered = true → s.queues.get? q = some x →
    let s1 := s.modQueue q (fun y => { y with kickTail := v })
    (x.failed = false → 2 ^ x.cmdlog < (v - x.head).toNat → exec .kickTailWrite s = .next (queueError s1 q 0x0001)) ∧
    (x.failed = false → (v - x.head).toNat ≤ 2 ^ x.cmdlog → exec .kickTailWrite s = .next (fetchRing s1 q)) ∧
    (x.failed = true → exec .kickTailWrite s = .next s1) ∧
    exec .cplHeadWrite s = .next (s.modQueue q (fun y => { y with cplHead := v }))) ∧
  (∀ (s : State) (q : Nat) (x : QueueRt) (parts : List (Phys × Nat)), s.queues.get? q = some x → x.failed = false →
    x.kickTail = x.head + 1 → hostRange s (.ring q) x.pasid (x.cmdva + x.head.toNat % 2 ^ x.cmdlog * 64) 64 false = .ok parts →
    fetchRing s q = s.modQueue q (fun y => { y with
      head := y.head + 1, cmds := y.cmds ++ [{
        idx := x.head.toNat, words := wordsOf (readParts s parts) 8, st := .waiting,
        since := if x.cmds.any (fun c => c.st == .waiting) then 0 else s.nowNs, args := none }] })) ∧
  (∀ (x : QueueRt) (s : State) (q cause : Nat), s.queues.get? q = some x → cause < 65536 →
    ∃ y, (queueError s q cause).queues.get? q = some y ∧ y.status.toNat % 4 = 2 ∧ y.status.toNat / 65536 = cause ∧
      (∀ c ∈ y.cmds, c.st ≠ .waiting)) ∧
  (∀ (s : State) (desc : BitVec 512) (die : Nat), s.subj = .newQueue desc die →
    (mboxSubmitted s = true → s.stage = 3 →
      (∀ slot, freeSlot? s = some slot → descOk desc.toNat = true → s.enabled 6 4 ≠ 0 → exec .createQueue s = .next (mboxAnswer { s with
        queues := s.queues.set (freshId s.queues s.nextQueue) (QueueRt.create desc.toNat (die % s.enabled 6 4) slot),
        nextQueue := (freshId s.queues s.nextQueue + 1) % 2 ^ 32 } .ok)) ∧
      (freeSlot? s = none ∨ descOk desc.toNat = false ∨ s.enabled 6 4 = 0 → exec .createQueue s = .next (mboxAnswer s .refused))) ∧
    (mboxSubmitted s = true → s.stage ≠ 3 → exec .createQueue s = .next (mboxAnswer s .notReady)) ∧
    (mboxSubmitted s = false → exec .createQueue s = .next s)) ∧
  (∀ s : State, s.powered = true → (mboxSubmitted s = true ↔ s.mboxDoor = 1 ∧ s.stage ≠ 0)) ∧
  (∀ (s : State) (k : Nat), freeSlot? s = some k → k < 16384 ∧ ∀ e ∈ s.queues, e.2.slot ≠ k) ∧
  (∀ (s : State) (n : Nat), s.queues.length < 2 ^ 32 → n < 2 ^ 32 →
    freshId s.queues n < 2 ^ 32 ∧ s.queues.get? (freshId s.queues n) = none) ∧
  (∀ d die slot : Nat, (QueueRt.create d die slot).kickTail = 0 ∧ (QueueRt.create d die slot).head = 0 ∧
    (QueueRt.create d die slot).cplHead = 0 ∧ (QueueRt.create d die slot).status = 1) ∧
  (∀ (s : State) (st : MboxStatus), (mboxAnswer s st).mboxDoor = 0 ∧ (mboxAnswer s st).mboxRsp = some (st, s.freeCtr)) ∧
  (∀ (s : State) (q : Nat), s.subj = .queue q → mboxSubmitted s = true →
    exec .destroyQueue s = .next (mboxAnswer (leaveAsks { s with queues := s.queues.erase q } (Layer.ofQueue q)) .ok)) ∧
  (∀ (s : State) (v : W32), s.subj = .value v → s.powered = true → exec .mboxDoorWrite s = .next { s with mboxDoor := v })

/-- R62, R66: the oldest completion of its command is written to the ring slot of its index while the ring has room, with the phase of its
pass, and its interrupt follows it; a full ring makes it wait, and so does a
LAUNCH whose completion with fin = 0 has been written and whose last one comes immediately behind it (R65). -/
def completionsWritten : Prop :=
  (∀ (s : State) (q k : Nat) (x : QueueRt) (p : Cpl), s.subj = .completion q k → s.powered = true → s.queues.get? q = some x →
    x.pending[k]? = some p → cplBlocked s p = false → joinedFirst x.pending p = false → (∀ o ∈ x.pending.take k, o.cmd ≠ p.cmd) →
    (∀ parts, (BitVec.ofNat 32 x.cplNext - x.cplHead).toNat < 2 ^ x.cpllog →
      hostRange s (.ring q) x.pasid (x.cplva + x.cplNext % 2 ^ x.cpllog * 32) 32 true = .ok parts →
      let s1 := wakeWaiters (writeParts s parts (leBytes (p.word0.toNat + (if x.cplNext / 2 ^ x.cpllog % 2 = 0 then 2 ^ 63 else 0)) 8 ++
        leBytes p.result.toNat 8 ++ leBytes p.detail.toNat 8 ++ leBytes p.word3.toNat 8))
      let s2 := s1.modQueue q (fun y => { y with
        pending := y.pending.eraseIdx k, cplNext := y.cplNext + 1,
        cmds := if p.fin then y.cmds.filter (fun c => c.idx != p.cmd) else y.cmds })
      exec .completionWrite s = .next (if p.irq && x.irqen then raiseIrq s2 x.vector else s2)) ∧
    (2 ^ x.cpllog ≤ (BitVec.ofNat 32 x.cplNext - x.cplHead).toNat → exec .completionWrite s = .next s)) ∧
  (∀ (s : State) (q k : Nat) (x : QueueRt) (p o : Cpl), s.subj = .completion q k → s.powered = true → s.queues.get? q = some x →
    x.pending[k]? = some p → o ∈ x.pending → o.joined = true → o.cmd ≠ p.cmd → (∀ e ∈ x.pending, e.cmd = o.cmd → e.fin = true) →
    exec .completionWrite s = .next s)

/-- R59 to R62, R67, R386: the registers of a queue, and its completions.
The model's own readings in it: assumptions 15 (MBOX_RSP), 38 (one announced entry is read by whichever event reads it), 61 (which queue
processors are in use), 71 (a queue in error takes the cause of a later one), 72 (the slot). -/
def Obligations.HostQueuesAndCompletions : Prop := hostQueueRegisters ∧ completionsWritten

/-- R7, R28, R386: a write of each kind of host register: the bytes of MBOX_REQ and of the MSI-X table are taken, KICK_TAIL and CPL_HEAD have
their effect, a 1 clears its bit of GOV_EVENTS, and every read-only register and Reserved offset ignores the write. -/
def hostRegisterWrites : Prop :=
  (∀ (s : State) (off : Nat) (v : W64), s.subj = .register (.bar2 off) v → s.powered = true →
    (off + 8 ≤ 0x1000 → exec .registerWrite s = .next { s with bar2 := s.bar2.write off (leBytes v.toNat 8) }) ∧
    (off = 0x2000 → exec .registerWrite s = .next { s with mboxDoor := v.truncate 32 }) ∧
    (0x10000 ≤ off → off + 8 ≤ 0x18000 → s.msixPba.contains ((off - 0x10000) / 16) = false →
      exec .registerWrite s = .next { s with bar2 := s.bar2.write off (leBytes v.toNat 8) }) ∧
    (0x1000 ≤ off → off ≠ 0x2000 → (off < 0x10000 ∨ 0x18000 ≤ off) → exec .registerWrite s = .next s)) ∧
  (∀ (s : State) (off : Nat) (v : W64), s.subj = .register (.bar4 off) v → s.powered = true → exec .registerWrite s = .next s) ∧
  (∀ (s : State) (slot q off : Nat) (x : QueueRt) (v : W64), s.subj = .register (.kick slot off) v → s.powered = true →
    queueAt? s slot = some (q, x) →
    (off = 0 → exec .registerWrite s = .next (kickTailWrite q (v.truncate 32) s)) ∧
    (off = 8 → exec .registerWrite s = .next (s.modQueue q (fun x => { x with cplHead := v.truncate 32 }))) ∧
    (off ≠ 0 → off ≠ 8 → exec .registerWrite s = .next s)) ∧
  (∀ (s : State) (slot off : Nat) (v : W64), s.subj = .register (.kick slot off) v → s.powered = true → queueAt? s slot = none →
    exec .registerWrite s = .next s) ∧
  (∀ (s : State) (d : Fin 4) (off : Nat) (v : W64), s.subj = .register (.gov d.val off) v → s.powered = true →
    (off = 0x10 → exec .registerWrite s = .next { s with
      gov := s.gov.set d { s.gov[d] with events := s.gov[d].events &&& ~~~(v.truncate 32) } }) ∧
    (off ≠ 0x10 → exec .registerWrite s = .next s))

/-- R26, R28: a die's budget is taken within 600 to 1,250 W and a sum of 5,000 W, and otherwise ignored; a comparison above the budget lowers
the clock by one step, at the floor sets FLOOR and is reported over MCTP and to the device OS; at least 150 W below it raises the clock by one step, never above 33;
otherwise the clock holds. There is one comparison in each interval of 50 µs,
and none in a cycle in which FCLK_NOW has been read; a read of FCLK_NOW gives the clock, and is remembered. Nothing else of the machine
changes. -/
def governorResult : Prop :=
  (∀ (s : State) (d : Fin 4) (w : W32), s.subj = .die d.val w → s.powered = true →
    (600 ≤ w.toNat → w.toNat ≤ 1250 → otherBudgets s d.val + w.toNat ≤ 5000 →
      exec .pwrBudgetWrite s = .next { s with gov := s.gov.set d { s.gov[d] with budget := w } }) ∧
    (w.toNat < 600 ∨ 1250 < w.toNat ∨ 5000 < otherBudgets s d.val + w.toNat → exec .pwrBudgetWrite s = .next s)) ∧
  (∀ (s : State) (d : Fin 4) (w : W32), s.subj = .die d.val w → s.powered = true →
    let g := s.gov[d]
    (g.last < s.interval → g.readAt ≠ some s.clk[d] →
      (g.budget.toNat < w.toNat → g.floor.toNat < g.fclk.toNat → exec .governorTick s = .next { s with
        gov := s.gov.set d { g with now := w, fclk := g.fclk - 1, events := g.events ||| 1, last := s.interval } }) ∧
      (g.budget.toNat < w.toNat → g.fclk.toNat ≤ g.floor.toNat → exec .governorTick s = .next (report { s with
        gov := s.gov.set d { g with now := w, events := g.events ||| 2, last := s.interval },
        osEvents := s.osEvents ++ [OsEvent.governor d.val] } 1 [d.val])) ∧
      (w.toNat + 150 ≤ g.budget.toNat → g.fclk.toNat < 33 → exec .governorTick s = .next { s with
        gov := s.gov.set d { g with now := w, fclk := g.fclk + 1, last := s.interval } }) ∧
      (w.toNat ≤ g.budget.toNat → (g.budget.toNat < w.toNat + 150 ∨ 33 ≤ g.fclk.toNat) → exec .governorTick s = .next { s with
        gov := s.gov.set d { g with now := w, last := s.interval } })) ∧
    (s.interval ≤ g.last ∨ g.readAt = some s.clk[d] → exec .governorTick s = .next s)) ∧
  (∀ s : State, s.interval = s.nowNs / 50000) ∧
  (∀ (s : State) (d : Fin 4), registerRead (.gov d.val 0x08) s = (s.gov[d].fclk.setWidth 64, { s with
    gov := s.gov.set d { s.gov[d] with readAt := some s.clk[d] } }))

/-- R7, R26 to R28, R386: host writes to registers, and the governor.
The model's own readings in it: assumptions 101 (a governor makes no comparison in a cycle in which FCLK_NOW has been read:
that is how a read in the cycle of a step returns the clock in force after the step, as the last sentence of R28 has it) and 17 (the code 1 and the body of the report that a die above
its budget at the floor sends over MCTP). -/
def Obligations.RegistersAndGovernor : Prop := hostRegisterWrites ∧ governorResult

/-! ### Commands -/

/-- A command event finds command `c` at the head of queue `q`, next to start of all that its queue processor serves (R63, R66, R67), with
every announced entry read; each command of the queue that has started and still makes its first accesses awaits a page (R58). -/
def atHead (s : State) (q : Nat) (x : QueueRt) (c : Cmd) : Prop :=
  s.subj = .queue q ∧ s.powered = true ∧ fetchRing s q = s ∧ s.queues.get? q = some x ∧ (∀ d ∈ x.cmds, d.st = .started → awaitsPage s q d = true) ∧
  x.headCmd = some c ∧ queueWins s q = true

/-- The command events. -/
def commandEvents : List Instr :=
  [.launch, .push, .pull, .signalSet, .signalAdd, .wait, .pausePreferred, .pauseForced, .resume, .kill, .queryCapabilities, .queryTenure,
   .queryCounts, .queryGovernor, .queryVirtualQueue]

/-- R63 to R65, R68: a malformed command completes with BAD_COMMAND, and so does one that uses host-shared memory on a module without HOSTSHARED
(as assumption 55 reads R68); SIGNAL sets or adds modulo 2^64 and completes with the new value; WAIT
completes at once where its condition holds, and otherwise, or while its semaphore's page is awaited (with a free value for the last value
read: assumption 73; that a malformed command is completed by whichever command event comes: assumption 38; before a misaligned address: 54), holds its queue until WAIT_SATISFIED finds it held, or its time-out passes. -/
def Obligations.SignalAndWaitCommands : Prop :=
  (∀ e ∈ commandEvents, ∀ (s : State) (q : Nat) (x : QueueRt) (c : Cmd), atHead s q x c → c.barred s = true →
    exec e s = .next (complete (startCmd s q c.idx) q c.idx 0x0001 0 0)) ∧
  (∀ (s : State) (q : Nat) (x : QueueRt) (c : Cmd) (parts : List (Phys × Nat)), atHead s q x c → c.barred s = false → c.op = 4 →
    c.w 1 % 8 = 0 → hostRange (startCmd s q c.idx) (.command q c.idx) x.pasid (c.w 1) 8 true = .ok parts →
    let s1 := startCmd s q c.idx
    (c.w 3 = 0 → exec .signalSet s =
      .next (complete (wakeWaiters (writeParts s1 parts (leBytes (c.w 2) 8))) q c.idx 0 (BitVec.ofNat 64 (c.w 2)) 0)) ∧
    (c.w 3 = 1 → let new := (leNat (readParts s1 parts) + c.w 2) % 2 ^ 64
      exec .signalAdd s = .next (complete (wakeWaiters (writeParts s1 parts (leBytes new 8))) q c.idx 0 (BitVec.ofNat 64 new) 0))) ∧
  (∀ (s : State) (q : Nat) (x : QueueRt) (c : Cmd) (parts : List (Phys × Nat)), atHead s q x c → c.barred s = false → c.op = 5 →
    c.w 1 % 8 = 0 → hostRange (startCmd s q c.idx) (.command q c.idx) x.pasid (c.w 1) 8 false = .ok parts →
    let s1 := startCmd s q c.idx
    let v := leNat (readParts s1 parts)
    let holds := if bitOf (c.w 3) 0 = true then v = c.w 2 else c.w 2 ≤ v
    (holds → exec .wait s = .next (complete s1 q c.idx 0 (BitVec.ofNat 64 v) 0)) ∧
    (¬ holds → exec .wait s = .next ((setCmd s1 q c.idx .active).modQueue q (fun y => { y with
      waiting := some (c.idx, s1.nowNs, BitVec.ofNat 64 v) })))) ∧
  (∀ (s : State) (q : Nat) (x : QueueRt) (c : Cmd), atHead s q x c → c.barred s = false → c.op = 5 → c.w 1 % 8 = 0 →
    hostRange (startCmd s q c.idx) (.command q c.idx) x.pasid (c.w 1) 8 false = .wait →
    let s1 := startCmd s q c.idx
    exec .wait s = .next ((setCmd s1.tookFree q c.idx .active).modQueue q (fun y => { y with
      waiting := some (c.idx, s1.nowNs, Config.freeWord s1.freeCtr) }))) ∧
  (∀ (s : State) (q idx since : Nat) (v0 : W64) (x : QueueRt) (c : Cmd) (parts : List (Phys × Nat)), s.subj = .queue q →
    s.powered = true → s.queues.get? q = some x → x.waiting = some (idx, since, v0) → x.cmd? idx = some c →
    hostRange s (.command q idx) x.pasid (c.w 1) 8 false = .ok parts →
    let v := leNat (readParts s parts)
    (c.waitHolds v = true → exec .waitSatisfied s =
      .next (complete (s.modQueue q (fun y => { y with waiting := none })) q idx 0 (BitVec.ofNat 64 v) 0)) ∧
    (c.waitHolds v = false → exec .waitSatisfied s =
      .next (s.modQueue q (fun y => { y with waiting := some (idx, since, BitVec.ofNat 64 v) })))) ∧
  (∀ (s : State) (q idx since : Nat) (v : W64) (x : QueueRt) (c : Cmd), s.subj = .queue q → s.powered = true →
    s.queues.get? q = some x → x.waiting = some (idx, since, v) → x.cmd? idx = some c →
    let limit := bitsOf (c.w 3) 32 32
    (limit ≠ 0 → since + limit * 1000 ≤ s.nowNs → exec .waitTimeout s =
      .next (complete (s.modQueue q (fun y => { y with waiting := none })) q idx 0x0007 v 0)) ∧
    (limit = 0 ∨ s.nowNs < since + limit * 1000 → exec .waitTimeout s = .next s)) ∧
  (∀ (s : State) (c : Cmd), (c.barred s = true ↔ c.malformed = true ∨ (s.dawn.caps.getLsbD 0 = false ∧ c.namesHost = true)))

/-- R65, R69 to R73: PUSH appends all of its records or completes with the first failure; PULL moves the oldest records that fit, and never
waits; QUERY writes the reply of its selector.
The model's own readings in it: assumptions 54, 55, 56. -/
def Obligations.PushPullQueryCommands : Prop :=
  (∀ (s : State) (q : Nat) (x : QueueRt) (c : Cmd), atHead s q x c → c.barred s = false → c.op = 2 →
    let s1 := startCmd s q c.idx
    let id := bitsOf (c.w 1) 0 32
    let bytes := bitsOf (c.w 3) 0 32
    let n := bitsOf (c.w 3) 32 32
    (usableVq s1 x.pasid id false = none → exec .push s = .next (complete s1 q c.idx 0x0004 0 0)) ∧
    (∀ v parts, usableVq s1 x.pasid id false = some v → c.w 2 % 8 = 0 → hostRange s1 (.command q c.idx) x.pasid (c.w 2) bytes false = .ok parts →
      (∀ rs, pushRecords n (readParts s1 parts) = .ok rs →
        (ringBytes v.ring + ringBytes rs ≤ v.capacity → exec .push s =
          .next (complete (appendRecs s1 id v rs) q c.idx 0 (BitVec.ofNat 64 n) 0)) ∧
        (v.capacity < ringBytes v.ring + ringBytes rs → exec .push s = .next (complete s1 q c.idx 0x0006 0 0))) ∧
      (∀ st, pushRecords n (readParts s1 parts) = .error st → exec .push s = .next (complete s1 q c.idx st 0 (plainDetail st))))) ∧
  (∀ (n : Nat) (bs : List Byte) (rs : List Rec), pushRecords n bs = .ok rs → rs.length = n ∧ ringBytes rs = bs.length) ∧
  (∀ (s : State) (q : Nat) (x : QueueRt) (c : Cmd), atHead s q x c → c.barred s = false → c.op = 3 →
    let s1 := startCmd s q c.idx
    let id := bitsOf (c.w 1) 0 32
    (usableVq s1 x.pasid id true = none → exec .pull s = .next (complete s1 q c.idx 0x0004 0 0)) ∧
    (∀ v parts, usableVq s1 x.pasid id true = some v → c.w 2 % 8 = 0 →
      let rs := pullRecords (bitsOf (c.w 3) 32 32) (bitsOf (c.w 3) 0 32) v.ring
      let bs := rs.flatMap packRec
      hostRange s1 (.command q c.idx) x.pasid (c.w 2) bs.length true = .ok parts →
      let s2 := wakeWaiters (writeParts s1 parts bs)
      exec .pull s = .next (complete { s2 with vqs := s2.vqs.set id { v with ring := v.ring.drop rs.length } } q c.idx 0
        (BitVec.ofNat 64 (bs.length + rs.length * 2 ^ 32)) 0))) ∧
  (∀ e ∈ [(Instr.queryCapabilities, 0), (.queryTenure, 1), (.queryCounts, 2), (.queryGovernor, 3), (.queryVirtualQueue, 4)],
    ∀ (s : State) (q : Nat) (x : QueueRt) (c : Cmd), atHead s q x c → c.barred s = false → c.op = 9 → bitsOf (c.w 1) 0 16 = e.2 →
    let s1 := startCmd s q c.idx
    (∀ bs parts, queryReply s1 x.pasid e.2 (bitsOf (c.w 1) 32 32) = .ok bs → c.w 2 % 8 = 0 →
      hostRange s1 (.command q c.idx) x.pasid (c.w 2) bs.length true = .ok parts →
      let s2 := complete (wakeWaiters (writeParts s1 parts bs)) q c.idx 0 (BitVec.ofNat 64 bs.length) 0
      exec e.1 s = .next (if e.2 = 3 then noteRead (bitsOf (c.w 1) 32 32) s2 else s2)) ∧
    (∀ st, queryReply s1 x.pasid e.2 (bitsOf (c.w 1) 32 32) = .error st → exec e.1 s = .next (complete s1 q c.idx st 0 0)))

/-! ### Admission, regions and loads -/

/-- R65, R84 to R86, R420: LAUNCH of a graph that passes its checks makes a tenure that waits in admission, with the process's next handle and
its lockkeeper at reset; one that fails a check completes with that check's code, and makes none. An attempt takes the first free candidate
that the pound fits, for the `LAUNCH` whose turn it is, and with the grant tokens of a region that spans dies, which are taken in ascending
order, with tokens held for another candidate released first, and released; no candidate at all is NOFIT_REGION. A plane is granted beside
its one resident, under a tag that is not the resident's.
The model's own readings in it: assumptions 44, 49, 50, 83 (a plane is granted without a grant token), 48 (what may stand beside a resident's
pound). -/
def Obligations.LaunchAndRegionResult : Prop :=
  (∀ (s : State) (q : Nat) (x : QueueRt) (c : Cmd) (parts : List (Phys × Nat)), atHead s q x c → c.barred s = false → c.op = 1 →
    c.args = none → c.w 2 % 8 = 0 → hostRange (startCmd s q c.idx) (.command q c.idx) x.pasid (c.w 2) (c.w 3) false = .ok parts →
    let args := readParts (startCmd s q c.idx) parts
    let s1 := setArgs (startCmd s q c.idx) q c.idx args
    let checked : GM Graph := readHeader s1 (.command q c.idx) x.pasid (c.w 1) >>= admissionChecks s1 (.command q c.idx) x.pasid (c.w 1) args
    (∀ g, checked = .ok g → exec .launch s = .next (admitLaunch s1 q x c args g)) ∧
    (∀ code arg detail, checked = .error (.reject code arg detail) → exec .launch s =
      .next (complete s1 q c.idx code (if code < 0x100 then 0 else BitVec.ofNat 64 arg) (BitVec.ofNat 64 detail)))) ∧
  (∀ (s : State) (q : Nat) (x : QueueRt) (c : Cmd) (args : List Byte) (g : Graph),
    ∃ tn, (admitLaunch s q x c args g).tenures.get? s.nextTenure = some tn ∧ tn.phase = .admission ∧ tn.handle = s.handles.getD x.pasid 1 ∧
      tn.pasid = x.pasid ∧ tn.lk = Lockkeeper.reset ∧ tn.region = none ∧ tn.args = args ∧
      (∀ t, t ≠ s.nextTenure → (admitLaunch s q x c args g).tenures.get? t = s.tenures.get? t)) ∧
  (∀ (s : State) (t : Nat) (tn : Tenure), s.subj = .tenure t → s.powered = true → s.tenures.get? t = some tn → tn.phase = .admission →
    tn.region = none →
    (candidatesOf s tn = [] → exec .candidateAttempt s = .next (admissionFail s t cNofitRegion 0 0)) ∧
    (∀ r, candidatesOf s tn ≠ [] → nextCandidate s tn = some r → admissionTurn s tn = true →
      (∀ d, lackingToken s t r = some d → tokensInOrder s t r = true → exec .candidateAttempt s = .next (takeGrantToken s t d)) ∧
      (∀ d, lackingToken s t r = some d → tokensInOrder s t r = false → exec .candidateAttempt s = .next (releaseTokens s t)) ∧
      (∀ p, lackingToken s t r = none → placePound s.repair tn.g 0 r = .ok p → exec .candidateAttempt s = .next
        (releaseTokens (completeResumes ((grantRegion s t r).modTenure t (fun y => { y with phase := .running })) t 0 0) t)) ∧
      (∀ f, lackingToken s t r = none → placePound s.repair tn.g 0 r = .error f → exec .candidateAttempt s =
        .next (releaseTokens (candidateFailed s t tn r f) t)))) ∧
  (∀ (s : State) (t : Nat) (r : Region),
    (r.j < 10 → lackingToken s t r = none) ∧
    (10 ≤ r.j → lackingToken s t r = none → ∀ d : Fin 4, d.val ∈ r.dies → s.tokens[d] = some t) ∧
    (∀ d, lackingToken s t r = some d → d ∈ r.dies ∧ ∀ e : Fin 4, e.val ∈ r.dies → e.val < d → s.tokens[e] = some t)) ∧
  (∀ (s : State) (t : Nat) (r : Region) (d : Nat), lackingToken s t r = some d → tokensInOrder s t r = true →
    ∀ e : Fin 4, s.tokens[e] = some t → e.val < d) ∧
  (∀ (s : State) (t u : Nat) (d : Fin 4), s.tokens[d] = some u → takeGrantToken s t d.val = s) ∧
  (∀ (s : State) (resident : Nat) (other : Tenure) (r : Region), s.tenures.get? resident = some other →
    planeTag s resident r ≠ other.gtag) ∧
  (∀ (s : State) (tn : Tenure) (r : Region), nextCandidate s tn = some r →
    r ∈ candidatesOf s tn ∧ r ∉ tn.tried ∧ ∀ k ∈ r.subtrees, (s.sub k).st = .free) ∧
  (∀ (s : State) (t resident : Nat) (tn other : Tenure) (r : Region) (p : Placement), s.subj = .planes t resident → s.powered = true →
    s.tenures.get? t = some tn → s.tenures.get? resident = some other → t ≠ resident → tn.phase = .admission → tn.region = none →
    other.region = some r → other.partner = none → s.planes.get? r.first = none → (jRange tn.g.pounds).1 ≤ r.j →
    r.j ≤ (jRange tn.g.pounds).2 → placeBeside s tn.g 0 r (some other) = .ok p →
    exec .planeGrant s = .next
      (releaseTokens (completeResumes ((grantPlane s t resident r).modTenure t (fun y => { y with phase := .running })) t 0 0) t))

/-- R97, R98, R381, R382: a load reads its words one after another, unless the plane it is for still drains or is zeroed (R79, R101), and
waits for the page of each; all read, it commits when every element has acknowledged good, with the patch words in place of the words they change and
the default formats of the words as loaded; a packet or a patch word whose CRC does not hold fails it; a failed one is read again from the object, and
the fourth that fails is CONFIG_LOAD_UE. -/
def configurationLoads : Prop :=
  (∀ (s : State) (t : Nat) (noise : List (Nat × Nat)) (ue : Bool) (tn : Tenure) (l : Load), s.subj = .loadAck t noise ue → s.powered = true →
    s.tenures.get? t = some tn → tn.load = some l → l.committed = false → l.todo = [] →
    (∀ l', l.acked tn.g noise ue = some l' →
      (tn.phase ≠ .replacing → exec .loadCommit s = .next (s.modTenure t (fun y => { y with load := some l' }))) ∧
      (tn.phase = .replacing → exec .loadCommit s = .next (replaced s t l'))) ∧
    (l.acked tn.g noise ue = none →
      (l.fails < 3 → exec .loadCommit s = .next (readLoad s t l.place.pound (l.fails + 1))) ∧
      (3 ≤ l.fails → exec .loadCommit s = .next (loadTrouble s t cConfigLoadUe l.place.pound)))) ∧
  (∀ (s : State) (t : Nat) (noise : List (Nat × Nat)) (ue : Bool) (tn : Tenure) (l : Load), s.subj = .loadAck t noise ue →
    s.tenures.get? t = some tn → tn.load = some l → (l.todo ≠ [] ∨ l.committed = true) → exec .loadCommit s = .next s) ∧
  (∀ (l : Load) (g : Graph), (∀ noise, l.acked g noise true = none) ∧
    l.acked g [] false = some { l with
      words := applyPatches l.patches l.words, patches := [], committed := true
      fmts := loadedFmts g l.place.pound (applyPatches l.patches l.words) l.fmts } ∧
    (∀ noise l', l.acked g noise false = some l' → l'.committed = true ∧ l'.patches = []) ∧
    (∀ noise n ws e, (n, ws) ∈ l.words → noiseOf noise (2 * n) = some e → packetGood ws.length (crcPacket ws ^^^ e) = false →
      l.acked g noise false = none) ∧
    (∀ noise n k v e rest, l.patches = (n, k, v) :: rest → noiseOf noise firstPatch = some e → packetGood 1 (crcPacket [v] ^^^ e) = false →
      l.acked g noise false = none)) ∧
  (∀ ws : List Nat, packetGood ws.length (crcPacket ws) = true) ∧
  (∀ (s : State) (t : Nat) (tn : Tenure) (l : Load) (r : Region) (off n : Nat) (rest : List (Nat × Nat)), s.tenures.get? t = some tn →
    tn.load = some l → tn.region = some r → l.todo = (off, n) :: rest →
    (planeBusy s tn = true → readNext s t = s) ∧
    (∀ w, planeBusy s tn = false →
      Obj.entry { s := s, l := .passage t, pasid := tn.pasid, addr := tn.objAddr, size := tn.g.size } l.place.pound off n = .ok w →
      let l' : Load := { l with todo := rest, parts := l.parts.set off w }
      readNext s t = s.modTenure t (fun y => { y with load := some (if rest.isEmpty then l'.ready tn.g r else l'), codePage := none }))) ∧
  (∀ (s : State) (t : Nat) (rest : List Turn) (tn : Tenure), s.agenda = .loadRead t :: rest → s.powered = true →
    s.tenures.get? t = some tn → tn.codePage = none → step s = .next (readNext { s with agenda := rest } t)) ∧
  (∀ (s : State) (q : Nat) (x : QueueRt) (c : Cmd), s.subj = .queue q → s.powered = true → s.queues.get? q = some x →
    x.cmds.find? (fun d => d.st == .started && d.op == 1) = some c → exec .codePageResolved s = .next (runLaunch s q x c)) ∧
  (∀ (s : State) (t : Nat) (tn : Tenure) (p : Nat × PageSt), s.subj = .tenure t → s.powered = true → s.tenures.get? t = some tn →
    tn.codePage = some p → exec .codePageResolved s = .next (readNext s t))

/-- An L4 subtree in another state. -/
def withSub (s : State) (k : Nat) (x : SubRt) : State := { s with subtrees := s.subtrees.set k x }

/-- R77, R78, R79: a draining subtree, or plane, for which no reply is owed to what its tenures had sent when they left is zeroed, and after 2^20
cycles of its die what is still in transit of that is discarded and it is zeroed; a zeroed subtree is FREE, a zeroed plane idle; the device OS reserves a FREE subtree, and
releasing it zeroes it. -/
def subtreeStates : Prop :=
  (∀ (s : State) (k : Nat), s.subj = .drain (.subtree k) → s.powered = true →
    ((s.sub k).st = .draining → outstanding s (s.sub k).owed = false →
      exec .drainComplete s = .next (withSub s k { s.sub k with st := .zeroing, owners := [] })) ∧
    ((s.sub k).st = .draining → outstanding s (s.sub k).owed = true → exec .drainComplete s = .next s) ∧
    ((s.sub k).st = .draining → (s.sub k).since + 1048576 ≤ subNow s k → exec .drainTimeout s =
      .next (withSub (discard s (s.sub k).owed) k { s.sub k with st := .zeroing, owners := [] })) ∧
    ((s.sub k).st = .draining → subNow s k < (s.sub k).since + 1048576 → exec .drainTimeout s = .next s) ∧
    ((s.sub k).st = .zeroing → exec .zeroingComplete s = .next (withSub s k { s.sub k with st := .free, owners := [], owed := [] }))) ∧
  (∀ (s : State) (left : List (Nat × Nat)),
    (outstanding s left = true ↔ ∃ x ∈ s.net, ∃ n, (x.t, n) ∈ left ∧ x.id < n) ∧ outstanding (discard s left) left = false ∧
    (∀ x ∈ s.net, (∀ n, (x.t, n) ∈ left → n ≤ x.id) → x ∈ (discard s left).net)) ∧
  (∀ (s : State) (t k : Nat), ((leaveSubs t [k] s).sub k).owed = (s.sub k).owed ++ [(t, s.nextMsg)]) ∧
  (∀ (s : State) (b : Nat) (p : PlaneRt), s.subj = .drain (.plane b) → s.powered = true → s.planes.get? b = some p →
    (p.zeroing = false → outstanding s [(p.t, p.bound)] = false →
      exec .drainComplete s = .next { s with planes := s.planes.modify b (fun y => { y with zeroing := true }) }) ∧
    (p.zeroing = false → p.since + 1048576 ≤ s.nowOn (b / 512) → exec .drainTimeout s =
      .next { discard s [(p.t, p.bound)] with planes := s.planes.modify b (fun y => { y with zeroing := true }) }) ∧
    (p.zeroing = true → exec .zeroingComplete s = .next { s with planes := s.planes.erase b })) ∧
  (∀ (s : State) (k : Nat), s.subj = .subtree k → s.powered = true →
    (k < 2048 → (s.sub k).st = .free → exec .reserveSubtree s = .next (withSub s k { s.sub k with st := .reserved })) ∧
    ((s.sub k).st ≠ .free → exec .reserveSubtree s = .next s) ∧
    ((s.sub k).st = .reserved → exec .releaseSubtree s = .next (withSub s k { s.sub k with st := .zeroing })) ∧
    ((s.sub k).st ≠ .reserved → exec .releaseSubtree s = .next s))

/-- R77 to R79, R97, R98, R381: configuration loads, and the states of L4 subtrees.
The model's own readings in it: assumptions 44, 45, 48. -/
def Obligations.LoadsAndSubtrees : Prop := configurationLoads ∧ subtreeStates

/-! ### Pauses, faults, and the end of a tenure -/

/-- A command of the process, past its checks, that names tenure `t`. -/
def namesTenure (s : State) (q : Nat) (x : QueueRt) (c : Cmd) (op t : Nat) (tn : Tenure) : Prop :=
  atHead s q x c ∧ c.malformed = false ∧ c.op = op ∧ tenureOf (startCmd s q c.idx) x.pasid c.handle = some (t, tn)

/-- R43, R65, R363 to R366: PAUSE starts a pause of a running tenure, forced where asked or where the graph has no segments, joins one in
progress, and pauses a tenure in admission at once; RESUME runs a paused tenure in place, or sends it for a new region, or
back to its wait in admission, beside the RESUMEs that already wait for it; KILL ends it and
completes its LAUNCH with KILLED; a preferred pause takes effect at a segment boundary, and becomes a forced one after segmax cycles; at rest the pause is complete.
That a PAUSE of a tenure being placed anew, and a RESUME of one in admission or still pausing, complete with BAD_STATE is the model's choice:
assumption 78; the model's own readings in it also: assumption 47. -/
def Obligations.PauseResumeKill : Prop :=
  (∀ e ∈ [(Instr.pausePreferred, 0), (.pauseForced, 1)], ∀ (s : State) (q t : Nat) (x : QueueRt) (c : Cmd) (tn : Tenure),
    namesTenure s q x c 6 t tn → c.w 2 = e.2 → (e.2 = 1 → s.forcedPause = true) →
    let s1 := startCmd s q c.idx
    (tn.phase = .running → exec e.1 s = .next (setCmd (s1.modTenure t (fun y => { y with
      phase := .pausing, pause := some ⟨decide (e.2 = 1) || decide (tn.g.segmax = 0), s1.clk, false, some (q, c.idx), []⟩ })) q c.idx .active)) ∧
    (tn.phase = .admission → exec e.1 s =
      .next (complete (releaseTokens (s1.modTenure t (fun y => { y with phase := .pausedAdmission })) t) q c.idx 0 0 0)) ∧
    (tn.phase = .pausing → exec e.1 s = .next (setCmd (s1.modTenure t (fun y => { y with
      pause := y.pause.map (fun p => { p with cmds := p.cmds ++ [(q, c.idx)] }) })) q c.idx .active)) ∧
    (tn.phase = .paused ∨ tn.phase = .held ∨ tn.phase = .replacing → exec e.1 s = .next (complete s1 q c.idx 0x0005 0 0))) ∧
  (∀ (s : State) (q t : Nat) (x : QueueRt) (c : Cmd) (tn : Tenure), namesTenure s q x c 7 t tn →
    let s1 := startCmd s q c.idx
    let waits := setCmd (s1.modTenure t (fun y => { y with resumes := y.resumes ++ [(q, c.idx)] })) q c.idx .active
    (tn.phase = .paused → missingFeatures s1 tn = 0 → tn.region.isSome = true → exec .resume s = .next (runAgain waits t)) ∧
    (tn.phase = .paused → missingFeatures s1 tn = 0 → tn.region = none → exec .resume s =
      .next (waits.modTenure t (fun y => { y with phase := .replacing, tried := [], failures := [] }))) ∧
    (tn.phase = .paused → missingFeatures s1 tn ≠ 0 → exec .resume s =
      .next (complete s1 q c.idx cRestoreFeature 0 (BitVec.ofNat 64 (missingFeatures s1 tn)))) ∧
    (tn.phase = .pausedAdmission → exec .resume s = .next (waits.modTenure t (fun y => { y with phase := .admission }))) ∧
    (tn.phase = .running ∨ tn.phase = .admission ∨ tn.phase = .pausing → exec .resume s = .next (complete s1 q c.idx 0x0005 0 0))) ∧
  (∀ (s : State) (q t : Nat) (x : QueueRt) (c : Cmd) (tn : Tenure), namesTenure s q x c 8 t tn →
    let s1 := startCmd s q c.idx
    (tn.phase = .running → tn.resumes = [] → exec .kill s =
      .next (complete (endTenure (launchLast s1 t 0x0008 (BitVec.ofNat 64 tn.handle) 0) t) q c.idx 0 0 0)) ∧
    (tn.phase = .admission → tn.resumes = [] → exec .kill s =
      .next (complete (endTenure (complete s1 tn.queue tn.cmd 0x0008 0 0) t) q c.idx 0 0 0))) ∧
  (∀ (s : State) (t : Nat) (tn : Tenure) (p : PauseSt), s.subj = .tenure t → s.powered = true → s.tenures.get? t = some tn →
    tn.phase = .pausing → tn.pause = some p →
    (∀ d : Fin 4, tn.baseDie = d.val → p.forced = false → p.since[d] + tn.g.segmax ≤ s.clk[d] → exec .segmaxExpiry s =
      .next (s.modTenure t (fun y => { y with pause := some { p with forced := true, since := s.clk } }))) ∧
    (p.forced = false → atBoundary s t = false → exec .pauseComplete s = .next s) ∧
    (∀ tn1, p.forced = false → atBoundary s t = true → let p1 : PauseSt := { p with forced := true, since := s.clk }
      let s1 := flushTiles (s.modTenure t (fun y => { y with pause := some p1 })) t
      s1.tenures.get? t = some tn1 →
      (atRest s1 t tn1 = true → exec .pauseComplete s = .next (finishPause s1 t tn1 p1)) ∧
      (atRest s1 t tn1 = false → exec .pauseComplete s = .next s1)) ∧
    (∀ tn1, p.forced = true → let s1 := flushTiles (s.modTenure t (fun y => { y with pause := some p })) t
      s1.tenures.get? t = some tn1 →
      (atRest s1 t tn1 = true → exec .pauseComplete s = .next (finishPause s1 t tn1 p)) ∧
      (atRest s1 t tn1 = false → exec .pauseComplete s = .next s1)))

/-- R363, R365, R367, R371, R372, R373: a fault record travels as R371 packs it; the first one to arrive forces a pause of its tenure, the one from the lowest node of
those that arrive in its cycle standing first in the log; a held tenure ends after 10 s; the region of a paused
tenure can be taken back; a tenure whose image the module cannot restore is placed anew from its object; a process is migrated when all of
its tenures are paused, and arrives at its peer as paused tenures to be placed.
The model's own readings in it: assumptions 47 (a record that reaches a tenure paused without a fault is logged and starts no pause), 52 (the
message counters are 0 after REPLACEMENT_FALLBACK), 53. -/
def Obligations.FaultHoldMigrate : Prop :=
  (∀ r : FaultRec, hType r.packed.hdr = 8 ∧ hFmt r.packed.hdr = 0 ∧ hLen r.packed.hdr = 2 ∧ hSeq r.packed.hdr = 0 ∧
    hCarg r.packed.hdr = r.code % 256 ∧ r.packed.units.length = 2 ∧ r.packed.units[1]? = some r.arg ∧
    (r.code < 65536 → r.src < 16 → r.node < 16777216 → r.engine < 256 → r.pc < 256 → ∃ u : W64, r.packed.units[0]? = some u ∧
      bitsOf u.toNat 0 16 = r.code ∧ bitsOf u.toNat 16 4 = r.src ∧ bitOf u.toNat 20 = r.prec ∧ bitOf u.toNat 21 = r.nest ∧
      bitsOf u.toNat 22 2 = 0 ∧ bitsOf u.toNat 24 24 = r.node ∧ bitsOf u.toNat 48 8 = r.engine ∧ bitsOf u.toNat 56 8 = r.pc ∧
      FaultRec.ofRec r.packed = r)) ∧
  (∀ (s : State) (t k : Nat) (tn : Tenure) (r : FaultRec), s.subj = .faultRecord t k → s.powered = true → s.tenures.get? t = some tn →
    tn.laneFaults[k]? = some r →
    let s0 := s.modTenure t (fun y => { y with faultLane := y.faultLane.eraseIdx k })
    let s1 := s0.modTenure t (fun y => Tenure.logFault y (s.nowOn tn.baseDie) r)
    (tn.phase = .running → exec .faultRecordArrival s = .next (s1.modTenure t (fun y => { y with
      phase := .pausing, pause := some ⟨true, s.clk, true, none, []⟩ }))) ∧
    (tn.phase = .paused → exec .faultRecordArrival s = .next s1) ∧ (tn.phase = .held → exec .faultRecordArrival s = .next s0)) ∧
  (∀ (tn : Tenure) (now : Nat) (r f : FaultRec) (rest : List FaultRec),
    (tn.log = [] → tn.logFault now r = { tn with log := [r], faultAt := now }) ∧
    (tn.log = f :: rest → ¬ (tn.faultAt = now ∧ r.node < f.node) →
      (tn.logFault now r).log = (if tn.log.length < 16 then tn.log ++ [r] else tn.log.take 16)) ∧
    (tn.log = f :: rest → tn.faultAt = now → r.node < f.node → (tn.logFault now r).log.head? = some r) ∧
    (tn.log ≠ [] → (tn.logFault now r).log.length + (tn.logFault now r).logOver = tn.log.length + 1 + tn.logOver)) ∧
  (∀ (s : State) (t : Nat) (tn : Tenure), s.subj = .tenure t → s.powered = true → s.tenures.get? t = some tn →
    (tn.phase = .held → tn.heldSince + 10000000000 ≤ s.nowNs → exec .holdTimeout s = .next (endTenure s t)) ∧
    (tn.phase = .held → s.nowNs < tn.heldSince + 10000000000 → exec .holdTimeout s = .next s) ∧
    (tn.phase = .paused → tn.region.isSome = true → ∃ s1, exec .regionReclaim s = .next s1 ∧ s1.hostMem = s.hostMem ∧ s1.devMem = s.devMem ∧
      s1.subtrees = (leaveRegion s t).subtrees ∧ s1.tasks = s.tasks ∧ s1.chans = s.chans) ∧
    (tn.phase = .paused → missingFeatures s tn ≠ 0 → ∃ s1 tn1, exec .replacementFallback s = .next s1 ∧ s1.tenures.get? t = some tn1 ∧
      tn1.phase = .replacing ∧ tn1.lk = tn.lkEnter ∧ tn1.place = none ∧ tn1.iG = 0 ∧ tn1.cG = 0)) ∧
  (∀ (s : State) (pasid peer : Nat), s.subj = .process pasid peer → s.powered = true → bitOf s.dawn.caps.toNat 2 = true →
    hostInUse s pasid = false → s.ethUp.toList.any id = true →
    ((∀ e ∈ tenuresOf s pasid, e.2.phase = .paused ∨ e.2.phase = .pausedAdmission) → ∃ s1, exec .processMigration s = .next s1 ∧
      s1.ethOut = s.ethOut ++ [bundleOf s pasid] ∧ (∀ e ∈ s1.vqs, e.2.pasid ≠ pasid) ∧ s1.roots = s.roots.erase pasid) ∧
    ((∃ e ∈ tenuresOf s pasid, e.2.phase = .running) → exec .processMigration s = .next (pauseAll (tenuresOf s pasid) s))) ∧
  (∀ (s : State) (pasid k : Nat) (b : Bundle), s.subj = .bundle k pasid → s.powered = true → bitOf s.dawn.caps.toNat 2 = true →
    s.ethIn[k]? = some b → pagesMapped s pasid b = true → ∃ s1, exec .migrationReceive s = .next s1 ∧
      s1.ethIn = s.ethIn.eraseIdx k ∧ s1.nextTenure = s.nextTenure + b.tenures.length ∧
      (∀ i q, b.vqs = [(i, q)] → ∃ q1, s1.vqs.get? (freshId s.vqs s.nextVq) = some q1 ∧ q1.pasid = pasid ∧ q1.ring = q.ring) ∧
      (∀ i tn, b.tenures = [(i, tn)] → ∃ tn1, s1.tenures.get? s.nextTenure = some tn1 ∧ tn1.pasid = pasid ∧ tn1.region = none ∧
        tn1.handle = s.handles.getD pasid 1 % 4294967296 ∧ tn1.phase = (if tn.phase = .paused then (if missingFeatures s tn = 0 then .replacing else .paused) else .admission)))

/-! ### Records, activations and virtual queues -/

/-- The interface of a channel's consumer accepts a record: an external end accepts any, a node what its format table accepts (R41). -/
def accepts (s : State) (t : Nat) (e : ChanE) (r : Rec) : Prop := e.dst = extEnd ∨ fmtAccepts (inFmt s t e.dst e.iport) r.hdr = true

/-- R34, R37, R41, R42, R150 to R152: the oldest record in transit arrives whole at its consumer, a node of the graph or an external end, opens or
closes a segment where it is a bow or a stern, and ends the residence of a resident record; one that a format table does not accept, or that
breaks the order of segments, is discarded and halts the node at fault; an idle task starts an activation at PC 0 for its trigger record, with the order
that the record carries (R339), and takes a Null without one; a record on a channel bound to a predicate sets it.
The model's own readings in it: assumptions 19, 21. -/
def Obligations.RecordsAndActivations : Prop :=
  (∀ (s : State) (t c : Nat) (ch : ChanRt) (tn : Tenure) (r : Rec) (rest : List Rec), s.subj = .chan t c → s.chan? t c = some ch →
    ch.feed = [] → s.tenures.get? t = some tn → ch.transit = r :: rest → crossing s t c = 0 →
    let arrived := (s.modChan t c ChanRt.takeFeed).modChan t c (fun x => { x with transit := rest })
    let consumed := arrived.modTenure t (fun x => x.conP (chanPoint ch.e.dst c) 1)
    let put (seg : Bool) := arrived.modChan t c (fun x => { x with buf := x.buf ++ [r], seg := seg })
    (rType r ≠ tBow → rType r ≠ tStern → accepts s t ch.e r ∨ tn.kindOf ch.e.dst = 0 →
      (ch.e.sticky ≤ 1 → exec .recordVisible s = .next (put ch.seg)) ∧
      (∀ h, 1 < ch.e.sticky → s.tasks.get? (key2 t ch.e.dst) = none → ch.buf = [h] → rType h = tData →
        (endsResidence ch.e.level r = true → exec .recordVisible s = .next (headLost (popOne (put ch.seg) t c) t c h)) ∧
        (endsResidence ch.e.level r = false → exec .recordVisible s = .next (put ch.seg)))) ∧
    (accepts s t ch.e r → ch.e.sticky ≤ 1 →
      (rType r = tBow → ch.seg = false → exec .recordVisible s = .next (put true)) ∧
      (rType r = tStern → ch.seg = true → exec .recordVisible s = .next (put false))) ∧
    (ch.e.dst ≠ extEnd → tn.kindOf ch.e.dst ≠ 0 → fmtAccepts (inFmt s t ch.e.dst ch.e.iport) r.hdr = false →
      exec .recordVisible s = .next (nodeFault consumed t ch.e.dst cFormat (BitVec.ofNat 64 c))) ∧
    (accepts s t ch.e r → (rType r = tBow ∧ ch.seg = true ∨ rType r = tStern ∧ ch.seg = false) →
      (ch.e.src ≠ extEnd → exec .recordVisible s = .next (nodeFault consumed t ch.e.src cSegment (BitVec.ofNat 64 c))) ∧
      (ch.e.src = extEnd → exec .recordVisible s = .next (engineFault consumed t cSegment 0 0xFFFFFF 0xFF (BitVec.ofNat 64 c))))) ∧
  (∀ (s : State) (t n c : Nat) (tk : TaskRt) (tn : Tenure) (r : Rec) (hp : tk.trigp < 16), s.subj = .node t n →
    s.tasks.get? (key2 t n) = some tk → s.tenures.get? t = some tn → tn.moves = true → tk.st = .idle → tk.nullLeft = none →
    trigHead s t tk = some (c, r) → fmtAccepts (tk.fmt.ins[tk.trigp]) r.hdr = true →
    (rType r ≠ tNull → exec .activationStart s = .next (orderRec { s with tasks := s.tasks.set (key2 t n) { tk with
      st := .running, pc := 0, inp := tk.inp.set tk.trigp { cur := true, idx := 0 }, trigSeq := hSeq r.hdr, srCount := 0 } } t n r)) ∧
    (rType r = tNull → exec .activationStart s = .next s) ∧
    (rType r = tNull → forwardPorts tk = [] → ∃ s1, exec .nullTrigger s = .next s1 ∧ s1.chans = (useHead s t c).chans ∧
      s1.tasks = (useHead s t c).tasks.set (key2 t n) { tk with nullLeft := none, st := .idle })) ∧
  (∀ (s : State) (t c m : Nat) (tn : Tenure) (ch : ChanRt) (r : Rec) (rest : List Rec) (u : W64) (us : List W64), s.subj = .chan t c →
    s.tenures.get? t = some tn → s.chan? t c = some ch → tn.binds.get? c = some (.pred m) → ch.buf = r :: rest → ch.e.dst = extEnd → ch.e.sticky ≤ 1 →
    partsMove s t = true → rType r = tData → r.units = u :: us → ∃ s1 tn1, exec .predicateRecord s = .next s1 ∧
      s1.tenures.get? t = some tn1 ∧ tn1.lk.qval = putBit tn.lk.qval (BitVec.ofNat 3 m) (u.getLsbD 0) ∧
      tn1.lk.qvalid = putBit tn.lk.qvalid (BitVec.ofNat 3 m) true ∧ tn1.lkBlocked = false ∧ tn1.cP = tn.cP + 1)

/-- R70 to R72, R362, R391: a virtual queue as assigned; its agent moves the oldest record of an input ring into the channel as a slot frees,
and appends a delivered record to an output ring with room; a record from a peer is appended likewise; a port of the Ethernet switches goes
down, and comes up if the part record enables it; at a segment boundary a slot ends, and a ready partner takes its turn after seven, or after `yield`.
The model's own readings in it: assumptions 15, 56, 57, 61. -/
def Obligations.VirtualQueuesAndTurns : Prop :=
  (∀ (s : State) (pasid capacity : Nat) (output : Bool), s.subj = .newVq pasid output capacity none → mboxSubmitted s = true →
    (s.stage = 3 → exec .virtualQueueAssign s = .next (mboxAnswer { s with
      vqs := s.vqs.set (freshId s.vqs s.nextVq) ⟨pasid, output, capacity % 2 ^ 31, [], none, 0, none, false⟩,
      nextVq := (freshId s.vqs s.nextVq + 1) % 4294967296 } .ok)) ∧
    (s.stage ≠ 3 → exec .virtualQueueAssign s = .next (mboxAnswer s .notReady))) ∧
  (∀ (s : State) (v t c : Nat) (q : VqRt) (tn : Tenure) (ch : ChanRt), s.subj = .vq v → s.vqs.get? v = some q → q.bound = some (t, c) →
    s.tenures.get? t = some tn → s.chan? t c = some ch →
    (∀ r rest, q.output = false → q.ring = r :: rest → agentRuns s t c tn = true → 0 < ch.free → hLen r.hdr ≤ ch.e.width →
      exec .vqAgentMove s = .next (sendRec (State.modTenure { s with vqs := s.vqs.set v { q with ring := rest, counted := q.counted - 1 } } t
        (fun x => x.conG (vqPoint v) (min q.counted 1))) t c r)) ∧
    (ch.free = 0 → exec .vqAgentMove s = .next s) ∧
    (∀ r rest, q.output = true → q.bridge = none → ch.buf = r :: rest → partsMove s t = true →
      (ringBytes q.ring + Rec.bytes r ≤ q.capacity → exec .vqAgentAppend s =
        .next (popHead { s with vqs := s.vqs.set v { q with ring := q.ring ++ [r] } } t c)) ∧
      (q.capacity < ringBytes q.ring + Rec.bytes r → exec .vqAgentAppend s = .next s))) ∧
  (∀ (s : State) (v : Nat) (r : Rec) (q : VqRt), s.subj = .bridged v r → s.powered = true → s.vqs.get? v = some q → q.output = false →
    q.bridge.isSome = true → q.bridgeLost = false →
    (ringBytes q.ring + Rec.bytes r ≤ q.capacity → exec .bridgedRecordArrival s = .next (appendRecs s v q [r])) ∧
    (q.capacity < ringBytes q.ring + Rec.bytes r → exec .bridgedRecordArrival s = .next s)) ∧
  (∀ (s : State) (p : Fin 8), s.subj = .port p.val →
    exec .ethernetPortDown s = .next (markBridges { s with ethUp := s.ethUp.set p false }) ∧
    (p.val < s.enabled 1 8 → ∃ s1, exec .ethernetPortUp s = .next s1 ∧ s1.ethUp = s.ethUp.set p true) ∧
    (s.enabled 1 8 ≤ p.val → exec .ethernetPortUp s = .next s)) ∧
  (∀ (s : State) (t p : Nat) (tn : Tenure), s.subj = .tenure t → s.powered = true → s.tenures.get? t = some tn → tn.partner = some p →
    tn.active = true → tn.phase = .running → atBoundary s t = true →
    (ready s p = false ∨ (tn.yielded = false ∧ tn.slots < 6) → exec .segmentBoundarySwitch s =
      .next (s.modTenure t (fun x => { x with slots := tn.slots + 1 }))) ∧
    (ready s p = true → (tn.yielded = true ∨ 6 ≤ tn.slots) → residualsHeld (flushTiles s t) t = 0 →
      exec .segmentBoundarySwitch s = .next (takeTurn (flushTiles s t) p)) ∧
    (ready s p = true → (tn.yielded = true ∨ 6 ≤ tn.slots) → residualsHeld (flushTiles s t) t ≠ 0 →
      exec .segmentBoundarySwitch s = .next (flushTiles s t)))

/-! ### Translations -/

/-- R265 to R268, R387: a miss is refilled from the tables; the host's answer maps the page or fails the requests for it, of every
requester that is still there; the device OS's
answer installs the root and the entries it wrote; an invalidation waits for the accesses translated with the affected entries, and then no
copy is left.
The model's own readings in it: assumptions 24, 58. -/
def Obligations.TranslationEvents : Prop :=
  (∀ (s : State) (l : Layer) (pasid va : Nat) (e : Tlb), s.subj = .refill l pasid va → s.powered = true → Layer.caches l = true → s.tlb? l pasid va = none →
    canonical va = true → isDevice va = true → walk s pasid va = .ok e → exec .translationRefill s = .next (insertTlb s l e)) ∧
  (∀ (s : State) (l : Layer) (e : Tlb), (l, e) ∈ (insertTlb s l e).tlbs ∧
    (∀ n, layerEntries l = some n → 0 < n → ((insertTlb s l e).tlbs.filter (fun x => x.1 == l)).length ≤ n) ∧
    (∀ x ∈ s.tlbs, x.1 ≠ l → x ∈ (insertTlb s l e).tlbs)) ∧
  (∀ (s : State) (pasid va : Nat) (l : Layer), isDevice va = false → s.powered = true → (l, pasid, pageOf va) ∈ s.pageReqs →
    (s.subj = .hostPage pasid va none → ∃ s1, exec .priResponse s = .next s1 ∧ (l, pasid, pageOf va) ∉ s1.pageReqs ∧
      (l ≠ .gone → (l, pasid, pageOf va) ∈ s1.pageFails) ∧ s1.hostPages = s.hostPages) ∧
    (∀ base size pa r w, s.subj = .hostPage pasid va (some (base, size, pa, r, w)) → pageOk va base size = true →
      ∃ s1, exec .priResponse s = .next s1 ∧ (l, pasid, pageOf va) ∉ s1.pageReqs ∧ s1.pageFails = s.pageFails ∧
        ⟨pasid, base, size, pa, r, w⟩ ∈ s1.hostPages)) ∧
  (∀ (s : State) (pasid va root : Nat) (writes : List (Nat × W64)) (l : Layer), isDevice va = true → s.powered = true →
    (l, pasid, pageOf va) ∈ s.pageReqs →
    (s.subj = .osPage pasid va root writes true →
      exec .osPageResponse s = .next (answerPage (writeEntries writes { s with roots := s.roots.set pasid root }) pasid va true)) ∧
    (s.subj = .osPage pasid va root writes false → exec .osPageResponse s = .next (answerPage s pasid va false))) ∧
  (∀ (s : State) (pasid va bytes : Nat), s.subj = .pages pasid va bytes → s.powered = true →
    (translatedInFlight s pasid (va, bytes) = true → exec .atsInvalidation s = .next s) ∧
    (translatedInFlight s pasid (va, bytes) = false → ∃ s1, exec .atsInvalidation s = .next s1 ∧
      (∀ e ∈ s1.tlbs, e.2.pasid = pasid → overlaps (e.2.va, e.2.size) (va, bytes) = false) ∧
      (∀ e ∈ s.tlbs, e.2.pasid ≠ pasid → e ∈ s1.tlbs) ∧ s1.devMem = s.devMem ∧ s1.hostMem = s.hostMem))

/-! ### Accesses at their homes and their replies -/

/-- Message `m` is at its home, or its reply at its interface: it has crossed, and its tag is current (R78). -/
def atHome (s : State) (m : Nat) (x : Msg) : Prop :=
  s.subj = .msg m ∧ s.msg? m = some x ∧ x.cross = none ∧ tagCurrent s x = true

/-- R78, R272 to R274, R286, R326, R337, R342: a load is read at its home, behind the node's earlier writes to its bytes and behind what is ordered before
it, and writes its destination, its reply counted, lowering its token's count; a store's bytes are written at theirs, refused under a live gate word, or issued to the host port,
which performs them in host memory, behind every earlier one where it is told to; an atomic, ordered or not, writes its new word and answers with the old one; its reply, behind the earlier ordered ones
of its port and unit where it is ordered (R285), writes the destination, or lowers `updpend`; a
reply of a tag that is not current is dropped, and one in transit for more than 2^20 cycles is discarded; a confirming read clears the
node's doubt about its host-shared stores.
The model's own readings in it: assumptions 22, 36 (what waits for a write at the host port), 68 (a store under a live gate word is reported
imprecisely by the home), 26 (which watchpoint, and which byte of it, an access names). -/
def Obligations.MemoryEvents : Prop :=
  (∀ (s : State) (m va size pc : Nat) (x : Msg) (pa : Phys) (signed : Bool) (dst : Opnd) (tok : Option Nat), atHome s m x →
    x.kind = .load va size pa signed dst tok pc → (readWaits s x = true → exec .loadReply s = .next s) ∧
    (readWaits s x = false → replyDie s x ≠ unitDie x.home →
      exec .loadReply s = .next (reply (consume s x) x (.loadReply va size (memRead s x.t va pa size) false signed dst tok pc))) ∧
    (readWaits s x = false → replyDie s x = unitDie x.home → exec .loadReply s = .next (State.modTask
      (let k := MsgKind.loadReply va size (memRead s x.t va pa size) false signed dst tok pc
       countCon (countInj (consume s x) x.t (unitPoint x.home) k) x.t x.near k) x.t x.node (fun k =>
      let k : TaskRt := { k with pend := k.pend.filter (fun p => p != dst) }
      (k.setReg dst (loadValue signed size (memRead s x.t va pa size))).dropToken tok)))) ∧
  (∀ (s : State) (m va : Nat) (x : Msg) (bs : List Byte) (tok : Option Nat), atHome s m x → s.gens.get? (key2 x.t x.node) = none →
    (∀ a, x.kind = .store va bs (.dev a) tok → earlierOverlap s x = false → fencedOut s x.t x.issuer x.id = false →
      (clobbers (consume s x) (.dev a) bs.length = false → exec .storePerformed s =
        .next ((performAt (consume s x) x.t va (.dev a) bs).modTask x.t x.node (fun k => k.dropToken tok))) ∧
      (clobbers (consume s x) (.dev a) bs.length = true → exec .storePerformed s =
        .next (homeFault ((consume s x).modTask x.t x.node (fun k => k.dropToken tok)) x cGateClobber (BitVec.ofNat 64 va)))) ∧
    (∀ a, x.kind = .store va bs (.host a) tok → earlierOverlap s x = false → fencedOut s x.t x.issuer x.id = false → exec .storePerformed s =
      .next ((portIssue (consume s x) x false none tok a [(0, bs)]).modTask x.t x.node (fun k => k.dropToken tok))) ∧
    (∀ pa, x.kind = .store va bs pa tok → earlierOverlap s x = true ∨ fencedOut s x.t x.issuer x.id = true → exec .storePerformed s = .next s)) ∧
  (∀ (s : State) (m : Nat) (p : PortWrite), s.subj = .msg m → s.msg? m = none → s.hostPort.find? (fun p => p.id == m) = some p →
    (p.strict = false ∨ (s.hostPort.head?).map PortWrite.id = some m → exec .storePerformed s =
      .next { s with hostMem := writeSegs s.hostMem p.pa p.segs, hostPort := s.hostPort.filter (fun q => q.id != m) }) ∧
    (p.strict = true → (s.hostPort.head?).map PortWrite.id ≠ some m → exec .storePerformed s = .next s)) ∧
  (∀ (s : State) (m va size pa arg e pc : Nat) (x : Msg) (op : AtomOp) (dst : Option Opnd) (ord : Bool), atHome s m x →
    x.kind = .atomic op va size pa arg e dst ord pc → earlierOverlap s x = false → fencedOut s x.t x.issuer m = false →
    clobbers s (.dev pa) size = false →
    let old := leNat (memRead s x.t va (.dev pa) size)
    let new := atomNew op size old arg e
    exec .atomicPerform s = .next (reply (performAt ((consume s x).modTenure x.t (fun tn => tn.addHomeFlags (homePa pa).1 new.2)) x.t va (.dev pa)
      (leBytes new.1 size)) x (.atomicReply m old size dst ord ((s.tenures.get? x.t).bind (fun tn => tn.watchHit 2 va size)) pc))) ∧
  (∀ (s : State) (m req old size pc : Nat) (x : Msg) (ord : Bool), atHome s m x → expired s x = false →
    (∀ d w, x.kind = .atomicReply req old size d true w pc → earlierOrdered s x = true → exec .atomicReply s = .next s) ∧
    (∀ d, x.kind = .atomicReply req old size (some d) ord none pc → (ord = true → earlierOrdered s x = false) → exec .atomicReply s =
      .next ((consume s x).modTask x.t x.node (fun k =>
        { TaskRt.setReg { k with atoms := k.atoms.filter (fun a => a.1 != req) } d (atomValue size old) with
          pend := k.pend.filter (fun p => p != d) }))) ∧
    (x.kind = .atomicReply req old size none false none pc → exec .atomicReply s =
      .next ((consume s x).modTask x.t x.node (fun k =>
        { k with atoms := k.atoms.filter (fun a => a.1 != req), updpend := k.updpend - 1 })))) ∧
  (∀ (s : State) (m : Nat) (x : Msg), s.subj = .msg m → s.msg? m = some x → x.kind.isReply = true →
    (x.cross = none → tagCurrent s x = false → exec .replyArrival s = .next (s.dropMsg m)) ∧
    (x.cross = none → tagCurrent s x = true → x.sent + 1048576 < s.nowOn (replyDie s x) → exec .replyArrival s = .next (s.dropMsg m)) ∧
    (x.cross = none → tagCurrent s x = true → expired s x = false → x.kind = .accAck → exec .replyArrival s = exec .accumulateAcknowledgement s) ∧
    (x.sent + 1048576 < s.nowOn (replyDie s x) → exec .replyExpiry s = .next (s.dropMsg m)) ∧
    (s.nowOn (replyDie s x) ≤ x.sent + 1048576 → exec .replyExpiry s = .next s)) ∧
  (∀ (s : State) (t n : Nat) (k : TaskRt), s.subj = .node t n → s.tasks.get? (key2 t n) = some k → k.wait = .confirm →
    (hostStoresOut s t (some n) = false → exec .confirmingReadCompletion s =
      .next { s with tasks := s.tasks.set (key2 t n) { k with wait := .none, hostDirty := false } }) ∧
    (hostStoresOut s t (some n) = true → exec .confirmingReadCompletion s = .next s))

/-- R285, R290, R293, R296 to R298: an accumulate within its port's quota, or with no other port in the window, is performed at its home and
acknowledged; beyond it, it is refused with its whole partial; one under a live gate word is not performed and its node reported; a flush is always performed; an acknowledgement lowers `updpend`, and a
refused partial enters the sender's tile, in no cycle in which an accumulate to its word has left before (R301); an old residual leaves on the flush lane; an interval's end clears a unit's counts.
The model's own readings in it: assumptions 36 (what waits for a write at the host port), 68 (the report of an accumulate under a live gate
word), 26 (which watchpoint, and which byte of it, an access names). -/
def Obligations.AccumulateEvents : Prop :=
  (∀ (s : State) (m wid va : Nat) (x : Msg) (pa : Option Nat) (part : W128) (flags : BitVec 8), atHome s m x →
    let quota := ((s.tenures.get? x.t).bind (fun tn => tn.win? wid)).elim 0 WinE.quota
    let now := s.nowOn (unitDie x.home)
    let q := ((s.units.getD x.home (QuotaRt.fresh now)).at_ now).see x.t wid (sourcePort x)
    let s1 := consume s x
    (x.kind = .acc wid va pa part flags → fencedOut s x.t x.issuer m = false → q.refuses x.t wid (sourcePort x) quota = true → exec .accumulateArrival s =
      .next (reply { s1 with units := s1.units.set x.home q } x (.refusal wid va pa part flags))) ∧
    (x.kind = .acc wid va pa part flags → fencedOut s x.t x.issuer m = false → q.refuses x.t wid (sourcePort x) quota = false →
      let s2 : State := { s1 with units := s1.units.set x.home (q.accept x.t wid (sourcePort x)) }
      (pa.any (fun a => clobbers s2 (.dev a) 16) = false → exec .accumulateArrival s =
        .next (accWatch (reply (wakeWaiters (accPerform s2 x.t wid va pa (part, flags))) x .accAck) x wid va)) ∧
      (pa.any (fun a => clobbers s2 (.dev a) 16) = true → exec .accumulateArrival s =
        .next (reply (partialFault s2 x wid cGateClobber 7 (BitVec.ofNat 64 va) false) x .accAck))) ∧
    (x.kind = .flush wid va pa part flags → fencedOut s x.t x.issuer m = false → pa.any (fun a => clobbers s1 (.dev a) 16) = false → exec .flushDelivery s =
      .next (accWatch (reply (wakeWaiters (accPerform s1 x.t wid va pa (part, flags))) x .accAck) x wid va)) ∧
    (x.kind = .accAck → expired s x = false → x.lighter = none → exec .accumulateAcknowledgement s =
      .next (s1.modTask x.t x.node (fun k => { k with updpend := k.updpend - 1 }))) ∧
    (x.kind = .refusal wid va pa part flags → expired s x = false → lateRefusal s x wid va = true → exec .refusalReply s = .next s) ∧
    (∀ k tn, x.kind = .refusal wid va pa part flags → expired s x = false → x.lighter = none → lateRefusal s x wid va = false → s1.tasks.get? (key2 x.t x.node) = some k →
      s1.tenures.get? x.t = some tn → (∀ e ∈ k.tile, cellSet e.addr ≠ cellSet va) → exec .refusalReply s =
        .next { s1 with tasks := s1.tasks.set (key2 x.t x.node) { k with
          tile := k.tile ++ [⟨wid, va, part, flags, s.nowOn (replyDie s x)⟩], updpend := k.updpend - 1 } })) ∧
  (∀ (q : QuotaRt) (t wid port quota : Nat), (q.refuses t wid port quota = true ↔
    quota ≠ 0 ∧ quota ≤ q.countOf t wid port ∧ ∃ x ∈ q.seen, x.1 = t ∧ x.2.1 = wid ∧ x.2.2 ≠ port)) ∧
  (∀ (s : State) (t n addr : Nat) (k : TaskRt) (tn : Tenure) (r : Residual), s.subj = .residual (.cell t n) addr →
    s.tasks.get? (key2 t n) = some k → s.tenures.get? t = some tn →
    k.tile.find? (fun r => r.addr == addr && decide (r.born + 65536 ≤ s.nowOn (tn.dieOf n))) = some r → k.updpend ≠ 255 →
    exec .residualAgeExpiry s = .next (flushOne { s with tasks := s.tasks.set (key2 t n) { k with
      tile := k.tile.filter (fun e => e != r), updpend := k.updpend + 1 } } t n none (tn.dieOf n) r)) ∧
  (∀ (s : State) (u : Nat) (q : QuotaRt), s.subj = .unit u → s.units.get? u = some q →
    (q.start + 256 ≤ s.nowOn (unitDie u) →
      exec .acceptanceIntervalEnd s = .next { s with units := s.units.set u ⟨[], [], s.nowOn (unitDie u) / 256 * 256⟩ }) ∧
    (s.nowOn (unitDie u) < q.start + 256 → exec .acceptanceIntervalEnd s = .next { s with units := s.units.set u q }))

/-! ### Gates, combine trees and waves -/

/-- R306 to R308, R314, R315, R320 to R322, R327: an arrival, behind a time-out that came before it, is counted by its gate, which opens at its full count and owes each output a Permit,
and by no gate that has halted; an early arrival beyond the count waits for the end of its cycle, for an opening in that cycle comes first; a
gate that has waited its time-out faults once that cycle is over; a contribution that completes its round is combined and passed on, and a round that has waited
its time-out passes on as a partial; a wave starts when its period has passed or a request is pending; its passes visit the counting points one by one or
together, and its verdict falls after the second pass.
The model's own readings in it: assumptions 13, 14, 39, 41, 47 (timers run on while the tenure's other plane runs), 69 (a pound with records
left of which nothing can move is stalled), 14 (a wave during which a loss came does not end stalled). -/
def Obligations.GatesTreesAndWaves : Prop :=
  (∀ (s : State) (m g n : Nat) (x : Msg) (par : Bool) (r : GateRt), atHome s m x → x.kind = .gateArr g n par →
    (partsLand s x.t = false → exec .gateArrival s = .next s) ∧
    (partsLand s x.t = true →
      let s0 := gateExpire x.t g s
      s0.gates.get? (key2 x.t g) = some r →
      let now := gateCycle s0 x.t g
      (r.halted = true → exec .gateArrival s = .next (consume s0 x)) ∧
      (r.halted = false → r.defers now n par = true → exec .gateArrival s =
        .next { s0 with gates := s0.gates.set (key2 x.t g) { r with excess := some (r.excess.getD now) } }) ∧
      (r.halted = false → r.defers now n par = false →
        let after := GateRt.arrive { r with excess := none } (gateNow s0 x.t g) n par
        let s2 := countArr { consume s0 x with gates := (consume s0 x).gates.set (key2 x.t g) after.1 } x.t m g
          (r.gen + if par = bitOf r.gen 0 then 1 else 2)
        (after.2 = false → exec .gateArrival s = .next s2) ∧
        (after.2 = true → exec .gateArrival s = .next (nodeFault s2 x.t g cGateOverrun (gateOverrunArg after.1)))))) ∧
  (∀ (r : GateRt) (now n : Nat) (par : Bool), r.defers now n par = true ↔
    par ≠ bitOf r.gen 0 ∧ r.count < r.early + n ∧ ∀ c, r.excess = some c → now ≤ c) ∧
  (∀ (r : GateRt) (now n : Nat) (par : Bool), r.arrived < r.count →
    (par = bitOf r.gen 0 → r.arrived + n < r.count →
      (r.arrive now n par).2 = false ∧ (r.arrive now n par).1.arrived = r.arrived + n ∧ (r.arrive now n par).1.gen = r.gen) ∧
    (par = bitOf r.gen 0 → r.arrived + n = r.count → r.early < r.count → (r.arrive now n par).1.gen = (r.gen + 1) % 2 ^ 32 ∧
      (r.arrive now n par).1.arrived = r.early ∧ (r.arrive now n par).1.early = 0) ∧
    (par ≠ bitOf r.gen 0 → r.early + n ≤ r.count →
      (r.arrive now n par).2 = false ∧ (r.arrive now n par).1.early = r.early + n ∧ (r.arrive now n par).1.arrived = r.arrived)) ∧
  (∀ (s : State) (t g port c owed : Nat) (r : GateRt), s.subj = .gate t g port → s.gates.get? (key2 t g) = some r → r.halted = false →
    partsMove s t = true → r.outs.find? (fun o => o.1 == port) = some (port, c, owed) → owed ≠ 0 →
    0 < ((s.chan? t c).map ChanRt.free).getD 0 → exec .gatePermit s = .next (sendRec { s with
      gates := s.gates.set (key2 t g) { r with
        outs := r.outs.map (fun o => if o.1 == port then (o.1, o.2.1, o.2.2 - min owed 64) else o) } }
      t c (Rec.follow (madeRec tPermit (r.gen % 65536) (min owed 64)) (openedOrd s t g r.gen)))) ∧
  (∀ (s : State) (t g start : Nat) (r : GateRt), s.subj = .node t g → s.gates.get? (key2 t g) = some r → r.timer = some start →
    r.halted = false → partsMove s t = true →
    (start + 2 ^ (10 + r.texp) < gateNow s t g → exec .gateTimeout s =
      .next (nodeFault s t g cGateTimeout (BitVec.ofNat 64 (r.arrived + r.gid * 65536)))) ∧
    (gateNow s t g ≤ start + 2 ^ (10 + r.texp) → exec .gateTimeout s = .next s)) ∧
  (∀ (s : State) (m tree k slot round : Nat) (x : Msg) (us : List W64) (miss : Option Missing) (tn : Tenure) (tr : TreeE), atHome s m x →
    x.kind = .contrib tree k slot round us miss → partsLand s x.t = true →
    let s0 := consume (combineExpire x.t tree k (combineExpire x.t tree k s)) x
    s0.tenures.get? x.t = some tn → tn.tree? tree = some tr →
    exec .contributionArrival s = .next (enterRound s0 x.t tn tr k slot round us miss)) ∧
  (∀ (s : State) (t k slot round : Nat) (tn : Tenure) (x : TreeE) (us : List W64) (miss : Option Missing) (c : CombRt),
    s.combs.get? (combKey t x.tree k) = some c → c.done.contains round = false → (∀ r ∈ c.rounds, r.round ≠ round) →
    (x.nch k ≤ 1 → enterRound s t tn x k slot round us miss = closeRound
      { s with combs := s.combs.set (combKey t x.tree k) { c with rounds := ⟨round, [(slot, us, miss)], combNow s t tn x.tree k⟩ :: c.rounds } } t tn x k
      ⟨round, [(slot, us, miss)], combNow s t tn x.tree k⟩) ∧
    (1 < x.nch k → enterRound s t tn x k slot round us miss =
      { s with combs := s.combs.set (combKey t x.tree k) { c with rounds := ⟨round, [(slot, us, miss)], combNow s t tn x.tree k⟩ :: c.rounds } })) ∧
  (∀ (s : State) (t tree k : Nat) (tn : Tenure) (c : CombRt) (x : TreeE) (r : Round), s.subj = .entry t tree k →
    s.tenures.get? t = some tn → s.combs.get? (combKey t tree k) = some c → tn.tree? tree = some x → x.texp ≠ 15 →
    c.rounds.find? (fun r => decide (r.start + 2 ^ (10 + x.texp) < combNow s t tn tree k)) = some r →
    (partsMove s t = true → exec .combineTimeout s = .next (combineExpire t tree k s)) ∧
    combineExpire t tree k s = forwardRound { s with combs := s.combs.set (combKey t tree k) { c with
        rounds := c.rounds.filter (fun q => q.round != r.round), done := r.round :: c.done } } t tn x k r.round
      (x.combineAll ((bySlot r.kids).map (fun c => c.2.1))) (lowerMissing (some (k, x.missMask k r)) r.missing)) ∧
  (∀ (s : State) (t : Nat) (tn : Tenure), s.subj = .tenure t → s.tenures.get? t = some tn → wavesRun s t = true →
    (tn.wave = none → quietPending s t true = false → quietPending s t false = false →
      (tn.lastWave + tn.lk.wper.toNat ≤ s.nowOn tn.baseDie → exec .wavePeriod s = .next (startWave s t true)) ∧
      (s.nowOn tn.baseDie < tn.lastWave + tn.lk.wper.toNat → exec .wavePeriod s = .next s) ∧ exec .wavePass s = .next s) ∧
    (tn.wave = none → quietPending s t true = true → exec .wavePass s = .next (startWave s t true)) ∧
    (∀ w, tn.wave = some w → w.first = none → exec .wavePass s =
      .next (s.modTenure t (fun y => { y with wave := some (WaveSt.start w.graph (some (sumsOf s t w))) }))) ∧
    (∀ w y, tn.wave = some w → w.first = some y →
      (leftBehind y (sumsOf s t w) = false ∨ verdict y (sumsOf s t w) ≠ .busy → (verdict y (sumsOf s t w) ≠ .stalled ∨ lossAhead s t tn = false) →
        exec .wavePass s = .next (waveVerdict s t w.graph (verdict y (sumsOf s t w)) (sumsOf s t w))) ∧
      (leftBehind y (sumsOf s t w) = true → verdict y (sumsOf s t w) = .busy → lossAhead s t tn = false →
        exec .wavePass s = .next (waveVerdict s t w.graph .stalled (sumsOf s t w))) ∧
      (lossAhead s t tn = true → (leftBehind y (sumsOf s t w) = true ∧ verdict y (sumsOf s t w) = .busy ∨ verdict y (sumsOf s t w) = .stalled) →
        exec .wavePass s = .next (waveVerdict s t w.graph .busy (sumsOf s t w))))) ∧
  (∀ (s : State) (t p : Nat) (tn : Tenure) (w : WaveSt), s.subj = .node t p → s.tenures.get? t = some tn → wavesRun s t = true →
    tn.wave = some w → exec .wavePass s = .next (s.modTenure t (fun y => { y with wave := some (if p ∈ w.seen then w else
      { w with seen := p :: w.seen, part := w.part.add (pointsAt s t tn w.graph (fun q => q == p)) }) })))

/-! ### Operators -/

/-- The inputs of an operator as its firing sees them. -/
def insOf (s : State) (t : Nat) (o : OperRt) : List FireIn := fireIns s t o.inCh.toList 0

/-- Operator `n` of tenure `t`, of code `code`, may fire: it is not halted, its tenure moves, nothing stands at its inputs that is discarded,
and no record of another operator's types does (R206, R418). -/
def operAt (s : State) (t n : Nat) (o : OperRt) (code : Nat) : Prop :=
  s.subj = .node t n ∧ s.opers.get? (key2 t n) = some o ∧ o.halted = false ∧ partsMove s t = true ∧ wOp o.word = code ∧
  operClear s t o = s ∧ foreignHead (insOf s t o) = none

/-- Every output of a firing has a free slot, and every record of it can be formed (R35, R38, R50). -/
def canSend (s : State) (t : Nat) (o : OperRt) (outs : List (Nat × Rec)) : Prop :=
  hasRoom s t o.outCh (outs.map Prod.fst) = true ∧ firstFormFault s t o.outCh outs = none

/-- The state after a firing: the heads of `takes` are used, `outs` are sent, each following on what those heads follow on (R339), and nothing
else changes. -/
def fired (s : State) (t : Nat) (o : OperRt) (takes : List Nat) (outs : List (Nat × Rec)) : State :=
  sendOuts (takeHeads s t (insOf s t o) takes) t o.outCh (outs.map (fun e => (e.1, Rec.follow e.2 (takenOrd (insOf s t o) takes))))

/-- The head records of the inputs that are not resident, in port order. -/
def streamHeads (s : State) (t : Nat) (o : OperRt) : List Rec := ((insOf s t o).filter (fun i => !i.resident)).filterMap FireIn.head

/-- A data firing is due: a record at every input, Data at each that is not resident, no permission refused, a slot on every output. -/
def dataDue (s : State) (t : Nat) (o : OperRt) : Prop :=
  (∀ i ∈ insOf s t o, i.head.isSome = true) ∧ (∀ r ∈ streamHeads s t o, rType r = tData) ∧
  (∀ i ∈ insOf s t o, deniesFiring s t i = false) ∧ hasRoom s t o.outCh (boundPorts o.outCh) = true

/-- R205 to R212, R221, R222: an arithmetic operator, a conversion and a compare-exchange use one record of every input and send their result;
equal control tokens on all inputs go to every output once, and Nulls, or Data of which one is a permission with carg 0, make a Null on every output; a record of a foreign type halts the
operator with OPERAND_MISMATCH.
The model's own readings in it: assumptions 9, 20, 63. -/
def Obligations.OperatorFirings : Prop :=
  (∀ (s : State) (t n code : Nat) (o : OperRt) (x r : Rec), operAt s t n o code → 1 ≤ code → code ≤ 0x0F → dataDue s t o →
    headAt (insOf s t o) 0 = some x → arithRec o.word o.fmt x (headAt (insOf s t o) 1) (headAt (insOf s t o) 2) = .ok r →
    canSend s t o [(0, r)] → exec .arithmeticFiring s = .next (fired s t o ((insOf s t o).map FireIn.port) [(0, r)])) ∧
  (∀ (s : State) (t n : Nat) (o : OperRt) (x : Rec), dataDue s t o → headAt (insOf s t o) 0 = some x →
    (operAt s t n o 0x20 → canSend s t o [(0, convertRec o.word o.fmt x)] →
      exec .convert s = .next (fired s t o ((insOf s t o).map FireIn.port) [(0, convertRec o.word o.fmt x)])) ∧
    (∀ r, operAt s t n o 0x21 → mxPackRec o.word o.fmt x = .ok r → canSend s t o [(0, r)] →
      exec .mxPack s = .next (fired s t o ((insOf s t o).map FireIn.port) [(0, r)])) ∧
    (operAt s t n o 0x22 → canSend s t o [(0, mxUnpackRec o.word o.fmt x)] →
      exec .mxUnpack s = .next (fired s t o ((insOf s t o).map FireIn.port) [(0, mxUnpackRec o.word o.fmt x)])) ∧
    (∀ y a b, operAt s t n o 0x39 → headAt (insOf s t o) 1 = some y →
      exchangeRecs (wFmt o.word) (bitOf o.word 96) x y = .ok (a, b) →
      canSend s t o [(0, a), (1, b)] →
      exec .compareExchange s = .next (fired s t o ((insOf s t o).map FireIn.port) [(0, a), (1, b)]))) ∧
  (∀ (s : State) (t n code : Nat) (o : OperRt) (lead : Rec) (rest : List Rec), operAt s t n o code → code ≤ 0x22 →
    (∀ i ∈ insOf s t o, i.head.isSome = true) → streamHeads s t o = lead :: rest →
    (isToken lead = true → (∀ r ∈ rest, sameToken lead r = true) → canSend s t o (copies (boundPorts o.outCh) lead) →
      exec .controlTokenFiring s = .next (fired s t o (((insOf s t o).filter (fun i => !i.resident)).map FireIn.port)
        (copies (boundPorts o.outCh) lead))) ∧
    ((∀ r ∈ lead :: rest, rType r = tNull) → canSend s t o (copies (boundPorts o.outCh) (madeNull lead.hdr)) →
      exec .nullFiring s =
        .next (fired s t o ((insOf s t o).map FireIn.port) (copies (boundPorts o.outCh) (madeNull lead.hdr)))) ∧
    ((∀ r ∈ lead :: rest, rType r = tData) → (∃ i ∈ insOf s t o, i.resident = false ∧ deniesFiring s t i = true) →
      canSend s t o (copies (boundPorts o.outCh) (madeNull lead.hdr)) → exec .nullFiring s =
        .next (fired s t o ((insOf s t o).map FireIn.port) (copies (boundPorts o.outCh) (madeNull lead.hdr))))) ∧
  (∀ (s : State) (t n : Nat) (o : OperRt) (r : Rec), s.subj = .node t n → s.opers.get? (key2 t n) = some o → o.halted = false →
    partsMove s t = true → operClear s t o = s → foreignHead (insOf s t o) = some r → passesForeign (wOp o.word) = false →
    exec (operTag (wOp o.word)) s = .next (nodeFault s t n cOperand (seqArg r)))

/-- The inputs of a stream operator as it sees them: to one that does not pass every record unchanged, a permission with carg 0 is a Null
(R222). -/
def seenBy (s : State) (t : Nat) (o : OperRt) : List FireIn :=
  if [0x31, 0x32, 0x33, 0x35, 0x36, 0x38, 0x3A, 0x3B, 0x3C, 0x3E].contains (wOp o.word) then (insOf s t o).map (denied s t) else insOf s t o

/-- R214 to R223, R309, R317: the stream operators: where the head record goes by the decision, the order, the window or the count that each
keeps, and how its own state moves on.
The model's own readings in it: assumptions 10, 19, 20, 63, 84 (a token at the side that a merge's decision selects is a mismatch also beside
an empty side), 85 (no head enters a reorder's window while the record in turn is there). -/
def Obligations.StreamOperators : Prop :=
  (∀ (s : State) (t n : Nat) (o : OperRt) (r : Rec), headAt (seenBy s t o) 0 = some r →
    (operAt s t n o 0x30 → canSend s t o (copies (boundPorts o.outCh) r) →
      exec .fork s = .next (fired s t o [0] (copies (boundPorts o.outCh) r))) ∧
    (∀ c u us, headAt (seenBy s t o) 1 = some c → c.units = u :: us → isToken r = false →
      let b := bitOf u.toNat 0 != bitOf o.word 97
      let null (p : List Nat) : List (Nat × Rec) := if bitOf o.word 96 then copies p (madeNull r.hdr) else []
      (operAt s t n o 0x31 → let outs := (if b then (1, r) else (0, r)) :: null [if b then 0 else 1]
        canSend s t o outs → exec .steer s = .next (fired s t o [0, 1] outs)) ∧
      (operAt s t n o 0x3B → let outs := if b then [(0, r)] else null [0]
        canSend s t o outs → exec .filter s = .next (fired s t o [0, 1] outs))) ∧
    (operAt s t n o 0x3C → rType r = tData →
      let k := dataRec (wFmt o.word) (hSeq r.hdr) (hCarg r.hdr) [BitVec.ofNat 64 o.word]
      canSend s t o [(0, k)] → exec .constantSource s = .next (fired s t o [0] [(0, k)])) ∧
    (operAt s t n o 0x3D → exec .sink s = .next (fired s t o [0] [])) ∧
    (operAt s t n o 0x3E → isToken r = false → canSend s t o [(0, r)] →
      (o.copies + 1 < bitsOf o.word 96 16 →
        exec .repeat_ s = .next ((fired s t o [] [(0, r)]).setOper t n { o with copies := o.copies + 1 })) ∧
      (o.copies + 1 = bitsOf o.word 96 16 → bitsOf o.word 92 4 = 0 →
        exec .repeat_ s = .next ((fired s t o [0] [(0, r)]).setOper t n { o with copies := 0 }))) ∧
    (operAt s t n o 0x35 → isToken r = false → let x : Rec := { r with hdr := hWithSeq r.hdr o.ctr }
      canSend s t o [(0, x)] → exec .sequenceTag s =
        .next ((fired s t o [0] [(0, x)]).setOper t n { o with ctr := (o.ctr + bitsOf o.word 80 16) % 65536 })) ∧
    (operAt s t n o 0x37 → canSend s t o [(0, r)] →
      (tapSelects o.word r = false → exec .tap s = .next (fired s t o [0] [(0, r)])) ∧
      (∀ g tn, tapSelects o.word r = true → gateAt (fired s t o [0] [(0, r)]) t (bitsOf o.word 32 32) = some g →
        (fired s t o [0] [(0, r)]).tenures.get? t = some tn → exec .tap s =
          let s1 := (fired s t o [0] [(0, r)]).setOper t n { o with par := !o.par }
          .next (sendMsg (markArr s1 t s1.nextMsg (fun p => r.ord.contains p.id)) t n none (tn.dieOf n)
            (unitDie (tn.sliceUnit g)) (tn.sliceUnit g) (.gateArr g (bitsOf o.word 88 8) o.par)))) ∧
    (∀ tn x leaf parent slot, operAt s t n o 0x38 → rType r = tData → s.tenures.get? t = some tn → tn.tree? (bitsOf o.word 80 16) = some x →
      x.leaves[bitsOf o.word 64 16]? = some (leaf, parent, slot) → hLen r.hdr = x.ulen → pathHolds s t x parent o.ctr = false →
      exec .combineSend s = .next (sendMsg ((fired s t o [0] []).setOper t n { o with ctr := o.ctr + 1 }) t n none (tn.dieOf n)
        (unitDie (tn.combUnit x.tree parent)) (tn.combUnit x.tree parent) (.contrib x.tree parent slot o.ctr r.units none)))) ∧
  (∀ (s : State) (t n : Nat) (o : OperRt) (c h : Rec) (u : W64) (us : List W64), operAt s t n o 0x32 → headAt (seenBy s t o) 2 = some c →
    c.units = u :: us → isToken h = false → let p := if bitOf u.toNat 0 then 1 else 0
    headAt (seenBy s t o) p = some h → canSend s t o [(0, h)] → exec .merge s = .next (fired s t o [p, 2] [(0, h)])) ∧
  (∀ (s : State) (t n : Nat) (o : OperRt) (c h : Rec) (u : W64) (us : List W64), operAt s t n o 0x32 → headAt (seenBy s t o) 2 = some c →
    c.units = u :: us → isToken h = true → let p := if bitOf u.toNat 0 then 1 else 0
    headAt (seenBy s t o) p = some h → headAt (seenBy s t o) (1 - p) = none → exec .merge s = .next (nodeFault s t n cMerge (seqArg h))) ∧
  (∀ (s : State) (t n : Nat) (o : OperRt) (x y : Rec), headAt (seenBy s t o) 0 = some x → headAt (seenBy s t o) 1 = some y →
    (operAt s t n o 0x32 → isToken x = true → sameToken x y = true → canSend s t o [(0, x)] →
      exec .merge s = .next (fired s t o [0, 1] [(0, x)])) ∧
    (operAt s t n o 0x33 → isToken x = false → isToken y = false → rType x = tNull → canSend s t o [(0, y)] →
      exec .nullMerge s = .next (fired s t o [0, 1] [(0, y)])) ∧
    (operAt s t n o 0x33 → isToken x = false → isToken y = false → rType x ≠ tNull → rType y = tNull → canSend s t o [(0, x)] →
      exec .nullMerge s = .next (fired s t o [0, 1] [(0, x)])) ∧
    (operAt s t n o 0x33 → isToken x = false → isToken y = false → rType x ≠ tNull → rType y ≠ tNull →
      exec .nullMerge s = .next (nodeFault s t n cMerge (seqArg y))) ∧
    (∀ u us, operAt s t n o 0x3A → o.drain = false → isToken x = false → y.units = u :: us → hSeq x.hdr = hSeq y.hdr →
      let go := bitOf u.toNat 0
      let outs := [(if go then 0 else 1, x), (2, permissionRec x go)]
      canSend s t o outs →
      exec .loopExitDrain s = .next ((fired s t o [0, 1] outs).setOper t n { o with drain := !go, last := 0 }))) ∧
  (∀ (s : State) (t n p : Nat) (o : OperRt) (r : Rec), operAt s t n o 0x34 →
    (fairOrder o (bitsOf o.word 96 4 + 1)).find? (fun p => (headAt (insOf s t o) p).isSome) = some p → headAt (insOf s t o) p = some r →
    rType r = tData → canSend s t o [(0, r)] → exec .fairMerge s =
      .next ((fired s t o [p] [(0, r)]).setOper t n { o with last := (p + 1) % (bitsOf o.word 96 4 + 1) })) ∧
  (∀ (s : State) (t n : Nat) (o : OperRt) (r : Rec), operAt s t n o 0x36 →
    (o.window.find? (fun q => hSeq q.hdr == o.ctr) = some r → canSend s t o [(0, r)] → exec .reorder s =
      .next ((fired s t o [] [(0, r)]).setOper t n { o with
        ctr := (o.ctr + 1) % 65536, window := o.window.filter (fun q => hSeq q.hdr != o.ctr) })) ∧
    ((∀ q ∈ o.window, hSeq q.hdr ≠ o.ctr ∧ hSeq q.hdr ≠ hSeq r.hdr) → headAt (seenBy s t o) 0 = some r → isToken r = false →
      (hSeq r.hdr + 65536 - o.ctr) % 65536 < bitsOf o.word 96 6 + 1 → exec .reorder s =
        .next ((fired s t o [0] []).setOper t n { o with window := o.window ++ [r] })))
/-! ### Generators, controllers and matrix nodes -/

/-- Generator `n` of tenure `t` may fire, nothing standing at its resident inputs that is discarded, and no record of a foreign type. -/
def genAt (s : State) (t n : Nat) (g : GenRt) : Prop :=
  s.subj = .node t n ∧ s.gens.get? (key2 t n) = some g ∧ g.halted = false ∧ partsMove s t = true ∧
  clearInputs s t [] (fireIns s t g.inCh.toList 0) = s ∧ foreignHead (fireIns s t g.inCh.toList 0) = none

/-- The nest of a generator whose inputs are `ins`: the one in progress, or one that the start record at its head begins, once `i1` holds a record
where the generator takes one (R225); the state then has the accesses of the nest come after what the start record follows on (R339). -/
def nestIs (ins : List FireIn) (s : State) (t n : Nat) (g : GenRt) (x : Nest) (s0 : State) : Prop :=
  (g.nest = some x ∧ s0 = s) ∨
  (g.nest = none ∧ ∃ r u, headAt ins 0 = some r ∧ isToken r = false ∧ rType r ≠ tNull ∧ r.units = [u] ∧ u.toNat % g.ebytes = 0 ∧
    ((g.op = 0x42 ∨ g.mode = 1) → (headAt ins 1).isSome = true) ∧ gatherPass g ins = none ∧ x = g.startNest u r ∧ s0 = orderNest s t n r)

/-- The state after a generator sends the record `r` and its nest goes on as `next`: the heads that the firing uses are used, and the record follows
on what they follow on (R339). -/
def genSent (ins : List FireIn) (s : State) (t n : Nat) (g : GenRt) (x : Nest) (one : Bool) (r : Rec) (next : Option Nest) : State :=
  (sendOuts (takeHeads s t ins (x.uses one next)) t g.outCh [(0, Rec.follow r (takenOrd ins (x.uses one next)))]).setNest t n g next

/-- The record of `g` can be sent now. -/
def genCan (s : State) (t : Nat) (g : GenRt) (r : Rec) : Prop :=
  hasRoom s t g.outCh [0] = true ∧ firstFormFault s t g.outCh [(0, r)] = none

/-- The events of the generators. -/
def streamEvents : List (Nat × Instr) := [(0x40, .bankStream), (0x41, .globalStream), (0x42, .globalGather)]

/-- R225, R226, R344: what a generator reads. A read generator with a run's record due reads a bank at once, and global memory by one access for each
element of the run, issued in order and performed at its home like any other access, the reads of later runs ahead of the record of this one; the record
of the run holds the elements in their order, and is sent once every answer is there; at the end of its nest the generator uses the start record; a bank
address outside the partition halts it; what a gather passes it takes from its two inputs in turn. -/
def generatorReads : Prop :=
  (∀ e ∈ [(0x40, Instr.bankStream), (0x41, Instr.globalStream)], ∀ (s s0 : State) (t n : Nat) (g : GenRt) (x : Nest), genAt s t n g →
    let ins := fireIns s t g.inCh.toList 0
    nestIs ins s t n g x s0 → g.op = e.1 → g.mode ≠ 1 → (e.1 = 0x41 → g.mode = 2) → x.phase = 1 → g.outside (g.addrs x none) = none →
    let r := Rec.follow (g.outRec x.seq (g.atOnce (g.addrs x none))) x.ord
    genCan s0 t g r → exec e.2 s = .next (genSent ins s0 t n g x false r (g.afterRecord x))) ∧
  (∀ (g : GenRt) (as : List Int), (g.mode ≠ 2 → g.atOnce as = as.map (fun a => leNat (g.bank.read a.toNat g.ebytes))) ∧
    (g.mode = 2 → g.atOnce as = as.map (fun a => wrapInt a 64))) ∧
  (∀ (s s0 : State) (t n : Nat) (g : GenRt) (x : Nest), genAt s t n g →
    let ins := fireIns s t g.inCh.toList 0
    nestIs ins s t n g x s0 → g.op = 0x41 → g.mode = 0 → x.phase = 1 →
    let c := g.count 0
    let r := Rec.follow (g.outRec x.seq (x.elems (x.run * c) c)) x.ord
    (∀ s1, x.whole (x.run * c) c = false → hasRoom s0 t g.outCh [0] = true → x.asked < g.runs 3 * c →
      let next := x.asked / c
      genRead t n g ((g.addrs { x with run := next } none).drop (x.asked - next * c)) x.asked s0 = .all s1 →
      exec .globalStream s = .next (s1.setNest t n g (some { x with asked := (next + 1) * c }))) ∧
    (x.whole (x.run * c) c = false → g.runs 3 * c ≤ x.asked → exec .globalStream s = .next s) ∧
    (x.whole (x.run * c) c = true → genCan s0 t g r → exec .globalStream s = .next (genSent ins s0 t n g x false r (g.afterRecord x)))) ∧
  (∀ (s : State) (t n k : Nat) (g : GenRt) (a : Int) (rest : List Int) (pa : Phys) (tn : Tenure), s.tenures.get? t = some tn →
    genXlate s t n a false = .ok pa → tn.watchHit 6 a.toNat g.ebytes = none →
    genRead t n g [] k s = .all s ∧
    genRead t n g (a :: rest) k s = genRead t n g rest (k + 1) (sendMsg s t n none (tn.dieOf n) (unitDie (physUnit pa)) (physUnit pa)
      (.genLoad k a.toNat g.ebytes pa))) ∧
  (∀ (s : State) (m idx va : Nat) (x : Msg) (bs : List Byte), atHome s m x → x.kind = .genReply idx va bs false → expired s x = false →
    exec .loadReply s = .next { consume s x with gens := (consume s x).gens.modify (key2 x.t x.node) (fun g =>
      { g with nest := g.nest.map (fun y => { y with got := y.got.set idx (leNat bs) }) }) }) ∧
  (∀ (s s0 : State) (t n : Nat) (g : GenRt) (x : Nest) (a : Int), genAt s t n g → nestIs (fireIns s t g.inCh.toList 0) s t n g x s0 → g.op = 0x40 →
    x.phase = 1 → g.outside (g.addrs x none) = some a → exec .bankStream s = .next (nodeFault s t n cBankRange (BitVec.ofInt 64 a))) ∧
  (∀ (s s0 : State) (t n : Nat) (g : GenRt) (x : Nest) (i : Rec), genAt s t n g →
    let ins := fireIns s t g.inCh.toList 0
    nestIs ins s t n g x s0 → g.op = 0x42 → g.mode = 0 → x.phase = 1 → x.held = none → headAt ins 1 = some i → isToken i = false → rType i ≠ tNull →
    let as := (elemsOf 32 i.units).map (fun (j : Nat) => (x.base : Int) + j * g.stride 0)
    let s1 := orderRec s0 t n i
    let r := Rec.follow (g.outRec x.seq (x.elems 0 as.length)) (x.ord ++ i.ord)
    (∀ s2, x.whole 0 as.length = false → x.asked < as.length → hasRoom s1 t g.outCh [0] = true →
      genRead t n g (as.drop x.asked) x.asked s1 = .all s2 →
      exec .globalGather s = .next (s2.setNest t n g (some { x with asked := as.length }))) ∧
    (x.whole 0 as.length = true → genCan s1 t g r →
      exec .globalGather s = .next (genSent ins s1 t n { g with last := 0 } x true r (g.afterRecord x)))) ∧
  (∀ (s : State) (t n p : Nat) (g : GenRt) (r : Rec), genAt s t n g →
    let ins := fireIns s t g.inCh.toList 0
    gatherPass g ins = some (p, r) → genCan s t g r → exec .globalGather s =
      .next ((sendOuts (takeHeads s t ins [p]) t g.outCh [(0, Rec.follow r (takenOrd ins [p]))]).setNest t n { g with last := (p + 1) % 2 } g.nest))

/-- R225, R226: what a generator writes. In write mode the record of `i1` holds the elements of the run, which are stored one after another, into the
bank at once, or into global memory by an access each; a record of another length halts it, and no record is emitted for the run. A completion record, of
fmt Raw, waits for its stores, in host memory too. -/
def generatorWrites : Prop :=
  (∀ e ∈ [(0x40, Instr.bankStream), (0x41, Instr.globalStream)], ∀ (s s0 : State) (t n : Nat) (g : GenRt) (x : Nest) (i : Rec), genAt s t n g →
    let ins := fireIns s t g.inCh.toList 0
    nestIs ins s t n g x s0 → g.op = e.1 → g.mode = 1 → x.phase = 1 → x.held = none → headAt ins 1 = some i →
    g.outside (g.addrs x none) = none →
    let es := (g.addrs x none).zip (elemsOf (fmtBits g.efmt) i.units)
    let next := g.afterRecord x
    let s1 := orderRec s0 t n i
    (hLen i.hdr ≠ g.outUnits (g.count 0) → exec e.2 s = .next (nodeFault s t n cRecordLength i.hdr)) ∧
    (hLen i.hdr = g.outUnits (g.count 0) →
      (e.1 = 0x40 → exec e.2 s =
        .next ((takeHeads s1 t ins (x.uses true next)).setNest t n { g with bank := bankWrite g.bank g.ebytes es } next)) ∧
      (∀ s2, e.1 = 0x41 → genWrite t n g (es.drop x.asked) x.asked s1 = .all s2 →
        exec e.2 s = .next ((takeHeads s2 t ins (x.uses true next)).setNest t n g next)))) ∧
  (∀ (m : Memory) (size : Nat) (a : Int) (v : Nat) (es : List (Int × Nat)), bankWrite m size [] = m ∧
    bankWrite m size ((a, v) :: es) = bankWrite (m.write a.toNat (leBytes v size)) size es) ∧
  (∀ (s : State) (t n k v : Nat) (g : GenRt) (a : Int) (es : List (Int × Nat)) (pa : Phys) (tn : Tenure), s.tenures.get? t = some tn →
    genXlate s t n a true = .ok pa → genWrite t n g [] k s = .all s ∧
    genWrite t n g ((a, v) :: es) k s = genWrite t n g es (k + 1) (sendMsg s t n none (tn.dieOf n) (unitDie (physUnit pa)) (physUnit pa)
      (.store a.toNat (leBytes v g.ebytes) pa none))) ∧
  (∀ (s : State) (t n : Nat) (g : GenRt) (x : Nest), genAt s t n g → g.nest = some x → x.phase = 3 → g.bs = false →
    (accessPending s t n = true ∨ hostStoresOut s t (some n) = true → exec .generatorCompletion s = .next s) ∧
    (accessPending s t n = false → hostStoresOut s t (some n) = false →
      let r := Rec.follow (dataRec 0 x.seq 0 []) x.ord
      genCan s t g r →
      exec .generatorCompletion s = .next (genSent (fireIns s t g.inCh.toList 0) s t n { g with made := g.made + 1 } x false r none)))

/-- R225, R226: how a nest starts and goes on. An address in a start record that the element size does not divide halts the generator with
STREAM_ALIGN (one that has not one unit, with RECORD_LENGTH: the model's choice, assumption 97); a nest that stands between a bow and a stern begins with
the bow, and otherwise with its first run; the dim_end follows the record of the run at which its level's index returns to 0, and the stern the last. -/
def generatorNests : Prop :=
  (∀ e ∈ streamEvents, ∀ (s : State) (t n : Nat) (g : GenRt) (r : Rec), genAt s t n g →
    let ins := fireIns s t g.inCh.toList 0
    g.op = e.1 → gatherPass g ins = none → g.nest = none → headAt ins 0 = some r → isToken r = false → rType r ≠ tNull →
    (∀ u, r.units = [u] → u.toNat % g.ebytes ≠ 0 → exec e.2 s = .next (nodeFault s t n cStreamAlign u)) ∧
    ((∀ u, r.units ≠ [u]) → exec e.2 s = .next (nodeFault s t n cRecordLength r.hdr)) ∧
    (∀ u, r.units = [u] → u.toNat % g.ebytes = 0 → (g.op = 0x42 ∨ g.mode = 1) → headAt ins 1 = none → exec e.2 s = .next s)) ∧
  (∀ (g : GenRt) (u : W64) (r : Rec), (g.startNest u r).base = u.toNat ∧ (g.startNest u r).seq = hSeq r.hdr ∧ (g.startNest u r).run = 0 ∧
    (g.startNest u r).asked = 0 ∧ (g.startNest u r).got = [] ∧ (g.startNest u r).ord = r.ord ∧
    (g.startNest u r).phase = (if g.bs = true then 0 else 1)) ∧
  (∀ e ∈ streamEvents, ∀ (s s0 : State) (t n : Nat) (g : GenRt) (x : Nest), genAt s t n g →
    let ins := fireIns s t g.inCh.toList 0
    nestIs ins s t n g x s0 → g.op = e.1 →
    let sends (r : Rec) (next : Option Nest) : Prop := genCan s0 t g (Rec.follow r x.ord) →
      exec e.2 s = .next (genSent ins s0 t n { g with made := g.made + 1 } x false (Rec.follow r x.ord) next)
    (x.phase = 0 → sends (g.token n x tBow 0) (some { x with phase := 1 })) ∧
    (x.phase = 2 → sends (g.token n x tDimEnd ((g.dimEnd x.run).getD 1)) (g.nextRun x)) ∧
    (x.phase = 4 → sends (g.token n x tStern 0) none)) ∧
  (∀ (g : GenRt) (x : Nest), (g.mode ≠ 1 → g.op ≠ 0x42 → (g.dimEnd x.run).isSome = true → ∃ y, g.afterRecord x = some y ∧ y.phase = 2 ∧ y.run = x.run) ∧
    (g.op ≠ 0x42 → (g.mode = 1 ∨ g.dimEnd x.run = none) → x.run + 1 < g.runs 3 →
      ∃ y, g.afterRecord x = some y ∧ y.phase = 1 ∧ y.run = x.run + 1) ∧
    (x.run + 1 = g.runs 3 → g.mode = 1 → ∃ y, g.afterRecord x = some y ∧ y.phase = 3) ∧
    (g.nextRun x = none → g.mode ≠ 1 ∧ g.bs = false ∧ (g.op = 0x42 ∨ g.runs 3 ≤ x.run + 1)))

/-- R225, R226, R344: the firings of a generator. -/
def generatorFirings : Prop := generatorReads ∧ generatorWrites ∧ generatorNests

/-- R46, R51, R227, R228: a controller that serves no Permit takes its parent's, after which input 0 is in turn, and asks for its iterations; a child's Done is counted, the children served in turn; both let it
grant and report as far as it can; a record out of order halts it with CONTROL_ORDER. The Permits that each kind of controller grants. -/
def controllerFirings : Prop :=
  (∀ (s : State) (t n : Nat) (c : CtrlRt), s.subj = .node t n → s.ctrls.get? (key2 t n) = some c → c.halted = false → partsMove s t = true →
    let ins := fireIns s t c.inCh.toList 0
    (∀ i r, ctrlOffence c ins = none → c.want = 0 → ins.find? (fun i => i.port == 15) = some i → i.head = some r →
      exec .controllerPermit s = .next (ctrlAdvance (popHead s t i.chan) t n { c with
          want := c.asked (hCarg r.hdr), last := 0, ord := c.ord ++ r.ord })) ∧
    (∀ i, ctrlOffence c ins = none → roundRobin c.last ins (fun i => i.port != 15) = some i →
      ins.find? (fun j => j.port == i.port) = some i → exec .controllerDone s =
        .next (ctrlAdvance (popHead s t i.chan) t n { c with
          returned := bump c.returned i.port 1, last := i.port + 1, ord := c.ord ++ takenOrd ins [i.port] })) ∧
    (∀ r, ctrlOffence c ins = some r → exec .controllerPermit s = .next (nodeFault s t n cControlOrder (seqArg r)) ∧
      exec .controllerDone s = .next (nodeFault s t n cControlOrder (seqArg r)))) ∧
  (∀ (start : Nat) (ins : List FireIn) (ok : FireIn → Bool),
    ((∃ i ∈ ins, ok i = true ∧ i.head.isSome = true) → (roundRobin start ins ok).isSome = true) ∧
    (∀ i, roundRobin start ins ok = some i → i ∈ ins ∧ ok i = true ∧ i.head.isSome = true ∧
      ((∃ j ∈ ins, ok j = true ∧ j.head.isSome = true ∧ start ≤ j.port) → start ≤ i.port))) ∧
  (∀ (c : CtrlRt) (m : Nat), (wOp c.word = 0x52 → c.asked m = 1) ∧ (wOp c.word ≠ 0x52 → c.asked m = m * c.iters)) ∧
  (∀ (c : CtrlRt) (k : Nat),
    (wOp c.word = 0x50 → c.due k = (if c.iss k < c.want ∧ (if k = 0 then c.iss 0 ≤ c.ret (c.children - 1) else c.iss k < c.ret (k - 1))
      then 1 else 0)) ∧
    (wOp c.word = 0x51 → c.due k ≤ 64 ∧ c.due k ≤ c.want - c.iss k ∧ c.due k ≤ c.depth - (c.iss k - c.ret k) ∧
      (c.chain = true → k ≠ 0 → c.due k ≤ c.ret (k - 1) - c.iss k)))

/-- R46, R225 to R228: the firings of generators and of controllers.
The model's own readings in it: assumptions 11, 12, 87 (one start record of a gather serves one index record), 88 (a gather's inputs pass in
turn), 97 (a start record that has not one unit), 36 (what a record follows on). -/
def Obligations.GeneratorsAndControllers : Prop := generatorFirings ∧ controllerFirings

/-- Matrix node `n` of tenure `t` may act, and it is a sort or not. -/
def matAt (s : State) (t n : Nat) (m : MatRt) (sorts : Bool) : Prop :=
  s.subj = .node t n ∧ s.mats.get? (key2 t n) = some m ∧ m.halted = false ∧ m.sorts = sorts ∧ partsMove s t = true

/-- R242 to R249, R252: a column enters the buffer that fills; a row enters the activation buffer, and counts as consumed, or a resident one as used, when
it has fired (R37, R253); the oldest row fires against a full buffer:
accumulator (r, k) takes the products of the row with column k, rounded once for each, or once in all for exact-dot, no other accumulator
changes, and the row's live bit is set; a drain sends a row of accumulators; commands drain and clear; a Null row
leaves accumulators and live bits; a control token passes; a sort sends its pairs in the order of their keys,
equal keys as they came.
The model's own readings in it: assumption 31. -/
def Obligations.MatrixFirings : Prop :=
  (∀ (s : State) (t n c : Nat) (m : MatRt) (x : Rec) (b : WBuf), matAt s t n m false → portChan m.inCh 1 = some c → matHead s t m 1 = some x →
    rType x = tData → m.wbufs[m.wfill]? = some b → b.full = false → (m.wkeep = true → ∀ w ∈ m.wbufs, w.full = false) →
    x.units.length = matUnits m.wfmt m.K →
    let full := decide (m.N ≤ b.cols.length + 1)
    exec .weightColumn s = .next (useHead (s.setMat t n { m with
      wbufs := m.wbufs.set m.wfill { cols := b.cols ++ [x.units], full := full },
      wfill := if full then (m.wfill + 1) % m.wdepth else m.wfill }) t c)) ∧
  (∀ (s : State) (t n c : Nat) (m : MatRt) (x : Rec) (ch : ChanRt), matAt s t n m false → portChan m.inCh 0 = some c →
    matHead s t m 0 = some x → s.chan? t c = some ch → ch.resident = false →
    (rType x = tData → hFmt x.hdr = m.afmt → m.rows.length < m.adepth → x.units.length = matUnits m.afmt m.K →
      exec .activationRow s = .next ((s.setMat t n { m with rows := m.rows ++ [x] }).modChan t c ChanRt.pop)) ∧
    (rType x = tNull → m.settled = true → m.weights.full = true →
      exec .nullRow s = .next (useHead (s.setMat t n (m.fireNull x)) t c)) ∧
    (isToken x = true → m.settled = true → hasRoom s t m.outCh [0] = true →
      exec .matrixControlToken s = .next (matUse (sendOuts s t m.outCh [(0, x)]) t m 0)) ∧
    (rType x = tData → m.settled = true → hFmt x.hdr = 0 → x.units.length = 2 →
      (unitsNat x.units = 0x0C * 2 ^ 120 → exec .mmClear s = .next (useHead (s.setMat t n m.clearAcc.afterCommand) t c)) ∧
      (∀ keep : Bool, unitsNat x.units = 0x0B * 2 ^ 120 + (if keep then 2 ^ 96 else 0) → exec .mmDrain s =
        .next (s.setMat t n { m with
          drain := some { row := 0, clear := !keep, cmd := true, gone := false, ord := x.ord } })))) ∧
  (∀ (s : State) (t n c : Nat) (m : MatRt) (x : Rec) (ch : ChanRt), matAt s t n m false → portChan m.inCh 0 = some c →
    matHead s t m 0 = some x → s.chan? t c = some ch → ch.resident = true → rType x = tData → hFmt x.hdr = m.afmt → m.rows.length < m.adepth →
    x.units.length = matUnits m.afmt m.K →
    (m.rows = [] → exec .activationRow s = .next (s.setMat t n { m with rows := [x] })) ∧
    (m.rows ≠ [] → exec .activationRow s = .next s)) ∧
  (∀ (s : State) (t n c : Nat) (m : MatRt) (x : Rec) (rest : List Rec) (ch : ChanRt), matAt s t n m false → m.rows = x :: rest → m.drain = none →
    m.weights.full = true → portChan m.inCh 0 = some c → s.chan? t c = some ch →
    let s1 := s.setMat t n (MatRt.fireRow { m with rows := rest } x)
    (ch.resident = false → exec .rowFiring s = .next (s1.modTenure t (fun tn => tn.conP n 1))) ∧
    (ch.resident = true → exec .rowFiring s = .next (useHead s1 t c))) ∧
  (∀ (m : MatRt) (x : Rec), m.r + 1 < m.M → (m.fireRow x).r = m.r + 1 ∧ (m.fireRow x).live.get? m.r = some true ∧
    (m.fireRow x).seqreg.get? m.r = some (hSeq x.hdr) ∧ (m.fireRow x).wbufs = m.wbufs ∧
    (m.fireNull x).acc = m.acc ∧ (m.fireNull x).live = m.live ∧ (m.fireNull x).r = m.r + 1) ∧
  (∀ (m : MatRt) (x : Rec),
    let row := matVals m.afmt m.K (if m.afmt = 1 ∨ m.afmt = 2 then none else m.scale 0) x.units
    (∀ k col, m.weights.cols[k]? = some col → (m.fireRow x).acc.getD (m.r * m.N + k) 0 =
      dotStep (wOp m.word == 8) (m.acc.getD (m.r * m.N + k) 0) (matProducts m row col)) ∧
    (∀ j, (j < m.r * m.N ∨ m.r * m.N + m.weights.cols.length ≤ j) → (m.fireRow x).acc.getD j 0 = m.acc.getD j 0)) ∧
  (∀ (c : W32) (p : XReal) (ps : List XReal), dotStep false c [] = c ∧
    dotStep false c (p :: ps) = dotStep false (BitVec.ofNat 32 (FFmt.fp32.rnd ((FFmt.fp32.decode c.toNat).add p)).1) ps ∧
    dotStep true c ps = BitVec.ofNat 32 (FFmt.fp32.rnd (exactSum (FFmt.fp32.decode c.toNat :: ps))).1) ∧
  (∀ (m : MatRt) (row : List XReal) (col : List W64) (k : Nat) (a : XReal), row[k]? = some a →
    (m.wfmt ≠ 0x20 → ∀ b, (matVals m.wfmt m.K (m.scale 1) col)[k]? = some b → (matProducts m row col)[k]? = some (a.mul b)) ∧
    (m.wfmt = 0x20 → ∀ b, (elemsOf 8 col)[k]? = some b → (matProducts m row col)[k]? = some (twMul a b))) ∧
  (∀ (s : State) (t n : Nat) (m : MatRt) (d : MatDrain), matAt s t n m false → m.drain = some d → hasRoom s t m.outCh [0] = true →
    formFault s t m.outCh 0 (drainRec m d.row) = none → d.row + 1 < m.M →
    exec .mmDrain s =
      .next ((sendOuts s t m.outCh [(0, Rec.follow (drainRec m d.row) d.ord)]).setMat t n { m with drain := some { d with row := d.row + 1 } })) ∧
  (∀ (s : State) (t n : Nat) (m : MatRt), matAt s t n m true → clearInputs s t [] (fireIns s t m.inCh.toList 0) = s →
    let ins := fireIns s t m.inCh.toList 0
    foreignHead ins = none → (∀ i ∈ ins, ∃ r, i.head = some r ∧ (i.resident = false → rType r = tData)) →
    hasRoom s t m.outCh (boundPorts m.outCh) = true → ∀ x, headAt ins 0 = some x →
    (∀ outs, sortRecs m x (headAt ins 1) = .ok outs → hasRoom s t m.outCh (outs.map Prod.fst) = true → firstFormFault s t m.outCh outs = none →
      exec .sort s = .next (sendOuts (takeHeads s t ins (ins.map FireIn.port)) t m.outCh
        (outs.map (fun e => (e.1, Rec.follow e.2 (takenOrd ins (ins.map FireIn.port))))))) ∧
    (∀ code arg, sortRecs m x (headAt ins 1) = .error (code, arg) → exec .sort s = .next (nodeFault s t n code arg))) ∧
  (∀ (m : MatRt) (x : Rec) (y : Option Rec),
    let keys := elemsOf (fmtBits m.afmt) x.units
    let toks := y.elim (List.range keys.length) (fun r => elemsOf (fmtBits m.wfmt) r.units)
    let order := (sortPairs (sortsBefore m.afmt (bitOf m.word 103)) (keys.zip toks)).take (min (bitsOf m.word 97 6) keys.length)
    let out (fmt : Nat) (xs : List Nat) : Rec := dataRec fmt (hSeq x.hdr) (min (bitsOf m.word 97 6) keys.length)
      (packElems (fmtBits fmt) (ceilDiv (min (bitsOf m.word 97 6) keys.length * fmtBits fmt) 64) xs)
    (keys.length = 0 ∨ 32 < keys.length → sortRecs m x y = .error (cRecordLength, x.hdr)) ∧
    (0 < keys.length → keys.length ≤ 32 → toks.length ≠ keys.length → ∃ a, sortRecs m x y = .error (cOperand, a)) ∧
    (0 < keys.length → keys.length ≤ 32 → toks.length = keys.length → sortRecs m x y = .ok ((0, out m.afmt (order.map Prod.fst)) ::
      (if wOp m.word = 0x0A then [(1, out m.wfmt (order.map Prod.snd))] else [])))) ∧
  (∀ (fmt : Nat) (up : Bool) (xs : List (Nat × Nat)), (sortPairs (sortsBefore fmt up) xs).Perm xs ∧
    (sortPairs (sortsBefore fmt up) xs).Pairwise (fun a b => sortsBefore fmt up b a = false) ∧
    (∀ k, let same : Nat × Nat → Bool := fun p => !sortsBefore fmt up p k && !sortsBefore fmt up k p
      (sortPairs (sortsBefore fmt up) xs).filter same = xs.filter same))
/-! ### Lighters -/

/-- Channel `c` of tenure `t` stands at the port of a lighter, under binding `b`, with head record `x`, and the parts of the tenure move. -/
def portHead (s : State) (t c : Nat) (tn : Tenure) (ch : ChanRt) (b : Binding) (x : Rec) : Prop :=
  s.subj = .chan t c ∧ s.tenures.get? t = some tn ∧ s.chan? t c = some ch ∧ tn.binds.get? c = some b ∧ ch.buf.head? = some x ∧
  ch.e.dst = extEnd ∧ partsMove s t = true

/-- Request `q` is held by lighter `lt` for a tenure whose parts move. -/
def heldReq (s : State) (lt : Nat) (q : LReq) (tn : Tenure) : Prop :=
  req? s lt q.id = some q ∧ s.tenures.get? q.t = some tn ∧ partsMove s q.t = true

/-- R276, R295: a lighter takes the head of a channel bound to its port. A control token or Null is consumed; a well-formed Transfer request
of the port with tk = 0 is injected where there is room; another record raises XFER_REQUEST at the producer. A record of an accumulate
stream has its elements accumulated one after another, behind what the record follows on (R339), a target that is misaligned or outside the window halts the stream with ACC_RANGE,
and at a stern what the lighter holds for the tenure is flushed. -/
def lighterRecords : Prop :=
  (∀ (s : State) (t c port : Nat) (tn : Tenure) (ch : ChanRt) (x : Rec), portHead s t c tn ch (.xfer port) x →
    let lt := s.lighterOf tn ch.e.src port
    let u (k : Nat) : W64 := x.units[k]?.getD 0
    let q := LReq.ofUnits 0 t ch.e.src (u 0) (u 1) (u 2) (u 3)
    (isToken x = true ∨ rType x = tNull → exec .transferRequestRecord s = .next (popHead s t c)) ∧
    (isToken x = false → rType x = tXfer → hCarg x.hdr = port → q.tk = false → q.malformed tn = false → lighterRoom s lt = true →
      exec .transferRequestRecord s = .next (injectReq (popHead s t c) t ch.e.src lt (u 0) (u 1) (u 2) (u 3))) ∧
    (isToken x = false → rType x ≠ tNull → (rType x ≠ tXfer ∨ hCarg x.hdr ≠ port ∨ q.tk = true ∨ q.malformed tn = true) →
      exec .transferRequestRecord s = .next (engineFault (popHead s t c) t cXferRequest 6 ch.e.src lt (u 0)))) ∧
  (∀ (s : State) (t c port wid : Nat) (tn : Tenure) (ch : ChanRt) (x : Rec), portHead s t c tn ch (.accs port wid) x →
    tn.haltedStreams.contains c = false →
    let lt := s.lighterOf tn ch.e.src port
    let halted := (popHead s t c).modTenure t (fun y => { y with haltedStreams := c :: y.haltedStreams })
    (rType x = tStern → exec .accumulateStreamRecord s = .next (flushLighter (popHead s t c) t lt)) ∧
    (rType x ≠ tStern → isToken x = true ∨ rType x = tNull → exec .accumulateStreamRecord s = .next (popHead s t c)) ∧
    (isToken x = false → rType x = tData → ∀ (va : W64) (us : List W64) (f : EFmt) (w : WinE), x.units = va :: us →
      accFmt? (hFmt x.hdr) = some f → tn.win? wid = some w → canonical va.toNat = true →
      (∀ i, va.toNat % 16 = 0 → winIndex? (tn.wbaseOf w) w.count va.toNat = some i →
        let run := streamElems (popHead s t c) t c ch.e.src lt tn w f i (elemsOf f.width us)
        (∀ s1, run = .ok s1 → exec .accumulateStreamRecord s =
          .next (recAhead s1 t ((List.range (s1.nextMsg - s.nextMsg)).map (s.nextMsg + ·)) x)) ∧
        (run = .error none → exec .accumulateStreamRecord s = .next s) ∧
        (∀ a, run = .error (some a) → exec .accumulateStreamRecord s = .next (askPage s (.accs lt t) tn.pasid a))) ∧
      (va.toNat % 16 ≠ 0 ∨ winIndex? (tn.wbaseOf w) w.count va.toNat = none → exec .accumulateStreamRecord s =
        .next (engineFault halted t cAccRange 6 ch.e.src lt (accArg wid va.toNat))))) ∧
  (∀ (s : State) (t c node lt i x : Nat) (xs : List Nat) (tn : Tenure) (w : WinE) (f : EFmt) (va : Nat) (pa : Option Nat),
    streamWord s t tn lt w i = .go va pa → streamElems s t c node lt tn w f i (x :: xs) =
      streamElems (lighterAcc s t node lt tn w va pa (accPartial w.e0 (f.decode x))) t c node lt tn w f (i + 1) xs)

/-- What request `q` reads for the pieces of a block. -/
def pieceSource (q : LReq) (ps : List Piece) : List (Int × Nat) := ps.map (fun p => (q.srcRow p.row + (p.off : Int), p.len))

/-- R277, R278, R344, R346: a request starts in its turn. One burst writes all bytes that a request has in an aligned 64-byte block, from
whichever rows: its source is read, behind what is ordered before the request, no read crossing a block, a read over a die pair without a live
module lost (R396), and its block write is sent once every byte of it is there; a page fault at
the destination or at the source, or an uncorrectable error, stops the request with no further byte. Behind the last payload byte the
completion word is written, one in device memory once the payload is performed in host memory (R280), and behind that the request completes,
one with tk = 0 once its writes are performed in host memory (R337); a stopped request ends once nothing of it is in flight. A completed
request leaves its lighter. -/
def lighterRequests : Prop :=
  (∀ (s : State) (lt : Nat) (q : LReq), s.subj = .request lt q.id → req? s lt q.id = some q → q.started = false →
    (mayStart s lt q.id = true → exec .lighterRequest s = .next
      (let s1 := modReq s lt q.id (fun r => { r with started := true })
       { s1 with lighters := s1.lighters.modify lt (fun l => { l with lastTenure := q.t }) })) ∧
    (mayStart s lt q.id = false → exec .lighterRequest s = .next s)) ∧
  (∀ (s : State) (lt blk : Nat) (ue : Bool) (q : LReq) (tn : Tenure) (p : Piece) (ps : List Piece), s.subj = .burst lt q.id blk ue →
    heldReq s lt q tn → q.mayBurst blk = true → q.xfen = false → q.pieces tn blk = p :: ps →
    (∀ pa, lighterAccess s lt q.id tn.pasid true (blockAddr blk + (p.at_ : Int)) = .ok pa →
      let s1 := gatherAll s tn lt q.id blk (pieceSource q (p :: ps)) ue
      ∀ q1, req? s1 lt q.id = some q1 →
        (q1.stopped = false → (q1.part blk).length = srcLen (pieceSource q (p :: ps)) → exec .lighterRequest s =
          .next (sendBlock s1 q1 lt blk (blockAddr blk).toNat (cutPieces (p :: ps) (q1.part blk)) (pa.back p.at_))) ∧
        (q1.stopped = true ∨ (q1.part blk).length ≠ srcLen (pieceSource q (p :: ps)) → exec .lighterRequest s = .next s1)) ∧
    (∀ code arg, lighterAccess s lt q.id tn.pasid true (blockAddr blk + (p.at_ : Int)) = .fault code arg →
      exec .lighterRequest s = .next (stopReq s lt q.id code arg))) ∧
  (∀ (s : State) (tn : Tenure) (lt key n fuel : Nat) (src : List (Int × Nat)) (va : Int) (q : LReq), req? s lt q.id = some q →
    q.stopped = false → q.lost.contains key = false → nextRead src (q.part key).length = some (va, n) →
    (∀ ue, fencedOut s q.t none q.id = true → gather tn lt q.id key src ue (fuel + 1) s = s) ∧
    (∀ pa ue, fencedOut s q.t none q.id = false → lighterAccess s lt q.id tn.pasid false va = .ok pa →
      pairLost s (lt / 12) (unitDie (physUnit pa)) = true →
      gather tn lt q.id key src ue (fuel + 1) s = loseRead s q.t lt q.id key (unitDie (physUnit pa))) ∧
    (∀ pa, fencedOut s q.t none q.id = false → lighterAccess s lt q.id tn.pasid false va = .ok pa →
      pairLost s (lt / 12) (unitDie (physUnit pa)) = false →
      (tn.watchHit 4 va.toNat n = none → gather tn lt q.id key src false (fuel + 1) s = gather tn lt q.id key src false fuel
        (modReq s lt q.id (fun r => { r with parts := r.parts.set key (r.part key ++ memRead s q.t va.toNat pa n) }))) ∧
      gather tn lt q.id key src true (fuel + 1) s = stopReq s lt q.id cMemoryUe (BitVec.ofInt 64 va)) ∧
    (∀ code arg ue, fencedOut s q.t none q.id = false → lighterAccess s lt q.id tn.pasid false va = .fault code arg →
      gather tn lt q.id key src ue (fuel + 1) s = stopReq s lt q.id code arg)) ∧
  (∀ (src : List (Int × Nat)) (got n : Nat) (va : Int), nextRead src got = some (va, n) →
    0 < n ∧ (va % 64).toNat + n ≤ 64 ∧ ∃ e ∈ src, e.1 ≤ va ∧ va + (n : Int) ≤ e.1 + (e.2 : Int)) ∧
  (∀ (q : LReq) (tn : Tenure) (b : Nat), ∀ p ∈ q.pieces tn b, p.row < q.rows ∧ 0 < p.len ∧ p.at_ + p.len ≤ 64 ∧
    p.off + p.len ≤ q.dstBytes tn ∧ q.dstRow p.row + (p.off : Int) = blockAddr b + (p.at_ : Int)) ∧
  (∀ (q : LReq) (tn : Tenure) (r j : Nat), r < q.rows → j < q.dstBytes tn → 0 ≤ q.dstRow r + (j : Int) → q.dstRow r + (j : Int) < 2 ^ 57 →
    ∃ p ∈ q.pieces tn (blockOf (q.dstRow r + (j : Int))), p.row = r ∧ p.off ≤ j ∧ j < p.off + p.len) ∧
  (∀ (s : State) (lt : Nat) (q : LReq) (tn : Tenure), s.subj = .request lt q.id → req? s lt q.id = some q → s.tenures.get? q.t = some tn →
    q.started = true → q.out = [] →
    (q.stopped = true → exec .lighterComplete s = .next (finishReq s lt q)) ∧
    (q.stopped = false → payloadDone s tn q = true → partsMove s q.t = true →
      (q.cwen = true → q.done.contains cwBurst = false → isDevice ((q.dst : Int) + q.cwoff).toNat = true → reqPortOut s lt q.id = true →
        exec .lighterComplete s = .next s) ∧
      (∀ pa, q.cwen = true → q.done.contains cwBurst = false →
        (isDevice ((q.dst : Int) + q.cwoff).toNat = true → reqPortOut s lt q.id = false) → lighterAccess s lt q.id tn.pasid true ((q.dst : Int) + q.cwoff) = .ok pa → exec .lighterComplete s =
          .next (sendBlock s q lt cwBurst ((q.dst : Int) + q.cwoff).toNat [(0, leBytes q.cval 8)] pa)) ∧
      (q.cwen = false ∨ q.done.contains cwBurst = true →
        (q.tk = true ∨ reqPortOut s lt q.id = false → exec .lighterComplete s = .next (finishReq s lt q)) ∧
        (q.tk = false → reqPortOut s lt q.id = true → exec .lighterComplete s = .next s))) ∧
    (q.stopped = false → payloadDone s tn q = false → exec .lighterComplete s = .next s)) ∧
  (∀ (s : State) (tn : Tenure) (q : LReq), payloadDone s tn q = true →
    q.out = [] ∧ ∀ r, r < q.rows → ∀ b ∈ q.rowBlocks tn r, b ∈ q.done) ∧
  (∀ (s : State) (lt : Nat) (q : LReq), req? (finishReq s lt q) lt q.id = none)

/-- R277, R279, R282: the row in a transform, which goes on while fewer than four blocks of the request are in flight. Its next output record is taken, and belongs to the row unless it is a token or Null; with none there,
the next piece of the source row is sent; once no more output can come a row whose output is whole gives way to the next, and one whose output is
short breaks the ratio, as does output beyond the row's. -/
def transformRows : Prop :=
  ∀ (s : State) (lt i o a b : Nat) (q : LReq) (tn : Tenure) (co : ChanRt), s.subj = .request lt q.id → heldReq s lt q tn → q.started = true →
    q.stopped = false → q.xfen = true → tn.transform? q.xf = some (i, o, a, b) → s.chan? q.t o = some co →
    (4 ≤ q.out.length → exec .transformRow s = .next s) ∧
    (q.out.length < 4 → let got := q.got.getD q.row []
    (∀ x r, co.buf = x :: r → let taken := recAhead (popHead s q.t o) q.t [q.id] x
      (isToken x = true ∨ rType x = tNull → exec .transformRow s = .next taken) ∧
      (isToken x = false → rType x ≠ tNull → x.units ≠ [] →
        (q.row < q.rows → got.length + 8 * x.units.length ≤ q.dstBytes tn → exec .transformRow s = .next
          (modReq taken lt q.id (fun y => { y with got := y.got.set q.row (got ++ unitBytes x.units) }))) ∧
        (q.rows ≤ q.row ∨ q.dstBytes tn < got.length + 8 * x.units.length →
          exec .transformRow s = .next (badRatio taken lt q)))) ∧
    (co.buf = [] → q.row < q.rows →
      (q.rowbytes ≤ q.sent → transformStill s q.t tn i o = false → exec .transformRow s = .next s) ∧
      (q.rowbytes ≤ q.sent → transformStill s q.t tn i o = true →
        (got.length = q.dstBytes tn →
          exec .transformRow s = .next (modReq s lt q.id (fun r => { r with row := r.row + 1, sent := 0 }))) ∧
        (got.length ≠ q.dstBytes tn → exec .transformRow s = .next (badRatio s lt q))) ∧
      (∀ ci, q.sent < q.rowbytes → s.chan? q.t i = some ci → 0 < ci.e.width → 0 < ci.free →
        let n := min (8 * ci.e.width) (q.rowbytes - q.sent)
        let s1 := gatherAll s tn lt q.id xfPart [(q.srcRow q.row + (q.sent : Int), n)] false
        ∀ q1, req? s1 lt q.id = some q1 → q1.stopped = false → (q1.part xfPart).length = n →
          exec .transformRow s = .next (sendRec (modReq s1 lt q.id (fun r => { r with sent := q.sent + n, parts := r.parts.erase xfPart }))
            q.t i (dataRec 0 q.row 0 (bytesUnits (q1.part xfPart)))))))

/-- R276 to R279, R295: what a lighter does with the records of its channels, with its requests, and with the rows of a transform.
The model's own readings in it: assumptions 35, 36, 37, 66 (a lost read), 69 (when no more output can come). -/
def Obligations.LighterEvents : Prop := lighterRecords ∧ lighterRequests ∧ transformRows

/-! ### Links, and the stages of dawn -/

/-- A management message answered, with the type and code that the model gives it. -/
def answered (s : State) (type code : Nat) (body : List Nat) : State :=
  { s with mctp := s.mctp ++ [{ type := type, code := code, body := body }] }

/-- The flit that stands next on the wire of module `k`, which sends. -/
def nextFlit (s : State) (src dst k : Nat) (m : ModRt) (f : Flit) (rest : List Flit) : Prop :=
  (s.linkOf src dst).mods[k]? = some m ∧ m.sends = true ∧ m.wire = f :: rest

/-- R392 to R395: a flit that the wire has not changed passes its CRC; one that matches is accepted, and its packet taken once it is whole; a
duplicate is discarded silently; a gap, and a failed CRC, are answered with a replay of all that is not acknowledged. Packets are handed on
in pair-sequence order, and one that was handed on before is discarded. A module that has retrained runs at 32 lanes and replays; one that
fails to train is retired, its unacknowledged packets to be sent again; with no live module, all that waits is written off. -/
def linkEvents : Prop :=
  (∀ f : Flit, f.crcHolds 0 = true ∧ f.seqRead 0 = f.fseq) ∧
  (∀ (s : State) (src dst k : Nat) (m : ModRt) (f : Flit) (rest : List Flit) (noise : BitVec 576), nextFlit s src dst k m f rest →
    s.subj = .flit src dst k noise →
    let taken := modWay s src dst k (fun m => { m with wire := rest, received := m.received + 1 })
    let again := modWay taken src dst k ModRt.replayed
    (f.crcHolds noise = false → exec .flitReceive s = .next (pumpLink (crcFailure again src dst k) src dst)) ∧
    (f.crcHolds noise = true → f.seqRead noise = m.expect →
      let s1 := modWay taken src dst k ModRt.accepted
      let arrived := packetArrives (s1.linkOf src dst) s1 f.pkt
      (f.part + 1 ≠ f.pkt.flits → exec .flitReceive s = .next (pumpLink s1 src dst)) ∧
      (f.part + 1 = f.pkt.flits → exec .flitReceive s =
        .next (pumpLink { arrived.2 with links := arrived.2.links.set (linkKey src dst) arrived.1 } src dst))) ∧
    (f.crcHolds noise = true → f.seqRead noise ≠ m.expect →
      ((m.expect - f.seqRead noise).toNat ≤ 512 → exec .flitReceive s = .next (pumpLink taken src dst)) ∧
      (512 < (m.expect - f.seqRead noise).toNat → exec .flitReceive s = .next (pumpLink again src dst)))) ∧
  (∀ a b : Nat, a < 4294967296 → b < 4294967296 →
    (seqBefore a b = true ↔ ∃ d, 0 < d ∧ d ≤ 2147483648 ∧ b = (a + d) % 4294967296)) ∧
  (∀ (l : LinkRt) (s : State) (p : Packet),
    (seqBefore p.pseq l.expect = true → packetArrives l s p = (l, s)) ∧
    (p.pseq = l.expect → l.expect < 4294967296 → l.held = [] →
      packetArrives l s p = ({ l with expect := (l.expect + 1) % 4294967296 }, crossed s p.msg))) ∧
  (∀ (s : State) (src dst k : Nat) (ok : Bool) (m : ModRt), s.subj = .retrain src dst k ok → (s.linkOf src dst).mods[k]? = some m →
    m.st = .retraining →
    (ok = true → exec .retrainComplete s = .next (pumpPair (logModule (modModule s src dst k
      (fun m => { m with st := .half, wasHalf := true, nak := false, wire := m.replay })) src dst k .half) src dst)) ∧
    (ok = false → exec .retrainComplete s = .next (retireModule s src dst k))) ∧
  (∀ (s : State) (src dst k : Nat) (m : ModRt), (s.linkOf src dst).mods[k]? = some m →
    let s1 := retireWay s src dst k
    ((s1.linkOf src dst).mods[k]?).map ModRt.st = some .retired ∧
    (s1.linkOf src dst).queue = packetsOf m.replay ++ (s.linkOf src dst).queue) ∧
  (∀ (s : State) (src dst : Nat), (∀ m ∈ (s.linkOf src dst).mods, m.st = .retired) →
    let l := s.linkOf src dst
    pumpLink s src dst = writeOffAll src dst (l.held ++ l.queue)
      { s with links := s.links.set (linkKey src dst) { l with held := [], queue := [] } })

/-- R388, R389, R396: a function-level reset and a surprise link-down stop every tenure, destroy every queue and release every virtual queue, and
the registers take their Reset values (the MSI-X table's is PCIe's: assumption 33); a retrained PCIe link reports its rate and width; a corrected error is counted. -/
def outsideEvents : Prop :=
  (∀ (s : State) (i : Instr), i ∈ [Instr.functionLevelReset, Instr.linkDown] → s.powered = true →
    ∃ t, exec i s = .next t ∧ (∀ q, t.queues.get? q = none) ∧ (∀ k, t.tenures.get? k = none) ∧ t.vqs = [] ∧ t.bar2 = msixReset ∧
      t.mboxDoor = 0 ∧ t.mboxRsp = none ∧ t.msixPba = [] ∧ t.hostPort = [] ∧
      t.gov = Vector.replicate 4 { GovRt.reset with last := s.interval }) ∧
  (∀ (s : State) (rate width : Nat), s.subj = .link rate width → exec .pcieRetrain s = .next { s with pcie := (rate, width) }) ∧
  (∀ (s : State) (x : ErrorSource), s.subj = .corrected x → s.powered = true →
    exec .correctableError s = .next { s with corrected := s.corrected ++ [x] })

/-- R397 to R401, R404, R405: power good begins Dawn 0, and the loader begins Dawn 1 with the first slot that checks and is not below the
counter, or stops with cause 1 or 2; trained memory begins Dawn 2, and a slice with no channel stops at Dawn 1 with cause 4; the repair map
begins Dawn 3, less the units that the part record does not enable, or leaves too little and stops at Dawn 2 with cause 5. A cause is also
reported over MCTP. The counter rises only to a value above it and at most the svn of the
running image, and the message is answered. Below 40 V, and past the trip point at the floor clock, the module loses its state but for the flash and the counter. -/
def dawnEvents : Prop :=
  (∀ (s : State) (x : BitVec 256), s.subj = .sram x → s.powered = false →
    ∃ t, exec .powerGood s = .next t ∧ t.powered = true ∧ t.dawn.flash = s.dawn.flash ∧ t.dawn.counter = s.dawn.counter ∧
      t.dawn.counterAtPowerOn = s.dawn.counter ∧ t.tenures = [] ∧
      let idfail := (Config.reconstruct x (flashPart s.dawn.flash 2)).isNone
      (∀ slot, acceptSlot s.dawn.flash s.dawn.counter = some slot → t.dawn.status = dawnStatus 1 idfail
          (if Config.recordOk (flashPart s.dawn.flash 1) = true then 0 else 3) ∧
        t.dawn.log = loaderLog s.dawn.flash s.dawn.counter slot ∧
        t.mctp = s.mctp ++ (if Config.recordOk (flashPart s.dawn.flash 1) = true then [] else [{ type := 0x7F, code := 3, body := [1, 3] }]) ∧
        (Config.recordOk (flashPart s.dawn.flash 1) = true → t.dawn.serial = Config.recordSerial (flashPart s.dawn.flash 1))) ∧
      (acceptSlot s.dawn.flash s.dawn.counter = none →
        let cause := if slotOk s.dawn.flash 0 = true ∨ slotOk s.dawn.flash 1 = true then 2 else 1
        t.dawn.status = dawnStatus 0 idfail cause ∧ t.dawn.log = firstLog s.dawn.flash s.dawn.counter ∧
        t.mctp = s.mctp ++ [{ type := 0x7F, code := 3, body := [0, cause] }])) ∧
  (∀ (s : State) (cs : List Nat), s.subj = .failed cs → s.powered = true → s.stage = 1 → s.dawnError = false →
    (sliceLost cs = true → exec .hbmTrainingComplete s = .next (stopDawn s 1 4)) ∧
    (sliceLost cs = false → ∃ t, exec .hbmTrainingComplete s = .next t ∧ t.dawn.status = dawnStatus 2 s.idfail 0 ∧
      t.dawn.failedChannels = cs ∧ ∀ k, k ≠ 5 → k ≠ 6 → t.measurement k = s.measurement k)) ∧
  (∀ (s : State) (map : RepairMap), s.subj = .repair map → s.powered = true → s.stage = 2 → s.dawnError = false →
    let m := lessUnits { map with deadChannels := s.dawn.failedChannels } (Config.recordOff (flashPart s.dawn.flash 1))
    (anyRegion m = false ∨ sliceBytes m < 536870912 → exec .selfTestComplete s = .next (stopDawn s 2 5)) ∧
    (anyRegion m = true → 536870912 ≤ sliceBytes m → ∃ t, exec .selfTestComplete s = .next t ∧ t.repair = m ∧
      t.dawn.status = dawnStatus 3 s.idfail 0 ∧
      t.dawn.caps = (Config.recordCaps (flashPart s.dawn.flash 1) &&& Config.hardwareCaps &&& 0xF))) ∧
  (∀ (s : State) (v svn : W32) (slot : Nat), s.subj = .value v → s.powered = true → s.dawn.image = some (slot, svn) →
    (s.dawn.counter.toNat < v.toNat → v.toNat ≤ svn.toNat →
      exec .counterRaise s = .next (answered { s with dawn := { s.dawn with counter := v } } 0x7F 0x13 [])) ∧
    (v.toNat ≤ s.dawn.counter.toNat ∨ svn.toNat < v.toNat → exec .counterRaise s = .next (answered s 0x7F 0x13 []))) ∧
  (∀ s : State, s.powered = true → exec .undervoltage s = .next (powerReset s .held)) ∧
  (∀ (s : State) (d : Nat) (w : W32) (g : GovRt), s.subj = .die d w → s.powered = true → s.gov[d]? = some g →
    (g.fclk.toNat ≤ g.floor.toNat → exec .thermalTrip s = .next (powerReset (report s 2 [d]) .off)) ∧
    (g.floor.toNat < g.fclk.toNat → exec .thermalTrip s = .next s)) ∧
  (∀ (s : State) (p : Power), (powerReset s p).dawn.flash = s.dawn.flash ∧ (powerReset s p).dawn.counter = s.dawn.counter ∧
    (powerReset s p).hostMem = s.hostMem ∧ (powerReset s p).devMem = [] ∧ (powerReset s p).tenures = [] ∧ (powerReset s p).queues = [] ∧
    (powerReset s p).dawn.power = p ∧ (powerReset s p).mctp = s.mctp)

/-- R388, R389, R393 to R401, R404, R405: the events of die links (acknowledged at once: assumption 6), of the outside links (the MSI-X table resets
as PCIe has it: assumption 33), and of the stages of dawn.
The model's own readings in it: assumptions 17 (the types, codes and bodies of what dawn reports over MCTP, and of the counter's answer), 27, 59
(PWR_BUDGET takes its Reset value at a function-level reset), 61, 66 (what a receiver holds is written off with the last module). -/
def Obligations.LinkAndDawnEvents : Prop := linkEvents ∧ outsideEvents ∧ dawnEvents

/-! ### Management -/

/-- R402, R403, R406: the management controller of a powered module answers every message: vendor messages read DAWN_STATUS and the power of the
dies, set a budget and cycle the power; SPDM messages tell the version, algorithms, certificate, challenge and measurements; where the
identity failed, a challenge and signed measurements are errors and unsigned measurements are not (the codes are the model's own).
The model's own readings in it: assumptions 17 (the codes and bodies of the messages), 60. -/
def Obligations.ManagementAnswers : Prop :=
  (∀ s : State, s.powered = true →
    exec .readStatus s = .next (answered { s with freeCtr := s.freeCtr + 1 } 0x7F 0x10
      (s.dawn.status.toNat :: Config.freeNat s.freeCtr :: s.gov.toList.map (fun g => g.now.toNat))) ∧
    exec .powerCycleRequest s = .next (powerReset (answered s 0x7F 0x12 []) .held) ∧
    exec .getVersion s = .next (answered s 0x05 1 [0x12]) ∧
    exec .getCapabilities s = .next (answered { s with freeCtr := s.freeCtr + 1 } 0x05 2 [Config.freeNat s.freeCtr]) ∧
    exec .negotiateAlgorithms s = .next (answered s 0x05 3 [256, 256]) ∧
    exec .getDigests s = .next (answered s 0x05 4 [(Config.sha256 s.certificate).toNat])) ∧
  (∀ (s : State) (d : Nat) (w : W32), s.subj = .die d w → s.powered = true →
    ∃ t, exec .setBudget s = .next t ∧ t.mctp = s.mctp ++ [{ type := 0x7F, code := 0x11, body := [] }] ∧
      (∀ h : d < 4, 600 ≤ w.toNat → w.toNat ≤ 1250 → otherBudgets s d + w.toNat ≤ 5000 → (t.gov[d]).budget = w) ∧
      ((w.toNat < 600 ∨ 1250 < w.toNat ∨ 5000 < otherBudgets s d + w.toNat) → t.gov = s.gov)) ∧
  (∀ (s : State) c, s.subj = .command c → s.powered = true → exec .mctpControlMessage s =
    .next (answered { s with freeCtr := s.freeCtr + 1 } 0x00 c.toNat [Config.freeNat s.freeCtr])) ∧
  (∀ (s : State) (off len : Nat), s.subj = .certificate 0 off len → s.powered = true →
    exec .getCertificate s = .next (answered s 0x05 5 (((s.certificate.drop off).take len).map BitVec.toNat))) ∧
  (∀ (s : State) nonce, s.subj = .challenge 0 nonce → s.powered = true →
    (∀ k, s.dawn.seed = some k → exec .challenge s = .next (answered s 0x05 6
      [(Config.spdmSign k [6, nonce.toNat, (Config.sha256 s.certificate).toNat]).toNat])) ∧
    (s.dawn.seed = none → exec .challenge s = .next (answered s 0x05 0 [6]))) ∧
  (∀ (s : State) (idx : Nat) (signed : Bool) nonce, s.subj = .measurements idx signed nonce → s.powered = true → 1 ≤ idx → idx ≤ 8 →
    (signed = false → exec .getMeasurements s = .next (answered s 0x05 7 [s.measurement idx])) ∧
    (∀ k, signed = true → s.dawn.seed = some k → exec .getMeasurements s = .next (answered s 0x05 7
      [s.measurement idx, (Config.spdmSign k [7, nonce.toNat, s.measurement idx]).toNat])) ∧
    (signed = true → s.dawn.seed = none → exec .getMeasurements s = .next (answered s 0x05 0 [7])))

/-! ### Frames -/

/-- What a register, predicate or bank instruction of the issuing node leaves as it was outside the node: memory and the ways to it (but for which later
accesses of nodes the writes under way at the host port come before: R339), the other tenures, and of its own tenure every task, controller and gate but its own; every operator, generator and matrix node that is neither the
node nor the consumer that a channel bound to one of its inputs names (such a consumer loses a record whose residence is over, R37); and
every channel that is bound to none of its ports. -/
def outsideNodeFrame (s t : State) : Prop :=
  (∀ a, t.hostMem.get a = s.hostMem.get a ∧ t.devMem.get a = s.devMem.get a) ∧
  (t.gov = s.gov ∧ t.dawn = s.dawn ∧ t.repair = s.repair ∧ t.units = s.units ∧ t.tokens = s.tokens) ∧
  (t.queues = s.queues ∧ t.vqs = s.vqs ∧ t.handles = s.handles ∧ t.irqs = s.irqs ∧ t.osEvents = s.osEvents ∧ t.mctp = s.mctp) ∧
  (t.net = s.net ∧ t.lighters = s.lighters ∧ t.links = s.links ∧
    t.hostPort.map (fun p => { p with after := [] }) = s.hostPort.map (fun p => { p with after := [] })) ∧
  (t.hostPages = s.hostPages ∧ t.pasidOff = s.pasidOff ∧ t.roots = s.roots ∧ t.tlbs = s.tlbs ∧ t.pageReqs = s.pageReqs ∧
    t.pageFails = s.pageFails) ∧
  (t.wins = s.wins ∧ t.combs = s.combs ∧ t.subtrees = s.subtrees ∧ t.planes = s.planes) ∧
  (∀ k, k ≠ s.cur.1 → t.tenures.get? k = s.tenures.get? k) ∧
  (∀ k, k ≠ key2 s.cur.1 s.cur.2 → t.tasks.get? k = s.tasks.get? k ∧ t.ctrls.get? k = s.ctrls.get? k ∧ t.gates.get? k = s.gates.get? k) ∧
  ∀ x : TaskRt, s.tasks.get? (key2 s.cur.1 s.cur.2) = some x →
    (∀ k, k ≠ key2 s.cur.1 s.cur.2 →
      (∀ (q : Fin 16) (c : Nat) (ch : ChanRt), x.inCh[q] = some c → s.chan? s.cur.1 c = some ch → k ≠ key2 s.cur.1 ch.e.dst) →
      t.opers.get? k = s.opers.get? k ∧ t.gens.get? k = s.gens.get? k ∧ t.mats.get? k = s.mats.get? k) ∧
    ∀ k, (∀ (q : Fin 16) (c : Nat), x.inCh[q] = some c ∨ x.outCh[q] = some c → k ≠ key2 s.cur.1 c) → t.chans.get? k = s.chans.get? k

/-- What an instruction that writes the register, or pushes to the port, `d`, or sets the predicate `p`, leaves as it was when it comes to a
next state, be it complete, waiting, or trapped: of the parts outside the node those of `outsideNodeFrame`, and of the node every other
register. `fl`: it may raise flags. The trap registers change only with `tstat`. -/
def registersFrame (s t : State) (d : Option Opnd) (p : Option (Fin 4)) (fl : Bool) : Prop :=
  outsideNodeFrame s t ∧
  ∀ x y : TaskRt, s.tasks.get? (key2 s.cur.1 s.cur.2) = some x → t.tasks.get? (key2 s.cur.1 s.cur.2) = some y →
    (∀ r : Fin 16, d ≠ some (.g r) → y.g[r] = x.g[r]) ∧ (∀ r : Fin 8, d ≠ some (.a r) → y.a[r] = x.a[r]) ∧
    (∀ r : Fin 8, d ≠ some (.v r) → y.v[r] = x.v[r]) ∧ (∀ q : Fin 4, p ≠ some q → y.p[q] = x.p[q]) ∧
    (fl = false → y.fflags = x.fflags) ∧ y.sbcnt = x.sbcnt ∧ y.sberr = x.sberr ∧ y.acts = x.acts ∧ y.srseed = x.srseed ∧
    y.nullfwd = x.nullfwd ∧ y.tvec = x.tvec ∧ y.updpend = x.updpend ∧ y.code = x.code ∧ y.fmt = x.fmt ∧ (d ≠ none ∨ p ≠ none → y.bank = x.bank) ∧
    (y.tstat = x.tstat → y.tpc = x.tpc ∧ y.tcause = x.tcause ∧ y.targ = x.targ ∧ y.tsrc = x.tsrc)

/-- The scalar, immediate, address and bank load instructions with destination `d`. -/
def registerForm (i : Instr) (d : Opnd) : Prop :=
  (∃ e ∈ scalarTwoRules, ∃ a b, i = e.1 d a b) ∨ (∃ e ∈ scalarOneRules, ∃ a, i = e.1 d a) ∨
  (∃ e ∈ scalarImmediateRules, ∃ a k, i = e.1 d a k) ∨ (∃ e ∈ shiftImmediateRules, ∃ a k, i = e.1 d a k) ∨
  (∃ e ∈ [Instr.addA, .addzA, .subA, .catA], ∃ a b, i = e d a b) ∨ (∃ e ∈ [Instr.movA, .loA, .hiA], ∃ a, i = e d a) ∨
  (∃ a k, i = .addiA d a k) ∨ (∃ k, i = .liW d k) ∨ (∃ k, i = .luiW d k) ∨ (∃ q, i = .pget d q) ∨
  (∃ e ∈ bankLoadRules, ∃ b off, i = e.1 d b off) ∨ (∃ b off, i = .ldD d b off)

/-- The lanewise vector instructions, and the packs and converts of lanes, with destination `d`. -/
def laneForm (i : Instr) (d : Opnd) : Prop :=
  (∃ e ∈ laneRules, ∃ a b f, i = e.1 d a b f) ∨ (∃ e ∈ [Instr.vAbs, .vNeg], ∃ a f, i = e d a f) ∨
  (∃ e ∈ fusedRules, ∃ a b f, i = e.1 d a b f) ∨ (∃ e ∈ permuteRules, ∃ a b f, i = e.1 d a b f)

/-- The compares and the predicate instructions with predicate `p`. -/
def predicateForm (i : Instr) (p : Fin 4) : Prop :=
  (∃ e ∈ compareRules, ∃ a b, i = e.1 p a b) ∨ (∃ e ∈ compareAddressRules, ∃ a b, i = e.1 p a b) ∨
  (∃ e ∈ predicateRules, ∃ q r, i = e.1 p q r) ∨ (∃ a, i = .pset p a)

/-- The frame of the scalar, immediate, address, predicate, bank load and lanewise vector instructions, in every operand form: whatever they
come to, they change no memory, of the parts outside the node none that `outsideNodeFrame` names, and no register but their destination. -/
def Obligations.RegisterInstructionsFrame : Prop :=
  (∀ (i : Instr) (d : Opnd) (s t : State), registerForm i d → exec i s = .next t → registersFrame s t (some d) none false) ∧
  (∀ (i : Instr) (d : Opnd) (s t : State), laneForm i d → exec i s = .next t → registersFrame s t (some d) none true) ∧
  (∀ (i : Instr) (p : Fin 4) (s t : State), predicateForm i p → exec i s = .next t → registersFrame s t none (some p) false)

/-- The bank stores, their base and offset, and their size. -/
def bankStoreForm (i : Instr) (b : Opnd) (off : BitVec 12) (size : Nat) : Prop :=
  (∃ e ∈ bankStoreRules, ∃ d, i = e.1 d b off ∧ size = e.2) ∨ (∃ d, i = .stD d b off ∧ size = 8)

/-- The frame of the bank stores: no register of the node changes, of the parts outside it none that `outsideNodeFrame` names, and no byte of any
memory but those of its bank from base + offset on, as many as the store's size; where the base cannot be read, none. -/
def Obligations.BankStoresFrame : Prop :=
  ∀ (i : Instr) (b : Opnd) (off : BitVec 12) (size : Nat) (s t : State) (c : TCtx), bankStoreForm i b off size → Starts i 1 s c →
    exec i s = .next t →
    registersFrame s t none none false ∧
    ∀ x y : TaskRt, s.tasks.get? (key2 s.cur.1 s.cur.2) = some x → t.tasks.get? (key2 s.cur.1 s.cur.2) = some y → x.bank.wf = true →
      (∀ (base : W64) (c1 : TCtx), read64 b c = .ok (base, c1) →
        ∀ j : Nat, (j : Int) < base.toInt + off.toInt ∨ base.toInt + off.toInt + size ≤ j → y.bank.get j = x.bank.get j) ∧
      (∀ e, read64 b c = .error e → y.bank = x.bank)
end

