-- ==== Sys2Proof/Laws/Fault.lean ====
section
/-! SUPPORT. What a fault record says, and what reporting one does (R371, R372). -/

namespace Sys2Proof.Machine

/-- A fault record whose fields fit says on arrival what was reported (R371). -/
theorem FaultRec.ofRec_packed (r : FaultRec) (hc : r.code < 65536) (hs : r.src < 16) (hn : r.node < 16777216)
    (he : r.engine < 256) (hp : r.pc < 256) : FaultRec.ofRec r.packed = r := by
  obtain ⟨c, s, p, x, n, e, pc, a⟩ := r
  simp only at hc hs hn he hp
  cases p <;> cases x <;>
    simp [FaultRec.ofRec, FaultRec.packed, FaultRec.unit0, bitsOf, bitOf, Nat.testBit, Nat.shiftRight_eq_div_pow, Nat.one_and_eq_mod_two] <;> omega

/-- The header of a fault record (R371). -/
theorem FaultRec.packed_hdr (r : FaultRec) : hType r.packed.hdr = 8 ∧ hFmt r.packed.hdr = 0 ∧ hLen r.packed.hdr = 2 ∧ hSeq r.packed.hdr = 0 ∧
    hCarg r.packed.hdr = r.code % 256 := by
  simp [FaultRec.packed, mkHdr, hType, hFmt, hLen, hSeq, hCarg, bitsOf, tFault, tNull, Nat.shiftRight_eq_div_pow]; omega

/-- A reported fault stands on the lane of its tenure and nowhere else. -/
@[simp] theorem reportFault_tasks (s : State) (t : Nat) (r : FaultRec) : (reportFault s t r).tasks = s.tasks := rfl
@[simp] theorem reportFault_opers (s : State) (t : Nat) (r : FaultRec) : (reportFault s t r).opers = s.opers := rfl
@[simp] theorem reportFault_chans (s : State) (t : Nat) (r : FaultRec) : (reportFault s t r).chans = s.chans := rfl
@[simp] theorem reportFault_net (s : State) (t : Nat) (r : FaultRec) : (reportFault s t r).net = s.net := rfl
@[simp] theorem reportFault_hostMem (s : State) (t : Nat) (r : FaultRec) : (reportFault s t r).hostMem = s.hostMem := rfl
@[simp] theorem reportFault_devMem (s : State) (t : Nat) (r : FaultRec) : (reportFault s t r).devMem = s.devMem := rfl

end Sys2Proof.Machine
end

