-- ==== Sys2Proof/Laws/Map.lean ====
section
/-! SUPPORT. Laws of finite maps and of byte memory (Machine/Map.lean): reading after writing, and the canonical form. -/

namespace Sys2Proof.Machine

/-! ### Maps -/

theorem Map.get?_set_self {α : Type} (m : Map α) (k : Nat) (x : α) : (m.set k x).get? k = some x := by
  induction m with
  | nil => simp [Map.set, Map.get?]
  | cons e m ih =>
    obtain ⟨j, y⟩ := e
    simp only [Map.set]
    split
    · simp [Map.get?]
    · split
      · simp [Map.get?]
      · rename_i h; simp [Map.get?, h, ih]

theorem Map.get?_set_ne {α : Type} (m : Map α) (k l : Nat) (x : α) (h : l ≠ k) : (m.set k x).get? l = m.get? l := by
  induction m with
  | nil => simp [Map.set, Map.get?, h.symm]
  | cons e m ih =>
    obtain ⟨j, y⟩ := e
    simp only [Map.set]
    split
    · simp [Map.get?, h.symm]
    · split
      · rename_i hj; subst hj; simp [Map.get?, h.symm]
      · simp [Map.get?, ih]

theorem Map.get?_modify_self {α : Type} (m : Map α) (k : Nat) (f : α → α) : (m.modify k f).get? k = (m.get? k).map f := by
  simp only [Map.modify]
  split
  · rename_i x h; simp [Map.get?_set_self, h]
  · rename_i h; simp [h]

theorem Map.get?_modify_ne {α : Type} (m : Map α) (k l : Nat) (f : α → α) (h : l ≠ k) : (m.modify k f).get? l = m.get? l := by
  simp only [Map.modify]
  split
  · exact Map.get?_set_ne _ _ _ _ h
  · rfl

/-- Reading a part of a map, by key. -/
theorem Map.get?_keep {α : Type} (m : Map α) (p : Nat → Bool) (k : Nat) : (m.keep p).get? k = if p k then m.get? k else none := by
  induction m with
  | nil => simp [Map.keep, Map.get?]
  | cons e m ih =>
    obtain ⟨j, y⟩ := e
    simp only [Map.keep] at ih
    by_cases hp : p j = true <;> by_cases hj : j = k <;> simp_all [Map.keep, Map.get?]

theorem Map.get?_erase {α : Type} (m : Map α) (j k : Nat) : (m.erase j).get? k = if k = j then none else m.get? k := by
  have h := Map.get?_keep m (fun i => i != j) k
  simpa [Map.keep, Map.erase, ite_not] using h

/-- Reading a map whose values have been changed, each by its key. -/
theorem Map.get?_mapVal {α : Type} (m : Map α) (f : Nat → α → α) (k : Nat) :
    Map.get? (m.map (fun e => (e.1, f e.1 e.2))) k = (m.get? k).map (f k) := by
  induction m with
  | nil => rfl
  | cons e m ih =>
    obtain ⟨j, y⟩ := e
    by_cases hj : j = k <;> simp_all [Map.get?]

/-! ### Byte memory -/

/-- Whether an address lies above a bound. -/
def Above (lo : Option Nat) (k : Nat) : Prop := ∀ l, lo = some l → l < k

theorem Memory.wfAbove_cons {lo : Option Nat} {j : Nat} {y : Byte} {m : Memory} :
    Memory.wfAbove lo ((j, y) :: m) = true ↔ Above lo j ∧ y ≠ 0 ∧ Memory.wfAbove (some j) m = true := by
  cases lo <;> simp [Memory.wfAbove, Above, and_assoc]

theorem Memory.wfAbove_weaken {lo : Option Nat} {j : Nat} {m : Memory} (h : Above lo j) (hm : Memory.wfAbove (some j) m = true) :
    Memory.wfAbove lo m = true := by
  cases m with
  | nil => rfl
  | cons e m =>
    obtain ⟨i, y⟩ := e
    rw [Memory.wfAbove_cons] at hm ⊢
    exact ⟨fun l hl => Nat.lt_trans (h l hl) (hm.1 j rfl), hm.2⟩

theorem Memory.get_below {j : Nat} {m : Memory} (hm : Memory.wfAbove (some j) m = true) {k : Nat} (hk : k ≤ j) : m.get k = 0 := by
  induction m generalizing j with
  | nil => rfl
  | cons e m ih =>
    obtain ⟨i, y⟩ := e
    rw [Memory.wfAbove_cons] at hm
    have hi := hm.1 j rfl
    have hne : i ≠ k := by omega
    simp only [Memory.get, hne, if_false]
    exact ih hm.2.2 (by omega)

theorem Memory.put_wfAbove {lo : Option Nat} {m : Memory} (hm : Memory.wfAbove lo m = true) {k : Nat} (hk : Above lo k) (x : Byte) :
    Memory.wfAbove lo (m.put k x) = true := by
  induction m generalizing lo with
  | nil =>
    by_cases hx : x = 0
    · simp [Memory.put, hx, Memory.wfAbove]
    · simp only [Memory.put, hx, if_false]; rw [Memory.wfAbove_cons]; exact ⟨hk, hx, rfl⟩
  | cons e m ih =>
    obtain ⟨j, y⟩ := e
    have h := Memory.wfAbove_cons.1 hm
    simp only [Memory.put]
    split
    · rename_i hkj
      split
      · exact hm
      · rename_i hx
        rw [Memory.wfAbove_cons]
        refine ⟨hk, hx, ?_⟩
        rw [Memory.wfAbove_cons]
        exact ⟨fun l hl => by cases hl; exact hkj, h.2⟩
    · split
      · rename_i hkj hj
        subst hj
        split
        · exact Memory.wfAbove_weaken h.1 h.2.2
        · rename_i hx; rw [Memory.wfAbove_cons]; exact ⟨h.1, hx, h.2.2⟩
      · rename_i hkj hj
        rw [Memory.wfAbove_cons]
        exact ⟨h.1, h.2.1, ih h.2.2 (fun l hl => by cases hl; omega)⟩

theorem Memory.put_wf {m : Memory} (hm : m.wf = true) (k : Nat) (x : Byte) : (m.put k x).wf = true :=
  Memory.put_wfAbove hm (fun _ h => by cases h) x

theorem Memory.write_wf {m : Memory} (hm : m.wf = true) (a : Nat) (bs : List Byte) : (m.write a bs).wf = true := by
  induction bs generalizing m a with
  | nil => exact hm
  | cons b bs ih => exact ih (Memory.put_wf hm a b) (a + 1)

theorem Memory.get_put_self {m : Memory} (hm : m.wf = true) (k : Nat) (x : Byte) : (m.put k x).get k = x := by
  have H : ∀ (lo : Option Nat) (m : Memory), Memory.wfAbove lo m = true → (m.put k x).get k = x := by
    intro lo m
    induction m generalizing lo with
    | nil => intro _; simp only [Memory.put]; split <;> simp_all [Memory.get]
    | cons e m ih =>
      obtain ⟨j, y⟩ := e
      intro hw
      have h := Memory.wfAbove_cons.1 hw
      simp only [Memory.put]
      split
      · rename_i hkj
        split
        · rename_i hx
          have hne : j ≠ k := by omega
          simp only [Memory.get, hne, if_false, hx]
          exact Memory.get_below h.2.2 (by omega)
        · simp [Memory.get]
      · split
        · rename_i hj
          subst hj
          split
          · rename_i hx; rw [hx]; exact Memory.get_below h.2.2 (Nat.le_refl j)
          · simp [Memory.get]
        · rename_i hj; simp only [Memory.get, hj, if_false]; exact ih _ h.2.2
  exact H none m hm

theorem Memory.get_put_ne (m : Memory) (k l : Nat) (x : Byte) (h : l ≠ k) : (m.put k x).get l = m.get l := by
  induction m with
  | nil => simp only [Memory.put]; split <;> simp [Memory.get, h.symm]
  | cons e m ih =>
    obtain ⟨j, y⟩ := e
    simp only [Memory.put]
    split
    · split
      · rfl
      · simp [Memory.get, h.symm]
    · split
      · rename_i hj
        subst hj
        split <;> simp [Memory.get, h.symm]
      · simp [Memory.get, ih]

theorem Memory.get_write_outside (m : Memory) (a : Nat) (bs : List Byte) (l : Nat) (h : l < a ∨ a + bs.length ≤ l) :
    (m.write a bs).get l = m.get l := by
  induction bs generalizing m a with
  | nil => rfl
  | cons b bs ih =>
    simp only [List.length_cons] at h
    simp only [Memory.write]
    rw [ih (m.put a b) (a + 1) (by omega)]
    exact Memory.get_put_ne _ _ _ _ (by omega)

theorem Memory.read_write {m : Memory} (hm : m.wf = true) (a : Nat) (bs : List Byte) : (m.write a bs).read a bs.length = bs := by
  have H : ∀ (bs : List Byte) (m : Memory) (a : Nat), m.wf = true → (m.write a bs).read a bs.length = bs := by
    intro bs
    induction bs with
    | nil => intros; rfl
    | cons b bs ih =>
      intro m a hm
      simp only [Memory.write, List.length_cons, Memory.read]
      rw [ih _ _ (Memory.put_wf hm a b), Memory.get_write_outside _ _ _ _ (Or.inl (by omega)), Memory.get_put_self hm]
  exact H bs m a hm

end Sys2Proof.Machine
end

