-- ==== Sys2Proof/Laws/Order.lean ====
section
/-! SUPPORT. What the operations do that put later accesses behind writes of the host port (R338, R339). -/

namespace Sys2Proof.Machine

/-! ### They change the host port alone -/

@[simp] theorem modPort_devMem (s : State) (t : Nat) (m : PortWrite → Bool) (f : PortWrite → PortWrite) : (modPort s t m f).devMem = s.devMem := rfl
@[simp] theorem modPort_hostMem (s : State) (t : Nat) (m : PortWrite → Bool) (f : PortWrite → PortWrite) : (modPort s t m f).hostMem = s.hostMem := rfl
@[simp] theorem modPort_tenures (s : State) (t : Nat) (m : PortWrite → Bool) (f : PortWrite → PortWrite) : (modPort s t m f).tenures = s.tenures := rfl
@[simp] theorem modPort_tasks (s : State) (t : Nat) (m : PortWrite → Bool) (f : PortWrite → PortWrite) : (modPort s t m f).tasks = s.tasks := rfl
@[simp] theorem modPort_chans (s : State) (t : Nat) (m : PortWrite → Bool) (f : PortWrite → PortWrite) : (modPort s t m f).chans = s.chans := rfl
@[simp] theorem modPort_net (s : State) (t : Nat) (m : PortWrite → Bool) (f : PortWrite → PortWrite) : (modPort s t m f).net = s.net := rfl
@[simp] theorem modPort_nextMsg (s : State) (t : Nat) (m : PortWrite → Bool) (f : PortWrite → PortWrite) : (modPort s t m f).nextMsg = s.nextMsg := rfl

/-- A write stands in the port before and after, changed where it is meant. -/
theorem mem_modPort {s : State} {t : Nat} {m : PortWrite → Bool} {f : PortWrite → PortWrite} {q : PortWrite} :
    q ∈ (modPort s t m f).hostPort ↔ ∃ p ∈ s.hostPort, q = if (p.t == t && m p) = true then f p else p := by
  simp only [modPort, List.mem_map]
  exact ⟨fun ⟨p, hp, e⟩ => ⟨p, hp, e.symm⟩, fun ⟨p, hp, e⟩ => ⟨p, hp, e.symm⟩⟩

/-- An access waits where some write of its tenure comes before it. -/
theorem fencedOut_iff {s : State} {t : Nat} {n : Option Nat} {id : Nat} :
    fencedOut s t n id = true ↔ ∃ p ∈ s.hostPort, p.t = t ∧ p.precedes n id = true := by
  simp [fencedOut]

/-- What a record carries of writes is what its maker gave it and what it follows on. -/
theorem mem_follow_ord {r : Rec} {xs : List Nat} {x : Nat} : x ∈ (Rec.follow r xs).ord ↔ x ∈ r.ord ∨ x ∈ xs := by
  unfold Rec.follow
  split
  · rename_i h; simp [List.isEmpty_iff.mp h]
  · by_cases hx : x ∈ r.ord <;> simp [hx]

@[simp] theorem follow_hdr (r : Rec) (xs : List Nat) : (Rec.follow r xs).hdr = r.hdr := by unfold Rec.follow; split <;> rfl
@[simp] theorem follow_units (r : Rec) (xs : List Nat) : (Rec.follow r xs).units = r.units := by unfold Rec.follow; split <;> rfl

/-! ### What waits after them -/

/-- Ordering writes before node `n` holds back no access of another node. -/
theorem orderNode_other {s : State} {t n : Nat} {m : PortWrite → Bool} {o : Option Nat} {id : Nat} (h : o ≠ some n) :
    fencedOut (orderNode s t n m) t o id = fencedOut s t o id := by
  unfold fencedOut orderNode modPort
  rw [List.any_map]
  congr 1
  funext p
  simp only [Function.comp_apply]
  split
  · have : (o == some n) = false := by simpa using h
    simp [PortWrite.precedes, this]
  · rfl

/-- Ordering writes before node `n` holds back its accesses from now on, while one of them stands in the port. -/
theorem orderNode_waits {s : State} {t n id : Nat} {m : PortWrite → Bool} {p : PortWrite} (hp : p ∈ s.hostPort) (ht : p.t = t) (hm : m p = true)
    (old : ∀ a ∈ p.after, a.2 ≤ s.nextMsg) (hid : s.nextMsg ≤ id) : fencedOut (orderNode s t n m) t (some n) id = true := by
  refine fencedOut_iff.mpr ⟨_, mem_modPort.mpr ⟨p, hp, rfl⟩, ?_⟩
  by_cases ha : p.after.any (fun a => a.1 == n) = true
  · obtain ⟨a, hmem, hn⟩ := List.any_eq_true.mp ha
    have late : p.after.any (fun a => some n == some a.1 && decide (a.2 ≤ id)) = true :=
      List.any_eq_true.mpr ⟨a, hmem, by simp [eq_of_beq hn, le_trans (old a hmem) hid]⟩
    rw [if_neg (by simp [ha])]
    exact ⟨ht, by unfold PortWrite.precedes; rw [late, Bool.or_true]⟩
  · rw [if_pos (by simp [ht, hm, ha])]
    exact ⟨ht, by simp [PortWrite.precedes, hid]⟩

/-- A record that carries no write orders nothing. -/
@[simp] theorem orderRec_nil {s : State} {t n : Nat} {r : Rec} (h : r.ord = []) : orderRec s t n r = s := by simp [orderRec, h]

end Sys2Proof.Machine
end

