-- ==== Sys2Proof/Laws/PerInstr.lean ====
section
/-! SUPPORT. Statements made for each instruction. `EncLen`: the words that an instruction is written in are one, or three for a
prefix group and a `bind`, or four for a `watch` (R134, R352). -/

set_option Elab.async false

namespace Sys2Proof.Laws

/-- The number of words of an instruction of a program; an event has none. -/
def words : Instr → Nat
  | .longImmediatePrefix _ _ | .bindArg _ _ _ | .bindVq _ _ | .bindXfer _ _ | .bindAccs _ _ _ | .bindXf _ _ _ _ | .bindPred _ _ => 3
  | .watch _ _ _ _ _ _ _ _ => 4
  | _ => 1

/-- An instruction that has an encoding has `words` words. -/
def EncLen.Statement (i : Instr) : Prop := ∀ ws, encode i = some ws → ws.length = words i

theorem EncLen.addW (x0 x1 x2 : Opnd) : EncLen.Statement (.addW x0 x1 x2) := fun _ h => by simp only [encode] at h; cases h; try rfl
theorem EncLen.subW (x0 x1 x2 : Opnd) : EncLen.Statement (.subW x0 x1 x2) := fun _ h => by simp only [encode] at h; cases h; try rfl
theorem EncLen.andW (x0 x1 x2 : Opnd) : EncLen.Statement (.andW x0 x1 x2) := fun _ h => by simp only [encode] at h; cases h; try rfl
theorem EncLen.orW (x0 x1 x2 : Opnd) : EncLen.Statement (.orW x0 x1 x2) := fun _ h => by simp only [encode] at h; cases h; try rfl
theorem EncLen.xorW (x0 x1 x2 : Opnd) : EncLen.Statement (.xorW x0 x1 x2) := fun _ h => by simp only [encode] at h; cases h; try rfl
theorem EncLen.sllW (x0 x1 x2 : Opnd) : EncLen.Statement (.sllW x0 x1 x2) := fun _ h => by simp only [encode] at h; cases h; try rfl
theorem EncLen.srlW (x0 x1 x2 : Opnd) : EncLen.Statement (.srlW x0 x1 x2) := fun _ h => by simp only [encode] at h; cases h; try rfl
theorem EncLen.sraW (x0 x1 x2 : Opnd) : EncLen.Statement (.sraW x0 x1 x2) := fun _ h => by simp only [encode] at h; cases h; try rfl
theorem EncLen.mulW (x0 x1 x2 : Opnd) : EncLen.Statement (.mulW x0 x1 x2) := fun _ h => by simp only [encode] at h; cases h; try rfl
theorem EncLen.mulhsW (x0 x1 x2 : Opnd) : EncLen.Statement (.mulhsW x0 x1 x2) := fun _ h => by simp only [encode] at h; cases h; try rfl
theorem EncLen.mulhzW (x0 x1 x2 : Opnd) : EncLen.Statement (.mulhzW x0 x1 x2) := fun _ h => by simp only [encode] at h; cases h; try rfl
theorem EncLen.divsW (x0 x1 x2 : Opnd) : EncLen.Statement (.divsW x0 x1 x2) := fun _ h => by simp only [encode] at h; cases h; try rfl
theorem EncLen.divzW (x0 x1 x2 : Opnd) : EncLen.Statement (.divzW x0 x1 x2) := fun _ h => by simp only [encode] at h; cases h; try rfl
theorem EncLen.remsW (x0 x1 x2 : Opnd) : EncLen.Statement (.remsW x0 x1 x2) := fun _ h => by simp only [encode] at h; cases h; try rfl
theorem EncLen.remzW (x0 x1 x2 : Opnd) : EncLen.Statement (.remzW x0 x1 x2) := fun _ h => by simp only [encode] at h; cases h; try rfl
theorem EncLen.minsW (x0 x1 x2 : Opnd) : EncLen.Statement (.minsW x0 x1 x2) := fun _ h => by simp only [encode] at h; cases h; try rfl
theorem EncLen.maxsW (x0 x1 x2 : Opnd) : EncLen.Statement (.maxsW x0 x1 x2) := fun _ h => by simp only [encode] at h; cases h; try rfl
theorem EncLen.minzW (x0 x1 x2 : Opnd) : EncLen.Statement (.minzW x0 x1 x2) := fun _ h => by simp only [encode] at h; cases h; try rfl
theorem EncLen.maxzW (x0 x1 x2 : Opnd) : EncLen.Statement (.maxzW x0 x1 x2) := fun _ h => by simp only [encode] at h; cases h; try rfl
theorem EncLen.addsW (x0 x1 x2 : Opnd) : EncLen.Statement (.addsW x0 x1 x2) := fun _ h => by simp only [encode] at h; cases h; try rfl
theorem EncLen.subsW (x0 x1 x2 : Opnd) : EncLen.Statement (.subsW x0 x1 x2) := fun _ h => by simp only [encode] at h; cases h; try rfl
theorem EncLen.clzW (x0 x1 : Opnd) : EncLen.Statement (.clzW x0 x1) := fun _ h => by simp only [encode] at h; cases h; try rfl
theorem EncLen.cntW (x0 x1 : Opnd) : EncLen.Statement (.cntW x0 x1) := fun _ h => by simp only [encode] at h; cases h; try rfl
theorem EncLen.movW (x0 x1 : Opnd) : EncLen.Statement (.movW x0 x1) := fun _ h => by simp only [encode] at h; cases h; try rfl
theorem EncLen.cmpEqW (x0 : Fin 4) (x1 x2 : Opnd) : EncLen.Statement (.cmpEqW x0 x1 x2) := fun _ h => by simp only [encode] at h; cases h; try rfl
theorem EncLen.cmpNeW (x0 : Fin 4) (x1 x2 : Opnd) : EncLen.Statement (.cmpNeW x0 x1 x2) := fun _ h => by simp only [encode] at h; cases h; try rfl
theorem EncLen.cmpLtsW (x0 : Fin 4) (x1 x2 : Opnd) : EncLen.Statement (.cmpLtsW x0 x1 x2) := fun _ h => by simp only [encode] at h; cases h; try rfl
theorem EncLen.cmpLtzW (x0 : Fin 4) (x1 x2 : Opnd) : EncLen.Statement (.cmpLtzW x0 x1 x2) := fun _ h => by simp only [encode] at h; cases h; try rfl
theorem EncLen.cmpGesW (x0 : Fin 4) (x1 x2 : Opnd) : EncLen.Statement (.cmpGesW x0 x1 x2) := fun _ h => by simp only [encode] at h; cases h; try rfl
theorem EncLen.cmpGezW (x0 : Fin 4) (x1 x2 : Opnd) : EncLen.Statement (.cmpGezW x0 x1 x2) := fun _ h => by simp only [encode] at h; cases h; try rfl
theorem EncLen.pand (x0 x1 x2 : Fin 4) : EncLen.Statement (.pand x0 x1 x2) := fun _ h => by simp only [encode] at h; cases h; try rfl
theorem EncLen.por (x0 x1 x2 : Fin 4) : EncLen.Statement (.por x0 x1 x2) := fun _ h => by simp only [encode] at h; cases h; try rfl
theorem EncLen.pxor (x0 x1 x2 : Fin 4) : EncLen.Statement (.pxor x0 x1 x2) := fun _ h => by simp only [encode] at h; cases h; try rfl
theorem EncLen.pandn (x0 x1 x2 : Fin 4) : EncLen.Statement (.pandn x0 x1 x2) := fun _ h => by simp only [encode] at h; cases h; try rfl
theorem EncLen.pset (x0 : Fin 4) (x1 : Opnd) : EncLen.Statement (.pset x0 x1) := fun _ h => by simp only [encode] at h; cases h; try rfl
theorem EncLen.pget (x0 : Opnd) (x1 : Fin 4) : EncLen.Statement (.pget x0 x1) := fun _ h => by simp only [encode] at h; cases h; try rfl
theorem EncLen.addiW (x0 x1 : Opnd) (x2 : BitVec 14) : EncLen.Statement (.addiW x0 x1 x2) := fun _ h => by simp only [encode] at h; cases h; try rfl
theorem EncLen.andiW (x0 x1 : Opnd) (x2 : BitVec 14) : EncLen.Statement (.andiW x0 x1 x2) := fun _ h => by simp only [encode] at h; cases h; try rfl
theorem EncLen.oriW (x0 x1 : Opnd) (x2 : BitVec 14) : EncLen.Statement (.oriW x0 x1 x2) := fun _ h => by simp only [encode] at h; cases h; try rfl
theorem EncLen.xoriW (x0 x1 : Opnd) (x2 : BitVec 14) : EncLen.Statement (.xoriW x0 x1 x2) := fun _ h => by simp only [encode] at h; cases h; try rfl
theorem EncLen.slliW (x0 x1 : Opnd) (x2 : BitVec 5) : EncLen.Statement (.slliW x0 x1 x2) := fun _ h => by simp only [encode] at h; cases h; try rfl
theorem EncLen.srliW (x0 x1 : Opnd) (x2 : BitVec 5) : EncLen.Statement (.srliW x0 x1 x2) := fun _ h => by simp only [encode] at h; cases h; try rfl
theorem EncLen.sraiW (x0 x1 : Opnd) (x2 : BitVec 5) : EncLen.Statement (.sraiW x0 x1 x2) := fun _ h => by simp only [encode] at h; cases h; try rfl
theorem EncLen.liW (x0 : Opnd) (x1 : BitVec 20) : EncLen.Statement (.liW x0 x1) := fun _ h => by simp only [encode] at h; cases h; try rfl
theorem EncLen.luiW (x0 : Opnd) (x1 : BitVec 20) : EncLen.Statement (.luiW x0 x1) := fun _ h => by simp only [encode] at h; cases h; try rfl
theorem EncLen.addA (x0 x1 x2 : Opnd) : EncLen.Statement (.addA x0 x1 x2) := fun _ h => by simp only [encode] at h; cases h; try rfl
theorem EncLen.addzA (x0 x1 x2 : Opnd) : EncLen.Statement (.addzA x0 x1 x2) := fun _ h => by simp only [encode] at h; cases h; try rfl
theorem EncLen.subA (x0 x1 x2 : Opnd) : EncLen.Statement (.subA x0 x1 x2) := fun _ h => by simp only [encode] at h; cases h; try rfl
theorem EncLen.movA (x0 x1 : Opnd) : EncLen.Statement (.movA x0 x1) := fun _ h => by simp only [encode] at h; cases h; try rfl
theorem EncLen.loA (x0 x1 : Opnd) : EncLen.Statement (.loA x0 x1) := fun _ h => by simp only [encode] at h; cases h; try rfl
theorem EncLen.hiA (x0 x1 : Opnd) : EncLen.Statement (.hiA x0 x1) := fun _ h => by simp only [encode] at h; cases h; try rfl
theorem EncLen.catA (x0 x1 x2 : Opnd) : EncLen.Statement (.catA x0 x1 x2) := fun _ h => by simp only [encode] at h; cases h; try rfl
theorem EncLen.cmpEqA (x0 : Fin 4) (x1 x2 : Opnd) : EncLen.Statement (.cmpEqA x0 x1 x2) := fun _ h => by simp only [encode] at h; cases h; try rfl
theorem EncLen.cmpLtzA (x0 : Fin 4) (x1 x2 : Opnd) : EncLen.Statement (.cmpLtzA x0 x1 x2) := fun _ h => by simp only [encode] at h; cases h; try rfl
theorem EncLen.addiA (x0 x1 : Opnd) (x2 : BitVec 14) : EncLen.Statement (.addiA x0 x1 x2) := fun _ h => by simp only [encode] at h; cases h; try rfl
theorem EncLen.br (x0 : Fin 4) (x1 : BitVec 16) : EncLen.Statement (.br x0 x1) := fun _ h => by simp only [encode] at h; cases h; try rfl
theorem EncLen.brz (x0 : Opnd) (x1 : Fin 4) (x2 : BitVec 16) : EncLen.Statement (.brz x0 x1 x2) := fun _ h => by simp only [encode] at h; cases h; try rfl
theorem EncLen.brnz (x0 : Opnd) (x1 : Fin 4) (x2 : BitVec 16) : EncLen.Statement (.brnz x0 x1 x2) := fun _ h => by simp only [encode] at h; cases h; try rfl
theorem EncLen.brneg (x0 : Opnd) (x1 : Fin 4) (x2 : BitVec 16) : EncLen.Statement (.brneg x0 x1 x2) := fun _ h => by simp only [encode] at h; cases h; try rfl
theorem EncLen.brNp (x0 : Fin 4) (x1 : BitVec 16) : EncLen.Statement (.brNp x0 x1) := fun _ h => by simp only [encode] at h; cases h; try rfl
theorem EncLen.brzNp (x0 : Opnd) (x1 : Fin 4) (x2 : BitVec 16) : EncLen.Statement (.brzNp x0 x1 x2) := fun _ h => by simp only [encode] at h; cases h; try rfl
theorem EncLen.brnzNp (x0 : Opnd) (x1 : Fin 4) (x2 : BitVec 16) : EncLen.Statement (.brnzNp x0 x1 x2) := fun _ h => by simp only [encode] at h; cases h; try rfl
theorem EncLen.brnegNp (x0 : Opnd) (x1 : Fin 4) (x2 : BitVec 16) : EncLen.Statement (.brnegNp x0 x1 x2) := fun _ h => by simp only [encode] at h; cases h; try rfl
theorem EncLen.call (x0 : BitVec 16) : EncLen.Statement (.call x0) := fun _ h => by simp only [encode] at h; cases h; try rfl
theorem EncLen.jr (x0 : Opnd) : EncLen.Statement (.jr x0) := fun _ h => by simp only [encode] at h; cases h; try rfl
theorem EncLen.callr (x0 : Opnd) : EncLen.Statement (.callr x0) := fun _ h => by simp only [encode] at h; cases h; try rfl
theorem EncLen.dbnz (x0 : Opnd) (x1 : BitVec 14) : EncLen.Statement (.dbnz x0 x1) := fun _ h => by simp only [encode] at h; cases h; try rfl
theorem EncLen.open_ (x0 x1 : Opnd) : EncLen.Statement (.open_ x0 x1) := fun _ h => by simp only [encode] at h; cases h; try rfl
theorem EncLen.close (x0 : Opnd) : EncLen.Statement (.close x0) := fun _ h => by simp only [encode] at h; cases h; try rfl
theorem EncLen.next_ (x0 : Opnd) : EncLen.Statement (.next_ x0) := fun _ h => by simp only [encode] at h; cases h; try rfl
theorem EncLen.hdr (x0 x1 : Opnd) : EncLen.Statement (.hdr x0 x1) := fun _ h => by simp only [encode] at h; cases h; try rfl
theorem EncLen.send (x0 x1 : Opnd) : EncLen.Statement (.send x0 x1) := fun _ h => by simp only [encode] at h; cases h; try rfl
theorem EncLen.left (x0 x1 : Opnd) : EncLen.Statement (.left x0 x1) := fun _ h => by simp only [encode] at h; cases h; try rfl
theorem EncLen.cpy (x0 x1 x2 : Opnd) : EncLen.Statement (.cpy x0 x1 x2) := fun _ h => by simp only [encode] at h; cases h; try rfl
theorem EncLen.ldS8 (x0 x1 : Opnd) (x2 : BitVec 14) : EncLen.Statement (.ldS8 x0 x1 x2) := fun _ h => by simp only [encode] at h; cases h; try rfl
theorem EncLen.ldZ8 (x0 x1 : Opnd) (x2 : BitVec 14) : EncLen.Statement (.ldZ8 x0 x1 x2) := fun _ h => by simp only [encode] at h; cases h; try rfl
theorem EncLen.ldS16 (x0 x1 : Opnd) (x2 : BitVec 14) : EncLen.Statement (.ldS16 x0 x1 x2) := fun _ h => by simp only [encode] at h; cases h; try rfl
theorem EncLen.ldZ16 (x0 x1 : Opnd) (x2 : BitVec 14) : EncLen.Statement (.ldZ16 x0 x1 x2) := fun _ h => by simp only [encode] at h; cases h; try rfl
theorem EncLen.ldW (x0 x1 : Opnd) (x2 : BitVec 14) : EncLen.Statement (.ldW x0 x1 x2) := fun _ h => by simp only [encode] at h; cases h; try rfl
theorem EncLen.ldD (x0 x1 : Opnd) (x2 : BitVec 14) : EncLen.Statement (.ldD x0 x1 x2) := fun _ h => by simp only [encode] at h; cases h; try rfl
theorem EncLen.stB (x0 x1 : Opnd) (x2 : BitVec 12) : EncLen.Statement (.stB x0 x1 x2) := fun _ h => by simp only [encode] at h; cases h; try rfl
theorem EncLen.stH (x0 x1 : Opnd) (x2 : BitVec 12) : EncLen.Statement (.stH x0 x1 x2) := fun _ h => by simp only [encode] at h; cases h; try rfl
theorem EncLen.stW (x0 x1 : Opnd) (x2 : BitVec 12) : EncLen.Statement (.stW x0 x1 x2) := fun _ h => by simp only [encode] at h; cases h; try rfl
theorem EncLen.stD (x0 x1 : Opnd) (x2 : BitVec 12) : EncLen.Statement (.stD x0 x1 x2) := fun _ h => by simp only [encode] at h; cases h; try rfl
theorem EncLen.gldS8 (x0 x1 : Opnd) (x2 : Bool) (x3 : BitVec 3) : EncLen.Statement (.gldS8 x0 x1 x2 x3) := fun _ h => by simp only [encode] at h; cases h; try rfl
theorem EncLen.gldZ8 (x0 x1 : Opnd) (x2 : Bool) (x3 : BitVec 3) : EncLen.Statement (.gldZ8 x0 x1 x2 x3) := fun _ h => by simp only [encode] at h; cases h; try rfl
theorem EncLen.gldS16 (x0 x1 : Opnd) (x2 : Bool) (x3 : BitVec 3) : EncLen.Statement (.gldS16 x0 x1 x2 x3) := fun _ h => by simp only [encode] at h; cases h; try rfl
theorem EncLen.gldZ16 (x0 x1 : Opnd) (x2 : Bool) (x3 : BitVec 3) : EncLen.Statement (.gldZ16 x0 x1 x2 x3) := fun _ h => by simp only [encode] at h; cases h; try rfl
theorem EncLen.gldW (x0 x1 : Opnd) (x2 : Bool) (x3 : BitVec 3) : EncLen.Statement (.gldW x0 x1 x2 x3) := fun _ h => by simp only [encode] at h; cases h; try rfl
theorem EncLen.gldD (x0 x1 : Opnd) (x2 : Bool) (x3 : BitVec 3) : EncLen.Statement (.gldD x0 x1 x2 x3) := fun _ h => by simp only [encode] at h; cases h; try rfl
theorem EncLen.gstB (x0 x1 : Opnd) (x2 : Bool) (x3 : BitVec 3) : EncLen.Statement (.gstB x0 x1 x2 x3) := fun _ h => by simp only [encode] at h; cases h; try rfl
theorem EncLen.gstH (x0 x1 : Opnd) (x2 : Bool) (x3 : BitVec 3) : EncLen.Statement (.gstH x0 x1 x2 x3) := fun _ h => by simp only [encode] at h; cases h; try rfl
theorem EncLen.gstW (x0 x1 : Opnd) (x2 : Bool) (x3 : BitVec 3) : EncLen.Statement (.gstW x0 x1 x2 x3) := fun _ h => by simp only [encode] at h; cases h; try rfl
theorem EncLen.gstD (x0 x1 : Opnd) (x2 : Bool) (x3 : BitVec 3) : EncLen.Statement (.gstD x0 x1 x2 x3) := fun _ h => by simp only [encode] at h; cases h; try rfl
theorem EncLen.xfer (x0 : Opnd) (x1 : BitVec 3) : EncLen.Statement (.xfer x0 x1) := fun _ h => by simp only [encode] at h; cases h; try rfl
theorem EncLen.accFp32 (x0 : BitVec 6) (x1 x2 : Opnd) : EncLen.Statement (.accFp32 x0 x1 x2) := fun _ h => by simp only [encode] at h; cases h; try rfl
theorem EncLen.accBf16 (x0 : BitVec 6) (x1 x2 : Opnd) : EncLen.Statement (.accBf16 x0 x1 x2) := fun _ h => by simp only [encode] at h; cases h; try rfl
theorem EncLen.accFp16 (x0 : BitVec 6) (x1 x2 : Opnd) : EncLen.Statement (.accFp16 x0 x1 x2) := fun _ h => by simp only [encode] at h; cases h; try rfl
theorem EncLen.accS8 (x0 : BitVec 6) (x1 x2 : Opnd) : EncLen.Statement (.accS8 x0 x1 x2) := fun _ h => by simp only [encode] at h; cases h; try rfl
theorem EncLen.accZ8 (x0 : BitVec 6) (x1 x2 : Opnd) : EncLen.Statement (.accZ8 x0 x1 x2) := fun _ h => by simp only [encode] at h; cases h; try rfl
theorem EncLen.accS16 (x0 : BitVec 6) (x1 x2 : Opnd) : EncLen.Statement (.accS16 x0 x1 x2) := fun _ h => by simp only [encode] at h; cases h; try rfl
theorem EncLen.accZ16 (x0 : BitVec 6) (x1 x2 : Opnd) : EncLen.Statement (.accZ16 x0 x1 x2) := fun _ h => by simp only [encode] at h; cases h; try rfl
theorem EncLen.accS32 (x0 : BitVec 6) (x1 x2 : Opnd) : EncLen.Statement (.accS32 x0 x1 x2) := fun _ h => by simp only [encode] at h; cases h; try rfl
theorem EncLen.accZ32 (x0 : BitVec 6) (x1 x2 : Opnd) : EncLen.Statement (.accZ32 x0 x1 x2) := fun _ h => by simp only [encode] at h; cases h; try rfl
theorem EncLen.accS64 (x0 : BitVec 6) (x1 x2 : Opnd) : EncLen.Statement (.accS64 x0 x1 x2) := fun _ h => by simp only [encode] at h; cases h; try rfl
theorem EncLen.flushr (x0 : BitVec 6) : EncLen.Statement (.flushr x0) := fun _ h => by simp only [encode] at h; cases h; try rfl
theorem EncLen.atomAdd (x0 x1 : Opnd) (x2 : Bool) : EncLen.Statement (.atomAdd x0 x1 x2) := fun _ h => by simp only [encode] at h; cases h; try rfl
theorem EncLen.atomMin (x0 x1 : Opnd) (x2 : Bool) : EncLen.Statement (.atomMin x0 x1 x2) := fun _ h => by simp only [encode] at h; cases h; try rfl
theorem EncLen.atomMax (x0 x1 : Opnd) (x2 : Bool) : EncLen.Statement (.atomMax x0 x1 x2) := fun _ h => by simp only [encode] at h; cases h; try rfl
theorem EncLen.atomMinz (x0 x1 : Opnd) (x2 : Bool) : EncLen.Statement (.atomMinz x0 x1 x2) := fun _ h => by simp only [encode] at h; cases h; try rfl
theorem EncLen.atomMaxz (x0 x1 : Opnd) (x2 : Bool) : EncLen.Statement (.atomMaxz x0 x1 x2) := fun _ h => by simp only [encode] at h; cases h; try rfl
theorem EncLen.atomAnd (x0 x1 : Opnd) (x2 : Bool) : EncLen.Statement (.atomAnd x0 x1 x2) := fun _ h => by simp only [encode] at h; cases h; try rfl
theorem EncLen.atomOr (x0 x1 : Opnd) (x2 : Bool) : EncLen.Statement (.atomOr x0 x1 x2) := fun _ h => by simp only [encode] at h; cases h; try rfl
theorem EncLen.atomXor (x0 x1 : Opnd) (x2 : Bool) : EncLen.Statement (.atomXor x0 x1 x2) := fun _ h => by simp only [encode] at h; cases h; try rfl
theorem EncLen.atomAddF (x0 x1 x2 : Opnd) (x3 x4 : Bool) : EncLen.Statement (.atomAddF x0 x1 x2 x3 x4) := fun _ h => by simp only [encode] at h; cases h; try rfl
theorem EncLen.atomMinF (x0 x1 x2 : Opnd) (x3 x4 : Bool) : EncLen.Statement (.atomMinF x0 x1 x2 x3 x4) := fun _ h => by simp only [encode] at h; cases h; try rfl
theorem EncLen.atomMaxF (x0 x1 x2 : Opnd) (x3 x4 : Bool) : EncLen.Statement (.atomMaxF x0 x1 x2 x3 x4) := fun _ h => by simp only [encode] at h; cases h; try rfl
theorem EncLen.atomMinzF (x0 x1 x2 : Opnd) (x3 x4 : Bool) : EncLen.Statement (.atomMinzF x0 x1 x2 x3 x4) := fun _ h => by simp only [encode] at h; cases h; try rfl
theorem EncLen.atomMaxzF (x0 x1 x2 : Opnd) (x3 x4 : Bool) : EncLen.Statement (.atomMaxzF x0 x1 x2 x3 x4) := fun _ h => by simp only [encode] at h; cases h; try rfl
theorem EncLen.atomAndF (x0 x1 x2 : Opnd) (x3 x4 : Bool) : EncLen.Statement (.atomAndF x0 x1 x2 x3 x4) := fun _ h => by simp only [encode] at h; cases h; try rfl
theorem EncLen.atomOrF (x0 x1 x2 : Opnd) (x3 x4 : Bool) : EncLen.Statement (.atomOrF x0 x1 x2 x3 x4) := fun _ h => by simp only [encode] at h; cases h; try rfl
theorem EncLen.atomXorF (x0 x1 x2 : Opnd) (x3 x4 : Bool) : EncLen.Statement (.atomXorF x0 x1 x2 x3 x4) := fun _ h => by simp only [encode] at h; cases h; try rfl
theorem EncLen.atomSwap (x0 x1 x2 : Opnd) (x3 x4 : Bool) : EncLen.Statement (.atomSwap x0 x1 x2 x3 x4) := fun _ h => by simp only [encode] at h; cases h; try rfl
theorem EncLen.atomCas (x0 x1 x2 : Opnd) (x3 x4 : Bool) : EncLen.Statement (.atomCas x0 x1 x2 x3 x4) := fun _ h => by simp only [encode] at h; cases h; try rfl
theorem EncLen.atomFaddFp32 (x0 x1 : Opnd) : EncLen.Statement (.atomFaddFp32 x0 x1) := fun _ h => by simp only [encode] at h; cases h; try rfl
theorem EncLen.atomFaddBf16 (x0 x1 : Opnd) : EncLen.Statement (.atomFaddBf16 x0 x1) := fun _ h => by simp only [encode] at h; cases h; try rfl
theorem EncLen.atomFaddFp32F (x0 x1 x2 : Opnd) : EncLen.Statement (.atomFaddFp32F x0 x1 x2) := fun _ h => by simp only [encode] at h; cases h; try rfl
theorem EncLen.atomFaddBf16F (x0 x1 x2 : Opnd) : EncLen.Statement (.atomFaddBf16F x0 x1 x2) := fun _ h => by simp only [encode] at h; cases h; try rfl
theorem EncLen.vAdd (x0 x1 x2 : Opnd) (x3 : VFmt) : EncLen.Statement (.vAdd x0 x1 x2 x3) := fun _ h => by simp only [encode] at h; cases h; try rfl
theorem EncLen.vSub (x0 x1 x2 : Opnd) (x3 : VFmt) : EncLen.Statement (.vSub x0 x1 x2 x3) := fun _ h => by simp only [encode] at h; cases h; try rfl
theorem EncLen.vMul (x0 x1 x2 : Opnd) (x3 : VFmt) : EncLen.Statement (.vMul x0 x1 x2 x3) := fun _ h => by simp only [encode] at h; cases h; try rfl
theorem EncLen.vMin (x0 x1 x2 : Opnd) (x3 : VFmt) : EncLen.Statement (.vMin x0 x1 x2 x3) := fun _ h => by simp only [encode] at h; cases h; try rfl
theorem EncLen.vMax (x0 x1 x2 : Opnd) (x3 : VFmt) : EncLen.Statement (.vMax x0 x1 x2 x3) := fun _ h => by simp only [encode] at h; cases h; try rfl
theorem EncLen.vAbs (x0 x1 : Opnd) (x2 : VFmt) : EncLen.Statement (.vAbs x0 x1 x2) := fun _ h => by simp only [encode] at h; cases h; try rfl
theorem EncLen.vNeg (x0 x1 : Opnd) (x2 : VFmt) : EncLen.Statement (.vNeg x0 x1 x2) := fun _ h => by simp only [encode] at h; cases h; try rfl
theorem EncLen.vAdds (x0 x1 x2 : Opnd) (x3 : VFmt) : EncLen.Statement (.vAdds x0 x1 x2 x3) := fun _ h => by simp only [encode] at h; cases h; try rfl
theorem EncLen.vSubs (x0 x1 x2 : Opnd) (x3 : VFmt) : EncLen.Statement (.vSubs x0 x1 x2 x3) := fun _ h => by simp only [encode] at h; cases h; try rfl
theorem EncLen.vAnd (x0 x1 x2 : Opnd) (x3 : VFmt) : EncLen.Statement (.vAnd x0 x1 x2 x3) := fun _ h => by simp only [encode] at h; cases h; try rfl
theorem EncLen.vOr (x0 x1 x2 : Opnd) (x3 : VFmt) : EncLen.Statement (.vOr x0 x1 x2 x3) := fun _ h => by simp only [encode] at h; cases h; try rfl
theorem EncLen.vXor (x0 x1 x2 : Opnd) (x3 : VFmt) : EncLen.Statement (.vXor x0 x1 x2 x3) := fun _ h => by simp only [encode] at h; cases h; try rfl
theorem EncLen.vSll (x0 x1 x2 : Opnd) (x3 : VFmt) : EncLen.Statement (.vSll x0 x1 x2 x3) := fun _ h => by simp only [encode] at h; cases h; try rfl
theorem EncLen.vSrl (x0 x1 x2 : Opnd) (x3 : VFmt) : EncLen.Statement (.vSrl x0 x1 x2 x3) := fun _ h => by simp only [encode] at h; cases h; try rfl
theorem EncLen.vSra (x0 x1 x2 : Opnd) (x3 : VFmt) : EncLen.Statement (.vSra x0 x1 x2 x3) := fun _ h => by simp only [encode] at h; cases h; try rfl
theorem EncLen.vFma (x0 x1 x2 : Opnd) (x3 : VFmt) : EncLen.Statement (.vFma x0 x1 x2 x3) := fun _ h => by simp only [encode] at h; cases h; try rfl
theorem EncLen.vFms (x0 x1 x2 : Opnd) (x3 : VFmt) : EncLen.Statement (.vFms x0 x1 x2 x3) := fun _ h => by simp only [encode] at h; cases h; try rfl
theorem EncLen.vFnma (x0 x1 x2 : Opnd) (x3 : VFmt) : EncLen.Statement (.vFnma x0 x1 x2 x3) := fun _ h => by simp only [encode] at h; cases h; try rfl
theorem EncLen.vFmab (x0 x1 x2 : Opnd) (x3 : VFmt) : EncLen.Statement (.vFmab x0 x1 x2 x3) := fun _ h => by simp only [encode] at h; cases h; try rfl
theorem EncLen.vDot (x0 x1 x2 : Opnd) (x3 : VFmt) : EncLen.Statement (.vDot x0 x1 x2 x3) := fun _ h => by simp only [encode] at h; cases h; try rfl
theorem EncLen.vCmpEq (x0 x1 x2 : Opnd) (x3 : VFmt) : EncLen.Statement (.vCmpEq x0 x1 x2 x3) := fun _ h => by simp only [encode] at h; cases h; try rfl
theorem EncLen.vCmpLt (x0 x1 x2 : Opnd) (x3 : VFmt) : EncLen.Statement (.vCmpLt x0 x1 x2 x3) := fun _ h => by simp only [encode] at h; cases h; try rfl
theorem EncLen.vCmpLe (x0 x1 x2 : Opnd) (x3 : VFmt) : EncLen.Statement (.vCmpLe x0 x1 x2 x3) := fun _ h => by simp only [encode] at h; cases h; try rfl
theorem EncLen.vCmpUn (x0 x1 x2 : Opnd) (x3 : VFmt) : EncLen.Statement (.vCmpUn x0 x1 x2 x3) := fun _ h => by simp only [encode] at h; cases h; try rfl
theorem EncLen.vSel (x0 x1 x2 : Opnd) (x3 : VFmt) : EncLen.Statement (.vSel x0 x1 x2 x3) := fun _ h => by simp only [encode] at h; cases h; try rfl
theorem EncLen.vShuf (x0 x1 x2 : Opnd) (x3 : VFmt) : EncLen.Statement (.vShuf x0 x1 x2 x3) := fun _ h => by simp only [encode] at h; cases h; try rfl
theorem EncLen.vBcast (x0 x1 : Opnd) (x2 : BitVec 6) (x3 : VFmt) : EncLen.Statement (.vBcast x0 x1 x2 x3) := fun _ h => by simp only [encode] at h; cases h; try rfl
theorem EncLen.vZip (x0 x1 x2 : Opnd) (x3 : VFmt) : EncLen.Statement (.vZip x0 x1 x2 x3) := fun _ h => by simp only [encode] at h; cases h; try rfl
theorem EncLen.vUnzip (x0 x1 x2 : Opnd) (x3 : VFmt) : EncLen.Statement (.vUnzip x0 x1 x2 x3) := fun _ h => by simp only [encode] at h; cases h; try rfl
theorem EncLen.vRot (x0 x1 : Opnd) (x2 : BitVec 6) (x3 : VFmt) : EncLen.Statement (.vRot x0 x1 x2 x3) := fun _ h => by simp only [encode] at h; cases h; try rfl
theorem EncLen.vIns (x0 x1 : Opnd) (x2 : BitVec 6) (x3 : VFmt) : EncLen.Statement (.vIns x0 x1 x2 x3) := fun _ h => by simp only [encode] at h; cases h; try rfl
theorem EncLen.vExt (x0 x1 : Opnd) (x2 : BitVec 6) (x3 : VFmt) : EncLen.Statement (.vExt x0 x1 x2 x3) := fun _ h => by simp only [encode] at h; cases h; try rfl
theorem EncLen.cmpr2of4 (x0 x1 : Opnd) (x2 : Fin 4) (x3 : VFmt) : EncLen.Statement (.cmpr2of4 x0 x1 x2 x3) := fun _ h => by simp only [encode] at h; cases h; try rfl
theorem EncLen.vCvt (x0 x1 : Opnd) (x2 : Mode) (x3 : Bool) (x4 x5 : VFmt) : EncLen.Statement (.vCvt x0 x1 x2 x3 x4 x5) := fun _ h => by simp only [encode] at h; cases h; try rfl
theorem EncLen.vRsum (x0 x1 : Opnd) (x2 : VFmt) : EncLen.Statement (.vRsum x0 x1 x2) := fun _ h => by simp only [encode] at h; cases h; try rfl
theorem EncLen.vRmax (x0 x1 : Opnd) (x2 : VFmt) : EncLen.Statement (.vRmax x0 x1 x2) := fun _ h => by simp only [encode] at h; cases h; try rfl
theorem EncLen.vRmin (x0 x1 : Opnd) (x2 : VFmt) : EncLen.Statement (.vRmin x0 x1 x2) := fun _ h => by simp only [encode] at h; cases h; try rfl
theorem EncLen.vRdot (x0 x1 x2 : Opnd) (x3 : VFmt) : EncLen.Statement (.vRdot x0 x1 x2 x3) := fun _ h => by simp only [encode] at h; cases h; try rfl
theorem EncLen.vScl (x0 x1 : Opnd) (x2 : BitVec 6) (x3 : VFmt) : EncLen.Statement (.vScl x0 x1 x2 x3) := fun _ h => by simp only [encode] at h; cases h; try rfl
theorem EncLen.vSclx (x0 x1 x2 : Opnd) (x3 : VFmt) : EncLen.Statement (.vSclx x0 x1 x2 x3) := fun _ h => by simp only [encode] at h; cases h; try rfl
theorem EncLen.vMxpack (x0 x1 x2 : Opnd) (x3 : VFmt) : EncLen.Statement (.vMxpack x0 x1 x2 x3) := fun _ h => by simp only [encode] at h; cases h; try rfl
theorem EncLen.vMxunpack (x0 x1 x2 : Opnd) (x3 : VFmt) : EncLen.Statement (.vMxunpack x0 x1 x2 x3) := fun _ h => by simp only [encode] at h; cases h; try rfl
theorem EncLen.vLdexp (x0 x1 x2 : Opnd) (x3 : VFmt) : EncLen.Statement (.vLdexp x0 x1 x2 x3) := fun _ h => by simp only [encode] at h; cases h; try rfl
theorem EncLen.wsb (x0 : BitVec 8) : EncLen.Statement (.wsb x0) := fun _ h => by simp only [encode] at h; cases h; try rfl
theorem EncLen.gateArr (x0 : BitVec 6) (x1 : Opnd) : EncLen.Statement (.gateArr x0 x1) := fun _ h => by simp only [encode] at h; cases h; try rfl
theorem EncLen.gateWait (x0 : BitVec 6) (x1 : Opnd) : EncLen.Statement (.gateWait x0 x1) := fun _ h => by simp only [encode] at h; cases h; try rfl
theorem EncLen.combSend (x0 x1 : Opnd) : EncLen.Statement (.combSend x0 x1) := fun _ h => by simp only [encode] at h; cases h; try rfl
theorem EncLen.waita (x0 x1 : Opnd) : EncLen.Statement (.waita x0 x1) := fun _ h => by simp only [encode] at h; cases h; try rfl
theorem EncLen.sysr (x0 : Opnd) (x1 : BitVec 20) : EncLen.Statement (.sysr x0 x1) := fun _ h => by simp only [encode] at h; cases h; try rfl
theorem EncLen.sysw (x0 : Opnd) (x1 : BitVec 20) : EncLen.Statement (.sysw x0 x1) := fun _ h => by simp only [encode] at h; cases h; try rfl
theorem EncLen.trap (x0 : Opnd) : EncLen.Statement (.trap x0) := fun _ h => by simp only [encode] at h; cases h; try rfl
theorem EncLen.longImmediatePrefix (x0 x1 : BitVec 32) : EncLen.Statement (.longImmediatePrefix x0 x1) := fun _ h => by simp only [encode] at h; cases h; try rfl
theorem EncLen.enter (x0 : BitVec 12) : EncLen.Statement (.enter x0) := fun _ h => by simp only [encode] at h; cases h; try rfl
theorem EncLen.lock (x0 : Bool) (x1 : BitVec 12) : EncLen.Statement (.lock x0 x1) := fun _ h => by simp only [encode] at h; cases h; try rfl
theorem EncLen.bindArg (x0 : BitVec 24) (x1 : BitVec 28) (x2 : BitVec 32) : EncLen.Statement (.bindArg x0 x1 x2) := fun _ h => by simp only [encode] at h; cases h; try rfl
theorem EncLen.bindVq (x0 : BitVec 24) (x1 : BitVec 28) : EncLen.Statement (.bindVq x0 x1) := fun _ h => by simp only [encode] at h; cases h; try rfl
theorem EncLen.bindXfer (x0 : BitVec 24) (x1 : BitVec 28) : EncLen.Statement (.bindXfer x0 x1) := fun _ h => by simp only [encode] at h; cases h; try rfl
theorem EncLen.bindAccs (x0 : BitVec 24) (x1 : BitVec 28) (x2 : BitVec 32) : EncLen.Statement (.bindAccs x0 x1 x2) := fun _ h => by simp only [encode] at h; cases h; try rfl
theorem EncLen.bindXf (x0 : BitVec 24) (x1 : BitVec 28) (x2 x3 : BitVec 4) : EncLen.Statement (.bindXf x0 x1 x2 x3) := fun _ h => by simp only [encode] at h; cases h; try rfl
theorem EncLen.bindPred (x0 : BitVec 24) (x1 : BitVec 28) : EncLen.Statement (.bindPred x0 x1) := fun _ h => by simp only [encode] at h; cases h; try rfl
theorem EncLen.choose (x0 : Bool) (x1 : BitVec 3) (x2 : BitVec 16) : EncLen.Statement (.choose x0 x1 x2) := fun _ h => by simp only [encode] at h; cases h; try rfl
theorem EncLen.jmp (x0 : BitVec 16) : EncLen.Statement (.jmp x0) := fun _ h => by simp only [encode] at h; cases h; try rfl
theorem EncLen.watch (x0 : BitVec 2) (x1 x2 x3 x4 : Bool) (x5 : BitVec 57) (x6 : BitVec 16) (x7 : BitVec 8) : EncLen.Statement (.watch x0 x1 x2 x3 x4 x5 x6 x7) := fun _ h => by simp only [encode] at h; cases h; try rfl
theorem EncLen.unwatch (x0 : BitVec 2) : EncLen.Statement (.unwatch x0) := fun _ h => by simp only [encode] at h; cases h; try rfl
theorem EncLen.fault (x0 : BitVec 16) : EncLen.Statement (.fault x0) := fun _ h => by simp only [encode] at h; cases h; try rfl
theorem EncLen.wave (x0 : BitVec 17) : EncLen.Statement (.wave x0) := fun _ h => by simp only [encode] at h; cases h; try rfl
theorem EncLen.quiet (x0 : Bool) : EncLen.Statement (.quiet x0) := fun _ h => by simp only [encode] at h; cases h; try rfl
theorem EncLen.setp (x0 : Bool) (x1 : BitVec 3) : EncLen.Statement (.setp x0 x1) := fun _ h => by simp only [encode] at h; cases h; try rfl
theorem EncLen.waitp (x0 : BitVec 3) : EncLen.Statement (.waitp x0) := fun _ h => by simp only [encode] at h; cases h; try rfl
theorem EncLen.count (x0 : BitVec 2) (x1 : BitVec 20) : EncLen.Statement (.count x0 x1) := fun _ h => by simp only [encode] at h; cases h; try rfl
theorem EncLen.decJnz (x0 : BitVec 2) (x1 : BitVec 16) : EncLen.Statement (.decJnz x0 x1) := fun _ h => by simp only [encode] at h; cases h; try rfl
theorem EncLen.settle (x0 : BitVec 6) : EncLen.Statement (.settle x0) := fun _ h => by simp only [encode] at h; cases h; try rfl
theorem EncLen.illegalInstruction (x0 : BitVec 32) : EncLen.Statement (.illegalInstruction x0) := fun _ h => by simp only [encode] at h; cases h; try rfl
theorem EncLen.codeRangeFetch (x0 : Int) : EncLen.Statement (.codeRangeFetch x0) := fun _ h => by simp only [encode] at h; cases h; try rfl
theorem EncLen.kickTailWrite : EncLen.Statement .kickTailWrite := fun _ h => by simp only [encode] at h; cases h; try rfl
theorem EncLen.cplHeadWrite : EncLen.Statement .cplHeadWrite := fun _ h => by simp only [encode] at h; cases h; try rfl
theorem EncLen.completionWrite : EncLen.Statement .completionWrite := fun _ h => by simp only [encode] at h; cases h; try rfl
theorem EncLen.launch : EncLen.Statement .launch := fun _ h => by simp only [encode] at h; cases h; try rfl
theorem EncLen.push : EncLen.Statement .push := fun _ h => by simp only [encode] at h; cases h; try rfl
theorem EncLen.pull : EncLen.Statement .pull := fun _ h => by simp only [encode] at h; cases h; try rfl
theorem EncLen.signalSet : EncLen.Statement .signalSet := fun _ h => by simp only [encode] at h; cases h; try rfl
theorem EncLen.signalAdd : EncLen.Statement .signalAdd := fun _ h => by simp only [encode] at h; cases h; try rfl
theorem EncLen.wait : EncLen.Statement .wait := fun _ h => by simp only [encode] at h; cases h; try rfl
theorem EncLen.waitSatisfied : EncLen.Statement .waitSatisfied := fun _ h => by simp only [encode] at h; cases h; try rfl
theorem EncLen.waitTimeout : EncLen.Statement .waitTimeout := fun _ h => by simp only [encode] at h; cases h; try rfl
theorem EncLen.pausePreferred : EncLen.Statement .pausePreferred := fun _ h => by simp only [encode] at h; cases h; try rfl
theorem EncLen.pauseForced : EncLen.Statement .pauseForced := fun _ h => by simp only [encode] at h; cases h; try rfl
theorem EncLen.resume : EncLen.Statement .resume := fun _ h => by simp only [encode] at h; cases h; try rfl
theorem EncLen.kill : EncLen.Statement .kill := fun _ h => by simp only [encode] at h; cases h; try rfl
theorem EncLen.queryCapabilities : EncLen.Statement .queryCapabilities := fun _ h => by simp only [encode] at h; cases h; try rfl
theorem EncLen.queryTenure : EncLen.Statement .queryTenure := fun _ h => by simp only [encode] at h; cases h; try rfl
theorem EncLen.queryCounts : EncLen.Statement .queryCounts := fun _ h => by simp only [encode] at h; cases h; try rfl
theorem EncLen.queryGovernor : EncLen.Statement .queryGovernor := fun _ h => by simp only [encode] at h; cases h; try rfl
theorem EncLen.queryVirtualQueue : EncLen.Statement .queryVirtualQueue := fun _ h => by simp only [encode] at h; cases h; try rfl
theorem EncLen.mboxDoorWrite : EncLen.Statement .mboxDoorWrite := fun _ h => by simp only [encode] at h; cases h; try rfl
theorem EncLen.createQueue : EncLen.Statement .createQueue := fun _ h => by simp only [encode] at h; cases h; try rfl
theorem EncLen.destroyQueue : EncLen.Statement .destroyQueue := fun _ h => by simp only [encode] at h; cases h; try rfl
theorem EncLen.registerWrite : EncLen.Statement .registerWrite := fun _ h => by simp only [encode] at h; cases h; try rfl
theorem EncLen.pwrBudgetWrite : EncLen.Statement .pwrBudgetWrite := fun _ h => by simp only [encode] at h; cases h; try rfl
theorem EncLen.governorTick : EncLen.Statement .governorTick := fun _ h => by simp only [encode] at h; cases h; try rfl
theorem EncLen.candidateAttempt : EncLen.Statement .candidateAttempt := fun _ h => by simp only [encode] at h; cases h; try rfl
theorem EncLen.loadCommit : EncLen.Statement .loadCommit := fun _ h => by simp only [encode] at h; cases h; try rfl
theorem EncLen.codePageResolved : EncLen.Statement .codePageResolved := fun _ h => by simp only [encode] at h; cases h; try rfl
theorem EncLen.planeGrant : EncLen.Statement .planeGrant := fun _ h => by simp only [encode] at h; cases h; try rfl
theorem EncLen.drainComplete : EncLen.Statement .drainComplete := fun _ h => by simp only [encode] at h; cases h; try rfl
theorem EncLen.drainTimeout : EncLen.Statement .drainTimeout := fun _ h => by simp only [encode] at h; cases h; try rfl
theorem EncLen.zeroingComplete : EncLen.Statement .zeroingComplete := fun _ h => by simp only [encode] at h; cases h; try rfl
theorem EncLen.reserveSubtree : EncLen.Statement .reserveSubtree := fun _ h => by simp only [encode] at h; cases h; try rfl
theorem EncLen.releaseSubtree : EncLen.Statement .releaseSubtree := fun _ h => by simp only [encode] at h; cases h; try rfl
theorem EncLen.replyExpiry : EncLen.Statement .replyExpiry := fun _ h => by simp only [encode] at h; cases h; try rfl
theorem EncLen.replyArrival : EncLen.Statement .replyArrival := fun _ h => by simp only [encode] at h; cases h; try rfl
theorem EncLen.recordVisible : EncLen.Statement .recordVisible := fun _ h => by simp only [encode] at h; cases h; try rfl
theorem EncLen.vqAgentMove : EncLen.Statement .vqAgentMove := fun _ h => by simp only [encode] at h; cases h; try rfl
theorem EncLen.vqAgentAppend : EncLen.Statement .vqAgentAppend := fun _ h => by simp only [encode] at h; cases h; try rfl
theorem EncLen.activationStart : EncLen.Statement .activationStart := fun _ h => by simp only [encode] at h; cases h; try rfl
theorem EncLen.nullTrigger : EncLen.Statement .nullTrigger := fun _ h => by simp only [encode] at h; cases h; try rfl
theorem EncLen.end_ : EncLen.Statement .end_ := fun _ h => by simp only [encode] at h; cases h; try rfl
theorem EncLen.nop : EncLen.Statement .nop := fun _ h => by simp only [encode] at h; cases h; try rfl
theorem EncLen.loadReply : EncLen.Statement .loadReply := fun _ h => by simp only [encode] at h; cases h; try rfl
theorem EncLen.storePerformed : EncLen.Statement .storePerformed := fun _ h => by simp only [encode] at h; cases h; try rfl
theorem EncLen.translationRefill : EncLen.Statement .translationRefill := fun _ h => by simp only [encode] at h; cases h; try rfl
theorem EncLen.priResponse : EncLen.Statement .priResponse := fun _ h => by simp only [encode] at h; cases h; try rfl
theorem EncLen.osPageResponse : EncLen.Statement .osPageResponse := fun _ h => by simp only [encode] at h; cases h; try rfl
theorem EncLen.atsInvalidation : EncLen.Statement .atsInvalidation := fun _ h => by simp only [encode] at h; cases h; try rfl
theorem EncLen.transferRequestRecord : EncLen.Statement .transferRequestRecord := fun _ h => by simp only [encode] at h; cases h; try rfl
theorem EncLen.lighterRequest : EncLen.Statement .lighterRequest := fun _ h => by simp only [encode] at h; cases h; try rfl
theorem EncLen.lighterComplete : EncLen.Statement .lighterComplete := fun _ h => by simp only [encode] at h; cases h; try rfl
theorem EncLen.transformRow : EncLen.Statement .transformRow := fun _ h => by simp only [encode] at h; cases h; try rfl
theorem EncLen.accumulateStreamRecord : EncLen.Statement .accumulateStreamRecord := fun _ h => by simp only [encode] at h; cases h; try rfl
theorem EncLen.flushrAll : EncLen.Statement .flushrAll := fun _ h => by simp only [encode] at h; cases h; try rfl
theorem EncLen.accumulateArrival : EncLen.Statement .accumulateArrival := fun _ h => by simp only [encode] at h; cases h; try rfl
theorem EncLen.flushDelivery : EncLen.Statement .flushDelivery := fun _ h => by simp only [encode] at h; cases h; try rfl
theorem EncLen.refusalReply : EncLen.Statement .refusalReply := fun _ h => by simp only [encode] at h; cases h; try rfl
theorem EncLen.residualAgeExpiry : EncLen.Statement .residualAgeExpiry := fun _ h => by simp only [encode] at h; cases h; try rfl
theorem EncLen.acceptanceIntervalEnd : EncLen.Statement .acceptanceIntervalEnd := fun _ h => by simp only [encode] at h; cases h; try rfl
theorem EncLen.atomicPerform : EncLen.Statement .atomicPerform := fun _ h => by simp only [encode] at h; cases h; try rfl
theorem EncLen.atomicReply : EncLen.Statement .atomicReply := fun _ h => by simp only [encode] at h; cases h; try rfl
theorem EncLen.quietP : EncLen.Statement .quietP := fun _ h => by simp only [encode] at h; cases h; try rfl
theorem EncLen.quietG : EncLen.Statement .quietG := fun _ h => by simp only [encode] at h; cases h; try rfl
theorem EncLen.fenceG : EncLen.Statement .fenceG := fun _ h => by simp only [encode] at h; cases h; try rfl
theorem EncLen.fenceS : EncLen.Statement .fenceS := fun _ h => by simp only [encode] at h; cases h; try rfl
theorem EncLen.rte : EncLen.Statement .rte := fun _ h => by simp only [encode] at h; cases h; try rfl
theorem EncLen.halt : EncLen.Statement .halt := fun _ h => by simp only [encode] at h; cases h; try rfl
theorem EncLen.brk : EncLen.Statement .brk := fun _ h => by simp only [encode] at h; cases h; try rfl
theorem EncLen.arithmeticFiring : EncLen.Statement .arithmeticFiring := fun _ h => by simp only [encode] at h; cases h; try rfl
theorem EncLen.controlTokenFiring : EncLen.Statement .controlTokenFiring := fun _ h => by simp only [encode] at h; cases h; try rfl
theorem EncLen.nullFiring : EncLen.Statement .nullFiring := fun _ h => by simp only [encode] at h; cases h; try rfl
theorem EncLen.convert : EncLen.Statement .convert := fun _ h => by simp only [encode] at h; cases h; try rfl
theorem EncLen.mxPack : EncLen.Statement .mxPack := fun _ h => by simp only [encode] at h; cases h; try rfl
theorem EncLen.mxUnpack : EncLen.Statement .mxUnpack := fun _ h => by simp only [encode] at h; cases h; try rfl
theorem EncLen.fork : EncLen.Statement .fork := fun _ h => by simp only [encode] at h; cases h; try rfl
theorem EncLen.steer : EncLen.Statement .steer := fun _ h => by simp only [encode] at h; cases h; try rfl
theorem EncLen.filter : EncLen.Statement .filter := fun _ h => by simp only [encode] at h; cases h; try rfl
theorem EncLen.merge : EncLen.Statement .merge := fun _ h => by simp only [encode] at h; cases h; try rfl
theorem EncLen.nullMerge : EncLen.Statement .nullMerge := fun _ h => by simp only [encode] at h; cases h; try rfl
theorem EncLen.fairMerge : EncLen.Statement .fairMerge := fun _ h => by simp only [encode] at h; cases h; try rfl
theorem EncLen.sequenceTag : EncLen.Statement .sequenceTag := fun _ h => by simp only [encode] at h; cases h; try rfl
theorem EncLen.reorder : EncLen.Statement .reorder := fun _ h => by simp only [encode] at h; cases h; try rfl
theorem EncLen.tap : EncLen.Statement .tap := fun _ h => by simp only [encode] at h; cases h; try rfl
theorem EncLen.combineSend : EncLen.Statement .combineSend := fun _ h => by simp only [encode] at h; cases h; try rfl
theorem EncLen.compareExchange : EncLen.Statement .compareExchange := fun _ h => by simp only [encode] at h; cases h; try rfl
theorem EncLen.loopExitDrain : EncLen.Statement .loopExitDrain := fun _ h => by simp only [encode] at h; cases h; try rfl
theorem EncLen.constantSource : EncLen.Statement .constantSource := fun _ h => by simp only [encode] at h; cases h; try rfl
theorem EncLen.sink : EncLen.Statement .sink := fun _ h => by simp only [encode] at h; cases h; try rfl
theorem EncLen.repeat_ : EncLen.Statement .repeat_ := fun _ h => by simp only [encode] at h; cases h; try rfl
theorem EncLen.bankStream : EncLen.Statement .bankStream := fun _ h => by simp only [encode] at h; cases h; try rfl
theorem EncLen.globalStream : EncLen.Statement .globalStream := fun _ h => by simp only [encode] at h; cases h; try rfl
theorem EncLen.globalGather : EncLen.Statement .globalGather := fun _ h => by simp only [encode] at h; cases h; try rfl
theorem EncLen.generatorCompletion : EncLen.Statement .generatorCompletion := fun _ h => by simp only [encode] at h; cases h; try rfl
theorem EncLen.controllerPermit : EncLen.Statement .controllerPermit := fun _ h => by simp only [encode] at h; cases h; try rfl
theorem EncLen.controllerDone : EncLen.Statement .controllerDone := fun _ h => by simp only [encode] at h; cases h; try rfl
theorem EncLen.weightColumn : EncLen.Statement .weightColumn := fun _ h => by simp only [encode] at h; cases h; try rfl
theorem EncLen.activationRow : EncLen.Statement .activationRow := fun _ h => by simp only [encode] at h; cases h; try rfl
theorem EncLen.rowFiring : EncLen.Statement .rowFiring := fun _ h => by simp only [encode] at h; cases h; try rfl
theorem EncLen.mmDrain : EncLen.Statement .mmDrain := fun _ h => by simp only [encode] at h; cases h; try rfl
theorem EncLen.mmClear : EncLen.Statement .mmClear := fun _ h => by simp only [encode] at h; cases h; try rfl
theorem EncLen.nullRow : EncLen.Statement .nullRow := fun _ h => by simp only [encode] at h; cases h; try rfl
theorem EncLen.matrixControlToken : EncLen.Statement .matrixControlToken := fun _ h => by simp only [encode] at h; cases h; try rfl
theorem EncLen.sort : EncLen.Statement .sort := fun _ h => by simp only [encode] at h; cases h; try rfl
theorem EncLen.gateArrival : EncLen.Statement .gateArrival := fun _ h => by simp only [encode] at h; cases h; try rfl
theorem EncLen.gatePermit : EncLen.Statement .gatePermit := fun _ h => by simp only [encode] at h; cases h; try rfl
theorem EncLen.gateTimeout : EncLen.Statement .gateTimeout := fun _ h => by simp only [encode] at h; cases h; try rfl
theorem EncLen.contributionArrival : EncLen.Statement .contributionArrival := fun _ h => by simp only [encode] at h; cases h; try rfl
theorem EncLen.combineTimeout : EncLen.Statement .combineTimeout := fun _ h => by simp only [encode] at h; cases h; try rfl
theorem EncLen.wavePeriod : EncLen.Statement .wavePeriod := fun _ h => by simp only [encode] at h; cases h; try rfl
theorem EncLen.wavePass : EncLen.Statement .wavePass := fun _ h => by simp only [encode] at h; cases h; try rfl
theorem EncLen.yield_ : EncLen.Statement .yield_ := fun _ h => by simp only [encode] at h; cases h; try rfl
theorem EncLen.ireload : EncLen.Statement .ireload := fun _ h => by simp only [encode] at h; cases h; try rfl
theorem EncLen.done : EncLen.Statement .done := fun _ h => by simp only [encode] at h; cases h; try rfl
theorem EncLen.predicateRecord : EncLen.Statement .predicateRecord := fun _ h => by simp only [encode] at h; cases h; try rfl
theorem EncLen.segmentBoundarySwitch : EncLen.Statement .segmentBoundarySwitch := fun _ h => by simp only [encode] at h; cases h; try rfl
theorem EncLen.segmaxExpiry : EncLen.Statement .segmaxExpiry := fun _ h => by simp only [encode] at h; cases h; try rfl
theorem EncLen.pauseComplete : EncLen.Statement .pauseComplete := fun _ h => by simp only [encode] at h; cases h; try rfl
theorem EncLen.faultRecordArrival : EncLen.Statement .faultRecordArrival := fun _ h => by simp only [encode] at h; cases h; try rfl
theorem EncLen.holdTimeout : EncLen.Statement .holdTimeout := fun _ h => by simp only [encode] at h; cases h; try rfl
theorem EncLen.processMigration : EncLen.Statement .processMigration := fun _ h => by simp only [encode] at h; cases h; try rfl
theorem EncLen.functionLevelReset : EncLen.Statement .functionLevelReset := fun _ h => by simp only [encode] at h; cases h; try rfl
theorem EncLen.linkDown : EncLen.Statement .linkDown := fun _ h => by simp only [encode] at h; cases h; try rfl
theorem EncLen.pcieRetrain : EncLen.Statement .pcieRetrain := fun _ h => by simp only [encode] at h; cases h; try rfl
theorem EncLen.ethernetPortDown : EncLen.Statement .ethernetPortDown := fun _ h => by simp only [encode] at h; cases h; try rfl
theorem EncLen.flitReceive : EncLen.Statement .flitReceive := fun _ h => by simp only [encode] at h; cases h; try rfl
theorem EncLen.retrainComplete : EncLen.Statement .retrainComplete := fun _ h => by simp only [encode] at h; cases h; try rfl
theorem EncLen.powerGood : EncLen.Statement .powerGood := fun _ h => by simp only [encode] at h; cases h; try rfl
theorem EncLen.hbmTrainingComplete : EncLen.Statement .hbmTrainingComplete := fun _ h => by simp only [encode] at h; cases h; try rfl
theorem EncLen.selfTestComplete : EncLen.Statement .selfTestComplete := fun _ h => by simp only [encode] at h; cases h; try rfl
theorem EncLen.undervoltage : EncLen.Statement .undervoltage := fun _ h => by simp only [encode] at h; cases h; try rfl
theorem EncLen.thermalTrip : EncLen.Statement .thermalTrip := fun _ h => by simp only [encode] at h; cases h; try rfl
theorem EncLen.counterRaise : EncLen.Statement .counterRaise := fun _ h => by simp only [encode] at h; cases h; try rfl
theorem EncLen.readStatus : EncLen.Statement .readStatus := fun _ h => by simp only [encode] at h; cases h; try rfl
theorem EncLen.setBudget : EncLen.Statement .setBudget := fun _ h => by simp only [encode] at h; cases h; try rfl
theorem EncLen.powerCycleRequest : EncLen.Statement .powerCycleRequest := fun _ h => by simp only [encode] at h; cases h; try rfl
theorem EncLen.getVersion : EncLen.Statement .getVersion := fun _ h => by simp only [encode] at h; cases h; try rfl
theorem EncLen.getCapabilities : EncLen.Statement .getCapabilities := fun _ h => by simp only [encode] at h; cases h; try rfl
theorem EncLen.negotiateAlgorithms : EncLen.Statement .negotiateAlgorithms := fun _ h => by simp only [encode] at h; cases h; try rfl
theorem EncLen.getDigests : EncLen.Statement .getDigests := fun _ h => by simp only [encode] at h; cases h; try rfl
theorem EncLen.getCertificate : EncLen.Statement .getCertificate := fun _ h => by simp only [encode] at h; cases h; try rfl
theorem EncLen.challenge : EncLen.Statement .challenge := fun _ h => by simp only [encode] at h; cases h; try rfl
theorem EncLen.getMeasurements : EncLen.Statement .getMeasurements := fun _ h => by simp only [encode] at h; cases h; try rfl
theorem EncLen.accumulateAcknowledgement : EncLen.Statement .accumulateAcknowledgement := fun _ h => by simp only [encode] at h; cases h; try rfl
theorem EncLen.confirmingReadCompletion : EncLen.Statement .confirmingReadCompletion := fun _ h => by simp only [encode] at h; cases h; try rfl
theorem EncLen.virtualQueueAssign : EncLen.Statement .virtualQueueAssign := fun _ h => by simp only [encode] at h; cases h; try rfl
theorem EncLen.regionReclaim : EncLen.Statement .regionReclaim := fun _ h => by simp only [encode] at h; cases h; try rfl
theorem EncLen.replacementFallback : EncLen.Statement .replacementFallback := fun _ h => by simp only [encode] at h; cases h; try rfl
theorem EncLen.migrationReceive : EncLen.Statement .migrationReceive := fun _ h => by simp only [encode] at h; cases h; try rfl
theorem EncLen.ethernetPortUp : EncLen.Statement .ethernetPortUp := fun _ h => by simp only [encode] at h; cases h; try rfl
theorem EncLen.bridgedRecordArrival : EncLen.Statement .bridgedRecordArrival := fun _ h => by simp only [encode] at h; cases h; try rfl
theorem EncLen.mctpControlMessage : EncLen.Statement .mctpControlMessage := fun _ h => by simp only [encode] at h; cases h; try rfl
theorem EncLen.correctableError : EncLen.Statement .correctableError := fun _ h => by simp only [encode] at h; cases h; try rfl

end Sys2Proof.Laws
end

