-- ==== Sys2Proof/Laws/Run.lean ====
section
/-! SUPPORT. What running a task instruction comes to (R133, R153), said once: provers cite these and never unfold `runTask`. -/

namespace Sys2Proof.Machine

theorem tm_bind_ok {α β : Type} {x : TM α} {f : α → TM β} {c c' : TCtx} {a : α} (h : x c = .ok (a, c')) : (x >>= f) c = f a c' := by
  simp only [bind, StateT.bind, Except.bind, h]

theorem tm_bind_error {α β : Type} {x : TM α} {f : α → TM β} {c : TCtx} {e : Stop} (h : x c = .error e) : (x >>= f) c = .error e := by
  simp only [bind, StateT.bind, Except.bind, h]

@[simp] theorem tm_pure {α : Type} (a : α) (c : TCtx) : (pure a : TM α) c = .ok (a, c) := rfl
@[simp] theorem getTk_run (c : TCtx) : getTk c = .ok (c.tk, c) := rfl
@[simp] theorem getS_run (c : TCtx) : getS c = .ok (c.s, c) := rfl
@[simp] theorem getT_run (c : TCtx) : getT c = .ok (c.t, c) := rfl
@[simp] theorem getN_run (c : TCtx) : getN c = .ok (c.n, c) := rfl
@[simp] theorem modTk_run (f : TaskRt → TaskRt) (c : TCtx) : modTk f c = .ok ((), { c with tk := f c.tk }) := rfl
@[simp] theorem modS_run (f : State → State) (c : TCtx) : modS f c = .ok ((), { c with s := f c.s }) := rfl
@[simp] theorem modST_run (f : State → Nat → Nat → State) (c : TCtx) : modST f c = .ok ((), { c with s := f c.s c.t c.n }) := rfl
@[simp] theorem setNext_run (x : Int) (c : TCtx) : setNext x c = .ok ((), { c with next := x }) := rfl
@[simp] theorem stop_run {α : Type} (x : Stop) (c : TCtx) : (stop x : TM α) c = .error x := rfl
@[simp] theorem raise_run {α : Type} (code : Nat) (arg : W64) (c : TCtx) : (raise code arg : TM α) c = .error (.trap code arg) := rfl
@[simp] theorem raiseIf_false (code : Nat) (arg : W64) : raiseIf false code arg = pure () := rfl
@[simp] theorem stallUnless_true : stallUnless true = pure () := rfl
@[simp] theorem blockUnless_true : blockUnless true = pure () := rfl

/-- Where an instruction starts, its checks pass and its own effect runs (R147). -/
theorem Starts.prelude {i : Instr} {len : Nat} {s : State} {c : TCtx} (h : Starts i len s c) (w : W32) (body : TM Unit) :
    (do decodeChecks i w; atomicStall; body : TM Unit) c = body c := by
  obtain ⟨tk, ht, rfl⟩ := h.task
  obtain ⟨tn, hn, hd, hw⟩ := h.tenure
  have hf := h.unflagged
  have hu := h.bound
  have hwf := h.formed
  generalize hc : ({ s := s, t := s.cur.1, n := s.cur.2, tk := { tk with st := .running }, next := tk.pc + len } : TCtx) = c at *
  have hget : getTn c = .ok (tn, c) := by subst hc; simp only [getTn, hn]
  have e1 : decodeChecks i w c = .ok ((), c) := by
    have hdet : (tn.g.det && classBits i &&& ((tn.g.nodes[c.n]?.map NodeE.cls).getD 0) != classBits i) = false := by
      have hcn : c.n = s.cur.2 := by subst hc; rfl
      rw [hcn]
      by_cases hd' : tn.g.det = true
      · simp [hd hd', hd']
      · simp [hd']
    unfold decodeChecks
    rw [tm_bind_ok (getTk_run c), tm_bind_ok hget, tm_bind_ok (getN_run c), hdet]
    simp only [hwf, Bool.not_true, raiseIf_false, hu]
    rfl
  have e2 : atomicStall c = .ok ((), c) := by
    unfold atomicStall
    rw [tm_bind_ok hget, tm_bind_ok (getTk_run c), hf]
    have : (!(tn.watch.toList.any (fun w => (w.map Watchpoint.at_).getD false) && c.tk.atoms.any (fun x => decide (8 ≤ x.2)))) = true := by
      by_cases ha : tn.watch.toList.any (fun w => (w.map Watchpoint.at_).getD false) = true
      · simp only [hw ha, Bool.and_false, Bool.not_false]
      · simp only [Bool.not_eq_true] at ha; simp only [ha, Bool.false_and, Bool.not_false]
    simp only [this, stallUnless_true]
    rfl
  rw [tm_bind_ok e1, tm_bind_ok e2]

/-- An instruction whose effect completes is done. -/
theorem runTask_done {i : Instr} {len : Nat} {s : State} {c c' : TCtx} (h : Starts i len s c) (w : W32) {body : TM Unit}
    (hb : body c = .ok ((), c')) : runTask i w len body s = .next (completed s c') := by
  have hp := h.prelude w body
  obtain ⟨tk, ht, rfl⟩ := h.task
  simp only [runTask, ht, hp, hb, completed]

/-- An instruction that waits leaves everything as it is (R153). -/
theorem runTask_wait {i : Instr} {len : Nat} {s : State} {c : TCtx} {tk : TaskRt} (h : Starts i len s c)
    (ht : s.tasks.get? (key2 s.cur.1 s.cur.2) = some tk) (w : W32) {body : TM Unit} {b : Bool}
    (hb : body c = .error (.wait b)) : runTask i w len body s = .next (waiting s tk b) := by
  have hp := h.prelude w body
  obtain ⟨tk', ht', rfl⟩ := h.task
  rw [ht] at ht'; cases ht'
  simp only [runTask, ht, hp, hb, waiting]

/-- An instruction that faults takes its trap, and nothing of it is performed (R133, R375). -/
theorem runTask_trap {i : Instr} {len : Nat} {s : State} {c : TCtx} (h : Starts i len s c) (w : W32) {body : TM Unit} {code : Nat}
    {arg : W64} (hb : body c = .error (.trap code arg)) :
    runTask i w len body s = .next (takeTrap s s.cur.1 s.cur.2 c.tk code arg c.tk.pc) := by
  have hp := h.prelude w body
  obtain ⟨tk, ht, rfl⟩ := h.task
  simp only [runTask, ht, hp, hb]

/-- A task instruction always comes to a next state where its node stands in the fabric, and stops at `noTask` where it does not. -/
theorem runTask_cases (i : Instr) (w : W32) (len : Nat) (body : TM Unit) (s : State) :
    (s.tasks.get? (key2 s.cur.1 s.cur.2) = none ∧ runTask i w len body s = .fault .noTask) ∨
    ((s.tasks.get? (key2 s.cur.1 s.cur.2)).isSome ∧ ∃ s', runTask i w len body s = .next s') := by
  cases hk : s.tasks.get? (key2 s.cur.1 s.cur.2) with
  | none => exact .inl ⟨rfl, by simp only [runTask, hk]⟩
  | some tk =>
    refine .inr ⟨rfl, ?_⟩
    simp only [runTask, hk]
    split <;> exact ⟨_, rfl⟩

/-! ### Operands (R133, R176 to R179) -/

/-- A register that nothing holds back can be used. -/
theorem useReg_ok {o : Opnd} {c : TCtx} (h1 : c.tk.wflags.find? (fun f => f.dst == some o) = none) (h2 : c.tk.pend.contains o = false) :
    useReg o c = .ok ((), c) := by
  simp only [useReg, h1, h2]; rfl

/-- A port's current record and the unit at its index (R176, R177). -/
theorem popUnit_ok {p : Fin 16} {c c1 : TCtx} {r : Rec} {u : W64} (hr : currentRec p c = .ok (r, c1))
    (hu : r.units[c1.tk.inp[p].idx]? = some u) :
    popUnit p c = .ok (u, { c1 with tk := { c1.tk with inp := c1.tk.inp.set p { cur := true, idx := c1.tk.inp[p].idx + 1 } } }) := by
  unfold popUnit
  rw [tm_bind_ok hr, tm_bind_ok (getTk_run c1)]
  simp only [hu]
  rw [tm_bind_ok (modTk_run _ c1)]
  rfl

/-- Two sources read in order and one result written. -/
theorem scalar2_ok {f : W32 → W32 → W32} {d a b : Opnd} {c c1 c2 c3 : TCtx} {x y : W32} (ha : read32 a c = .ok (x, c1))
    (hb : read32 b c1 = .ok (y, c2)) (hd : write32 d (f x y) c2 = .ok ((), c3)) : scalar2 f d a b c = .ok ((), c3) := by
  unfold scalar2; rw [tm_bind_ok ha, tm_bind_ok hb, hd]

/-- One source read and one result written. -/
theorem scalar1_ok {f : W32 → W32} {d a : Opnd} {c c1 c2 : TCtx} {x : W32} (ha : read32 a c = .ok (x, c1))
    (hd : write32 d (f x) c1 = .ok ((), c2)) : scalar1 f d a c = .ok ((), c2) := by
  unfold scalar1; rw [tm_bind_ok ha, hd]

/-! ### Passage instructions (R352) -/

/-- A passage instruction always comes to a next state where its tenure exists. -/
theorem runPassage_cases (len : Nat) (f : State → Nat → Tenure → PStep) (s : State) :
    (s.tenures.get? s.cur.1 = none ∧ runPassage len f s = .fault .noLockkeeper) ∨
    ((s.tenures.get? s.cur.1).isSome ∧ ∃ s', runPassage len f s = .next s') := by
  cases hk : s.tenures.get? s.cur.1 with
  | none => exact .inl ⟨rfl, by simp only [runPassage, hk]⟩
  | some tn =>
    refine .inr ⟨rfl, ?_⟩
    simp only [runPassage, hk]
    split <;> exact ⟨_, rfl⟩

end Sys2Proof.Machine
end

