-- ==== Sys2Proof/Laws/State.lean ====
section
/-! SUPPORT. What each named update of the state does to each field, by `rfl`. -/

namespace Sys2Proof.Machine

/-! ### modTenure -/

@[simp] theorem State.modTenure_clk (s : State) (t : Nat) (f : Tenure → Tenure) : (s.modTenure t f).clk = s.clk := rfl
@[simp] theorem State.modTenure_nowNs (s : State) (t : Nat) (f : Tenure → Tenure) : (s.modTenure t f).nowNs = s.nowNs := rfl
@[simp] theorem State.modTenure_agenda (s : State) (t : Nat) (f : Tenure → Tenure) : (s.modTenure t f).agenda = s.agenda := rfl
@[simp] theorem State.modTenure_cur (s : State) (t : Nat) (f : Tenure → Tenure) : (s.modTenure t f).cur = s.cur := rfl
@[simp] theorem State.modTenure_subj (s : State) (t : Nat) (f : Tenure → Tenure) : (s.modTenure t f).subj = s.subj := rfl
@[simp] theorem State.modTenure_freeCtr (s : State) (t : Nat) (f : Tenure → Tenure) : (s.modTenure t f).freeCtr = s.freeCtr := rfl
@[simp] theorem State.modTenure_nextMsg (s : State) (t : Nat) (f : Tenure → Tenure) : (s.modTenure t f).nextMsg = s.nextMsg := rfl
@[simp] theorem State.modTenure_hostMem (s : State) (t : Nat) (f : Tenure → Tenure) : (s.modTenure t f).hostMem = s.hostMem := rfl
@[simp] theorem State.modTenure_devMem (s : State) (t : Nat) (f : Tenure → Tenure) : (s.modTenure t f).devMem = s.devMem := rfl
@[simp] theorem State.modTenure_hostPages (s : State) (t : Nat) (f : Tenure → Tenure) : (s.modTenure t f).hostPages = s.hostPages := rfl
@[simp] theorem State.modTenure_pasidOff (s : State) (t : Nat) (f : Tenure → Tenure) : (s.modTenure t f).pasidOff = s.pasidOff := rfl
@[simp] theorem State.modTenure_roots (s : State) (t : Nat) (f : Tenure → Tenure) : (s.modTenure t f).roots = s.roots := rfl
@[simp] theorem State.modTenure_tlbs (s : State) (t : Nat) (f : Tenure → Tenure) : (s.modTenure t f).tlbs = s.tlbs := rfl
@[simp] theorem State.modTenure_pageReqs (s : State) (t : Nat) (f : Tenure → Tenure) : (s.modTenure t f).pageReqs = s.pageReqs := rfl
@[simp] theorem State.modTenure_pageFails (s : State) (t : Nat) (f : Tenure → Tenure) : (s.modTenure t f).pageFails = s.pageFails := rfl
@[simp] theorem State.modTenure_tenures (s : State) (t : Nat) (f : Tenure → Tenure) : (s.modTenure t f).tenures = s.tenures.modify t f := rfl
@[simp] theorem State.modTenure_nextTenure (s : State) (t : Nat) (f : Tenure → Tenure) : (s.modTenure t f).nextTenure = s.nextTenure := rfl
@[simp] theorem State.modTenure_tasks (s : State) (t : Nat) (f : Tenure → Tenure) : (s.modTenure t f).tasks = s.tasks := rfl
@[simp] theorem State.modTenure_opers (s : State) (t : Nat) (f : Tenure → Tenure) : (s.modTenure t f).opers = s.opers := rfl
@[simp] theorem State.modTenure_gens (s : State) (t : Nat) (f : Tenure → Tenure) : (s.modTenure t f).gens = s.gens := rfl
@[simp] theorem State.modTenure_ctrls (s : State) (t : Nat) (f : Tenure → Tenure) : (s.modTenure t f).ctrls = s.ctrls := rfl
@[simp] theorem State.modTenure_mats (s : State) (t : Nat) (f : Tenure → Tenure) : (s.modTenure t f).mats = s.mats := rfl
@[simp] theorem State.modTenure_chans (s : State) (t : Nat) (f : Tenure → Tenure) : (s.modTenure t f).chans = s.chans := rfl
@[simp] theorem State.modTenure_gates (s : State) (t : Nat) (f : Tenure → Tenure) : (s.modTenure t f).gates = s.gates := rfl
@[simp] theorem State.modTenure_wins (s : State) (t : Nat) (f : Tenure → Tenure) : (s.modTenure t f).wins = s.wins := rfl
@[simp] theorem State.modTenure_combs (s : State) (t : Nat) (f : Tenure → Tenure) : (s.modTenure t f).combs = s.combs := rfl
@[simp] theorem State.modTenure_net (s : State) (t : Nat) (f : Tenure → Tenure) : (s.modTenure t f).net = s.net := rfl
@[simp] theorem State.modTenure_hostPort (s : State) (t : Nat) (f : Tenure → Tenure) : (s.modTenure t f).hostPort = s.hostPort := rfl
@[simp] theorem State.modTenure_lighters (s : State) (t : Nat) (f : Tenure → Tenure) : (s.modTenure t f).lighters = s.lighters := rfl
@[simp] theorem State.modTenure_units (s : State) (t : Nat) (f : Tenure → Tenure) : (s.modTenure t f).units = s.units := rfl
@[simp] theorem State.modTenure_subtrees (s : State) (t : Nat) (f : Tenure → Tenure) : (s.modTenure t f).subtrees = s.subtrees := rfl
@[simp] theorem State.modTenure_planes (s : State) (t : Nat) (f : Tenure → Tenure) : (s.modTenure t f).planes = s.planes := rfl
@[simp] theorem State.modTenure_tokens (s : State) (t : Nat) (f : Tenure → Tenure) : (s.modTenure t f).tokens = s.tokens := rfl
@[simp] theorem State.modTenure_repair (s : State) (t : Nat) (f : Tenure → Tenure) : (s.modTenure t f).repair = s.repair := rfl
@[simp] theorem State.modTenure_queues (s : State) (t : Nat) (f : Tenure → Tenure) : (s.modTenure t f).queues = s.queues := rfl
@[simp] theorem State.modTenure_nextQueue (s : State) (t : Nat) (f : Tenure → Tenure) : (s.modTenure t f).nextQueue = s.nextQueue := rfl
@[simp] theorem State.modTenure_vqs (s : State) (t : Nat) (f : Tenure → Tenure) : (s.modTenure t f).vqs = s.vqs := rfl
@[simp] theorem State.modTenure_nextVq (s : State) (t : Nat) (f : Tenure → Tenure) : (s.modTenure t f).nextVq = s.nextVq := rfl
@[simp] theorem State.modTenure_handles (s : State) (t : Nat) (f : Tenure → Tenure) : (s.modTenure t f).handles = s.handles := rfl
@[simp] theorem State.modTenure_irqs (s : State) (t : Nat) (f : Tenure → Tenure) : (s.modTenure t f).irqs = s.irqs := rfl
@[simp] theorem State.modTenure_bar2 (s : State) (t : Nat) (f : Tenure → Tenure) : (s.modTenure t f).bar2 = s.bar2 := rfl
@[simp] theorem State.modTenure_mboxDoor (s : State) (t : Nat) (f : Tenure → Tenure) : (s.modTenure t f).mboxDoor = s.mboxDoor := rfl
@[simp] theorem State.modTenure_msixPba (s : State) (t : Nat) (f : Tenure → Tenure) : (s.modTenure t f).msixPba = s.msixPba := rfl
@[simp] theorem State.modTenure_mboxRsp (s : State) (t : Nat) (f : Tenure → Tenure) : (s.modTenure t f).mboxRsp = s.mboxRsp := rfl
@[simp] theorem State.modTenure_gov (s : State) (t : Nat) (f : Tenure → Tenure) : (s.modTenure t f).gov = s.gov := rfl
@[simp] theorem State.modTenure_links (s : State) (t : Nat) (f : Tenure → Tenure) : (s.modTenure t f).links = s.links := rfl
@[simp] theorem State.modTenure_dawn (s : State) (t : Nat) (f : Tenure → Tenure) : (s.modTenure t f).dawn = s.dawn := rfl
@[simp] theorem State.modTenure_mctp (s : State) (t : Nat) (f : Tenure → Tenure) : (s.modTenure t f).mctp = s.mctp := rfl
@[simp] theorem State.modTenure_corrected (s : State) (t : Nat) (f : Tenure → Tenure) : (s.modTenure t f).corrected = s.corrected := rfl
@[simp] theorem State.modTenure_osEvents (s : State) (t : Nat) (f : Tenure → Tenure) : (s.modTenure t f).osEvents = s.osEvents := rfl
@[simp] theorem State.modTenure_cores (s : State) (t : Nat) (f : Tenure → Tenure) : (s.modTenure t f).cores = s.cores := rfl
@[simp] theorem State.modTenure_pcie (s : State) (t : Nat) (f : Tenure → Tenure) : (s.modTenure t f).pcie = s.pcie := rfl
@[simp] theorem State.modTenure_ethUp (s : State) (t : Nat) (f : Tenure → Tenure) : (s.modTenure t f).ethUp = s.ethUp := rfl
@[simp] theorem State.modTenure_bridgeOut (s : State) (t : Nat) (f : Tenure → Tenure) : (s.modTenure t f).bridgeOut = s.bridgeOut := rfl
@[simp] theorem State.modTenure_ethOut (s : State) (t : Nat) (f : Tenure → Tenure) : (s.modTenure t f).ethOut = s.ethOut := rfl
@[simp] theorem State.modTenure_ethIn (s : State) (t : Nat) (f : Tenure → Tenure) : (s.modTenure t f).ethIn = s.ethIn := rfl

/-! ### modChan -/

@[simp] theorem State.modChan_clk (s : State) (t c : Nat) (f : ChanRt → ChanRt) : (s.modChan t c f).clk = s.clk := rfl
@[simp] theorem State.modChan_nowNs (s : State) (t c : Nat) (f : ChanRt → ChanRt) : (s.modChan t c f).nowNs = s.nowNs := rfl
@[simp] theorem State.modChan_agenda (s : State) (t c : Nat) (f : ChanRt → ChanRt) : (s.modChan t c f).agenda = s.agenda := rfl
@[simp] theorem State.modChan_cur (s : State) (t c : Nat) (f : ChanRt → ChanRt) : (s.modChan t c f).cur = s.cur := rfl
@[simp] theorem State.modChan_subj (s : State) (t c : Nat) (f : ChanRt → ChanRt) : (s.modChan t c f).subj = s.subj := rfl
@[simp] theorem State.modChan_freeCtr (s : State) (t c : Nat) (f : ChanRt → ChanRt) : (s.modChan t c f).freeCtr = s.freeCtr := rfl
@[simp] theorem State.modChan_nextMsg (s : State) (t c : Nat) (f : ChanRt → ChanRt) : (s.modChan t c f).nextMsg = s.nextMsg := rfl
@[simp] theorem State.modChan_hostMem (s : State) (t c : Nat) (f : ChanRt → ChanRt) : (s.modChan t c f).hostMem = s.hostMem := rfl
@[simp] theorem State.modChan_devMem (s : State) (t c : Nat) (f : ChanRt → ChanRt) : (s.modChan t c f).devMem = s.devMem := rfl
@[simp] theorem State.modChan_hostPages (s : State) (t c : Nat) (f : ChanRt → ChanRt) : (s.modChan t c f).hostPages = s.hostPages := rfl
@[simp] theorem State.modChan_pasidOff (s : State) (t c : Nat) (f : ChanRt → ChanRt) : (s.modChan t c f).pasidOff = s.pasidOff := rfl
@[simp] theorem State.modChan_roots (s : State) (t c : Nat) (f : ChanRt → ChanRt) : (s.modChan t c f).roots = s.roots := rfl
@[simp] theorem State.modChan_tlbs (s : State) (t c : Nat) (f : ChanRt → ChanRt) : (s.modChan t c f).tlbs = s.tlbs := rfl
@[simp] theorem State.modChan_pageReqs (s : State) (t c : Nat) (f : ChanRt → ChanRt) : (s.modChan t c f).pageReqs = s.pageReqs := rfl
@[simp] theorem State.modChan_pageFails (s : State) (t c : Nat) (f : ChanRt → ChanRt) : (s.modChan t c f).pageFails = s.pageFails := rfl
@[simp] theorem State.modChan_tenures (s : State) (t c : Nat) (f : ChanRt → ChanRt) : (s.modChan t c f).tenures = s.tenures := rfl
@[simp] theorem State.modChan_nextTenure (s : State) (t c : Nat) (f : ChanRt → ChanRt) : (s.modChan t c f).nextTenure = s.nextTenure := rfl
@[simp] theorem State.modChan_tasks (s : State) (t c : Nat) (f : ChanRt → ChanRt) : (s.modChan t c f).tasks = s.tasks := rfl
@[simp] theorem State.modChan_opers (s : State) (t c : Nat) (f : ChanRt → ChanRt) : (s.modChan t c f).opers = s.opers := rfl
@[simp] theorem State.modChan_gens (s : State) (t c : Nat) (f : ChanRt → ChanRt) : (s.modChan t c f).gens = s.gens := rfl
@[simp] theorem State.modChan_ctrls (s : State) (t c : Nat) (f : ChanRt → ChanRt) : (s.modChan t c f).ctrls = s.ctrls := rfl
@[simp] theorem State.modChan_mats (s : State) (t c : Nat) (f : ChanRt → ChanRt) : (s.modChan t c f).mats = s.mats := rfl
@[simp] theorem State.modChan_chans (s : State) (t c : Nat) (f : ChanRt → ChanRt) : (s.modChan t c f).chans = s.chans.modify (key2 t c) f := rfl
@[simp] theorem State.modChan_gates (s : State) (t c : Nat) (f : ChanRt → ChanRt) : (s.modChan t c f).gates = s.gates := rfl
@[simp] theorem State.modChan_wins (s : State) (t c : Nat) (f : ChanRt → ChanRt) : (s.modChan t c f).wins = s.wins := rfl
@[simp] theorem State.modChan_combs (s : State) (t c : Nat) (f : ChanRt → ChanRt) : (s.modChan t c f).combs = s.combs := rfl
@[simp] theorem State.modChan_net (s : State) (t c : Nat) (f : ChanRt → ChanRt) : (s.modChan t c f).net = s.net := rfl
@[simp] theorem State.modChan_hostPort (s : State) (t c : Nat) (f : ChanRt → ChanRt) : (s.modChan t c f).hostPort = s.hostPort := rfl
@[simp] theorem State.modChan_lighters (s : State) (t c : Nat) (f : ChanRt → ChanRt) : (s.modChan t c f).lighters = s.lighters := rfl
@[simp] theorem State.modChan_units (s : State) (t c : Nat) (f : ChanRt → ChanRt) : (s.modChan t c f).units = s.units := rfl
@[simp] theorem State.modChan_subtrees (s : State) (t c : Nat) (f : ChanRt → ChanRt) : (s.modChan t c f).subtrees = s.subtrees := rfl
@[simp] theorem State.modChan_planes (s : State) (t c : Nat) (f : ChanRt → ChanRt) : (s.modChan t c f).planes = s.planes := rfl
@[simp] theorem State.modChan_tokens (s : State) (t c : Nat) (f : ChanRt → ChanRt) : (s.modChan t c f).tokens = s.tokens := rfl
@[simp] theorem State.modChan_repair (s : State) (t c : Nat) (f : ChanRt → ChanRt) : (s.modChan t c f).repair = s.repair := rfl
@[simp] theorem State.modChan_queues (s : State) (t c : Nat) (f : ChanRt → ChanRt) : (s.modChan t c f).queues = s.queues := rfl
@[simp] theorem State.modChan_nextQueue (s : State) (t c : Nat) (f : ChanRt → ChanRt) : (s.modChan t c f).nextQueue = s.nextQueue := rfl
@[simp] theorem State.modChan_vqs (s : State) (t c : Nat) (f : ChanRt → ChanRt) : (s.modChan t c f).vqs = s.vqs := rfl
@[simp] theorem State.modChan_nextVq (s : State) (t c : Nat) (f : ChanRt → ChanRt) : (s.modChan t c f).nextVq = s.nextVq := rfl
@[simp] theorem State.modChan_handles (s : State) (t c : Nat) (f : ChanRt → ChanRt) : (s.modChan t c f).handles = s.handles := rfl
@[simp] theorem State.modChan_irqs (s : State) (t c : Nat) (f : ChanRt → ChanRt) : (s.modChan t c f).irqs = s.irqs := rfl
@[simp] theorem State.modChan_bar2 (s : State) (t c : Nat) (f : ChanRt → ChanRt) : (s.modChan t c f).bar2 = s.bar2 := rfl
@[simp] theorem State.modChan_mboxDoor (s : State) (t c : Nat) (f : ChanRt → ChanRt) : (s.modChan t c f).mboxDoor = s.mboxDoor := rfl
@[simp] theorem State.modChan_msixPba (s : State) (t c : Nat) (f : ChanRt → ChanRt) : (s.modChan t c f).msixPba = s.msixPba := rfl
@[simp] theorem State.modChan_mboxRsp (s : State) (t c : Nat) (f : ChanRt → ChanRt) : (s.modChan t c f).mboxRsp = s.mboxRsp := rfl
@[simp] theorem State.modChan_gov (s : State) (t c : Nat) (f : ChanRt → ChanRt) : (s.modChan t c f).gov = s.gov := rfl
@[simp] theorem State.modChan_links (s : State) (t c : Nat) (f : ChanRt → ChanRt) : (s.modChan t c f).links = s.links := rfl
@[simp] theorem State.modChan_dawn (s : State) (t c : Nat) (f : ChanRt → ChanRt) : (s.modChan t c f).dawn = s.dawn := rfl
@[simp] theorem State.modChan_mctp (s : State) (t c : Nat) (f : ChanRt → ChanRt) : (s.modChan t c f).mctp = s.mctp := rfl
@[simp] theorem State.modChan_corrected (s : State) (t c : Nat) (f : ChanRt → ChanRt) : (s.modChan t c f).corrected = s.corrected := rfl
@[simp] theorem State.modChan_osEvents (s : State) (t c : Nat) (f : ChanRt → ChanRt) : (s.modChan t c f).osEvents = s.osEvents := rfl
@[simp] theorem State.modChan_cores (s : State) (t c : Nat) (f : ChanRt → ChanRt) : (s.modChan t c f).cores = s.cores := rfl
@[simp] theorem State.modChan_pcie (s : State) (t c : Nat) (f : ChanRt → ChanRt) : (s.modChan t c f).pcie = s.pcie := rfl
@[simp] theorem State.modChan_ethUp (s : State) (t c : Nat) (f : ChanRt → ChanRt) : (s.modChan t c f).ethUp = s.ethUp := rfl
@[simp] theorem State.modChan_bridgeOut (s : State) (t c : Nat) (f : ChanRt → ChanRt) : (s.modChan t c f).bridgeOut = s.bridgeOut := rfl
@[simp] theorem State.modChan_ethOut (s : State) (t c : Nat) (f : ChanRt → ChanRt) : (s.modChan t c f).ethOut = s.ethOut := rfl
@[simp] theorem State.modChan_ethIn (s : State) (t c : Nat) (f : ChanRt → ChanRt) : (s.modChan t c f).ethIn = s.ethIn := rfl

/-! ### modTask -/

@[simp] theorem State.modTask_clk (s : State) (t n : Nat) (f : TaskRt → TaskRt) : (s.modTask t n f).clk = s.clk := rfl
@[simp] theorem State.modTask_nowNs (s : State) (t n : Nat) (f : TaskRt → TaskRt) : (s.modTask t n f).nowNs = s.nowNs := rfl
@[simp] theorem State.modTask_agenda (s : State) (t n : Nat) (f : TaskRt → TaskRt) : (s.modTask t n f).agenda = s.agenda := rfl
@[simp] theorem State.modTask_cur (s : State) (t n : Nat) (f : TaskRt → TaskRt) : (s.modTask t n f).cur = s.cur := rfl
@[simp] theorem State.modTask_subj (s : State) (t n : Nat) (f : TaskRt → TaskRt) : (s.modTask t n f).subj = s.subj := rfl
@[simp] theorem State.modTask_freeCtr (s : State) (t n : Nat) (f : TaskRt → TaskRt) : (s.modTask t n f).freeCtr = s.freeCtr := rfl
@[simp] theorem State.modTask_nextMsg (s : State) (t n : Nat) (f : TaskRt → TaskRt) : (s.modTask t n f).nextMsg = s.nextMsg := rfl
@[simp] theorem State.modTask_hostMem (s : State) (t n : Nat) (f : TaskRt → TaskRt) : (s.modTask t n f).hostMem = s.hostMem := rfl
@[simp] theorem State.modTask_devMem (s : State) (t n : Nat) (f : TaskRt → TaskRt) : (s.modTask t n f).devMem = s.devMem := rfl
@[simp] theorem State.modTask_hostPages (s : State) (t n : Nat) (f : TaskRt → TaskRt) : (s.modTask t n f).hostPages = s.hostPages := rfl
@[simp] theorem State.modTask_pasidOff (s : State) (t n : Nat) (f : TaskRt → TaskRt) : (s.modTask t n f).pasidOff = s.pasidOff := rfl
@[simp] theorem State.modTask_roots (s : State) (t n : Nat) (f : TaskRt → TaskRt) : (s.modTask t n f).roots = s.roots := rfl
@[simp] theorem State.modTask_tlbs (s : State) (t n : Nat) (f : TaskRt → TaskRt) : (s.modTask t n f).tlbs = s.tlbs := rfl
@[simp] theorem State.modTask_pageReqs (s : State) (t n : Nat) (f : TaskRt → TaskRt) : (s.modTask t n f).pageReqs = s.pageReqs := rfl
@[simp] theorem State.modTask_pageFails (s : State) (t n : Nat) (f : TaskRt → TaskRt) : (s.modTask t n f).pageFails = s.pageFails := rfl
@[simp] theorem State.modTask_tenures (s : State) (t n : Nat) (f : TaskRt → TaskRt) : (s.modTask t n f).tenures = s.tenures := rfl
@[simp] theorem State.modTask_nextTenure (s : State) (t n : Nat) (f : TaskRt → TaskRt) : (s.modTask t n f).nextTenure = s.nextTenure := rfl
@[simp] theorem State.modTask_tasks (s : State) (t n : Nat) (f : TaskRt → TaskRt) : (s.modTask t n f).tasks = s.tasks.modify (key2 t n) f := rfl
@[simp] theorem State.modTask_opers (s : State) (t n : Nat) (f : TaskRt → TaskRt) : (s.modTask t n f).opers = s.opers := rfl
@[simp] theorem State.modTask_gens (s : State) (t n : Nat) (f : TaskRt → TaskRt) : (s.modTask t n f).gens = s.gens := rfl
@[simp] theorem State.modTask_ctrls (s : State) (t n : Nat) (f : TaskRt → TaskRt) : (s.modTask t n f).ctrls = s.ctrls := rfl
@[simp] theorem State.modTask_mats (s : State) (t n : Nat) (f : TaskRt → TaskRt) : (s.modTask t n f).mats = s.mats := rfl
@[simp] theorem State.modTask_chans (s : State) (t n : Nat) (f : TaskRt → TaskRt) : (s.modTask t n f).chans = s.chans := rfl
@[simp] theorem State.modTask_gates (s : State) (t n : Nat) (f : TaskRt → TaskRt) : (s.modTask t n f).gates = s.gates := rfl
@[simp] theorem State.modTask_wins (s : State) (t n : Nat) (f : TaskRt → TaskRt) : (s.modTask t n f).wins = s.wins := rfl
@[simp] theorem State.modTask_combs (s : State) (t n : Nat) (f : TaskRt → TaskRt) : (s.modTask t n f).combs = s.combs := rfl
@[simp] theorem State.modTask_net (s : State) (t n : Nat) (f : TaskRt → TaskRt) : (s.modTask t n f).net = s.net := rfl
@[simp] theorem State.modTask_hostPort (s : State) (t n : Nat) (f : TaskRt → TaskRt) : (s.modTask t n f).hostPort = s.hostPort := rfl
@[simp] theorem State.modTask_lighters (s : State) (t n : Nat) (f : TaskRt → TaskRt) : (s.modTask t n f).lighters = s.lighters := rfl
@[simp] theorem State.modTask_units (s : State) (t n : Nat) (f : TaskRt → TaskRt) : (s.modTask t n f).units = s.units := rfl
@[simp] theorem State.modTask_subtrees (s : State) (t n : Nat) (f : TaskRt → TaskRt) : (s.modTask t n f).subtrees = s.subtrees := rfl
@[simp] theorem State.modTask_planes (s : State) (t n : Nat) (f : TaskRt → TaskRt) : (s.modTask t n f).planes = s.planes := rfl
@[simp] theorem State.modTask_tokens (s : State) (t n : Nat) (f : TaskRt → TaskRt) : (s.modTask t n f).tokens = s.tokens := rfl
@[simp] theorem State.modTask_repair (s : State) (t n : Nat) (f : TaskRt → TaskRt) : (s.modTask t n f).repair = s.repair := rfl
@[simp] theorem State.modTask_queues (s : State) (t n : Nat) (f : TaskRt → TaskRt) : (s.modTask t n f).queues = s.queues := rfl
@[simp] theorem State.modTask_nextQueue (s : State) (t n : Nat) (f : TaskRt → TaskRt) : (s.modTask t n f).nextQueue = s.nextQueue := rfl
@[simp] theorem State.modTask_vqs (s : State) (t n : Nat) (f : TaskRt → TaskRt) : (s.modTask t n f).vqs = s.vqs := rfl
@[simp] theorem State.modTask_nextVq (s : State) (t n : Nat) (f : TaskRt → TaskRt) : (s.modTask t n f).nextVq = s.nextVq := rfl
@[simp] theorem State.modTask_handles (s : State) (t n : Nat) (f : TaskRt → TaskRt) : (s.modTask t n f).handles = s.handles := rfl
@[simp] theorem State.modTask_irqs (s : State) (t n : Nat) (f : TaskRt → TaskRt) : (s.modTask t n f).irqs = s.irqs := rfl
@[simp] theorem State.modTask_bar2 (s : State) (t n : Nat) (f : TaskRt → TaskRt) : (s.modTask t n f).bar2 = s.bar2 := rfl
@[simp] theorem State.modTask_mboxDoor (s : State) (t n : Nat) (f : TaskRt → TaskRt) : (s.modTask t n f).mboxDoor = s.mboxDoor := rfl
@[simp] theorem State.modTask_msixPba (s : State) (t n : Nat) (f : TaskRt → TaskRt) : (s.modTask t n f).msixPba = s.msixPba := rfl
@[simp] theorem State.modTask_mboxRsp (s : State) (t n : Nat) (f : TaskRt → TaskRt) : (s.modTask t n f).mboxRsp = s.mboxRsp := rfl
@[simp] theorem State.modTask_gov (s : State) (t n : Nat) (f : TaskRt → TaskRt) : (s.modTask t n f).gov = s.gov := rfl
@[simp] theorem State.modTask_links (s : State) (t n : Nat) (f : TaskRt → TaskRt) : (s.modTask t n f).links = s.links := rfl
@[simp] theorem State.modTask_dawn (s : State) (t n : Nat) (f : TaskRt → TaskRt) : (s.modTask t n f).dawn = s.dawn := rfl
@[simp] theorem State.modTask_mctp (s : State) (t n : Nat) (f : TaskRt → TaskRt) : (s.modTask t n f).mctp = s.mctp := rfl
@[simp] theorem State.modTask_corrected (s : State) (t n : Nat) (f : TaskRt → TaskRt) : (s.modTask t n f).corrected = s.corrected := rfl
@[simp] theorem State.modTask_osEvents (s : State) (t n : Nat) (f : TaskRt → TaskRt) : (s.modTask t n f).osEvents = s.osEvents := rfl
@[simp] theorem State.modTask_cores (s : State) (t n : Nat) (f : TaskRt → TaskRt) : (s.modTask t n f).cores = s.cores := rfl
@[simp] theorem State.modTask_pcie (s : State) (t n : Nat) (f : TaskRt → TaskRt) : (s.modTask t n f).pcie = s.pcie := rfl
@[simp] theorem State.modTask_ethUp (s : State) (t n : Nat) (f : TaskRt → TaskRt) : (s.modTask t n f).ethUp = s.ethUp := rfl
@[simp] theorem State.modTask_bridgeOut (s : State) (t n : Nat) (f : TaskRt → TaskRt) : (s.modTask t n f).bridgeOut = s.bridgeOut := rfl
@[simp] theorem State.modTask_ethOut (s : State) (t n : Nat) (f : TaskRt → TaskRt) : (s.modTask t n f).ethOut = s.ethOut := rfl
@[simp] theorem State.modTask_ethIn (s : State) (t n : Nat) (f : TaskRt → TaskRt) : (s.modTask t n f).ethIn = s.ethIn := rfl

/-! ### modQueue -/

@[simp] theorem State.modQueue_clk (s : State) (q : Nat) (f : QueueRt → QueueRt) : (s.modQueue q f).clk = s.clk := rfl
@[simp] theorem State.modQueue_nowNs (s : State) (q : Nat) (f : QueueRt → QueueRt) : (s.modQueue q f).nowNs = s.nowNs := rfl
@[simp] theorem State.modQueue_agenda (s : State) (q : Nat) (f : QueueRt → QueueRt) : (s.modQueue q f).agenda = s.agenda := rfl
@[simp] theorem State.modQueue_cur (s : State) (q : Nat) (f : QueueRt → QueueRt) : (s.modQueue q f).cur = s.cur := rfl
@[simp] theorem State.modQueue_subj (s : State) (q : Nat) (f : QueueRt → QueueRt) : (s.modQueue q f).subj = s.subj := rfl
@[simp] theorem State.modQueue_freeCtr (s : State) (q : Nat) (f : QueueRt → QueueRt) : (s.modQueue q f).freeCtr = s.freeCtr := rfl
@[simp] theorem State.modQueue_nextMsg (s : State) (q : Nat) (f : QueueRt → QueueRt) : (s.modQueue q f).nextMsg = s.nextMsg := rfl
@[simp] theorem State.modQueue_hostMem (s : State) (q : Nat) (f : QueueRt → QueueRt) : (s.modQueue q f).hostMem = s.hostMem := rfl
@[simp] theorem State.modQueue_devMem (s : State) (q : Nat) (f : QueueRt → QueueRt) : (s.modQueue q f).devMem = s.devMem := rfl
@[simp] theorem State.modQueue_hostPages (s : State) (q : Nat) (f : QueueRt → QueueRt) : (s.modQueue q f).hostPages = s.hostPages := rfl
@[simp] theorem State.modQueue_pasidOff (s : State) (q : Nat) (f : QueueRt → QueueRt) : (s.modQueue q f).pasidOff = s.pasidOff := rfl
@[simp] theorem State.modQueue_roots (s : State) (q : Nat) (f : QueueRt → QueueRt) : (s.modQueue q f).roots = s.roots := rfl
@[simp] theorem State.modQueue_tlbs (s : State) (q : Nat) (f : QueueRt → QueueRt) : (s.modQueue q f).tlbs = s.tlbs := rfl
@[simp] theorem State.modQueue_pageReqs (s : State) (q : Nat) (f : QueueRt → QueueRt) : (s.modQueue q f).pageReqs = s.pageReqs := rfl
@[simp] theorem State.modQueue_pageFails (s : State) (q : Nat) (f : QueueRt → QueueRt) : (s.modQueue q f).pageFails = s.pageFails := rfl
@[simp] theorem State.modQueue_tenures (s : State) (q : Nat) (f : QueueRt → QueueRt) : (s.modQueue q f).tenures = s.tenures := rfl
@[simp] theorem State.modQueue_nextTenure (s : State) (q : Nat) (f : QueueRt → QueueRt) : (s.modQueue q f).nextTenure = s.nextTenure := rfl
@[simp] theorem State.modQueue_tasks (s : State) (q : Nat) (f : QueueRt → QueueRt) : (s.modQueue q f).tasks = s.tasks := rfl
@[simp] theorem State.modQueue_opers (s : State) (q : Nat) (f : QueueRt → QueueRt) : (s.modQueue q f).opers = s.opers := rfl
@[simp] theorem State.modQueue_gens (s : State) (q : Nat) (f : QueueRt → QueueRt) : (s.modQueue q f).gens = s.gens := rfl
@[simp] theorem State.modQueue_ctrls (s : State) (q : Nat) (f : QueueRt → QueueRt) : (s.modQueue q f).ctrls = s.ctrls := rfl
@[simp] theorem State.modQueue_mats (s : State) (q : Nat) (f : QueueRt → QueueRt) : (s.modQueue q f).mats = s.mats := rfl
@[simp] theorem State.modQueue_chans (s : State) (q : Nat) (f : QueueRt → QueueRt) : (s.modQueue q f).chans = s.chans := rfl
@[simp] theorem State.modQueue_gates (s : State) (q : Nat) (f : QueueRt → QueueRt) : (s.modQueue q f).gates = s.gates := rfl
@[simp] theorem State.modQueue_wins (s : State) (q : Nat) (f : QueueRt → QueueRt) : (s.modQueue q f).wins = s.wins := rfl
@[simp] theorem State.modQueue_combs (s : State) (q : Nat) (f : QueueRt → QueueRt) : (s.modQueue q f).combs = s.combs := rfl
@[simp] theorem State.modQueue_net (s : State) (q : Nat) (f : QueueRt → QueueRt) : (s.modQueue q f).net = s.net := rfl
@[simp] theorem State.modQueue_hostPort (s : State) (q : Nat) (f : QueueRt → QueueRt) : (s.modQueue q f).hostPort = s.hostPort := rfl
@[simp] theorem State.modQueue_lighters (s : State) (q : Nat) (f : QueueRt → QueueRt) : (s.modQueue q f).lighters = s.lighters := rfl
@[simp] theorem State.modQueue_units (s : State) (q : Nat) (f : QueueRt → QueueRt) : (s.modQueue q f).units = s.units := rfl
@[simp] theorem State.modQueue_subtrees (s : State) (q : Nat) (f : QueueRt → QueueRt) : (s.modQueue q f).subtrees = s.subtrees := rfl
@[simp] theorem State.modQueue_planes (s : State) (q : Nat) (f : QueueRt → QueueRt) : (s.modQueue q f).planes = s.planes := rfl
@[simp] theorem State.modQueue_tokens (s : State) (q : Nat) (f : QueueRt → QueueRt) : (s.modQueue q f).tokens = s.tokens := rfl
@[simp] theorem State.modQueue_repair (s : State) (q : Nat) (f : QueueRt → QueueRt) : (s.modQueue q f).repair = s.repair := rfl
@[simp] theorem State.modQueue_queues (s : State) (q : Nat) (f : QueueRt → QueueRt) : (s.modQueue q f).queues = s.queues.modify q f := rfl
@[simp] theorem State.modQueue_nextQueue (s : State) (q : Nat) (f : QueueRt → QueueRt) : (s.modQueue q f).nextQueue = s.nextQueue := rfl
@[simp] theorem State.modQueue_vqs (s : State) (q : Nat) (f : QueueRt → QueueRt) : (s.modQueue q f).vqs = s.vqs := rfl
@[simp] theorem State.modQueue_nextVq (s : State) (q : Nat) (f : QueueRt → QueueRt) : (s.modQueue q f).nextVq = s.nextVq := rfl
@[simp] theorem State.modQueue_handles (s : State) (q : Nat) (f : QueueRt → QueueRt) : (s.modQueue q f).handles = s.handles := rfl
@[simp] theorem State.modQueue_irqs (s : State) (q : Nat) (f : QueueRt → QueueRt) : (s.modQueue q f).irqs = s.irqs := rfl
@[simp] theorem State.modQueue_bar2 (s : State) (q : Nat) (f : QueueRt → QueueRt) : (s.modQueue q f).bar2 = s.bar2 := rfl
@[simp] theorem State.modQueue_mboxDoor (s : State) (q : Nat) (f : QueueRt → QueueRt) : (s.modQueue q f).mboxDoor = s.mboxDoor := rfl
@[simp] theorem State.modQueue_msixPba (s : State) (q : Nat) (f : QueueRt → QueueRt) : (s.modQueue q f).msixPba = s.msixPba := rfl
@[simp] theorem State.modQueue_mboxRsp (s : State) (q : Nat) (f : QueueRt → QueueRt) : (s.modQueue q f).mboxRsp = s.mboxRsp := rfl
@[simp] theorem State.modQueue_gov (s : State) (q : Nat) (f : QueueRt → QueueRt) : (s.modQueue q f).gov = s.gov := rfl
@[simp] theorem State.modQueue_links (s : State) (q : Nat) (f : QueueRt → QueueRt) : (s.modQueue q f).links = s.links := rfl
@[simp] theorem State.modQueue_dawn (s : State) (q : Nat) (f : QueueRt → QueueRt) : (s.modQueue q f).dawn = s.dawn := rfl
@[simp] theorem State.modQueue_mctp (s : State) (q : Nat) (f : QueueRt → QueueRt) : (s.modQueue q f).mctp = s.mctp := rfl
@[simp] theorem State.modQueue_corrected (s : State) (q : Nat) (f : QueueRt → QueueRt) : (s.modQueue q f).corrected = s.corrected := rfl
@[simp] theorem State.modQueue_osEvents (s : State) (q : Nat) (f : QueueRt → QueueRt) : (s.modQueue q f).osEvents = s.osEvents := rfl
@[simp] theorem State.modQueue_cores (s : State) (q : Nat) (f : QueueRt → QueueRt) : (s.modQueue q f).cores = s.cores := rfl
@[simp] theorem State.modQueue_pcie (s : State) (q : Nat) (f : QueueRt → QueueRt) : (s.modQueue q f).pcie = s.pcie := rfl
@[simp] theorem State.modQueue_ethUp (s : State) (q : Nat) (f : QueueRt → QueueRt) : (s.modQueue q f).ethUp = s.ethUp := rfl
@[simp] theorem State.modQueue_bridgeOut (s : State) (q : Nat) (f : QueueRt → QueueRt) : (s.modQueue q f).bridgeOut = s.bridgeOut := rfl
@[simp] theorem State.modQueue_ethOut (s : State) (q : Nat) (f : QueueRt → QueueRt) : (s.modQueue q f).ethOut = s.ethOut := rfl
@[simp] theorem State.modQueue_ethIn (s : State) (q : Nat) (f : QueueRt → QueueRt) : (s.modQueue q f).ethIn = s.ethIn := rfl

/-! ### setCtrl -/

@[simp] theorem State.setCtrl_clk (s : State) (t n : Nat) (c : CtrlRt) : (s.setCtrl t n c).clk = s.clk := rfl
@[simp] theorem State.setCtrl_nowNs (s : State) (t n : Nat) (c : CtrlRt) : (s.setCtrl t n c).nowNs = s.nowNs := rfl
@[simp] theorem State.setCtrl_agenda (s : State) (t n : Nat) (c : CtrlRt) : (s.setCtrl t n c).agenda = s.agenda := rfl
@[simp] theorem State.setCtrl_cur (s : State) (t n : Nat) (c : CtrlRt) : (s.setCtrl t n c).cur = s.cur := rfl
@[simp] theorem State.setCtrl_subj (s : State) (t n : Nat) (c : CtrlRt) : (s.setCtrl t n c).subj = s.subj := rfl
@[simp] theorem State.setCtrl_freeCtr (s : State) (t n : Nat) (c : CtrlRt) : (s.setCtrl t n c).freeCtr = s.freeCtr := rfl
@[simp] theorem State.setCtrl_nextMsg (s : State) (t n : Nat) (c : CtrlRt) : (s.setCtrl t n c).nextMsg = s.nextMsg := rfl
@[simp] theorem State.setCtrl_hostMem (s : State) (t n : Nat) (c : CtrlRt) : (s.setCtrl t n c).hostMem = s.hostMem := rfl
@[simp] theorem State.setCtrl_devMem (s : State) (t n : Nat) (c : CtrlRt) : (s.setCtrl t n c).devMem = s.devMem := rfl
@[simp] theorem State.setCtrl_hostPages (s : State) (t n : Nat) (c : CtrlRt) : (s.setCtrl t n c).hostPages = s.hostPages := rfl
@[simp] theorem State.setCtrl_pasidOff (s : State) (t n : Nat) (c : CtrlRt) : (s.setCtrl t n c).pasidOff = s.pasidOff := rfl
@[simp] theorem State.setCtrl_roots (s : State) (t n : Nat) (c : CtrlRt) : (s.setCtrl t n c).roots = s.roots := rfl
@[simp] theorem State.setCtrl_tlbs (s : State) (t n : Nat) (c : CtrlRt) : (s.setCtrl t n c).tlbs = s.tlbs := rfl
@[simp] theorem State.setCtrl_pageReqs (s : State) (t n : Nat) (c : CtrlRt) : (s.setCtrl t n c).pageReqs = s.pageReqs := rfl
@[simp] theorem State.setCtrl_pageFails (s : State) (t n : Nat) (c : CtrlRt) : (s.setCtrl t n c).pageFails = s.pageFails := rfl
@[simp] theorem State.setCtrl_tenures (s : State) (t n : Nat) (c : CtrlRt) : (s.setCtrl t n c).tenures = s.tenures := rfl
@[simp] theorem State.setCtrl_nextTenure (s : State) (t n : Nat) (c : CtrlRt) : (s.setCtrl t n c).nextTenure = s.nextTenure := rfl
@[simp] theorem State.setCtrl_tasks (s : State) (t n : Nat) (c : CtrlRt) : (s.setCtrl t n c).tasks = s.tasks := rfl
@[simp] theorem State.setCtrl_opers (s : State) (t n : Nat) (c : CtrlRt) : (s.setCtrl t n c).opers = s.opers := rfl
@[simp] theorem State.setCtrl_gens (s : State) (t n : Nat) (c : CtrlRt) : (s.setCtrl t n c).gens = s.gens := rfl
@[simp] theorem State.setCtrl_ctrls (s : State) (t n : Nat) (c : CtrlRt) : (s.setCtrl t n c).ctrls = s.ctrls.set (key2 t n) c := rfl
@[simp] theorem State.setCtrl_mats (s : State) (t n : Nat) (c : CtrlRt) : (s.setCtrl t n c).mats = s.mats := rfl
@[simp] theorem State.setCtrl_chans (s : State) (t n : Nat) (c : CtrlRt) : (s.setCtrl t n c).chans = s.chans := rfl
@[simp] theorem State.setCtrl_gates (s : State) (t n : Nat) (c : CtrlRt) : (s.setCtrl t n c).gates = s.gates := rfl
@[simp] theorem State.setCtrl_wins (s : State) (t n : Nat) (c : CtrlRt) : (s.setCtrl t n c).wins = s.wins := rfl
@[simp] theorem State.setCtrl_combs (s : State) (t n : Nat) (c : CtrlRt) : (s.setCtrl t n c).combs = s.combs := rfl
@[simp] theorem State.setCtrl_net (s : State) (t n : Nat) (c : CtrlRt) : (s.setCtrl t n c).net = s.net := rfl
@[simp] theorem State.setCtrl_hostPort (s : State) (t n : Nat) (c : CtrlRt) : (s.setCtrl t n c).hostPort = s.hostPort := rfl
@[simp] theorem State.setCtrl_lighters (s : State) (t n : Nat) (c : CtrlRt) : (s.setCtrl t n c).lighters = s.lighters := rfl
@[simp] theorem State.setCtrl_units (s : State) (t n : Nat) (c : CtrlRt) : (s.setCtrl t n c).units = s.units := rfl
@[simp] theorem State.setCtrl_subtrees (s : State) (t n : Nat) (c : CtrlRt) : (s.setCtrl t n c).subtrees = s.subtrees := rfl
@[simp] theorem State.setCtrl_planes (s : State) (t n : Nat) (c : CtrlRt) : (s.setCtrl t n c).planes = s.planes := rfl
@[simp] theorem State.setCtrl_tokens (s : State) (t n : Nat) (c : CtrlRt) : (s.setCtrl t n c).tokens = s.tokens := rfl
@[simp] theorem State.setCtrl_repair (s : State) (t n : Nat) (c : CtrlRt) : (s.setCtrl t n c).repair = s.repair := rfl
@[simp] theorem State.setCtrl_queues (s : State) (t n : Nat) (c : CtrlRt) : (s.setCtrl t n c).queues = s.queues := rfl
@[simp] theorem State.setCtrl_nextQueue (s : State) (t n : Nat) (c : CtrlRt) : (s.setCtrl t n c).nextQueue = s.nextQueue := rfl
@[simp] theorem State.setCtrl_vqs (s : State) (t n : Nat) (c : CtrlRt) : (s.setCtrl t n c).vqs = s.vqs := rfl
@[simp] theorem State.setCtrl_nextVq (s : State) (t n : Nat) (c : CtrlRt) : (s.setCtrl t n c).nextVq = s.nextVq := rfl
@[simp] theorem State.setCtrl_handles (s : State) (t n : Nat) (c : CtrlRt) : (s.setCtrl t n c).handles = s.handles := rfl
@[simp] theorem State.setCtrl_irqs (s : State) (t n : Nat) (c : CtrlRt) : (s.setCtrl t n c).irqs = s.irqs := rfl
@[simp] theorem State.setCtrl_bar2 (s : State) (t n : Nat) (c : CtrlRt) : (s.setCtrl t n c).bar2 = s.bar2 := rfl
@[simp] theorem State.setCtrl_mboxDoor (s : State) (t n : Nat) (c : CtrlRt) : (s.setCtrl t n c).mboxDoor = s.mboxDoor := rfl
@[simp] theorem State.setCtrl_msixPba (s : State) (t n : Nat) (c : CtrlRt) : (s.setCtrl t n c).msixPba = s.msixPba := rfl
@[simp] theorem State.setCtrl_mboxRsp (s : State) (t n : Nat) (c : CtrlRt) : (s.setCtrl t n c).mboxRsp = s.mboxRsp := rfl
@[simp] theorem State.setCtrl_gov (s : State) (t n : Nat) (c : CtrlRt) : (s.setCtrl t n c).gov = s.gov := rfl
@[simp] theorem State.setCtrl_links (s : State) (t n : Nat) (c : CtrlRt) : (s.setCtrl t n c).links = s.links := rfl
@[simp] theorem State.setCtrl_dawn (s : State) (t n : Nat) (c : CtrlRt) : (s.setCtrl t n c).dawn = s.dawn := rfl
@[simp] theorem State.setCtrl_mctp (s : State) (t n : Nat) (c : CtrlRt) : (s.setCtrl t n c).mctp = s.mctp := rfl
@[simp] theorem State.setCtrl_corrected (s : State) (t n : Nat) (c : CtrlRt) : (s.setCtrl t n c).corrected = s.corrected := rfl
@[simp] theorem State.setCtrl_osEvents (s : State) (t n : Nat) (c : CtrlRt) : (s.setCtrl t n c).osEvents = s.osEvents := rfl
@[simp] theorem State.setCtrl_cores (s : State) (t n : Nat) (c : CtrlRt) : (s.setCtrl t n c).cores = s.cores := rfl
@[simp] theorem State.setCtrl_pcie (s : State) (t n : Nat) (c : CtrlRt) : (s.setCtrl t n c).pcie = s.pcie := rfl
@[simp] theorem State.setCtrl_ethUp (s : State) (t n : Nat) (c : CtrlRt) : (s.setCtrl t n c).ethUp = s.ethUp := rfl
@[simp] theorem State.setCtrl_bridgeOut (s : State) (t n : Nat) (c : CtrlRt) : (s.setCtrl t n c).bridgeOut = s.bridgeOut := rfl
@[simp] theorem State.setCtrl_ethOut (s : State) (t n : Nat) (c : CtrlRt) : (s.setCtrl t n c).ethOut = s.ethOut := rfl
@[simp] theorem State.setCtrl_ethIn (s : State) (t n : Nat) (c : CtrlRt) : (s.setCtrl t n c).ethIn = s.ethIn := rfl

/-! ### setMat -/

@[simp] theorem State.setMat_clk (s : State) (t n : Nat) (m : MatRt) : (s.setMat t n m).clk = s.clk := rfl
@[simp] theorem State.setMat_nowNs (s : State) (t n : Nat) (m : MatRt) : (s.setMat t n m).nowNs = s.nowNs := rfl
@[simp] theorem State.setMat_agenda (s : State) (t n : Nat) (m : MatRt) : (s.setMat t n m).agenda = s.agenda := rfl
@[simp] theorem State.setMat_cur (s : State) (t n : Nat) (m : MatRt) : (s.setMat t n m).cur = s.cur := rfl
@[simp] theorem State.setMat_subj (s : State) (t n : Nat) (m : MatRt) : (s.setMat t n m).subj = s.subj := rfl
@[simp] theorem State.setMat_freeCtr (s : State) (t n : Nat) (m : MatRt) : (s.setMat t n m).freeCtr = s.freeCtr := rfl
@[simp] theorem State.setMat_nextMsg (s : State) (t n : Nat) (m : MatRt) : (s.setMat t n m).nextMsg = s.nextMsg := rfl
@[simp] theorem State.setMat_hostMem (s : State) (t n : Nat) (m : MatRt) : (s.setMat t n m).hostMem = s.hostMem := rfl
@[simp] theorem State.setMat_devMem (s : State) (t n : Nat) (m : MatRt) : (s.setMat t n m).devMem = s.devMem := rfl
@[simp] theorem State.setMat_hostPages (s : State) (t n : Nat) (m : MatRt) : (s.setMat t n m).hostPages = s.hostPages := rfl
@[simp] theorem State.setMat_pasidOff (s : State) (t n : Nat) (m : MatRt) : (s.setMat t n m).pasidOff = s.pasidOff := rfl
@[simp] theorem State.setMat_roots (s : State) (t n : Nat) (m : MatRt) : (s.setMat t n m).roots = s.roots := rfl
@[simp] theorem State.setMat_tlbs (s : State) (t n : Nat) (m : MatRt) : (s.setMat t n m).tlbs = s.tlbs := rfl
@[simp] theorem State.setMat_pageReqs (s : State) (t n : Nat) (m : MatRt) : (s.setMat t n m).pageReqs = s.pageReqs := rfl
@[simp] theorem State.setMat_pageFails (s : State) (t n : Nat) (m : MatRt) : (s.setMat t n m).pageFails = s.pageFails := rfl
@[simp] theorem State.setMat_tenures (s : State) (t n : Nat) (m : MatRt) : (s.setMat t n m).tenures = s.tenures := rfl
@[simp] theorem State.setMat_nextTenure (s : State) (t n : Nat) (m : MatRt) : (s.setMat t n m).nextTenure = s.nextTenure := rfl
@[simp] theorem State.setMat_tasks (s : State) (t n : Nat) (m : MatRt) : (s.setMat t n m).tasks = s.tasks := rfl
@[simp] theorem State.setMat_opers (s : State) (t n : Nat) (m : MatRt) : (s.setMat t n m).opers = s.opers := rfl
@[simp] theorem State.setMat_gens (s : State) (t n : Nat) (m : MatRt) : (s.setMat t n m).gens = s.gens := rfl
@[simp] theorem State.setMat_ctrls (s : State) (t n : Nat) (m : MatRt) : (s.setMat t n m).ctrls = s.ctrls := rfl
@[simp] theorem State.setMat_mats (s : State) (t n : Nat) (m : MatRt) : (s.setMat t n m).mats = s.mats.set (key2 t n) m := rfl
@[simp] theorem State.setMat_chans (s : State) (t n : Nat) (m : MatRt) : (s.setMat t n m).chans = s.chans := rfl
@[simp] theorem State.setMat_gates (s : State) (t n : Nat) (m : MatRt) : (s.setMat t n m).gates = s.gates := rfl
@[simp] theorem State.setMat_wins (s : State) (t n : Nat) (m : MatRt) : (s.setMat t n m).wins = s.wins := rfl
@[simp] theorem State.setMat_combs (s : State) (t n : Nat) (m : MatRt) : (s.setMat t n m).combs = s.combs := rfl
@[simp] theorem State.setMat_net (s : State) (t n : Nat) (m : MatRt) : (s.setMat t n m).net = s.net := rfl
@[simp] theorem State.setMat_hostPort (s : State) (t n : Nat) (m : MatRt) : (s.setMat t n m).hostPort = s.hostPort := rfl
@[simp] theorem State.setMat_lighters (s : State) (t n : Nat) (m : MatRt) : (s.setMat t n m).lighters = s.lighters := rfl
@[simp] theorem State.setMat_units (s : State) (t n : Nat) (m : MatRt) : (s.setMat t n m).units = s.units := rfl
@[simp] theorem State.setMat_subtrees (s : State) (t n : Nat) (m : MatRt) : (s.setMat t n m).subtrees = s.subtrees := rfl
@[simp] theorem State.setMat_planes (s : State) (t n : Nat) (m : MatRt) : (s.setMat t n m).planes = s.planes := rfl
@[simp] theorem State.setMat_tokens (s : State) (t n : Nat) (m : MatRt) : (s.setMat t n m).tokens = s.tokens := rfl
@[simp] theorem State.setMat_repair (s : State) (t n : Nat) (m : MatRt) : (s.setMat t n m).repair = s.repair := rfl
@[simp] theorem State.setMat_queues (s : State) (t n : Nat) (m : MatRt) : (s.setMat t n m).queues = s.queues := rfl
@[simp] theorem State.setMat_nextQueue (s : State) (t n : Nat) (m : MatRt) : (s.setMat t n m).nextQueue = s.nextQueue := rfl
@[simp] theorem State.setMat_vqs (s : State) (t n : Nat) (m : MatRt) : (s.setMat t n m).vqs = s.vqs := rfl
@[simp] theorem State.setMat_nextVq (s : State) (t n : Nat) (m : MatRt) : (s.setMat t n m).nextVq = s.nextVq := rfl
@[simp] theorem State.setMat_handles (s : State) (t n : Nat) (m : MatRt) : (s.setMat t n m).handles = s.handles := rfl
@[simp] theorem State.setMat_irqs (s : State) (t n : Nat) (m : MatRt) : (s.setMat t n m).irqs = s.irqs := rfl
@[simp] theorem State.setMat_bar2 (s : State) (t n : Nat) (m : MatRt) : (s.setMat t n m).bar2 = s.bar2 := rfl
@[simp] theorem State.setMat_mboxDoor (s : State) (t n : Nat) (m : MatRt) : (s.setMat t n m).mboxDoor = s.mboxDoor := rfl
@[simp] theorem State.setMat_msixPba (s : State) (t n : Nat) (m : MatRt) : (s.setMat t n m).msixPba = s.msixPba := rfl
@[simp] theorem State.setMat_mboxRsp (s : State) (t n : Nat) (m : MatRt) : (s.setMat t n m).mboxRsp = s.mboxRsp := rfl
@[simp] theorem State.setMat_gov (s : State) (t n : Nat) (m : MatRt) : (s.setMat t n m).gov = s.gov := rfl
@[simp] theorem State.setMat_links (s : State) (t n : Nat) (m : MatRt) : (s.setMat t n m).links = s.links := rfl
@[simp] theorem State.setMat_dawn (s : State) (t n : Nat) (m : MatRt) : (s.setMat t n m).dawn = s.dawn := rfl
@[simp] theorem State.setMat_mctp (s : State) (t n : Nat) (m : MatRt) : (s.setMat t n m).mctp = s.mctp := rfl
@[simp] theorem State.setMat_corrected (s : State) (t n : Nat) (m : MatRt) : (s.setMat t n m).corrected = s.corrected := rfl
@[simp] theorem State.setMat_osEvents (s : State) (t n : Nat) (m : MatRt) : (s.setMat t n m).osEvents = s.osEvents := rfl
@[simp] theorem State.setMat_cores (s : State) (t n : Nat) (m : MatRt) : (s.setMat t n m).cores = s.cores := rfl
@[simp] theorem State.setMat_pcie (s : State) (t n : Nat) (m : MatRt) : (s.setMat t n m).pcie = s.pcie := rfl
@[simp] theorem State.setMat_ethUp (s : State) (t n : Nat) (m : MatRt) : (s.setMat t n m).ethUp = s.ethUp := rfl
@[simp] theorem State.setMat_bridgeOut (s : State) (t n : Nat) (m : MatRt) : (s.setMat t n m).bridgeOut = s.bridgeOut := rfl
@[simp] theorem State.setMat_ethOut (s : State) (t n : Nat) (m : MatRt) : (s.setMat t n m).ethOut = s.ethOut := rfl
@[simp] theorem State.setMat_ethIn (s : State) (t n : Nat) (m : MatRt) : (s.setMat t n m).ethIn = s.ethIn := rfl

/-! ### setOper -/

@[simp] theorem State.setOper_clk (s : State) (t n : Nat) (o : OperRt) : (s.setOper t n o).clk = s.clk := rfl
@[simp] theorem State.setOper_nowNs (s : State) (t n : Nat) (o : OperRt) : (s.setOper t n o).nowNs = s.nowNs := rfl
@[simp] theorem State.setOper_agenda (s : State) (t n : Nat) (o : OperRt) : (s.setOper t n o).agenda = s.agenda := rfl
@[simp] theorem State.setOper_cur (s : State) (t n : Nat) (o : OperRt) : (s.setOper t n o).cur = s.cur := rfl
@[simp] theorem State.setOper_subj (s : State) (t n : Nat) (o : OperRt) : (s.setOper t n o).subj = s.subj := rfl
@[simp] theorem State.setOper_freeCtr (s : State) (t n : Nat) (o : OperRt) : (s.setOper t n o).freeCtr = s.freeCtr := rfl
@[simp] theorem State.setOper_nextMsg (s : State) (t n : Nat) (o : OperRt) : (s.setOper t n o).nextMsg = s.nextMsg := rfl
@[simp] theorem State.setOper_hostMem (s : State) (t n : Nat) (o : OperRt) : (s.setOper t n o).hostMem = s.hostMem := rfl
@[simp] theorem State.setOper_devMem (s : State) (t n : Nat) (o : OperRt) : (s.setOper t n o).devMem = s.devMem := rfl
@[simp] theorem State.setOper_hostPages (s : State) (t n : Nat) (o : OperRt) : (s.setOper t n o).hostPages = s.hostPages := rfl
@[simp] theorem State.setOper_pasidOff (s : State) (t n : Nat) (o : OperRt) : (s.setOper t n o).pasidOff = s.pasidOff := rfl
@[simp] theorem State.setOper_roots (s : State) (t n : Nat) (o : OperRt) : (s.setOper t n o).roots = s.roots := rfl
@[simp] theorem State.setOper_tlbs (s : State) (t n : Nat) (o : OperRt) : (s.setOper t n o).tlbs = s.tlbs := rfl
@[simp] theorem State.setOper_pageReqs (s : State) (t n : Nat) (o : OperRt) : (s.setOper t n o).pageReqs = s.pageReqs := rfl
@[simp] theorem State.setOper_pageFails (s : State) (t n : Nat) (o : OperRt) : (s.setOper t n o).pageFails = s.pageFails := rfl
@[simp] theorem State.setOper_tenures (s : State) (t n : Nat) (o : OperRt) : (s.setOper t n o).tenures = s.tenures := rfl
@[simp] theorem State.setOper_nextTenure (s : State) (t n : Nat) (o : OperRt) : (s.setOper t n o).nextTenure = s.nextTenure := rfl
@[simp] theorem State.setOper_tasks (s : State) (t n : Nat) (o : OperRt) : (s.setOper t n o).tasks = s.tasks := rfl
@[simp] theorem State.setOper_opers (s : State) (t n : Nat) (o : OperRt) : (s.setOper t n o).opers = s.opers.set (key2 t n) o := rfl
@[simp] theorem State.setOper_gens (s : State) (t n : Nat) (o : OperRt) : (s.setOper t n o).gens = s.gens := rfl
@[simp] theorem State.setOper_ctrls (s : State) (t n : Nat) (o : OperRt) : (s.setOper t n o).ctrls = s.ctrls := rfl
@[simp] theorem State.setOper_mats (s : State) (t n : Nat) (o : OperRt) : (s.setOper t n o).mats = s.mats := rfl
@[simp] theorem State.setOper_chans (s : State) (t n : Nat) (o : OperRt) : (s.setOper t n o).chans = s.chans := rfl
@[simp] theorem State.setOper_gates (s : State) (t n : Nat) (o : OperRt) : (s.setOper t n o).gates = s.gates := rfl
@[simp] theorem State.setOper_wins (s : State) (t n : Nat) (o : OperRt) : (s.setOper t n o).wins = s.wins := rfl
@[simp] theorem State.setOper_combs (s : State) (t n : Nat) (o : OperRt) : (s.setOper t n o).combs = s.combs := rfl
@[simp] theorem State.setOper_net (s : State) (t n : Nat) (o : OperRt) : (s.setOper t n o).net = s.net := rfl
@[simp] theorem State.setOper_hostPort (s : State) (t n : Nat) (o : OperRt) : (s.setOper t n o).hostPort = s.hostPort := rfl
@[simp] theorem State.setOper_lighters (s : State) (t n : Nat) (o : OperRt) : (s.setOper t n o).lighters = s.lighters := rfl
@[simp] theorem State.setOper_units (s : State) (t n : Nat) (o : OperRt) : (s.setOper t n o).units = s.units := rfl
@[simp] theorem State.setOper_subtrees (s : State) (t n : Nat) (o : OperRt) : (s.setOper t n o).subtrees = s.subtrees := rfl
@[simp] theorem State.setOper_planes (s : State) (t n : Nat) (o : OperRt) : (s.setOper t n o).planes = s.planes := rfl
@[simp] theorem State.setOper_tokens (s : State) (t n : Nat) (o : OperRt) : (s.setOper t n o).tokens = s.tokens := rfl
@[simp] theorem State.setOper_repair (s : State) (t n : Nat) (o : OperRt) : (s.setOper t n o).repair = s.repair := rfl
@[simp] theorem State.setOper_queues (s : State) (t n : Nat) (o : OperRt) : (s.setOper t n o).queues = s.queues := rfl
@[simp] theorem State.setOper_nextQueue (s : State) (t n : Nat) (o : OperRt) : (s.setOper t n o).nextQueue = s.nextQueue := rfl
@[simp] theorem State.setOper_vqs (s : State) (t n : Nat) (o : OperRt) : (s.setOper t n o).vqs = s.vqs := rfl
@[simp] theorem State.setOper_nextVq (s : State) (t n : Nat) (o : OperRt) : (s.setOper t n o).nextVq = s.nextVq := rfl
@[simp] theorem State.setOper_handles (s : State) (t n : Nat) (o : OperRt) : (s.setOper t n o).handles = s.handles := rfl
@[simp] theorem State.setOper_irqs (s : State) (t n : Nat) (o : OperRt) : (s.setOper t n o).irqs = s.irqs := rfl
@[simp] theorem State.setOper_bar2 (s : State) (t n : Nat) (o : OperRt) : (s.setOper t n o).bar2 = s.bar2 := rfl
@[simp] theorem State.setOper_mboxDoor (s : State) (t n : Nat) (o : OperRt) : (s.setOper t n o).mboxDoor = s.mboxDoor := rfl
@[simp] theorem State.setOper_msixPba (s : State) (t n : Nat) (o : OperRt) : (s.setOper t n o).msixPba = s.msixPba := rfl
@[simp] theorem State.setOper_mboxRsp (s : State) (t n : Nat) (o : OperRt) : (s.setOper t n o).mboxRsp = s.mboxRsp := rfl
@[simp] theorem State.setOper_gov (s : State) (t n : Nat) (o : OperRt) : (s.setOper t n o).gov = s.gov := rfl
@[simp] theorem State.setOper_links (s : State) (t n : Nat) (o : OperRt) : (s.setOper t n o).links = s.links := rfl
@[simp] theorem State.setOper_dawn (s : State) (t n : Nat) (o : OperRt) : (s.setOper t n o).dawn = s.dawn := rfl
@[simp] theorem State.setOper_mctp (s : State) (t n : Nat) (o : OperRt) : (s.setOper t n o).mctp = s.mctp := rfl
@[simp] theorem State.setOper_corrected (s : State) (t n : Nat) (o : OperRt) : (s.setOper t n o).corrected = s.corrected := rfl
@[simp] theorem State.setOper_osEvents (s : State) (t n : Nat) (o : OperRt) : (s.setOper t n o).osEvents = s.osEvents := rfl
@[simp] theorem State.setOper_cores (s : State) (t n : Nat) (o : OperRt) : (s.setOper t n o).cores = s.cores := rfl
@[simp] theorem State.setOper_pcie (s : State) (t n : Nat) (o : OperRt) : (s.setOper t n o).pcie = s.pcie := rfl
@[simp] theorem State.setOper_ethUp (s : State) (t n : Nat) (o : OperRt) : (s.setOper t n o).ethUp = s.ethUp := rfl
@[simp] theorem State.setOper_bridgeOut (s : State) (t n : Nat) (o : OperRt) : (s.setOper t n o).bridgeOut = s.bridgeOut := rfl
@[simp] theorem State.setOper_ethOut (s : State) (t n : Nat) (o : OperRt) : (s.setOper t n o).ethOut = s.ethOut := rfl
@[simp] theorem State.setOper_ethIn (s : State) (t n : Nat) (o : OperRt) : (s.setOper t n o).ethIn = s.ethIn := rfl

end Sys2Proof.Machine
end

