-- ==== Sys2Proof/Laws/Vector.lean ====
section
/-! SUPPORT. What the shared operations of the vector instructions come to, said once. -/

namespace Sys2Proof.Machine

theorem read2_ok {a b : Opnd} {c c1 c2 : TCtx} {x y : W64} (ha : read64 a c = .ok (x, c1)) (hb : read64 b c1 = .ok (y, c2)) :
    read2 a b c = .ok ((x, y), c2) := by
  unfold read2; rw [tm_bind_ok ha, tm_bind_ok hb]; rfl

theorem writeLanes_ok {d : Opnd} {f : VFmt} {rs : List (Nat × Flags)} {c c1 : TCtx}
    (h : write64 d (VFmt.pack f (rs.map Prod.fst)) c = .ok ((), c1)) :
    writeLanes d f rs c = .ok ((), { c1 with tk := { c1.tk with fflags := c1.tk.fflags ||| orFlags (rs.map Prod.snd) } }) := by
  unfold writeLanes; rw [tm_bind_ok h]; rfl

theorem vec2_ok {op : Arith} {d a b : Opnd} {f : VFmt} {c c1 c2 c3 : TCtx} {x y : W64} (ha : read64 a c = .ok (x, c1))
    (hb : read64 b c1 = .ok (y, c2))
    (hd : write64 d (VFmt.pack f ((List.zipWith (arithElem op (vElem f)) (VFmt.lanesOf f x) (VFmt.lanesOf f y)).map Prod.fst)) c2
      = .ok ((), c3)) :
    vec2 op d a b f c = .ok ((), { c3 with tk := { c3.tk with fflags := c3.tk.fflags ||| orFlags ((List.zipWith (arithElem op (vElem f)) (VFmt.lanesOf f x) (VFmt.lanesOf f y)).map Prod.snd) } }) := by
  unfold vec2; rw [tm_bind_ok (read2_ok ha hb)]; exact writeLanes_ok hd

theorem vec1_ok {op : Arith} {d a : Opnd} {f : VFmt} {c c1 c2 : TCtx} {x : W64} (ha : read64 a c = .ok (x, c1))
    (hd : write64 d (VFmt.pack f (((VFmt.lanesOf f x).map (fun e => arithElem op (vElem f) e 0)).map Prod.fst)) c1 = .ok ((), c2)) :
    vec1 op d a f c = .ok ((), { c2 with tk := { c2.tk with fflags := c2.tk.fflags ||| orFlags (((VFmt.lanesOf f x).map (fun e => arithElem op (vElem f) e 0)).map Prod.snd) } }) := by
  unfold vec1; rw [tm_bind_ok ha]; exact writeLanes_ok hd

end Sys2Proof.Machine
end

