-- ==== Sys2Proof/Tests/Slice0.lean ====
section
/-! SUPPORT. Tests: ill-formed instructions, words written out from the spec's encodings, one-step examples from the spec, and for every
obligation with hypotheses a state that meets them. -/

set_option Elab.async false

open Sys2Proof Sys2Proof.Machine

namespace Sys2Proof.Tests

/-! ### Ill-formed instructions, one for each check of `Instr.wf` -/

theorem test_wf_scalar : (Instr.addW (.i 0) (.g 1) (.g 2)).wf = false ∧ (Instr.addW (.g 0) (.o 1) (.g 2)).wf = false ∧
    (Instr.clzW (.g 0) (.o 1)).wf = false ∧ (Instr.liW (.i 0) 1).wf = false ∧ (Instr.addiW (.i 0) (.g 1) 1).wf = false ∧
    (Instr.slliW (.g 0) (.o 1) 1).wf = false := by decide
theorem test_wf_predicate : (Instr.cmpEqW 0 (.g 1) (.g 2)).wf = false ∧ (Instr.cmpEqW 1 (.o 1) (.g 2)).wf = false ∧
    (Instr.pand 0 1 2).wf = false ∧ (Instr.pset 0 (.g 1)).wf = false ∧ (Instr.pget (.i 1) 1).wf = false := by decide
theorem test_wf_address : (Instr.addA (.g 0) (.a 1) (.g 2)).wf = false ∧ (Instr.addA (.a 0) (.a 1) (.a 2)).wf = false ∧
    (Instr.subA (.a 0) (.g 1) (.a 2)).wf = false ∧ (Instr.movA (.g 0) (.a 1)).wf = false ∧ (Instr.loA (.g 0) (.g 1)).wf = false ∧
    (Instr.catA (.a 0) (.a 1) (.g 2)).wf = false ∧ (Instr.cmpEqA 0 (.a 1) (.a 2)).wf = false ∧
    (Instr.addiA (.g 0) (.a 1) 1).wf = false := by decide
theorem test_wf_control : (Instr.brz (.a 0) 0 1).wf = false ∧ (Instr.jr (.a 0)).wf = false ∧ (Instr.dbnz (.a 0) 1).wf = false := by
  decide
theorem test_wf_channel : (Instr.open_ (.g 0) (.a 0)).wf = false ∧ (Instr.send (.o 0) (.g 0)).wf = false ∧ (Instr.close (.i 0)).wf = false ∧
    (Instr.next_ (.o 0)).wf = false ∧ (Instr.hdr (.g 0) (.i 0)).wf = false ∧ (Instr.left (.g 0) (.a 0)).wf = false ∧
    (Instr.cpy (.o 0) (.i 0) (.a 0)).wf = false := by decide
theorem test_wf_bank : (Instr.ldW (.i 0) (.g 0) 0).wf = false ∧ (Instr.ldW (.g 0) (.v 0) 0).wf = false ∧
    (Instr.ldD (.g 0) (.g 0) 0).wf = false ∧ (Instr.stW (.o 0) (.g 0) 0).wf = false := by decide
theorem test_wf_global : (Instr.gldW (.g 0) (.a 0) false 1).wf = false ∧ (Instr.gldD (.g 0) (.a 0) true 1).wf = false ∧
    (Instr.gstW (.g 0) (.g 0) true 1).wf = false ∧ (Instr.gstW (.g 0) (.a 0) false 1).wf = false ∧ (Instr.xfer (.a 1) 0).wf = false ∧
    (Instr.xfer (.a 0) 5).wf = false ∧ (Instr.waita (.a 0) (.a 1)).wf = false := by decide
theorem test_wf_atomic : (Instr.accFp32 0 (.g 0) (.g 1)).wf = false ∧ (Instr.accS64 0 (.a 0) (.o 1)).wf = false ∧
    (Instr.atomAdd (.g 0) (.g 1) false).wf = false ∧ (Instr.atomAddF (.g 0) (.a 0) (.g 1) false true).wf = false ∧
    (Instr.atomCas (.g 0) (.a 0) (.g 1) false false).wf = false ∧ (Instr.atomCas (.a 0) (.a 0) (.g 2) false true).wf = false ∧
    (Instr.atomFaddFp32F (.o 0) (.a 0) (.g 1)).wf = false := by decide
theorem test_wf_vector : (Instr.vAdd (.g 0) (.v 0) (.v 1) .s8).wf = false ∧ (Instr.vAdd (.v 0) (.v 0) (.v 1) .e4m3).wf = false ∧
    (Instr.vAdds (.v 0) (.v 0) (.v 1) .fp32).wf = false ∧ (Instr.vFma (.o 0) (.v 0) (.v 1) .fp32).wf = false ∧
    (Instr.vFma (.v 0) (.v 0) (.v 1) .s8).wf = false ∧ (Instr.vDot (.v 0) (.v 0) (.v 1) .e4m3).wf = false ∧
    (Instr.vCmpUn (.v 0) (.v 0) (.v 1) .s8).wf = false ∧ (Instr.vSel (.o 0) (.v 0) (.v 1) .s8).wf = false ∧
    (Instr.vShuf (.v 0) (.v 0) (.v 1) .tw8).wf = false ∧ (Instr.vRot (.v 0) (.v 0) 2 .fp32).wf = false ∧
    (Instr.vIns (.o 0) (.v 0) 0 .s8).wf = false ∧ (Instr.vExt (.i 0) (.v 0) 0 .s8).wf = false ∧
    (Instr.cmpr2of4 (.v 0) (.v 0) 0 .s16).wf = false ∧ (Instr.cmpr2of4 (.v 0) (.v 0) 1 .s8).wf = false ∧
    (Instr.vCvt (.g 0) (.v 0) .rne false .s8 .s16).wf = false ∧ (Instr.vRsum (.i 0) (.v 0) .s8).wf = false ∧
    (Instr.vScl (.v 0) (.v 0) 8 .fp32).wf = false ∧ (Instr.vSclx (.o 0) (.v 0) (.v 1) .fp32).wf = false ∧
    (Instr.vLdexp (.v 0) (.v 0) (.v 1) .s8).wf = false := by decide
theorem test_wf_system : (Instr.gateArr 0 (.o 1)).wf = false ∧ (Instr.combSend (.a 0) (.a 1)).wf = false ∧
    (Instr.sysr (.i 0) 0).wf = false ∧ (Instr.sysr (.g 0) 7).wf = false ∧ (Instr.sysw (.o 0) 4).wf = false ∧
    (Instr.trap (.a 0)).wf = false := by decide
theorem test_wf_passage : (Instr.lock false 1).wf = false ∧ (Instr.wave 255).wf = false ∧ (Instr.wave 65537).wf = false ∧
    (Instr.bindArg 0 4 8).wf = false ∧ (Instr.bindArg 0 8 0).wf = false ∧ (Instr.bindVq 0 4).wf = false ∧ (Instr.bindXfer 0 5).wf = false ∧
    (Instr.bindAccs 0 0 64).wf = false ∧ (Instr.bindXf 0 128 0 0).wf = false ∧ (Instr.bindPred 0 8).wf = false ∧
    (Instr.watch 0 false false false false 0 1 1).wf = false ∧ (Instr.watch 0 true false false false 4 1 1).wf = false ∧
    (Instr.watch 0 true false false false 0 1 0).wf = false ∧ (Instr.watch 0 true false false true 4294967296 1 1).wf = false := by decide

/-! ### Words that the spec works out, or written out from its tables -/

/-- R166, R134: `addi.w g2, g2, 100000` assembles to three words. -/
theorem test_decode_prefix : decodeTask [0xFC000000, 0x000186A0, 0x0C208000] = some (.longImmediatePrefix 0x000186A0 0x0C208000, 3) := by
  decide +kernel
/-- The words of the spec's worked task (R170 to R179). -/
theorem test_decode_worked_task : decodeTask [0x28344005] = some (.hiA (.g 3) (.a 1), 1) ∧
    decodeTask [0x00208208] = some (.mulW (.g 2) (.g 2) (.g 2), 1) ∧
    decodeTask [0x2910C206] = some (.catA (.a 1) (.g 3) (.g 2), 1) ∧ decodeTask [0x2B044003] = some (.movA (.o 0) (.a 1), 1) ∧
    decodeTask [0x50103FF9] = some (.dbnz (.g 1) 0x3FF9, 1) ∧ decodeTask [0x63000001] = some (.close (.o 0), 1) ∧
    decodeTask [0x4C000002] = some (.end_, 1) := by decide +kernel
theorem test_decode_vector : decodeTask [0xC5969B70] = some (.vFma (.v 1) (.v 2) (.v 3) .bf16, 1) ∧
    decodeTask [0xCD864277] = some (.cmpr2of4 (.v 0) (.v 1) 2 .bf16, 1) ∧
    decodeTask [0xD1A64469] = some (.vCvt (.v 2) (.v 1) .rne true .fp32 .e4m3, 1) ∧
    decodeTask [0xD4160060] = some (.vRsum (.g 1) (.v 0) .fp32, 1) := by decide +kernel
theorem test_decode_memory : decodeTask [0xE4044207] = some (.waita (.a 1) (.g 2), 1) ∧ decodeTask [0xA4050200] = some (.xfer (.a 4) 2, 1) ∧
    decodeTask [0xAC044300] = some (.atomAdd (.a 1) (.g 3) false, 1) ∧
    decodeTask [0xAD04942F] = some (.atomCas (.a 0) (.a 2) (.a 4) false true, 1) ∧
    decodeTask [0xB0444520] = some (.atomFaddFp32F (.g 4) (.a 1) (.g 5), 1) ∧ decodeTask [0xA8344200] = some (.accFp32 3 (.a 1) (.g 2), 1) ∧
    decodeTask [0xA8300010] = some (.flushr 3, 1) ∧ decodeTask [0xA8000011] = some (.flushrAll, 1) := by decide +kernel
theorem test_decode_sync : decodeTask [0xE4214000] = some (.gateArr 2 (.g 5), 1) ∧ decodeTask [0xE4218001] = some (.gateWait 2 (.g 6), 1) ∧
    decodeTask [0xE4005204] = some (.combSend (.g 1) (.a 2), 1) ∧ decodeTask [0xE4000002] = some (.quietP, 1) ∧
    decodeTask [0xE4000003] = some (.quietG, 1) ∧ decodeTask [0xE4000005] = some (.fenceG, 1) ∧ decodeTask [0xE4000006] = some (.fenceS, 1) := by
  decide +kernel
theorem test_decode_system : decodeTask [0xF0A00201] = some (.sysr (.g 10) 0x201, 1) ∧ decodeTask [0xF4900200] = some (.sysw (.g 9) 0x200, 1) ∧
    decodeTask [0xF800C000] = some (.trap (.g 3), 1) ∧ decodeTask [0xF8000001] = some (.rte, 1) ∧ decodeTask [0xF8000002] = some (.halt, 1) ∧
    decodeTask [0xF8000003] = some (.brk, 1) ∧ decodeTask [0x00614017] = some (.movW (.g 6) (.g 5), 1) := by decide +kernel
/-- A branch (format B), a compare, a bank load, and a global load, from R131, R136, R164, R173 and R272. -/
theorem test_decode_written : decodeTask [0b010000_000001_00_01_0000000000001000#32] = some (.brz (.g 1) 0 8, 1) ∧
    decodeTask [0b000001_000010_000001_100000_00000010#32] = some (.cmpLtsW 2 (.g 1) (.i 0), 1) ∧
    decodeTask [0b000010_000001_000010_000011_00000001#32] = some (.por 1 2 3, 1) := by decide +kernel
/-- The passage program that the spec works out, and its watchpoint (R355 to R360). -/
theorem test_decode_passage : decodePassage [0x0C000000, 0x00000008, 0x00000028] = some (.bindArg 0 8 40, 3) ∧
    decodePassage [0x0C000005, 0x50000000, 0x00000000] = some (.bindPred 5 0, 3) ∧ decodePassage [0x04000001] = some (.enter 1, 1) ∧
    decodePassage [0x08001001] = some (.lock true 1, 1) ∧ decodePassage [0x08000000] = some (.lock false 0, 1) ∧
    decodePassage [0x40000003] = some (.count 0 3, 1) ∧ decodePassage [0x44000009] = some (.decJnz 0 9, 1) ∧
    decodePassage [0x1200000F] = some (.choose true 0 15, 1) ∧ decodePassage [0x2C000000] = some (.done, 1) ∧
    decodePassage [0x20000038, 0x00000008, 0x00000000, 0x000F0001] = some (.watch 0 false true true true 8 1 0x0F, 4) := by decide +kernel
theorem test_decode_illegal : decodeTask [0x30000000] = some (.illegalInstruction 0x30000000, 1) ∧
    decodeTask [0x0420C208] = some (.illegalInstruction 0x0420C208, 1) := by decide +kernel
/-! ### A small state: tenure 1 with one task node, a trigger record at `i0` and a channel at `o0` -/

/-- A channel from outside to input 0 of node 0. -/
def inE : ChanE :=
  { src := extEnd, oport := 0, dst := 0, iport := 0, trig := true, depth := 4, width := 8, ratelo := 0, ratehi := 0, sticky := 0, level := 0 }
/-- A channel from output 0 of node 0 to the outside. -/
def outE : ChanE := { inE with src := 0, dst := extEnd, trig := false }
/-- The record of the spec's worked task (R170). -/
def inRec : Rec := { hdr := 0x0005000200070000, units := [0x00000002FFFFFFFD, 0x0001000000000005] }
/-- The task node. -/
def tk0 : TaskRt :=
  { TaskRt.entry [] 64 Fmt.zero ((Vector.replicate 16 none).set 0 (some 0)) ((Vector.replicate 16 none).set 0 (some 1)) 0 with st := .running }
/-- The tenure. -/
def tn0 : Tenure := bareTenure 0 []
/-- The state, with the task, the tenure and the rest changed. -/
def small (k : TaskRt → TaskRt) (g : Tenure → Tenure) (f : State → State) : State :=
  f { State.reset with
    dawn := { State.reset.dawn with power := .on }, tenures := [(1, g tn0)], nextTenure := 2, cur := (1, 0)
    chans := [(key2 1 0, { ChanRt.entry inE with buf := [inRec] }), (key2 1 1, ChanRt.entry outE)], tasks := [(key2 1 0, k tk0)] }
/-- The small state with the task alone changed. -/
def node (k : TaskRt → TaskRt) : State := small k id id
/-- The context in which the node's instruction of `len` words begins. -/
def ctx (s : State) (len : Nat) : TCtx :=
  let tk := (s.tasks.get? (key2 s.cur.1 s.cur.2)).getD tk0
  { s := s, t := s.cur.1, n := s.cur.2, tk := { tk with st := .running }, next := tk.pc + len }
/-- Whether an instruction starts. -/
def startsB (i : Instr) (s : State) (len : Nat) : Bool :=
  (s.tasks.get? (key2 s.cur.1 s.cur.2)).isSome && (match s.tenures.get? s.cur.1 with
    | some tn => !tn.g.det && !tn.watch.toList.any (fun w => (w.map Watchpoint.at_).getD false)
    | none => false) && i.wf && (unboundPort (ctx s len).tk (operands i)).isNone && (ctx s len).tk.wflags.isEmpty

theorem starts {i : Instr} {s : State} {len : Nat} (h : startsB i s len = true) : Starts i len s (ctx s len) := by
  simp only [startsB, Bool.and_eq_true] at h
  obtain ⟨⟨⟨⟨h1, h2⟩, h3⟩, h4⟩, h5⟩ := h
  obtain ⟨tk, ht⟩ := Option.isSome_iff_exists.mp h1
  refine ⟨⟨tk, ht, by simp [ctx, ht]⟩, ?_, h3, by simpa using h4, ?_⟩
  · cases hn : s.tenures.get? s.cur.1 with
    | none => simp [hn] at h2
    | some tn => simp only [hn, Bool.and_eq_true] at h2; exact ⟨tn, rfl, by simp_all, by simp_all⟩
  · have : (ctx s len).tk.wflags = [] := by simpa using h5
    simp [this]

/-- Whether an outcome is a next state with a property. -/
def nextIs (o : Host.Outcome State Fault Refusal) (f : State → Bool) : Bool := match o with
  | .next s => f s
  | _ => false
/-- A property of the task node. -/
def nodeIs (s : State) (f : TaskRt → Bool) : Bool := match s.tasks.get? (key2 1 0) with
  | some k => f k
  | none => false
/-- Whether an instruction comes to a next state of the node with a property. -/
def gives (i : Instr) (s : State) (f : TaskRt → Bool) : Bool := nextIs (exec i s) (fun s => nodeIs s f)
/-- A task with registers set. -/
def regs (g1 g2 g3 : W32) (k : TaskRt) : TaskRt := { k with g := ((k.g.set 1 g1).set 2 g2).set 3 g3 }
/-- A task with vector registers set. -/
def vregs (v1 v2 v3 : W64) (k : TaskRt) : TaskRt := { k with v := ((k.v.set 1 v1).set 2 v2).set 3 v3 }

/-! ### Scalar, compare, address and control instructions -/

/-- What the two sources and the destination give, with the instruction started: a witness for the two-source statements. -/
theorem witness_ScalarResult_two : ∀ e ∈ scalarTwoRules, ∃ (d a b : Opnd) (s : State) (c c1 c2 c3 : TCtx) (x y : W32),
    Starts (e.1 d a b) 1 s c ∧ read32 a c = .ok (x, c1) ∧ read32 b c1 = .ok (y, c2) ∧ write32 d (e.2 x y) c2 = .ok ((), c3) := by
  intro e he
  refine ⟨.g 1, .g 2, .i 0, node id, ctx (node id) 1, _, _, _, _, _, starts ?_, rfl, rfl, rfl⟩
  have : ∀ e ∈ scalarTwoRules, startsB (e.1 (.g 1) (.g 2) (.i 0)) (node id) 1 = true := by decide +kernel
  exact this e he
theorem witness_ScalarResult_one : (∀ e ∈ scalarOneRules, startsB (e.1 (.v 7) (.i 0)) (node id) 1 = true) ∧
    (∀ e ∈ scalarImmediateRules, startsB (e.1 (.g 15) (.g 0) 0x3FFF) (node id) 1 = true) ∧
    (∀ e ∈ shiftImmediateRules, startsB (e.1 (.a 7) (.v 0) 31) (node id) 1 = true) ∧
    startsB (.liW (.g 0) 0xFFFFF) (node id) 1 = true ∧ startsB (.luiW (.g 0) 0xFFFFF) (node id) 1 = true := by decide +kernel
theorem witness_ScalarResult_reads : (∃ x c1 c2, read32 (.i 0) (ctx (node id) 1) = .ok (x, c1) ∧ write32 (.v 7) x c1 = .ok ((), c2)) ∧
    (∃ x c1 c2, read32 (.g 0) (ctx (node id) 1) = .ok (x, c1) ∧ write32 (.g 15) x c1 = .ok ((), c2)) ∧
    (∃ x c1 c2, read32 (.v 0) (ctx (node id) 1) = .ok (x, c1) ∧ write32 (.a 7) x c1 = .ok ((), c2)) :=
  ⟨⟨_, _, _, rfl, rfl⟩, ⟨_, _, _, rfl, rfl⟩, ⟨_, _, _, rfl, rfl⟩⟩
/-- R163: the corners of division. -/
theorem test_divs : gives (.divsW (.g 1) (.g 2) (.g 3)) (node (regs 0 5 0)) (fun k => k.g[1] == 0xFFFFFFFF) = true ∧
    gives (.divsW (.g 1) (.g 2) (.g 3)) (node (regs 0 0x80000000 0xFFFFFFFF)) (fun k => k.g[1] == 0x80000000) = true := by decide +kernel
theorem test_rems : gives (.remsW (.g 1) (.g 2) (.g 3)) (node (regs 0 0x80000000 0xFFFFFFFF)) (fun k => k.g[1] == 0) = true ∧
    gives (.remsW (.g 1) (.g 2) (.g 3)) (node (regs 0 0xFFFFFFF9 2)) (fun k => k.g[1] == 0xFFFFFFFF) = true := by decide +kernel
theorem test_divz : gives (.divzW (.g 1) (.g 2) (.g 3)) (node (regs 0 7 0)) (fun k => k.g[1] == 0xFFFFFFFF) = true := by decide +kernel
theorem test_remz : gives (.remzW (.g 1) (.g 2) (.g 3)) (node (regs 0 7 0)) (fun k => k.g[1] == 7) = true := by decide +kernel
/-- R162: the high half of a signed product, the clamped sum, and the shift amount's low five bits. -/
theorem test_mulhs : gives (.mulhsW (.g 1) (.g 2) (.g 3)) (node (regs 0 0xFFFFFFFF 2)) (fun k => k.g[1] == 0xFFFFFFFF) = true := by
  decide +kernel
theorem test_adds : gives (.addsW (.g 1) (.g 2) (.g 3)) (node (regs 0 0x7FFFFFFF 1)) (fun k => k.g[1] == 0x7FFFFFFF) = true := by
  decide +kernel
theorem test_sra : gives (.sraW (.g 1) (.g 2) (.g 3)) (node (regs 0 0x80000000 33)) (fun k => k.g[1] == 0xC0000000) = true := by
  decide +kernel
/-- R133: a 32-bit result in an A register is sign-extended; a popped unit gives its low half (the unit of R170's record). -/
theorem test_add_into_a : gives (.addW (.a 1) (.i 0) (.g 2)) (node (regs 0 0 0))
    (fun k => k.a[1] == 0xFFFFFFFFFFFFFFFD && k.inp[0] == { cur := true, idx := 1 } && k.pc == 1) = true := by decide +kernel
theorem test_clz : gives (.clzW (.g 1) (.g 2)) (node (regs 0 0 0)) (fun k => k.g[1] == 32) = true := by decide +kernel
theorem test_lui : gives (.luiW (.g 1) 0x80001) (node id) (fun k => k.g[1] == 0x80001000) = true := by decide +kernel
theorem test_addi : gives (.addiW (.g 1) (.g 2) 0x3FFF) (node id) (fun k => k.g[1] == 0xFFFFFFFF) = true := by decide +kernel
theorem test_andi : gives (.andiW (.g 1) (.g 2) 0x3FFF) (node (regs 0 0xFFFFFFFF 0)) (fun k => k.g[1] == 0x3FFF) = true := by decide +kernel

theorem witness_CompareAndPredicateResult : (∀ e ∈ compareRules, startsB (e.1 3 (.g 2) (.g 3)) (node id) 1 = true) ∧
    (∀ e ∈ compareAddressRules, startsB (e.1 1 (.a 2) (.v 3)) (node id) 1 = true) ∧
    (∀ e ∈ predicateRules, startsB (e.1 1 0 3) (node id) 1 = true) ∧ startsB (.pset 1 (.g 0)) (node id) 1 = true ∧
    startsB (.pget (.g 0) 0) (node id) 1 = true := by decide +kernel
theorem witness_CompareAndPredicateResult_reads : (∃ x y c1 c2, read32 (.g 2) (ctx (node id) 1) = .ok (x, c1) ∧ read32 (.g 3) c1 = .ok (y, c2)) ∧
    (∃ x y c1 c2, read64 (.a 2) (ctx (node id) 1) = .ok (x, c1) ∧ read64 (.v 3) c1 = .ok (y, c2)) ∧
    (∃ c1, write32 (.g 0) ((predValue (ctx (node id) 1) 0).setWidth 32) (ctx (node id) 1) = .ok ((), c1)) :=
  ⟨⟨_, _, _, _, rfl, rfl⟩, ⟨_, _, _, _, rfl, rfl⟩, ⟨_, rfl⟩⟩
/-- R132: words with destination predicate 0, and registers as sources; each form has such a word, which no instruction is. -/
theorem witness_CompareAndPredicateResult_zero :
    (let z := fun (i : Instr) => (encode i).any (fun ws => ws.any (fun w => decodeRaw w == i && decodeTaskWord w == .illegalInstruction w))
     compareRules.all (fun e => z (e.1 0 (.g 1) (.i 2))) && compareAddressRules.all (fun e => z (e.1 0 (.a 1) (.a 2))) &&
       predicateRules.all (fun e => z (e.1 0 1 2)) && z (.pset 0 (.g 1)) && z (.cmpr2of4 (.v 0) (.v 1) 0 .bf16)) = true := by decide +kernel
/-- R132, R158: `cmp.lts.w p0, g1, i0` written out: no instruction. -/
theorem test_predicate_zero : decodeTask [0b000001_000000_000001_100000_00000010#32] =
    some (.illegalInstruction 0b000001_000000_000001_100000_00000010#32, 1) := by decide +kernel
theorem test_cmp_lts : gives (.cmpLtsW 1 (.g 2) (.g 3)) (node (regs 0 0x80000000 0)) (fun k => k.p[1] == 0xF) = true := by decide +kernel
theorem test_cmp_ltz : gives (.cmpLtzW 1 (.g 2) (.g 3)) (node (regs 0 0x80000000 0)) (fun k => k.p[1] == 0) = true := by decide +kernel
theorem test_pget_p0 : gives (.pget (.g 1) 0) (node id) (fun k => k.g[1] == 0xF) = true := by decide +kernel
theorem test_pandn : gives (.pandn 1 0 2) (node (fun k => { k with p := k.p.set 2 0b0110 })) (fun k => k.p[1] == 0b1001) = true := by decide +kernel

theorem witness_AddressResult : startsB (.addA (.a 0) (.v 1) (.g 2)) (node id) 1 = true ∧ startsB (.addzA (.a 0) (.i 0) (.g 2)) (node id) 1 = true ∧
    startsB (.subA (.v 0) (.a 1) (.a 2)) (node id) 1 = true ∧ startsB (.movA (.a 0) (.a 7)) (node id) 1 = true ∧
    startsB (.loA (.g 0) (.a 7)) (node id) 1 = true ∧ startsB (.hiA (.g 0) (.a 7)) (node id) 1 = true ∧
    startsB (.catA (.a 0) (.g 1) (.g 2)) (node id) 1 = true ∧ startsB (.addiA (.a 0) (.a 1) 0x2000) (node id) 1 = true := by decide +kernel
theorem witness_AddressResult_reads : (∃ x y c1 c2 c3, read64 (.v 1) (ctx (node id) 1) = .ok (x, c1) ∧ read64 (.g 2) c1 = .ok (y, c2) ∧
    write64 (.a 0) (x + y) c2 = .ok ((), c3)) ∧ (∃ x y c1 c2 c3, read64 (.i 0) (ctx (node id) 1) = .ok (x, c1) ∧ read32 (.g 2) c1 = .ok (y, c2) ∧
    write64 (.a 0) (x + y.setWidth 64) c2 = .ok ((), c3)) :=
  ⟨⟨_, _, _, _, _, rfl, rfl, rfl⟩, ⟨_, _, _, _, _, rfl, rfl, rfl⟩⟩
theorem test_add_a : gives (.addA (.a 0) (.a 1) (.g 2)) (node (fun k => { regs 0 0xFFFFFFFF 0 k with a := k.a.set 1 0x100000000 }))
    (fun k => k.a[0] == 0xFFFFFFFF) = true := by decide +kernel
theorem test_addz_a : gives (.addzA (.a 0) (.a 1) (.g 2)) (node (fun k => { regs 0 0xFFFFFFFF 0 k with a := k.a.set 1 0x100000000 }))
    (fun k => k.a[0] == 0x1FFFFFFFF) = true := by decide +kernel
/-- R168, from the worked task: rejoining 4 and 9. -/
theorem test_cat : gives (.catA (.a 1) (.g 3) (.g 2)) (node (regs 0 9 4)) (fun k => k.a[1] == 0x0000000400000009) = true := by decide +kernel

theorem witness_ControlFlowResult : startsB (.br 0 0x8000) (node id) 1 = true ∧ startsB (.brNp 3 1) (node id) 1 = true ∧
    startsB (.brz (.g 1) 0 1) (node id) 1 = true ∧ startsB (.brnegNp (.g 1) 1 1) (node id) 1 = true ∧ startsB (.call 1) (node id) 1 = true ∧
    startsB (.jr (.g 15)) (node id) 1 = true ∧ startsB (.callr (.g 15)) (node id) 1 = true ∧ startsB .nop (node id) 1 = true ∧
    startsB (.dbnz (.g 1) 0x3FF9) (node id) 1 = true := by decide +kernel
/-- R170: `callr g15` returns through the old link. R172: the decrement happens on both ways, from 0 as from 1. -/
theorem test_callr : gives (.callr (.g 15)) (node (fun k => { k with pc := 5, g := k.g.set 15 9 })) (fun k => k.pc == 9 && k.g[15] == 6) = true := by
  decide +kernel
theorem test_dbnz : gives (.dbnz (.g 1) 0x3FF9) (node (fun k => { regs 2 0 0 k with pc := 11 })) (fun k => k.pc == 4 && k.g[1] == 1) = true ∧
    gives (.dbnz (.g 1) 0x3FF9) (node (fun k => { regs 1 0 0 k with pc := 11 })) (fun k => k.pc == 12 && k.g[1] == 0) = true := by decide +kernel
theorem test_brneg : gives (.brneg (.g 1) 0 0xFFFF) (node (fun k => { regs 0x80000000 0 0 k with pc := 3 })) (fun k => k.pc == 2) = true ∧
    gives (.brnegNp (.g 1) 0 0xFFFF) (node (fun k => { regs 0x80000000 0 0 k with pc := 3 })) (fun k => k.pc == 4) = true := by decide +kernel

/-! ### Vector and conversion instructions -/

theorem witness_VectorLanewise : (∀ e ∈ laneRules, startsB (e.1 (.v 1) (.v 2) (.i 0) .z32) (node id) 1 = true) ∧
    (∀ e ∈ [Instr.vAbs, Instr.vNeg], startsB (e (.o 0) (.v 2) .fp16) (node id) 1 = true) ∧
    (∃ x y c1 c2 c3, read64 (.v 2) (ctx (node id) 1) = .ok (x, c1) ∧ read64 (.i 0) c1 = .ok (y, c2) ∧ write64 (.v 1) 0 c2 = .ok ((), c3)) :=
  ⟨by decide +kernel, by decide +kernel, _, _, _, _, _, rfl, rfl, rfl⟩
theorem witness_VectorFusedCompareSelect : (∀ e ∈ fusedRules, startsB (e.1 (.v 1) (.v 2) (.v 3) .bf16) (node id) 1 = true) ∧
    startsB (.vDot (.a 0) (.v 2) (.v 3) .tw8) (node id) 1 = true ∧
    (∀ e ∈ vectorCompareRules, startsB (e.1 (.v 1) (.v 2) (.v 3) .fp32) (node id) 1 = true) ∧
    startsB (.vSel (.v 1) (.v 2) (.v 3) .s8) (node id) 1 = true ∧
    (∃ x y z c1 c2 c3 c4, read64 (.v 2) (ctx (node id) 1) = .ok (x, c1) ∧ read64 (.v 3) c1 = .ok (y, c2) ∧ read64 (.v 1) c2 = .ok (z, c3) ∧
      write64 (.v 1) 0 c3 = .ok ((), c4)) :=
  ⟨by decide +kernel, by decide +kernel, by decide +kernel, by decide +kernel, _, _, _, _, _, _, _, rfl, rfl, rfl, rfl⟩
theorem witness_VectorPermute : (∀ e ∈ permuteRules, startsB (e.1 (.v 1) (.v 2) (.v 3) .e5m2) (node id) 1 = true) ∧
    startsB (.vBcast (.v 1) (.v 2) 7 .s8) (node id) 1 = true ∧ startsB (.vRot (.v 1) (.v 2) 0 .s8) (node id) 1 = true ∧
    startsB (.vIns (.v 1) (.v 2) 1 .s32) (node id) 1 = true ∧ startsB (.vExt (.g 1) (.v 2) 3 .s16) (node id) 1 = true ∧
    startsB (.cmpr2of4 (.v 1) (.v 2) 3 .bf16) (node id) 1 = true := by decide +kernel
theorem witness_VectorConvertReduceScale : (∀ m ∈ [Mode.rne, .sr], startsB (.vCvt (.v 1) (.v 2) m false .fp32 .e4m3) (node id) 1 = true) ∧
    startsB (.vRsum (.g 1) (.v 2) .s8) (node id) 1 = true ∧ startsB (.vRsum (.g 1) (.v 2) .fp16) (node id) 1 = true ∧
    startsB (.vRdot (.g 1) (.v 2) (.v 3) .z32) (node id) 1 = true ∧ startsB (.vRdot (.g 1) (.v 2) (.v 3) .bf16) (node id) 1 = true ∧
    startsB (.vRmax (.g 1) (.v 2) .fp32) (node id) 1 = true ∧ startsB (.vRmin (.g 1) (.v 2) .s16) (node id) 1 = true ∧
    startsB (.vScl (.v 1) (.v 2) 7 .fp32) (node id) 1 = true ∧ startsB (.vLdexp (.v 1) (.v 2) (.v 3) .bf16) (node id) 1 = true ∧
    startsB (.vMxpack (.v 1) (.v 2) (.v 3) .bf16) (node id) 1 = true ∧ startsB (.vMxunpack (.v 1) (.v 2) (.v 3) .bf16) (node id) 1 = true ∧
    startsB (.vSclx (.v 1) (.v 2) (.v 3) .bf16) (node id) 1 = true ∧ (FFmt.fp32.decode 0).isNaN = false ∧
    (FFmt.fp32.decode 0x7FC00000).isNaN = true := by decide +kernel
/-- R184, R189: lanes do not carry into each other. -/
theorem test_vadd : gives (.vAdd (.v 1) (.v 2) (.v 3) .z8) (node (vregs 0 0xFF 1)) (fun k => k.v[1] == 0) = true := by decide +kernel
theorem test_vadds : gives (.vAdds (.v 1) (.v 2) (.v 3) .s8) (node (vregs 0 0x7F 1)) (fun k => k.v[1] == 0x7F) = true := by decide +kernel
theorem test_vneg : gives (.vNeg (.v 1) (.v 2) .fp32) (node (vregs 0 0 0)) (fun k => k.v[1] == 0x8000000080000000) = true := by decide +kernel
/-- fp32: 1.5 * 2 + 1 = 4, and the NaN of no operands. -/
theorem test_vfma : gives (.vFma (.v 1) (.v 2) (.v 3) .fp32) (node (vregs 0x3F800000 0x3FC00000 0x40000000))
    (fun k => k.v[1] == 0x40800000 && k.fflags == 0) = true := by decide +kernel
theorem test_vsel : gives (.vSel (.v 1) (.v 2) (.v 3) .s8) (node (vregs 0xF0 0xAA 0x55)) (fun k => k.v[1] == 0xA5) = true := by decide +kernel
theorem test_vrot : gives (.vRot (.v 1) (.v 2) 1 .z32) (node (vregs 0 0x0000000200000001 0)) (fun k => k.v[1] == 0x0000000100000002) = true := by
  decide +kernel
/-- The worked rows of R196. -/
theorem test_cmpr : gives (.cmpr2of4 (.v 1) (.v 2) 1 .bf16) (node (vregs 0 0xBFC03FC07FC18000 0))
      (fun k => k.v[1] == 0x000000003FC07FC1 && k.p[1] == 0b0110) = true ∧
    gives (.cmpr2of4 (.v 1) (.v 2) 1 .bf16) (node (vregs 0 0x7F80FFC040007F81 0))
      (fun k => k.v[1] == 0x00000000FFC07F81 && k.p[1] == 0b0101) = true := by decide +kernel
/-- The worked rows of R198: 500 saturated, and 0.3 toward zero. -/
theorem test_cvt : gives (.vCvt (.v 1) (.v 2) .rne true .fp32 .e4m3) (node (vregs 0 0x43FA0000 0)) (fun k => k.v[1] == 0x7E) = true ∧
    gives (.vCvt (.v 1) (.v 2) .rtz false .fp32 .e4m3) (node (vregs 0 0x3E99999A 0)) (fun k => k.v[1] == 0x29) = true := by decide +kernel
/-- R199: 1 + 2 in fp32; the larger of two. -/
theorem test_rsum : gives (.vRsum (.g 1) (.v 2) .fp32) (node (vregs 0 0x400000003F800000 0)) (fun k => k.g[1] == 0x40400000) = true := by
  decide +kernel
theorem test_rmax : gives (.vRmax (.g 1) (.v 2) .s32) (node (vregs 0 0x80000000FFFFFFFF 0)) (fun k => k.g[1] == 0xFFFFFFFF) = true := by
  decide +kernel

/-! ### Bank, records and activations -/

/-- A task whose `a1` holds an address, with bytes 5 to 8 at the front of its bank. -/
def bankTask (x : W64) (k : TaskRt) : TaskRt := { k with a := k.a.set 1 x, bankBytes := 64, bank := [(0, 5), (1, 6), (2, 7), (3, 0x88)] }

theorem witness_BankLoadStoreResult : (∀ e ∈ bankLoadRules, startsB (e.1 (.g 1) (.a 1) 0x2000) (node (bankTask 0)) 1 = true) ∧
    startsB (.ldD (.v 1) (.g 1) 8) (node (bankTask 0)) 1 = true ∧ (∀ e ∈ bankStoreRules, startsB (e.1 (.v 1) (.a 1) 0x800) (node (bankTask 0)) 1 = true) ∧
    startsB (.stD (.i 0) (.a 1) 0) (node (bankTask 0)) 1 = true ∧
    (∃ x c1 c2, read64 (.a 1) (ctx (node (bankTask 0)) 1) = .ok (x, c1) ∧ write32 (.g 1) 0 c1 = .ok ((), c2)) :=
  ⟨by decide +kernel, by decide +kernel, by decide +kernel, by decide +kernel, _, _, _, rfl, rfl⟩
/-- R173, R174: the last word of the partition is in range, the next is not; an address below 0 is not. -/
theorem test_ld_w : gives (.ldW (.g 1) (.a 1) 0) (node (bankTask 0)) (fun k => k.g[1] == 0x88070605) = true ∧
    gives (.ldW (.g 1) (.a 1) 0) (node (fun k => { bankTask 64 k with tvec := 0x8010 }))
      (fun k => k.tcause == 0x0203 && k.targ == 64 && k.pc == 16) = true := by decide +kernel
theorem test_ld_s8 : gives (.ldS8 (.g 1) (.a 1) 3) (node (bankTask 0)) (fun k => k.g[1] == 0xFFFFFF88) = true ∧
    gives (.ldZ16 (.g 1) (.a 1) 0x3FFF) (node (fun k => { bankTask 0 k with tvec := 0x8010 }))
      (fun k => k.tcause == 0x0203 && k.targ == 0xFFFFFFFFFFFFFFFF) = true := by decide +kernel
theorem test_st_h : gives (.stH (.g 2) (.a 1) 2) (node (fun k => { bankTask 0 k with g := k.g.set 2 0x11220908 }))
      (fun k => k.bank == [(0, 5), (1, 6), (2, 8), (3, 9)]) = true ∧
    gives (.stW (.g 2) (.a 1) 2) (node (fun k => { bankTask 0 k with tvec := 0x8010 })) (fun k => k.tcause == 0x0204 && k.targ == 2) = true := by
  decide +kernel
theorem witness_BankStoreThenLoad : Memory.wf [(0, 5), (1, 6)] = true ∧ (5 : Nat) < 256 ^ 1 := by decide
theorem witness_RegisterInstructionsFrame : registerForm (.addW (.g 1) (.g 2) (.g 3)) (.g 1) ∧
    laneForm (.vAdd (.v 1) (.v 2) (.v 3) .s8) (.v 1) ∧ predicateForm (.pset 1 (.g 2)) 1 ∧
    nextIs (exec (.addW (.g 1) (.g 2) (.g 3)) (node id)) (fun _ => true) = true :=
  ⟨.inl ⟨(.addW, fun x y => x + y), List.mem_cons_self, _, _, rfl⟩, .inl ⟨(.vAdd, .add), by simp [laneRules], _, _, _, rfl⟩,
    .inr (.inr (.inr ⟨_, rfl⟩)), by decide +kernel⟩
theorem witness_BankStoresFrame : bankStoreForm (.stB (.g 1) (.a 1) 0) (.a 1) 0 1 ∧ Starts (.stB (.g 1) (.a 1) 0) 1 (node (bankTask 63))
    (ctx (node (bankTask 63)) 1) ∧ nextIs (exec (.stB (.g 1) (.a 1) 0) (node (bankTask 63))) (fun _ => true) = true :=
  ⟨.inl ⟨(.stB, 1), by simp [bankStoreRules], _, rfl, rfl⟩, starts (by decide +kernel), by decide +kernel⟩

/-- A task with a record open on `o0`, of a given length. -/
def openTask (len : Nat) (us : List W64) : State :=
  small id id (fun s => s.modChan 1 1 (fun c => { c with opn := some { hdr := mkHdr tData 0 len 0 false 0, units := us } }))

theorem witness_PortOperands : (ctx (node id) 1).tk.inCh[0] = some 0 ∧ ((ctx (node id) 1).s.chan? 1 0).isSome = true ∧
    (ctx (node id) 1).tk.inp[0].cur = false ∧ fmtAccepts (ctx (node id) 1).tk.fmt.ins[0] inRec.hdr = true ∧
    ((node (fun k => { k with inp := k.inp.set 0 { cur := true, idx := 2 } })).chan? 1 0).map (fun c => c.buf) = some [inRec] ∧
    (openTask 1 []).chan? 1 1 ≠ none ∧ (openTask 1 [7]).chan? 1 1 ≠ none := by decide +kernel
theorem witness_PortOperands_empty : (small id id (fun s => s.modChan 1 0 (fun c => { c with buf := [] }))).chan? 1 0 =
    some { ChanRt.entry inE with buf := [] } ∧ (node id).chan? 1 1 = some (ChanRt.entry outE) := by decide +kernel
theorem witness_RegisterOperands : usable (ctx (node id) 1) (.g 15) ∧ usable (ctx (node id) 1) (.a 0) ∧ usable (ctx (node id) 1) (.v 7) :=
  ⟨⟨rfl, rfl⟩, ⟨rfl, rfl⟩, rfl, rfl⟩
theorem witness_PendingRegisterHoldsBack : (ctx (node (fun k => { k with pend := [.g 1] })) 1).tk.pend.contains (.g 1) = true := by decide +kernel
theorem test_pop_overrun : gives (.movA (.a 0) (.i 0)) (node (fun k => { k with tvec := 0x8001, inp := k.inp.set 0 { cur := true, idx := 2 } }))
    (fun k => k.tcause == 0x0205 && k.inp[0] == { cur := true, idx := 2 }) = true := by decide +kernel
/-- R178, from the worked task: the header, and the payload units. -/
theorem test_hdr : gives (.hdr (.a 0) (.i 0)) (node id) (fun k => k.a[0] == 0x0005000200070000) = true ∧
    gives (.left (.g 1) (.i 0)) (node id) (fun k => k.g[1] == 2) = true := by decide +kernel
theorem test_close : nextIs (exec (.close (.o 0)) (openTask 1 [25]))
      (fun s => (s.chan? 1 1).map (fun c => (c.opn, c.transit.map Rec.units)) == some (none, [[25]])) = true ∧
    nextIs (exec (.close (.o 0)) (openTask 2 [25]))
      (fun s => (s.chan? 1 1).map (fun c => c.transit.length) == some 0) = true := by decide +kernel
theorem witness_RecordInstructions : startsB (.hdr (.a 0) (.i 0)) (node id) 1 = true ∧ startsB (.left (.g 0) (.i 0)) (node id) 1 = true ∧
    startsB (.next_ (.i 0)) (node id) 1 = true ∧ startsB (.next_ (.i 0)) (node (fun k => { k with trigp := 1 })) 1 = true ∧
    startsB (.open_ (.o 0) (.a 0)) (node (fun k => { k with a := k.a.set 0 0x0005000200070000 })) 1 = true ∧
    checkHeader 0x0005000200070000 = none ∧ hLen 0x0005000200070000 ≤ outE.width ∧ (ChanRt.entry outE).free = 5 ∧
    startsB (.close (.o 0)) (openTask 1 [25]) 1 = true ∧ startsB (.send (.o 0) (.a 0)) (node id) 1 = true ∧
    startsB (.cpy (.o 0) (.i 0) (.g 1)) (openTask 2 []) 1 = true := by decide +kernel
theorem test_cpy : nextIs (exec (.cpy (.o 0) (.i 0) (.g 1)) (small (regs 2 0 0) id (fun s =>
      s.modChan 1 1 (fun c => { c with opn := some { hdr := mkHdr tData 0 2 0 false 0, units := [] } }))))
    (fun s => (s.chan? 1 1).map (fun c => c.opn.map Rec.units) == some (some inRec.units)) = true := by decide +kernel
theorem witness_EndRetiresActivation : startsB .end_ (node id) 1 = true ∧ openPort (node id) 1 (ctx (node id) 1).tk.outCh.toList 0 = none ∧
    openPort (openTask 1 []) 1 (ctx (openTask 1 []) 1).tk.outCh.toList 0 = some 0 ∧
    startsB .end_ (node (fun k => { k with pend := [.g 0] })) 1 = true := by decide +kernel
theorem test_end : nextIs (exec .end_ (node id)) (fun s => nodeIs s (fun k => k.st == .idle && k.acts == 1 && k.pc == 0) &&
    (s.chan? 1 0).map (fun c => c.buf) == some []) = true := by decide +kernel

/-! ### Traps and system registers -/

theorem witness_TrapEntry : (0x8024#16).getLsbD 15 = true ∧ (0x0024#16).getLsbD 15 = false := by decide
/-- R378's fragment: BANK_RANGE at index 2 with argument 2,048, and the handler at 4. -/
theorem test_trap_fragment : gives (.ldW (.g 2) (.g 1) 0) (node (fun k => { regs 2048 7 0 k with pc := 2, tvec := 0x8004, bankBytes := 1024 }))
    (fun k => k.tpc == 2 && k.tcause == 0x0203 && k.targ == 2048 && k.pc == 4 && k.tstat == 1 && k.g[2] == 7) = true := by decide +kernel
theorem witness_TrapInstructions : startsB .rte (node (fun k => { k with tstat := 1 })) 1 = true ∧ startsB (.trap (.g 3)) (node id) 1 = true ∧
    startsB .halt (node id) 1 = true ∧ startsB .brk (node id) 1 = true ∧ startsB (.illegalInstruction 0x30000000) (node id) 1 = true ∧
    startsB (.codeRangeFetch (-1)) (node id) 1 = true := by decide +kernel
theorem test_rte : gives .rte (node (fun k => { k with tstat := 1, tpc := 3, pc := 9 })) (fun k => k.pc == 3 && k.tstat == 0) = true ∧
    gives .rte (node (fun k => { k with tvec := 0x8004 })) (fun k => k.tcause == 0x0200 && k.targ == 0xF8000001) = true := by decide +kernel
theorem test_halt : gives .halt (node (fun k => { k with tvec := 0x8004 })) (fun k => k.st == .halted) = true := by decide +kernel
theorem test_trap : gives (.trap (.g 1)) (node (fun k => { regs 0xFFFFFFFF 0 0 k with tvec := 0x8004 }))
    (fun k => k.tcause == 0x0207 && k.targ == 0xFFFFFFFF) = true := by decide +kernel
theorem witness_SystemRegisters : startsB (.sysr (.g 1) 0x201) (node id) 1 = true ∧ startsB (.sysw (.g 1) 0x200) (node id) 1 = true ∧
    startsB (.sysw (.g 1) 0x400) (node id) 1 = true ∧ faddPending (node id) 1 0 = false ∧
    startsB (.sysr (.g 1) 0x400) (node id) 1 = true := by decide +kernel
theorem test_sysw : gives (.sysw (.g 1) 0x200) (node (regs 0xFFFFFFFF 0 0)) (fun k => k.tvec == 0x8FFF) = true ∧
    gives (.sysw (.g 1) 0x301) (node (fun k => { regs 1 0 0 k with sberr := 3 })) (fun k => k.sberr == 2) = true := by decide +kernel
theorem test_sysr : gives (.sysr (.g 1) 6) (node id) (fun k => k.g[1] == 0xFFFF) = true ∧
    gives (.sysr (.g 1) 0x20) (node id) (fun k => k.g[1] == 5) = true := by decide +kernel
theorem witness_PrefixGroupResult : decodeTaskWord 0x0C208000 = .addiW (.g 2) (.g 2) 0 ∧ startsB (.addiW (.g 2) (.g 2) 0) (node id) 3 = true ∧
    decodeTaskWord 0x20000000 = .liW (.g 0) 0 ∧ startsB (.liW (.g 0) 0) (node id) 3 = true ∧ decodeTaskWord 0x48000000 = .call 0 ∧
    startsB (.call 0) (node id) 3 = true ∧ startsB (.illegalInstruction 0) (node id) 3 = true ∧
    decodeTaskWord 0b100110_000000_010001_10_000000000000#32 = .stW (.g 0) (.a 1) 0 ∧
    decodeTaskWord 0x0C208001 = .addiW (.g 2) (.g 2) 1 := by decide +kernel
/-- Whether some third word of a prefix group stands for an instruction, which starts. -/
def thirdB (i : Instr) (k : TaskRt → TaskRt) : Bool := startsB i (node k) 3 && (match encode i with
  | some [w] => decodeTaskWord w == i && takesPrefix i
  | _ => false)
theorem witness_PrefixGroupResult_forms : (∀ e ∈ prefixedRules, thirdB (e.1 (.g 2) (.g 3) 0) id = true) ∧ thirdB (.addiA (.a 0) (.a 1) 0) id = true ∧
    thirdB (.luiW (.g 0) 0) id = true ∧ (∀ e ∈ bankLoadRules, thirdB (e.1 (.g 1) (.a 1) 0) (bankTask 0) = true) ∧ thirdB (.ldD (.v 1) (.a 1) 0) (bankTask 0) = true ∧
    (∀ e ∈ branchRules, thirdB (e.1 (.g 1) 0 0) id = true) ∧ thirdB (.br 1 0) id = true ∧ thirdB (.brNp 1 0) id = true ∧
    thirdB (.sysr (.g 1) 0) id = true ∧ decodeTaskWord 0xF4100000 = .sysw (.g 1) 0 ∧ sysRegKnown 0x7FFFF = false ∧
    startsB (.sysr (.g 1) 0x300) (node id) 3 = true ∧
    (∀ i ∈ [Instr.addW (.g 1) (.g 2) (.g 3), .stW (.g 0) (.a 1) 0, .slliW (.g 1) (.g 2) 0, .dbnz (.g 1) 0, .wsb 0, .longImmediatePrefix 0 0], takesPrefix i = false) := by
  decide +kernel
theorem test_prefix_load : gives (.longImmediatePrefix 3 0x84144000) (node (bankTask 0)) (fun k => k.pc == 3 && k.g[1] == 0x88) = true := by decide +kernel
/-- R134: the worked group adds 100,000 and takes three words. -/
theorem test_prefix : gives (.longImmediatePrefix 0x000186A0 0x0C208000) (node id) (fun k => k.g[2] == 100000 && k.pc == 3) = true := by
  decide +kernel

/-! ### Global memory, atomics, accumulates, synchronising instructions -/

/-- The device-local address of the spec's examples (R282). -/
def devVa : W64 := 0x0100000000010000
/-- A translation of its page. -/
def tlb0 : Tlb := { pasid := 0, va := 0x0100000000010000, size := 4096, pa := .dev 0x10000, r := true, w := true }
/-- A window at that address (R291). -/
def win0 : WinE :=
  { wid := 3, isLocal := false, init := false, rofmt := 0, warg := false, rarg := false, e0 := -149, quota := 1, count := 4
    wbase := 0x0100000000010000, robase := 0, pound := 0, cfirst := 0, clast := 0 }
/-- A combine tree with one leaf at node 0 (R311). -/
def tree0 : TreeE := { tree := 0, fmt := 0, op := 0, ord := false, ulen := 1, texp := 0, rchan := 1, ints := [(0xFFF, 0, 1)], leaves := [(0, 0, 0)] }
/-- A gate at node 1 (R303). -/
def gate0 : GateRt :=
  { gid := 2, count := 8, texp := 0, gaddr := 0x0100000000050000, arrived := 0, early := 0, gen := 1, outs := [], waiters := [], timer := none,
    excess := none, halted := false }
/-- The small state with the page translated at the cell, a window, a tree and a gate. -/
def mem (k : TaskRt → TaskRt) : State :=
  small (fun t => k { t with a := t.a.set 1 devVa }) (fun tn => { tn with g := { tn.g with wins := [win0], trees := [tree0] } })
    (fun s => { s with tlbs := [(.cell 1 0, tlb0)], gates := [(key2 1 1, gate0)] })

theorem witness_AccessTranslation_addr : devVa.toNat < 2 ^ 57 ∧ devVa.toNat % 8 = 0 ∧ (2 : Nat) ^ 57 ≤ (0x0200000000000000#64).toNat ∧
    (0x0100000000010001#64).toNat % 2 ≠ 0 := by decide
theorem witness_AccessTranslation_tlb : (mem id).tenures.get? 1 ≠ none ∧ (mem id).tlb? (.cell 1 0) 0 devVa.toNat = some tlb0 ∧
    isDevice devVa.toNat = true ∧ isDevice 0x7F3400000 = false ∧
    ({ mem id with tlbs := [(.cell 1 0, { tlb0 with va := 0x7F3400000, pa := .host 0 })] }).tlb? (.cell 1 0) 0 0x7F3400000 ≠ none := by decide +kernel
/-- The state with five levels of tables for the page (R266). -/
def walked : State := { node id with
  roots := [(0, 0x1000)]
  devMem := [(0x1000, 0x01), (0x1001, 0x20), (0x2000, 0x01), (0x2001, 0x30), (0x3000, 0x01), (0x3001, 0x40), (0x4000, 0x01), (0x4001, 0x50),
    (0x5080, 0x0F), (0x5082, 0x01)] }
theorem witness_AccessTranslation_walk : (match walk walked 0 devVa.toNat with | .ok e => e == tlb0 | _ => false) = true := by decide +kernel
/-- A page that no table maps, asked for, and one whose request has failed. -/
def askedPage : Layer × Nat × Nat := (.cell 1 0, 0, 0x0100000000010000)
theorem witness_AccessTranslation_asks : (node id).tlb? (.cell 1 0) 0 devVa.toNat = none ∧ (∃ _x : Nat, walk (node id) 0 devVa.toNat = .invalid) ∧
    (Layer.cell 1 0, 0, devVa.toNat / 4096 * 4096) = askedPage ∧ askedPage ∉ (node id).pageFails ∧ askedPage ∉ (node id).pageReqs ∧
    askedPage ∈ ({ node id with pageReqs := [askedPage] }).pageReqs ∧ askedPage ∈ ({ node id with pageFails := [askedPage] }).pageFails ∧
    (((List.replicate 512 (Layer.cell 1 0, 0, 4096)).filter (fun r => !isDevice r.2.2)).length = 512) ∧
    ({ node id with pasidOff := [0] }).pasidOff.contains tn0.pasid = true ∧ (node id).dawn.caps.getLsbD 0 = false ∧ (node id).noHost 0 = true ∧
    (let s := { node id with dawn := { (node id).dawn with caps := 1 } }; 0 ∉ s.pasidOff ∧ s.dawn.caps.getLsbD 0 = true ∧ s.noHost 0 = false) :=
  ⟨by decide +kernel, ⟨0, rfl⟩, by decide +kernel, by decide +kernel, by decide +kernel, by decide +kernel, by decide +kernel, by decide +kernel, by decide +kernel, by decide +kernel, by decide +kernel, by decide +kernel⟩
theorem test_page_asked : nextIs (exec (.gldW (.g 1) (.a 1) true 2) (node (fun k => { k with a := k.a.set 1 devVa }))) (fun s =>
    s.pageReqs == [askedPage] && nodeIs s (fun k => k.pc == 0 && k.pend == [])) = true := by decide +kernel
theorem witness_GlobalAccessIssues : (∀ e ∈ globalLoadRules, startsB (e.1 (.a 0) (.a 1) true 7) (mem id) 1 = true) ∧
    (∀ e ∈ globalStoreRules, startsB (e.1 (.g 0) (.a 1) true 0) (mem id) 1 = true) ∧ startsB (.gstD (.a 0) (.a 1) false 0) (mem id) 1 = true ∧
    (∃ c1, read64 (.a 1) (ctx (mem id) 1) = .ok (devVa, c1) ∧ taskXlate devVa.toNat true false false c1 = .ok (.dev 0x10000, c1) ∧
      taskXlate devVa.toNat false true false c1 = .ok (.dev 0x10000, c1)) ∧
    tn0.watchHit 0 devVa.toNat 8 = none ∧ clobbers (mem id) (.dev 0x10000) 8 = false :=
  ⟨by decide +kernel, by decide +kernel, by decide +kernel, ⟨ctx (mem id) 1, rfl, rfl, rfl⟩, by decide +kernel, by decide +kernel⟩
/-- R272: a load leaves with its register held back, and nothing is written; an unaligned one is GLOBAL_ALIGN. -/
theorem test_gld_w : nextIs (exec (.gldW (.g 1) (.a 1) true 2) (mem id)) (fun s => nodeIs s (fun k => k.pend == [.g 1] && k.sbcnt[2] == 1) &&
      s.net.length == 1) = true ∧
    gives (.gldW (.g 1) (.a 1) true 2) (mem (fun k => { k with tvec := 0x8003, a := k.a.set 1 0x0100000000010002 }))
      (fun k => k.tcause == 0x0401) = true := by decide +kernel
theorem test_gst : nextIs (exec (.gstH (.g 1) (.a 1) false 0) (mem (regs 0x11223344 0 0))) (fun s =>
    (s.net.map Msg.kind) == [.store 0x0100000000010000 [0x44, 0x33] (.dev 0x10000) none]) = true := by decide +kernel
theorem witness_AtomicsIssueAndResult : (∀ e ∈ atomicRules, ∀ d ∈ [true, false], startsB (e.1 (.a 1) (.v 2) d) (mem id) 1 = true) ∧
    (∀ e ∈ atomicFetchRules, startsB (e.1 (.a 0) (.a 1) (.g 2) true true) (mem id) 1 = true) ∧
    startsB (.atomCas (.a 0) (.a 1) (.a 4) false true) (mem id) 1 = true ∧
    startsB (.atomFaddFp32 (.a 1) (.g 2)) (mem id) 1 = true ∧ startsB (.atomFaddBf16F (.g 0) (.a 1) (.g 2)) (mem id) 1 = true ∧
    clobbers (mem id) (.dev 0x10000) 8 = false ∧ (0xFFFFFFFF : Nat) < 2 ^ (8 * 4) := by decide +kernel
theorem witness_AtomicsIssueAndResult_ready :
    ∃ tn va c, read64 (.a 1) (ctx (mem id) 1) = .ok (va, c) ∧ atomicReady c tn 8 none va 0x10000 ∧ atomicReady c tn 4 (some (.g 3)) va 0x10000 :=
  ⟨{ tn0 with g := { tn0.g with wins := [win0], trees := [tree0] } }, devVa, ctx (mem id) 1, rfl,
    ⟨rfl, by decide, by decide, rfl, by decide +kernel, by simp, fun _ => by decide +kernel⟩,
    ⟨rfl, by decide, by decide, rfl, by decide +kernel, fun d h => by cases h; exact ⟨rfl, rfl⟩, by simp⟩⟩
theorem test_atom_add : nextIs (exec (.atomAdd (.a 1) (.g 3) false) (mem (regs 0 0 5))) (fun s => nodeIs s (fun k => k.updpend == 1) &&
    (s.net.map Msg.kind) == [.atomic .add 0x0100000000010000 4 0x10000 5 0 none false 0]) = true := by decide +kernel
/-- R286: the signed minimum of -1 and 1. -/
theorem test_atom_min : atomNew .min 4 0xFFFFFFFF 1 0 = (0xFFFFFFFF, 0) ∧ atomNew .minz 4 0xFFFFFFFF 1 0 = (1, 0) := by decide +kernel
theorem witness_AccumulateIssues : (∀ e ∈ accumulateRules, startsB (e.1 3 (.a 1) (.g 2)) (mem id) 1 = true) ∧
    startsB (.accS64 3 (.a 1) (.a 2)) (mem id) 1 = true ∧ startsB (.flushr 3) (mem id) 1 = true ∧ startsB (.flushr 4) (mem id) 1 = true ∧
    startsB .flushrAll (mem id) 1 = true ∧ (∃ c, accTarget 3 devVa c = .ok ((win0, some 0x10000), c)) ∧
    (∃ c1, taskFlush (fun _ => true) (ctx (mem id) 1) = .ok ((), c1)) :=
  ⟨by decide +kernel, by decide +kernel, by decide +kernel, by decide +kernel, by decide +kernel, ⟨ctx (mem id) 1, rfl⟩, _, rfl⟩
theorem test_acc_range : gives (.accS32 4 (.a 1) (.g 2)) (mem (fun k => { k with tvec := 0x8003 })) (fun k => k.tcause == 0x0405) = true ∧
    gives (.accS32 3 (.a 1) (.g 2)) (mem id) (fun k => k.updpend == 1) = true := by decide +kernel
/-- R282's worked request, read from `a4` to `a7`. -/
def xferTask (k : TaskRt) : TaskRt :=
  { k with a := (((k.a.set 4 0x3500000000010000).set 5 0x0100000000020000).set 6 0x0000010000200027).set 7 0x00A5000028000040 }
theorem test_xfer : nextIs (exec (.xfer (.a 4) 0) (node xferTask)) (fun s => nodeIs s (fun k => k.sbcnt[2] == 1) &&
    ((s.lighter 0).reqs.map (fun q => (q.rows, q.rowbytes, q.sstride, q.dstride, q.cval))) == [(3, 40, 64, 40, 0xA5)]) = true := by decide +kernel
theorem witness_TransferWaitFenceToken : startsB (.xfer (.a 4) 4) (node xferTask) 1 = true ∧
    (∃ u0 u1 u2 u3, xferUnits (.a 4) (ctx (node xferTask) 1) = .ok ((u0, u1, u2, u3), ctx (node xferTask) 1) ∧
      (LReq.ofUnits 0 0 0 u0 u1 u2 u3).malformed tn0 = false) ∧
    startsB (.waita (.a 1) (.g 2)) (mem id) 1 = true ∧ startsB (.wsb 0x81) (node id) 1 = true ∧ startsB .fenceG (node id) 1 = true ∧
    startsB .fenceS (node id) 1 = true ∧ accessPending (node id) 1 0 = false :=
  ⟨by decide +kernel, ⟨_, _, _, _, rfl, by decide +kernel⟩, by decide +kernel, by decide +kernel, by decide +kernel, by decide +kernel,
    by decide +kernel⟩
/-- A write of the node that stands at the host port, and comes before every later access. -/
def fencedWrite : PortWrite :=
  { id := 1, t := 1, node := 0, lighter := none, strict := false, pa := 0, segs := [(0, [1])], req := none, tok := none, arrs := [], gates := [],
    fenced := some 0, after := [], ahead := [] }
/-- The die pair of node 0 and the word's home has no live module. -/
def lostPair : State := { mem id with links := [(linkKey 0 1, { LinkRt.reset with mods := [] }), (linkKey 1 0, { LinkRt.reset with mods := [] })] }
theorem witness_TransferWaitFenceToken_homes : earlierIn (mem id) 1 0 (mem id).nextMsg (.dev 0x10000, 8) = false ∧
    fencedOut (mem id) 1 (some 0) (mem id).nextMsg = false ∧ fencedOut { mem id with hostPort := [fencedWrite] } 1 (some 0) (mem id).nextMsg = true ∧
    fencedOut { mem id with hostPort := [{ fencedWrite with fenced := none, after := [(0, 0)] }] } 1 (some 0) (mem id).nextMsg = true ∧
    fencedOut { mem id with hostPort := [{ fencedWrite with fenced := none, after := [(0, 0)] }] } 1 (some 2) (mem id).nextMsg = false ∧
    tn0.dieOf 0 = 0 ∧ unitDie (physUnit (.dev 0x10000)) = 1 ∧ pairLost (mem id) 0 1 = false ∧ pairLost lostPair 0 1 = true ∧ pairLost lostPair 1 0 = true ∧
    leNat (memRead (mem id) 1 devVa.toNat (.dev 0x10000) 8) = 0 ∧ tn0.watchHit 0 devVa.toNat 8 = none ∧
    startsB (.waita (.a 1) (.g 2)) lostPair 1 = true ∧
    startsB (.waita (.a 1) (.g 2)) (mem (fun k => { k with wait := .word devVa.toNat 0x10000 1 true })) 1 = true ∧
    startsB (.waita (.a 1) (.g 2)) (mem (fun k => { k with wait := .word devVa.toNat 0x10000 1 false })) 1 = true := by decide +kernel
theorem witness_TransferWaitFenceToken_fences : startsB .fenceG (node (fun k => { k with updpend := 1 })) 1 = true ∧
    startsB .fenceS (node (fun k => { k with hostDirty := true })) 1 = true ∧ startsB (.wsb 1) (node (fun k => { k with sbcnt := k.sbcnt.set 0 1 })) 1 = true ∧
    (1 : BitVec 8).getLsbD 0 = true := by decide +kernel
theorem test_waita : gives (.waita (.a 1) (.g 2)) (mem id) (fun k => k.pc == 1) = true ∧
    gives (.waita (.a 1) (.g 2)) (mem (regs 0 1 0)) (fun k => k.pc == 0 && k.st == .blocked) = true := by decide +kernel
theorem test_wsb : gives (.wsb 1) (node (fun k => { k with sbcnt := k.sbcnt.set 0 1 })) (fun k => k.pc == 0) = true ∧
    gives (.wsb 2) (node (fun k => { k with sbcnt := k.sbcnt.set 0 1 })) (fun k => k.pc == 1) = true := by decide +kernel
theorem test_fence : gives .fenceG (node (fun k => { k with updpend := 1 })) (fun k => k.pc == 0) = true ∧
    gives .fenceS (node id) (fun k => k.pc == 1) = true := by decide +kernel
theorem witness_GateQuietCombineResult : startsB (.gateArr 2 (.g 1)) (mem (regs 511 0 0)) 1 = true ∧ startsB (.gateWait 2 (.g 1)) (mem id) 1 = true ∧
    gateByGid (mem id) 1 2 = some (1, gate0) ∧ gate0.gen ≠ 0 ∧ startsB .quietP (node id) 1 = true ∧
    startsB .quietG (node (fun k => { k with wait := .quiet true .quiet })) 1 = true ∧ startsB (.combSend (.g 1) (.a 2)) (mem (bankTask 0)) 1 = true ∧
    pathHolds (mem (bankTask 0)) 1 tree0 0 0 = false := by decide +kernel
/-- Gate 1 lies on die 1, to which there is no live module. -/
def farGate (f : TaskRt → TaskRt) : State :=
  { mem f with
    tenures := [(1, { tn0 with place := some { pound := 0, sites := [(0, 0)], slices := [(1, 2 ^ 27)], slots := [], combs := [] } })]
    links := [(linkKey 0 1, { LinkRt.reset with mods := [] }), (linkKey 1 0, { LinkRt.reset with mods := [] })] }
theorem witness_GateQuietCombineResult_lost :
    (∃ tn, (farGate id).tenures.get? 1 = some tn ∧ pairLost (farGate id) (tn.dieOf 0) (tn.dieOf 1) = true ∧ pairLost (mem id) (tn.dieOf 0) (tn.dieOf 1) = false) ∧
    startsB (.gateWait 2 (.g 1)) (farGate id) 1 = true ∧ (farGate id).gates.get? (key2 1 1) = some gate0 ∧
    startsB (.gateWait 2 (.g 1)) (farGate (fun k => { k with wait := .gate 1 1 })) 1 = true ∧ (∀ w ∈ gate0.waiters, w.1 ≠ 0) ∧ gate0.gen = 1 :=
  ⟨⟨_, rfl, by decide +kernel, by decide +kernel⟩, by decide +kernel, by decide +kernel, by decide +kernel, by decide +kernel, by decide +kernel⟩
theorem test_quiet : gives .quietG (node id) (fun k => k.wait == .quiet true .asked && k.pc == 0) = true ∧
    gives .quietP (node (fun k => { k with wait := .quiet false .quiet })) (fun k => k.pc == 1) = true := by decide +kernel
theorem test_gate_wait : gives (.gateWait 2 (.g 1)) (mem id) (fun k => k.pc == 1) = true ∧
    gives (.gateWait 2 (.g 1)) (mem (regs 1 0 0)) (fun k => k.pc == 0 && k.wait == .gate 1 1) = true := by decide +kernel
theorem test_comb_send : nextIs (exec (.combSend (.g 1) (.a 2)) (mem (bankTask devVa))) (fun s => (s.net.map Msg.kind) ==
    [.contrib 0 0 0 0 [0x0000000088070605] none]) = true := by decide +kernel

/-! ### Passage programs -/

/-- A tenure that runs a passage program in pound 0, with its graph's channel. -/
def pass (g : Tenure → Tenure) : State :=
  small id (fun tn => g { tn with g := { tn.g with chans := [{ inE with src := extEnd }] }, lk := { tn.lk with lpc := 11 } }) id
/-- The tenure is as `f` says. -/
def tenureIs (s : State) (f : Tenure → Bool) : Bool := match s.tenures.get? 1 with
  | some tn => f tn
  | none => false
/-- A passage instruction comes to a tenure that is as `f` says. -/
def leads (i : Instr) (s : State) (f : Tenure → Bool) : Bool := nextIs (exec i s) (fun s => tenureIs s f)

theorem witness_PassageCountersAndPredicates_PassageRetires : ∃ tn, atPassage (pass id) tn 4 ∧ tn.lk.lstate = 1 ∧ tn.lk.qvalid.getLsbD 0 = false ∧ tn.partner = none :=
  ⟨_, ⟨rfl, by decide⟩, by decide, by decide, rfl⟩
theorem witness_PassageCountersAndPredicates_valid : ∃ tn, atPassage (pass (fun tn => { tn with lk := { tn.lk with qvalid := 1, qval := 1 } })) tn 1 ∧
    tn.lk.qvalid.getLsbD 0 = true ∧ tn.lk.qvalid.getLsbD 7 = false :=
  ⟨_, ⟨rfl, by decide⟩, by decide, by decide⟩
theorem witness_PassageReloadWatchBind : ∃ tn, atPassage (pass (fun tn => { tn with lk := { tn.lk with lstate := 2, qvalid := 1 } })) tn 4 ∧
    tn.lk.lstate = 2 ∧ tn.lk.qvalid.getLsbD 0 = true ∧ bindable tn 0 ∧ tn.lk.lstate ≠ 1 :=
  ⟨_, ⟨rfl, by decide⟩, by decide, by decide, ⟨_, rfl, by decide⟩, by decide⟩
/-- R355, from the worked loop: `dec.jnz n0, top` at word 11. -/
theorem test_dec_jnz : leads (.decJnz 0 9) (pass (fun tn => { tn with lk := { tn.lk with n0 := 3 } })) (fun tn => tn.lk.lpc == 9 && tn.lk.n0 == 2) = true ∧
    leads (.decJnz 0 9) (pass (fun tn => { tn with lk := { tn.lk with n0 := 1 } })) (fun tn => tn.lk.lpc == 12 && tn.lk.n0 == 0) = true := by decide +kernel
/-- R355: `choose.n q0, fin` with a 0 jumps, and consumes. -/
theorem test_choose : leads (.choose true 0 15) (pass (fun tn => { tn with lk := { tn.lk with qvalid := 1 } }))
    (fun tn => tn.lk.lpc == 15 && tn.lk.qvalid == 0) = true ∧
    leads (.choose true 0 15) (pass id) (fun tn => tn.lk.lpc == 11 && tn.lkBlocked) = true := by decide +kernel
theorem test_setp : leads (.setp true 7) (pass id) (fun tn => tn.lk.qval == 0x80 && tn.lk.qvalid == 0x80 && tn.lk.lpc == 12) = true := by decide +kernel
/-- R360: `watch.wa 0, arg 8, 16, 0x0F`. -/
theorem test_watch : leads (.watch 0 false true true true 8 1 0x0F) (pass (fun tn => { tn with args := List.replicate 9 0 ++ [1] ++ List.replicate 6 0 }))
    (fun tn => tn.watch[0] == some { rd := false, wr := true, at_ := true, base := 256, units := 2, mask := 0x0F } && tn.lk.lpc == 15) = true := by
  decide +kernel
theorem test_bind_arg : leads (.bindArg 0 8 40) (pass (fun tn => { tn with lk := { tn.lk with lstate := 2 } }))
    (fun tn => tn.binds.get? 0 == some (.arg 8 40) && tn.lk.lpc == 14) = true := by decide +kernel
theorem test_ireload : leads .ireload (pass id) (fun tn => tn.laneFaults.map (fun r => (r.code, r.src)) == [(0x0600, 9)] && tn.lk.lpc == 11) = true := by
  decide +kernel
theorem witness_PassageEnterAndLeave : ∃ tn, atPassage (pass (fun tn => { tn with lkWait := .quiet true .quiet })) tn 1 ∧ tn.lk.lstate = 1 ∧
    tn.lkWait = .quiet true .quiet ∧ reached (pass id) tn (leavingRanges (pass id) tn) :=
  ⟨_, ⟨rfl, by decide⟩, by decide, rfl, ⟨_, rfl⟩, .inl rfl⟩
/-- Leaving reaches a gate word that a translation finds, with nothing before it at the host port. -/
theorem witness_PassageEnterAndLeave_ranges : ∃ tn, reached walked tn [(devVa.toNat, 16, true)] ∧ tn.pasid = 0 ∧
    (∃ x y : Tenure, notAsked x ∧ x.lkWait = .begun ∧ y.lkWait = .quiet true .asked ∧ x.lk.lstate = 1 ∧ x.partner = none ∧ x.load = none ∧ x.lk.lhint.toNat ≠ 0) :=
  ⟨tn0, ⟨⟨_, rfl⟩, .inr (by decide +kernel)⟩, rfl, { tn0 with lkWait := .begun, lk := { tn0.lk with lstate := 1 } },
    { tn0 with lkWait := .quiet true .asked }, (by intro _ _ h; injection h), rfl, rfl, rfl, rfl, rfl, by decide⟩
/-- A tenure that has locked its pound, with the load of pound 0 committed. -/
def locked (tn : Tenure) : Tenure :=
  { tn with lk := { tn.lk with lstate := 2 }, lkWait := .begun, binds := [(0, .arg 0 8)]
            load := some { place := { pound := 0, sites := [(0, 0)], slices := [], slots := [], combs := [] }, todo := [], parts := [], words := [(0, [])], patches := [], fmts := [], committed := true, fails := 0 } }
theorem witness_PassageEnterAndLeave_enter : ∃ tn l, atPassage (pass locked) tn 1 ∧ tn.lk.lstate ≠ 1 ∧ endsBound tn 0 = true ∧ tn.load = some l ∧
    l.committed = true ∧ l.place.pound = 0 ∧ tn.lkWait = .begun ∧ reached (pass locked) tn (entryRanges tn l) :=
  ⟨_, _, ⟨rfl, by decide⟩, by decide, by decide +kernel, rfl, rfl, rfl, rfl, ⟨_, rfl⟩, .inl rfl⟩
/-- A tap on gate 1 takes the parity of its generation. -/
theorem test_tap_entry : tapParity { node id with gates := [(key2 1 1, gate0)] } 1 (0x37 * 2 ^ 26) = false := by decide +kernel
theorem test_enter : leads (.enter 0) (pass locked) (fun tn => tn.lk.lstate == 1 && tn.lk.lpound == 0 && tn.lk.lpc == 12) = true := by decide +kernel
theorem test_quiet_lk : leads (.quiet true) (pass id) (fun tn => tn.lkWait == .quiet false .asked) = true := by decide +kernel
theorem test_lock : leads (.lock false 0) (pass (fun tn => { tn with lkWait := .quiet true .quiet })) (fun tn => tn.lk.lstate == 2 && tn.lk.lpc == 12) = true := by
  decide +kernel
theorem test_done : nextIs (exec .done (pass (fun tn => { tn with lkWait := .begun }))) (fun s => s.tenures == []) = true := by decide +kernel

/-! ### Host queues, registers and commands -/

/-- A queue of PASID 0 with a command ring and a completion ring of 16 entries in a mapped page. -/
def queue0 (cmds : List Cmd) : QueueRt :=
  { QueueRt.create 0 0 0 with cmdva := 0x10000, cplva := 0x10400, cmdlog := 4, cpllog := 4, ceil := 3, cmds := cmds, status := 1 }
/-- A waiting command with its first words, the others 0. -/
def cmd (ws : List W64) : Cmd := { idx := 0, words := ws ++ List.replicate (8 - ws.length) 0, st := .waiting, since := 0, args := none }
/-- The small state with queue 1, a mapped host page, and a virtual queue of each direction. -/
def host (cmds : List Cmd) (g : Tenure → Tenure) (f : State → State) : State :=
  small id g (fun s => f { s with
    hostPages := [⟨0, 0x10000, 4096, 0x10000, true, true⟩], queues := [(1, queue0 cmds)], nextQueue := 2, subj := .queue 1
    vqs := [(5, ⟨0, false, 1024, [], none, 0, none, false⟩), (6, ⟨0, true, 1024, [inRec], none, 0, none, false⟩)]
    dawn := { s.dawn with status := dawnStatus 3 false 0, caps := 0xF } })
/-- Queue 1 is as `f` says. -/
def queueIs (o : Host.Outcome State Fault Refusal) (f : State → QueueRt → Bool) : Bool := nextIs o (fun s => match s.queues.get? 1 with
  | some x => f s x
  | none => false)
/-- The status and the result of a queue's first completion. -/
def statusOf (x : QueueRt) : List (Nat × W64) := x.pending.map (fun p => (bitsOf p.word0.toNat 32 16, p.result))

theorem witness_HostQueuesAndCompletions_kick : (host [] id (fun s => { s with subj := .write 1 16 })).queues.get? 1 = some (queue0 []) ∧
    (queue0 []).failed = false ∧ ((16#32) - (queue0 []).head).toNat ≤ 2 ^ (queue0 []).cmdlog ∧
    2 ^ (queue0 []).cmdlog < ((17#32) - (queue0 []).head).toNat ∧ { queue0 [] with status := 2 }.failed = true := by decide +kernel
theorem witness_HostQueuesAndCompletions_ring : ∃ parts, hostRange (host [] id id) (.ring 1) 0 (0x10000 + 15 * 64) 64 false = .ok parts := ⟨_, rfl⟩
theorem test_kick : queueIs (exec .kickTailWrite (host [] id (fun s => { s with subj := .write 1 2 })))
      (fun _ x => x.head == 2 && x.cmds.length == 2 && x.kickTail == 2) = true ∧
    queueIs (exec .kickTailWrite (host [] id (fun s => { s with subj := .write 1 17 }))) (fun _ x => x.status == 0x00010002 && x.cmds.isEmpty) = true := by
  decide +kernel
/-- A completion that waits at queue 1. -/
def done0 : State := host [] id (fun s => s.modQueue 1 (fun x => { x with
  pending := [⟨0, 0x01040000000000AA, 7, 0, 0, true, false, none, false⟩] }))
theorem witness_HostQueuesAndCompletions_completion : ((done0.queues.get? 1).map (fun x => x.pending.length)) = some 1 ∧
    (∃ parts, hostRange done0 (.ring 1) 0 0x10400 32 true = .ok parts) := ⟨by decide +kernel, _, rfl⟩
/-- Command 1's completion behind a LAUNCH's last one that comes immediately behind the one written before it (R65). -/
def joined0 : State := host [] id (fun s => s.modQueue 1 (fun x => { x with
  pending := [⟨1, 0, 0, 0, 0, true, false, none, false⟩, ⟨0, 0x0104000000000000, 0, 0, 0, true, false, none, true⟩] }))
theorem witness_HostQueuesAndCompletions_joined : ∃ x p o, joined0.queues.get? 1 = some x ∧ x.pending[0]? = some p ∧ o ∈ x.pending ∧ o.joined = true ∧
    o.cmd ≠ p.cmd ∧ (∀ e ∈ x.pending, e.cmd = o.cmd → e.fin = true) ∧ x.pending[1]? = some o ∧ joinedFirst x.pending o = false ∧
    (∀ y ∈ x.pending.take 1, y.cmd ≠ o.cmd) :=
  ⟨_, _, _, rfl, rfl, List.mem_cons_of_mem _ (List.mem_singleton.mpr rfl), rfl, by decide +kernel, by decide +kernel, rfl, by decide +kernel, by decide +kernel⟩
theorem test_completion_joined : queueIs (exec .completionWrite { joined0 with subj := .completion 1 0 }) (fun _ x => x.pending.length == 2) = true ∧
    queueIs (exec .completionWrite { joined0 with subj := .completion 1 1 }) (fun _ x => x.pending.map (fun p => p.cmd) == [1]) = true := by decide +kernel
theorem test_completion_write : nextIs (exec .completionWrite { done0 with subj := .completion 1 0 })
    (fun s => leNat (s.hostMem.read 0x10400 8) == 0x81040000000000AA && leNat (s.hostMem.read 0x10408 8) == 7) = true := by decide +kernel
theorem witness_HostQueuesAndCompletions_create : (host [] id id).stage = 3 ∧ (host [] id id).powered = true ∧ (node id).stage = 0 ∧
    descOk 0 = false ∧ (host [] id id).enabled 6 4 = 4 ∧ ({ host [] id id with dawn := { (host [] id id).dawn with units := List.replicate 9 0 } }).enabled 6 4 = 0 ∧
    mboxSubmitted (host [] id (fun s => { s with mboxDoor := 1 })) = true ∧ freeSlot? (host [] id id) = some 1 := by
  decide +kernel
theorem test_create_queue : nextIs (exec .createQueue (host [] id (fun s => { s with subj := .newQueue 0 0, mboxDoor := 1 }))) (fun s =>
      s.queues.length == 1 && s.mboxRsp.map Prod.fst == some .refused) = true ∧
    nextIs (exec .destroyQueue (host [] id (fun s => { s with mboxDoor := 1 }))) (fun s => s.queues.isEmpty && s.mboxDoor == 0) = true := by decide +kernel
theorem witness_RegistersAndGovernor : (node id).powered = true ∧ (600 : Nat) ≤ (1250#32).toNat ∧ (599#32).toNat < 600 ∧
    otherBudgets (node id) 0 + 1250 ≤ 5000 := by decide +kernel
/-- A comparison falls in an interval that has had none, and in a cycle without a read of the clock; after both it does not. -/
theorem witness_RegistersAndGovernor_clock : ((node id).gov[3]).last < ({ node id with nowNs := 50000 }).interval ∧
    (node id).interval ≤ ((node id).gov[3]).last ∧ ((node id).gov[3]).readAt ≠ some (node id).clk[3] ∧
    ((registerRead (.gov 3 0x08) (node id)).2.gov[3]).readAt = some (node id).clk[3] := by decide +kernel
/-- R28: a budget out of range is ignored; over budget the clock steps down, at the floor FLOOR is set. -/
theorem test_budget : nextIs (exec .pwrBudgetWrite { node id with subj := .die 0 599 }) (fun s => s.gov[0].budget == 1250) = true ∧
    nextIs (exec .pwrBudgetWrite { node id with subj := .die 0 600 }) (fun s => s.gov[0].budget == 600) = true := by decide +kernel
theorem test_governor : nextIs (exec .governorTick { node id with subj := .die 3 1251, nowNs := 50000 }) (fun s => s.gov[3].fclk == 32 && s.gov[3].events == 1) = true ∧
    nextIs (exec .governorTick { node id with subj := .die 3 1100, nowNs := 50000 }) (fun s => s.gov[3].fclk == 33 && s.gov[3].now == 1100) = true := by decide +kernel
theorem test_register_write : nextIs (exec .registerWrite { node id with subj := .register (.bar2 0x2000) 1 }) (fun s => s.mboxDoor == 1) = true ∧
    nextIs (exec .registerWrite { node id with subj := .register (.bar2 0x3000) 1 }) (fun s => s == { node id with subj := .register (.bar2 0x3000) 1 }) = true := by
  decide +kernel
/-- R386: a vector that pends is sent once its mask bit is cleared; at reset every vector is masked. -/
theorem test_msix : nextIs (exec .registerWrite { node id with subj := .register (.bar2 0x10038) 0, msixPba := [3] }) (fun s =>
    s.irqs == [3] && s.msixPba == []) = true ∧ (raiseIrq (node id) 3).msixPba = [3] ∧ (raiseIrq (node id) 3).irqs = [] := by decide +kernel

/-- A command at the head of queue 1. -/
theorem head_of {s : State} {c : Cmd} {cs : List Cmd} (h1 : s.subj = .queue 1) (h2 : s.powered = true) (h3 : fetchRing s 1 = s)
    (h4 : s.queues.get? 1 = some (queue0 cs)) (h5 : (queue0 cs).cmds.all (fun d => d.st != .started) = true) (h6 : (queue0 cs).headCmd = some c)
    (h7 : queueWins s 1 = true) : atHead s 1 (queue0 cs) c :=
  ⟨h1, h2, h3, h4, fun d hd he => by simp only [List.all_eq_true] at h5; simpa [he] using h5 d hd, h6, h7⟩
theorem witness_SignalAndWaitCommands : (∀ w ∈ [0, 4, 5], ∃ s x c, atHead s 1 x c ∧ c.op = w) ∧ (cmd [0]).malformed = true ∧
    (cmd [4, 0x10800, 5, 1]).malformed = false ∧ (cmd [5, 0x10800, 5, 0x0000000100000000]).malformed = false := by
  refine ⟨?_, by decide +kernel⟩
  intro w hw
  simp only [List.mem_cons, List.not_mem_nil, or_false] at hw
  rcases hw with rfl | rfl | rfl
  · exact ⟨host [cmd [0]] id id, _, cmd [0], head_of rfl rfl (by decide +kernel) rfl (by decide +kernel) rfl (by decide +kernel), by decide⟩
  · exact ⟨host [cmd [4]] id id, _, cmd [4], head_of rfl rfl (by decide +kernel) rfl (by decide +kernel) rfl (by decide +kernel), by decide⟩
  · exact ⟨host [cmd [5]] id id, _, cmd [5], head_of rfl rfl (by decide +kernel) rfl (by decide +kernel) rfl (by decide +kernel), by decide⟩
/-- A command that started and awaits a page stands before the head; without HOSTSHARED a command that names the host is turned away, one that
names a device address is not. -/
theorem witness_SignalAndWaitCommands_barred :
    (let s := host [{ cmd [4, 0x20000, 5, 0] with st := .started }, { cmd [4, 0x10800, 5, 0] with idx := 1 }] id
       (fun s => { s with pageReqs := [(.command 1 0, 0, 0x20000)] })
     ∃ x c, atHead s 1 x c ∧ c.idx = 1 ∧ c.op = 4) ∧
    (let s := host [cmd [4, 0x10800, 5, 0]] id (fun s => { s with dawn := { s.dawn with caps := 0 } })
     Cmd.barred s (cmd [4, 0x10800, 5, 0]) = true ∧ Cmd.barred s (cmd [4, devVa, 5, 0]) = false) ∧
    Cmd.barred (host [] id id) (cmd [4, 0x10800, 5, 0]) = false ∧ Cmd.barred (host [] id id) (cmd [0]) = true :=
  ⟨⟨_, _, ⟨rfl, rfl, by decide +kernel, rfl, (by decide +kernel), rfl, by decide +kernel⟩, rfl, by decide⟩,
    by decide +kernel, by decide +kernel, by decide +kernel⟩
theorem test_hostshared : queueIs (exec .signalSet (host [cmd [4, 0x10800, 5, 0]] id (fun s => { s with dawn := { s.dawn with caps := 0 } })))
    (fun _ x => statusOf x == [(1, 0)]) = true := by decide +kernel
theorem test_bad_command : queueIs (exec .push (host [cmd [0]] id id)) (fun _ x => statusOf x == [(1, 0)]) = true := by decide +kernel
theorem test_signal : queueIs (exec .signalSet (host [cmd [4, 0x10800, 5, 0]] id id)) (fun s x => statusOf x == [(0, 5)] &&
      leNat (s.hostMem.read 0x10800 8) == 5) = true ∧
    queueIs (exec .signalAdd (host [cmd [4, 0x10800, 0xFFFFFFFFFFFFFFFF, 1]] id (fun s => { s with hostMem := [(0x10800, 1)] })))
      (fun s x => statusOf x == [(0, 0)] && s.hostMem == []) = true := by decide +kernel
/-- R65: an unmet WAIT holds its queue, and completes with WAIT_TIMEOUT after its microseconds. -/
theorem test_wait : queueIs (exec .wait (host [cmd [5, 0x10800, 5, 0x0000000100000000]] id id)) (fun _ x => x.waiting == some (0, 0, 0)) = true ∧
    queueIs (exec .wait (host [cmd [5, 0x10800, 0, 0x0000000100000001]] id id)) (fun _ x => statusOf x == [(0, 0)]) = true := by decide +kernel
/-- A queue that a WAIT holds. -/
def waitingHost (now : Nat) : State := host [{ cmd [5, 0x10800, 5, 0x0000000100000000] with st := .active }] id (fun s =>
  { s with nowNs := now }.modQueue 1 (fun x => { x with waiting := some (0, 0, 0) }))
theorem test_wait_timeout : queueIs (exec .waitTimeout (waitingHost 1000)) (fun _ x => statusOf x == [(7, 0)] && x.waiting.isNone) = true ∧
    queueIs (exec .waitTimeout (waitingHost 999)) (fun _ x => x.waiting.isSome) = true := by decide +kernel
theorem test_wait_satisfied : queueIs (exec .waitSatisfied (waitingHost 0)) (fun _ x => x.waiting == some (0, 0, 0)) = true ∧
    queueIs (exec .waitSatisfied { waitingHost 0 with hostMem := [(0x10800, 5)] }) (fun _ x => statusOf x == [(0, 5)]) = true := by decide +kernel
theorem witness_PushPullQueryCommands : (cmd [2, 5, 0x10800, 0x0000000100000018]).malformed = false ∧
    (usableVq (host [] id id) 0 5 false).isSome = true ∧ usableVq (host [] id id) 0 6 false = none ∧ (usableVq (host [] id id) 0 6 true).isSome = true ∧
    (cmd [3, 6, 0x10800, 0x0000000100000018]).malformed = false ∧ (cmd [9, 3, 0x10800, 20]).malformed = false ∧
    (∃ parts, hostRange (host [] id id) (.command 1 0) 0 0x10800 24 true = .ok parts) ∧ (∃ bs, queryReply (host [] id id) 0 3 0 = .ok bs) ∧
    (∃ st, queryReply (host [] id id) 0 1 9 = .error st) :=
  ⟨by decide +kernel, by decide +kernel, by decide +kernel, by decide +kernel, by decide +kernel, by decide +kernel, ⟨_, rfl⟩, ⟨_, rfl⟩, _, rfl⟩
/-- The two-unit record of the worked task pushed, and pulled: 24 bytes. -/
theorem test_push : queueIs (exec .push (host [cmd [2, 5, 0x10800, 0x0000000100000018]] id (fun s => { s with
      hostMem := s.hostMem.write 0x10800 (leBytes 0x0005000200070000 8 ++ leBytes 3 8 ++ leBytes 4 8) })))
    (fun s x => statusOf x == [(0, 1)] && (s.vqs.get? 5).map (fun q => q.ring) == some [{ inRec with units := [3, 4] }]) = true ∧
    queueIs (exec .push (host [cmd [2, 6, 0x10800, 0x0000000100000018]] id id)) (fun _ x => statusOf x == [(4, 0)]) = true := by decide +kernel
theorem test_pull : queueIs (exec .pull (host [cmd [3, 6, 0x10800, 0x0000000100000018]] id id))
    (fun s x => statusOf x == [(0, 0x0000000100000018)] && leNat (s.hostMem.read 0x10800 8) == 0x0005000200070000 &&
      (s.vqs.get? 6).map (fun q => q.ring) == some []) = true := by decide +kernel
theorem test_query_governor : queueIs (exec .queryGovernor (host [cmd [9, 3, 0x10800, 20]] id id))
    (fun s x => statusOf x == [(0, 20)] && leNat (s.hostMem.read 0x10800 4) == 1250) = true := by decide +kernel

/-! ### Admission, regions, pauses and faults -/

/-- A tenure in a phase, launched by command 0 of queue 1. -/
def inPhase (p : Phase) (tn : Tenure) : Tenure := { tn with queue := 1, cmd := 9, handle := 3, phase := p }
theorem witness_LaunchAndRegionResult : (cmd [1, 0x10000, 0x10800, 8]).malformed = false ∧
    (∃ parts, hostRange (host [] id id) (.command 1 0) 0 0x10800 8 false = .ok parts) ∧
    candidatesOf (host [] (fun tn => { inPhase .admission tn with region := none }) id) { inPhase .admission tn0 with region := none } ≠ [] :=
  ⟨by decide +kernel, ⟨_, rfl⟩, by decide +kernel⟩
/-- A WAIT that finds its semaphore's page asked for already waits with it. -/
theorem witness_SignalAndWaitCommands_asked : hostRange { host [] id id with pageReqs := [(.command 1 0, 0, 0x20000)] } (.command 1 0) 0 0x20800 8 false = .wait := rfl
/-- A region of all four dies: its tokens are taken in ascending order. -/
theorem witness_LaunchAndRegionResult_order : lackingToken (node id) 1 ⟨0, 11⟩ = some 0 ∧ tokensInOrder (node id) 1 ⟨0, 11⟩ = true ∧
    lackingToken { node id with tokens := (node id).tokens.set 0 (some 1) } 1 ⟨0, 11⟩ = some 1 ∧
    tokensInOrder { node id with tokens := (node id).tokens.set 2 (some 1) } 1 ⟨0, 11⟩ = false ∧
    lackingToken { node id with tokens := Vector.replicate 4 (some 1) } 1 ⟨0, 11⟩ = none ∧ lackingToken (node id) 1 ⟨0, 9⟩ = none := by decide +kernel
/-- A page of zeros is no graph object: LAUNCH completes with a code of its checks and makes no tenure. -/
theorem test_launch_bad : queueIs (exec .launch (host [cmd [1, 0x10000, 0x10800, 8]] id id))
    (fun s x => x.pending.length == 1 && s.tenures.length == 1) = true := by decide +kernel
/-- A tenure in admission without a region, whose one node has a code partition and no pattern. -/
def admitted : State := host [] (fun tn => { inPhase .admission tn with region := none, place := none }) (fun s => { s with subj := .tenure 1 })
theorem test_candidate : nextIs (exec .candidateAttempt admitted) (fun s => tenureIs s (fun tn => tn.tried.length == 1 || tn.region.isSome)) = true := by
  decide +kernel
/-- A tenure with a load whose acknowledgements are awaited. -/
def loading (ok : Bool) : State := host [] (fun tn => { tn with load := (locked tn).load.map (fun l => { l with committed := false }) })
  (fun s => { s with subj := .loadAck 1 [] (!ok) })
theorem witness_LoadsAndSubtrees : ∃ tn l, (loading true).tenures.get? 1 = some tn ∧ tn.load = some l ∧ l.committed = false ∧ tn.codePage = none ∧
    tn.phase ≠ .replacing ∧ l.fails < 3 ∧ l.todo = [] ∧ (∃ l', l.acked tn.g [] false = some l') ∧ l.acked tn.g [] true = none ∧
    (0, []) ∈ l.words := ⟨_, _, rfl, rfl, rfl, rfl, by decide, by decide, rfl, ⟨_, rfl⟩, rfl, by decide⟩
/-- R97: one flipped bit of a packet, or of a patch word, is found out. -/
theorem witness_LoadsAndSubtrees_crc : noiseOf [(0, 1)] (2 * 0) = some 1 ∧ packetGood [5].length (crcPacket [5] ^^^ 1) = false ∧
    noiseOf [(firstPatch, 1)] firstPatch = some 1 ∧ packetGood 1 (crcPacket [7] ^^^ 1) = false := by decide +kernel
theorem test_load_commit : nextIs (exec .loadCommit (loading true)) (fun s => tenureIs s (fun tn => (tn.load.map Load.committed) == some true)) = true := by
  decide +kernel
/-- Subtree 7 in a state. -/
def sub7 (st : SubSt) (owners : List Nat) (x : Subject) : State :=
  { node id with subtrees := (node id).subtrees.set 7 ⟨st, 0, owners, owners.map (fun t => (t, 0)), 0⟩, subj := x, clk := Vector.replicate 4 1048576 }
theorem witness_LoadsAndSubtrees_sub : ((sub7 .draining [1] (.drain (.subtree 7))).sub 7).st = .draining ∧
    outstanding (sub7 .draining [1] (.drain (.subtree 7))) [(1, 0)] = false ∧ ((sub7 .zeroing [] .none).sub 7).st = .zeroing ∧
    ((sub7 .reserved [] .none).sub 7).st = .reserved ∧ ((sub7 .free [] .none).sub 7).st = .free := by decide +kernel
theorem test_drain : nextIs (exec .drainComplete (sub7 .draining [1] (.drain (.subtree 7)))) (fun s => (s.sub 7).st == .zeroing) = true ∧
    nextIs (exec .zeroingComplete (sub7 .zeroing [] (.drain (.subtree 7)))) (fun s => (s.sub 7).st == .free) = true := by decide +kernel
theorem test_reserve : nextIs (exec .reserveSubtree (sub7 .free [] (.subtree 7))) (fun s => (s.sub 7).st == .reserved) = true ∧
    nextIs (exec .releaseSubtree (sub7 .reserved [] (.subtree 7))) (fun s => (s.sub 7).st == .zeroing) = true := by decide +kernel
theorem witness_PauseResumeKill : (∀ p ∈ [(6, Phase.running), (6, .admission), (6, .pausing), (6, .held), (7, .paused), (7, .pausedAdmission), (7, .pausing), (8, .running), (8, .admission)], ∃ t tn,
    tenureOf (startCmd (host [cmd [BitVec.ofNat 64 p.1, 3]] (inPhase p.2) id) 1 0) 0 (cmd [BitVec.ofNat 64 p.1, 3]).handle = some (t, tn) ∧
      tn.phase = p.2 ∧ (cmd [BitVec.ofNat 64 p.1, 3]).malformed = false) := by
  intro p hp
  simp only [List.mem_cons, List.not_mem_nil, or_false] at hp
  rcases hp with rfl | rfl | rfl | rfl | rfl | rfl | rfl | rfl | rfl <;> exact ⟨1, _, rfl, rfl, by decide +kernel⟩
theorem test_pause : nextIs (exec .pausePreferred (host [cmd [6, 3]] (inPhase .running) id)) (fun s => tenureIs s (fun tn => tn.phase == .pausing)) = true ∧
    queueIs (exec .pausePreferred (host [cmd [6, 3]] (inPhase .paused) id)) (fun _ x => statusOf x == [(5, 0)]) = true := by decide +kernel
theorem test_resume : nextIs (exec .resume (host [cmd [7, 3]] (inPhase .paused) id)) (fun s => tenureIs s (fun tn => tn.phase == .running)) = true := by
  decide +kernel
theorem test_kill : nextIs (exec .kill (host [cmd [8, 3]] (inPhase .running) id)) (fun s => s.tenures == []) = true ∧
    queueIs (exec .kill (host [cmd [8, 4]] (inPhase .running) id)) (fun _ x => (statusOf x).map Prod.fst == [3]) = true := by decide +kernel
/-- A pausing tenure. -/
def pausing (forced : Bool) (since now : Nat) : State := host [] (fun tn => { inPhase .pausing tn with
  g := { tn.g with segmax := 1024 }, pause := some ⟨forced, Vector.replicate 4 since, false, none, []⟩ }) (fun s => { s with subj := .tenure 1, clk := Vector.replicate 4 now })
theorem test_segmax : nextIs (exec .segmaxExpiry (pausing false 1 1025)) (fun s => tenureIs s (fun tn => (tn.pause.map PauseSt.forced) == some true)) = true ∧
    nextIs (exec .segmaxExpiry (pausing false 1 1024)) (fun s => tenureIs s (fun tn => (tn.pause.map PauseSt.forced) == some false)) = true := by decide +kernel
/-- A preferred pause away from a boundary, and at one. -/
theorem witness_PauseResumeKill_boundary : atBoundary (pausing false 0 0) 1 = false ∧
    (let s := (pausing false 0 0).modTask 1 0 (fun k => { k with st := .idle })
     atBoundary s 1 = true ∧ (s.tenures.get? 1).isSome = true) := by decide +kernel
theorem test_pause_preferred : nextIs (exec .pauseComplete ((pausing false 0 0).modTask 1 0 (fun k => { k with st := .idle })))
    (fun s => tenureIs s (fun tn => tn.phase == .paused)) = true ∧
    nextIs (exec .pauseComplete (pausing false 0 0)) (fun s => tenureIs s (fun tn => tn.phase == .pausing)) = true := by decide +kernel
theorem test_pause_complete : nextIs (exec .pauseComplete ((pausing true 0 0).modTask 1 0 (fun k => { k with st := .idle })))
    (fun s => tenureIs s (fun tn => tn.phase == .paused)) = true := by decide +kernel
/-- A tenure with a fault record on its lane. -/
def faultedIn (p : Phase) : State := host [] (fun tn => { inPhase p tn with faultLane := [FaultRec.packed ⟨0x0203, 0, true, false, 0, 0xFF, 2, 2048⟩] })
  (fun s => { s with subj := .faultRecord 1 0 })
/-- A running one. -/
def faulted : State := faultedIn .running
theorem witness_FaultHoldMigrate : (∀ p ∈ [Phase.running, .paused, .held], ∃ tn, (faultedIn p).tenures.get? 1 = some tn ∧ tn.laneFaults[0]? ≠ none ∧ tn.phase = p) ∧
    hostInUse (host [] (fun tn => { inPhase .paused tn with objAddr := 0x0100000000000000 }) (fun s => { s with hostPages := [] })) 0 = false :=
  ⟨fun p _ => ⟨_, rfl, by simp [Tenure.laneFaults], rfl⟩, by decide +kernel⟩
/-- R371: code [15:0], src [19:16], prec [20], node [47:24], engine [55:48], pc [63:56], written out by hand. -/
theorem test_fault_record_packed : (FaultRec.packed ⟨0x0203, 7, true, false, 0x00ABCD, 0xFF, 2, 2048⟩) =
    ⟨0x0800000200000003, [0x02FF00ABCD170203, 2048], []⟩ ∧
    FaultRec.ofRec ⟨0x0800000200000003, [0x02FF00ABCD170203, 2048], []⟩ = ⟨0x0203, 7, true, false, 0x00ABCD, 0xFF, 2, 2048⟩ := by decide +kernel
theorem test_fault_record : nextIs (exec .faultRecordArrival faulted) (fun s => tenureIs s (fun tn => tn.log.length == 1 && tn.faultLane.isEmpty &&
    tn.phase == .pausing)) = true := by decide +kernel
theorem test_hold : nextIs (exec .holdTimeout (host [] (inPhase .held) (fun s => { s with subj := .tenure 1, nowNs := 10000000000 })))
      (fun s => s.tenures == []) = true ∧
    nextIs (exec .holdTimeout (host [] (inPhase .held) (fun s => { s with subj := .tenure 1, nowNs := 9999999999 }))) (fun s => s.tenures.length == 1) = true := by
  decide +kernel

/-! ### Operators -/

/-- An operator at node 2 with word `w`, an input for each buffer of `bufs`, and outputs 0 to 2. -/
def oper (w : Nat) (bufs : List (List Rec)) (o : OperRt → OperRt) : State :=
  small id id (fun s => { s with
    subj := .node 1 2
    chans := bufs.zipIdx.map (fun e => (key2 1 e.2, { ChanRt.entry { inE with dst := 2, iport := e.2, trig := false } with buf := e.1 })) ++
      [(key2 1 8, ChanRt.entry { outE with src := 2 }), (key2 1 9, ChanRt.entry { outE with src := 2, oport := 1 }),
        (key2 1 10, ChanRt.entry { outE with src := 2, oport := 2 })]
    opers := [(key2 1 2, o { OperRt.entry tn0.g 2 w Fmt.zero with
      inCh := Vector.ofFn (fun k => if k.val < bufs.length then some k.val else none)
      outCh := Vector.ofFn (fun k => if k.val < 3 then some (8 + k.val) else none) })] })
/-- An operator's word: its code, its format and its low bits. -/
def opWord (code fmt low : Nat) : Nat := code * 2 ^ 120 + fmt * 2 ^ 112 + low
/-- A Data record of one unit, with seq 5. -/
def dat (fmt : Nat) (u : W64) : Rec := dataRec fmt 5 7 [u]
/-- The records that an event sends on output `p` of the operator. -/
def sends (i : Instr) (s : State) (p : Nat) : Option (List Rec) := match exec i s with
  | .next s1 => (s1.chan? 1 (8 + p)).map (fun c => c.transit ++ c.buf)
  | _ => none
/-- The operator's own state. -/
def operOf (s : State) : OperRt := (s.opers.get? (key2 1 2)).getD (OperRt.entry tn0.g 2 0 Fmt.zero)
/-- `operAt`, as a test. -/
def operAtB (s : State) (code : Nat) : Bool :=
  s.subj == .node 1 2 && s.opers.get? (key2 1 2) == some (operOf s) && !(operOf s).halted && partsMove s 1 && wOp (operOf s).word == code &&
  operClear s 1 (operOf s) == s && foreignHead (insOf s 1 (operOf s)) == none
theorem operAt_of {s : State} {code : Nat} (h : operAtB s code = true) : operAt s 1 2 (operOf s) code := by
  simp only [operAtB, Bool.and_eq_true, beq_iff_eq, Bool.not_eq_true'] at h
  obtain ⟨⟨⟨⟨⟨⟨a, b⟩, c⟩, d⟩, e⟩, f⟩, g⟩ := h
  exact ⟨a, b, c, d, e, f, g⟩
/-- `canSend`, as a test. -/
def canSendB (s : State) (outs : List (Nat × Rec)) : Bool :=
  hasRoom s 1 (operOf s).outCh (outs.map Prod.fst) && (firstFormFault s 1 (operOf s).outCh outs).isNone
/-- `dataDue`, as a test. -/
def dataDueB (s : State) : Bool :=
  (insOf s 1 (operOf s)).all (fun i => i.head.isSome) && (streamHeads s 1 (operOf s)).all (fun r => rType r == tData) &&
  (insOf s 1 (operOf s)).all (fun i => !deniesFiring s 1 i) && hasRoom s 1 (operOf s).outCh (boundPorts (operOf s).outCh)

/-- z32 addition of an all-ones element and 1. -/
def addS : State := oper (opWord 1 6 0) [[dat 6 0x00000005FFFFFFFF], [dat 6 0x0000000200000001]] id
/-- A compare-exchange of whole records. -/
def cmpx (whole : Bool) : State := oper (opWord 0x39 5 (if whole then 2 ^ 96 else 0)) [[dat 5 0x00000001FFFFFFFF], [dat 5 2]] id
theorem witness_OperatorFirings : operAtB addS 1 = true ∧ dataDueB addS = true ∧ canSendB addS [(0, dat 6 0x0000000700000000)] = true ∧
    operAtB (cmpx true) 0x39 = true ∧ dataDueB (cmpx true) = true ∧ canSendB (cmpx true) [(0, dat 5 2), (1, dat 5 0x00000001FFFFFFFF)] = true := by
  decide +kernel
theorem test_add_firing : sends .arithmeticFiring addS 0 = some [dat 6 0x0000000700000000] := by decide +kernel
theorem test_exchange : sends .compareExchange (cmpx true) 0 = some [dat 5 2] ∧
    sends .compareExchange (cmpx false) 0 = some [dat 5 0x0000000100000002] ∧
    sends .compareExchange (cmpx false) 1 = some [dat 5 0x00000000FFFFFFFF] := by decide +kernel
/-- R212: fp32 1.0 to bf16. -/
theorem test_convert : sends .convert (oper (opWord 0x20 0x10 (0x11 * 2 ^ 96)) [[dat 0x10 0x3F8000003F800000]] id) 0 =
    some [dat 0x11 0x000000003F803F80] := by decide +kernel
/-- R207: equal tokens pass once to every output; Nulls make Nulls. -/
theorem test_control_token : sends .controlTokenFiring (oper (opWord 1 6 0) [[madeRec tBow 1 0], [madeRec tBow 9 0]] id) 2 =
      some [madeRec tBow 1 0] := by decide +kernel
theorem test_null_firing : sends .nullFiring (oper (opWord 1 6 0) [[madeRec tNull 1 4], [madeRec tNull 9 0]] id) 0 = some [madeRec tNull 1 4] := by
  decide +kernel
/-- A record of a foreign type halts the operator. -/
theorem test_foreign : nextIs (exec .arithmeticFiring (oper (opWord 1 6 0) [[madeRec tXfer 1 1], []] id)) (fun s => (operOf s).halted) = true := by
  decide +kernel

/-- Stream operators with the heads that each decides by. -/
def steerS (low : Nat) (c : W64) : State := oper (opWord 0x31 0 low) [[dat 6 3], [dat 1 c]] id
def reorderS (ctr : Nat) : State := oper (opWord 0x36 0 (3 * 2 ^ 96)) [[dat 6 3]] (fun o => { o with ctr := ctr })
def drainS (c : W64) : State := oper (opWord 0x3A 0 0) [[dat 6 3], [dat 1 c]] id
theorem witness_StreamOperators : operAtB (oper (opWord 0x30 0 0) [[dat 6 3]] id) 0x30 = true ∧ operAtB (steerS 0 1) 0x31 = true ∧
    canSendB (steerS 0 1) [(1, dat 6 3)] = true ∧ operAtB (reorderS 5) 0x36 = true ∧ operAtB (reorderS 4) 0x36 = true ∧
    operAtB (drainS 0) 0x3A = true ∧ operAtB (oper (opWord 0x32 0 0) [[dat 6 1], [dat 6 2], [dat 1 1]] id) 0x32 = true ∧
    operAtB (oper (opWord 0x33 0 0) [[madeRec tNull 0 0], [dat 6 2]] id) 0x33 = true ∧
    operAtB (oper (opWord 0x34 0 (1 * 2 ^ 96)) [[], [dat 6 2]] id) 0x34 = true := by decide +kernel
theorem test_fork : sends .fork (oper (opWord 0x30 0 0) [[dat 6 3]] id) 2 = some [dat 6 3] := by decide +kernel
theorem test_steer : sends .steer (steerS 0 1) 1 = some [dat 6 3] ∧ sends .steer (steerS 0 1) 0 = some [] ∧
    sends .steer (steerS (2 ^ 97) 1) 0 = some [dat 6 3] ∧ sends .steer (steerS (2 ^ 96) 1) 0 = some [madeNull (dat 6 3).hdr] := by decide +kernel
theorem test_filter : sends .filter (oper (opWord 0x3B 0 0) [[dat 6 3], [dat 1 0]] id) 0 = some [] ∧
    sends .filter (oper (opWord 0x3B 0 0) [[dat 6 3], [dat 1 1]] id) 0 = some [dat 6 3] := by decide +kernel
theorem test_merge : sends .merge (oper (opWord 0x32 0 0) [[dat 6 1], [dat 6 2], [dat 1 1]] id) 0 = some [dat 6 2] := by decide +kernel
theorem test_null_merge : sends .nullMerge (oper (opWord 0x33 0 0) [[madeRec tNull 0 0], [dat 6 2]] id) 0 = some [dat 6 2] ∧
    nextIs (exec .nullMerge (oper (opWord 0x33 0 0) [[dat 6 1], [dat 6 2]] id)) (fun s => (operOf s).halted) = true := by decide +kernel
theorem test_fair_merge : sends .fairMerge (oper (opWord 0x34 0 (1 * 2 ^ 96)) [[], [dat 6 2]] id) 0 = some [dat 6 2] := by decide +kernel
theorem test_sequence_tag : sends .sequenceTag (oper (opWord 0x35 0 (2 * 2 ^ 80)) [[dat 6 3]] (fun o => { o with ctr := 0xFFFF })) 0 =
      some [dataRec 6 0xFFFF 7 [3]] ∧
    nextIs (exec .sequenceTag (oper (opWord 0x35 0 (2 * 2 ^ 80)) [[dat 6 3]] (fun o => { o with ctr := 0xFFFF })))
      (fun s => (operOf s).ctr == 1) = true := by decide +kernel
theorem test_reorder : sends .reorder (oper (opWord 0x36 0 (3 * 2 ^ 96)) [[]] (fun o => { o with ctr := 5, window := [dat 6 3] })) 0 = some [dat 6 3] ∧
    nextIs (exec .reorder (reorderS 4)) (fun s => (operOf s).window == [dat 6 3]) = true := by decide +kernel
theorem test_loop_exit_drain : sends .loopExitDrain (drainS 0) 0 = some [] ∧ sends .loopExitDrain (drainS 0) 1 = some [dat 6 3] ∧
    nextIs (exec .loopExitDrain (drainS 0)) (fun s => (operOf s).drain) = true := by decide +kernel
theorem test_constant : sends .constantSource (oper (opWord 0x3C 6 0x1234) [[dat 6 3]] id) 0 = some [dat 6 0x1234] := by decide +kernel
theorem test_sink : nextIs (exec .sink (oper (opWord 0x3D 0 0) [[dat 6 3]] id)) (fun s => (s.chan? 1 0).map ChanRt.buf == some []) = true := by decide +kernel
theorem test_repeat : sends .repeat_ (oper (opWord 0x3E 0 (2 * 2 ^ 96)) [[dat 6 3]] id) 0 = some [dat 6 3] ∧
    nextIs (exec .repeat_ (oper (opWord 0x3E 0 (2 * 2 ^ 96)) [[dat 6 3]] id)) (fun s => (operOf s).copies == 1) = true := by decide +kernel
/-- A tap sends its arrival, and its parity inverts, behind the record that it selects. -/
theorem test_tap : sends .tap (oper (opWord 0x37 0 (1 * 2 ^ 88)) [[madeRec tStern 0 0]] id) 0 = some [madeRec tStern 0 0] := by decide +kernel
/-- The further heads by which stream operators decide. -/
theorem witness_StreamOperators_heads : operAtB (oper (opWord 0x33 0 0) [[dat 6 1], [madeRec tNull 0 0]] id) 0x33 = true ∧
    operAtB (oper (opWord 0x33 0 0) [[dat 6 1], [dat 6 2]] id) 0x33 = true ∧ operAtB (oper (opWord 0x3C 6 1) [[dat 6 3]] id) 0x3C = true ∧
    operAtB (oper (opWord 0x3E 0 (2 * 2 ^ 96)) [[dat 6 3]] id) 0x3E = true ∧ operAtB (oper (opWord 0x35 0 0) [[dat 6 3]] id) 0x35 = true ∧
    operAtB (oper (opWord 0x37 0 (1 * 2 ^ 88)) [[madeRec tStern 0 0]] id) 0x37 = true ∧ operAtB (oper (opWord 0x38 0 0) [[dat 6 3]] id) 0x38 = true ∧
    operAtB (oper (opWord 0x36 0 (3 * 2 ^ 96)) [[]] (fun o => { o with ctr := 5, window := [dat 6 3] })) 0x36 = true ∧
    (∀ s ∈ [steerS 0 1, reorderS 4, drainS 0, oper (opWord 0x3E 0 (2 * 2 ^ 96)) [[dat 6 3]] id], headAt (seenBy s 1 (operOf s)) 0 = some (dat 6 3)) := by
  decide +kernel
/-- R219: with the record in turn in the window, no head enters before it. -/
theorem test_reorder_turn : sends .reorder (oper (opWord 0x36 0 (3 * 2 ^ 96)) [[dataRec 6 6 0 [9]]] (fun o => { o with ctr := 5, window := [dat 6 3] })) 0 = some [dat 6 3] := by
  decide +kernel

/-! ### Generators, controllers and matrix nodes -/

/-- A generator at node 2, in its nest at base 4: three elements of z8, 2 bytes apart, in a bank of 64 bytes. -/
def genS (op mode phase : Nat) (bank : Memory) : State :=
  small id id (fun s => { s with
    subj := .node 1 2
    chans := [(key2 1 0, { ChanRt.entry { inE with dst := 2, trig := false } with buf := [dat 0 4] }),
      (key2 1 1, ChanRt.entry { inE with dst := 2, iport := 1, trig := false }), (key2 1 8, ChanRt.entry { outE with src := 2 })]
    gens := [(key2 1 2, { words := [op * 2 ^ 120 + 2 * 2 ^ 112 + mode * 2 ^ 110, 3 + 2 * 2 ^ 24 + 2 ^ 64, 1 + 2 ^ 64], fmt := Fmt.zero, halted := false
                          bankBytes := 64, bank := bank, inCh := (Vector.replicate 16 none).set 0 (some 0)
                          outCh := (Vector.replicate 16 none).set 0 (some 8), nest := some ⟨4, 5, 0, phase, 0, [], none, false, []⟩, made := 0, last := 0 })] })
/-- The generator's own state. -/
def genOf (s : State) : Option GenRt := s.gens.get? (key2 1 2)
/-- `genCan`, as a test. -/
def genCanB (s : State) (g : GenRt) (r : Rec) : Bool := hasRoom s 1 g.outCh [0] && (firstFormFault s 1 g.outCh [(0, r)]).isNone
theorem genCan_of {s : State} {g : GenRt} {r : Rec} (h : genCanB s g r = true) : genCan s 1 g r := by simpa [genCanB, genCan] using h
theorem witness_GeneratorsAndControllers_generator : ∃ g x, genAt (genS 0x40 0 1 [(4, 0x11), (8, 0x33)]) 1 2 g ∧ g.op = 0x40 ∧ g.mode ≠ 1 ∧
    g.nest = some x ∧ x.phase = 1 ∧ g.outside (g.addrs x none) = none ∧
    genCan (genS 0x40 0 1 [(4, 0x11), (8, 0x33)]) 1 g (g.outRec x.seq (g.atOnce (g.addrs x none))) :=
  ⟨_, _, ⟨rfl, rfl, rfl, by decide +kernel, by decide +kernel, by decide +kernel⟩, by decide +kernel, by decide +kernel, rfl, rfl, by decide +kernel,
    genCan_of (by decide +kernel)⟩
/-- A generator with no nest, a start record at `i0` and a record at `i1`, whose nest stands between a bow and a stern, or not. -/
def startS (op mode : Nat) (bs : Bool) (r : Rec) (i1 : List Rec) : State :=
  let s := genS op mode 1 []
  { s with
    tlbs := [(.stream 1 2 0, tlb0)], nextMsg := 4
    chans := s.chans.map (fun (e : Nat × ChanRt) =>
      (e.1, { e.2 with buf := if e.1 = key2 1 0 then [r] else if e.1 = key2 1 1 then i1 else [] }))
    gens := s.gens.map (fun (e : Nat × GenRt) => (e.1, { e.2 with
      nest := none, inCh := if mode = 1 then e.2.inCh.set 1 (some 1) else e.2.inCh
      words := if bs then e.2.words.set 0 (e.2.words.headD 0 + 2 ^ 107) else e.2.words })) }
/-- A start record at bank address 4. -/
def start4 : Rec := dataRec 0 5 0 [4]
theorem witness_GeneratorsAndControllers_start : (∀ bs ∈ [true, false], ∃ g x s0, genAt (startS 0x40 0 bs start4 []) 1 2 g ∧ g.op = 0x40 ∧
      nestIs (fireIns (startS 0x40 0 bs start4 []) 1 g.inCh.toList 0) (startS 0x40 0 bs start4 []) 1 2 g x s0 ∧ x.phase = (if bs then 0 else 1) ∧
      genCan s0 1 g (madeRec tBow 0 0)) ∧
    (∃ g x s0, genAt (startS 0x40 1 false start4 [dataRec 2 0 0 [0x332211]]) 1 2 g ∧ g.mode = 1 ∧
      nestIs (fireIns (startS 0x40 1 false start4 [dataRec 2 0 0 [0x332211]]) 1 g.inCh.toList 0) (startS 0x40 1 false start4 [dataRec 2 0 0 [0x332211]]) 1 2 g x s0 ∧
      x.phase = 1 ∧ x.held = none ∧ g.outside (g.addrs x none) = none ∧ g.outUnits (g.count 0) = 1 ∧
      headAt (fireIns (startS 0x40 1 false start4 [dataRec 2 0 0 [0x332211]]) 1 g.inCh.toList 0) 1 = some (dataRec 2 0 0 [0x332211])) ∧
    (∃ g, genAt (startS 0x41 1 false (dataRec 0 5 0 [devVa]) []) 1 2 g ∧ g.nest = none ∧
      gatherPass g (fireIns (startS 0x41 1 false (dataRec 0 5 0 [devVa]) []) 1 g.inCh.toList 0) = none ∧
      headAt (fireIns (startS 0x41 1 false (dataRec 0 5 0 [devVa]) []) 1 g.inCh.toList 0) 1 = none) ∧
    (∀ u : W64, (dataRec 0 5 0 []).units ≠ [u]) ∧ (∃ s1, genXlate (startS 0x41 1 false start4 []) 1 2 devVa.toNat true = .ok s1) := by
  refine ⟨?_, ?_, ?_, ?_, ?_⟩
  · intro bs h
    simp only [List.mem_cons, List.not_mem_nil, or_false] at h
    rcases h with rfl | rfl <;> exact ⟨_, _, _, ⟨rfl, rfl, rfl, by decide +kernel, by decide +kernel, by decide +kernel⟩, by decide +kernel,
      .inr ⟨rfl, start4, 4, by rfl, by decide +kernel, by decide +kernel, rfl, by decide +kernel, fun h => absurd h (by decide +kernel), by decide +kernel,
        rfl, rfl⟩, by decide +kernel, genCan_of (by decide +kernel)⟩
  · exact ⟨_, _, _, ⟨rfl, rfl, rfl, by decide +kernel, by decide +kernel, by decide +kernel⟩, by decide +kernel,
      .inr ⟨rfl, start4, 4, by rfl, by decide +kernel, by decide +kernel, rfl, by decide +kernel, fun _ => by decide +kernel, by decide +kernel, rfl, rfl⟩,
      by decide +kernel, by decide +kernel, by decide +kernel, by decide +kernel, by rfl⟩
  · exact ⟨_, ⟨rfl, rfl, rfl, by decide +kernel, by decide +kernel, by decide +kernel⟩, rfl, by decide +kernel, by decide +kernel⟩
  · intro u; simp [dataRec]
  · exact ⟨_, rfl⟩
/-- R225: in write mode the bytes 0x11, 0x22 and 0x33 are stored at 4, 6 and 8 of the bank; a record of two units is RECORD_LENGTH. -/
theorem test_bank_write : nextIs (exec .bankStream (startS 0x40 1 false start4 [dataRec 2 0 0 [0x332211]])) (fun s =>
      (genOf s).map (fun g => g.bank.read 4 5) == some [0x11, 0, 0x22, 0, 0x33] && (s.chan? 1 1).map ChanRt.buf == some []) = true ∧
    nextIs (exec .bankStream (startS 0x40 1 false start4 [dataRec 2 0 0 [1, 2]])) (fun s => (genOf s).map GenRt.halted == some true) = true := by decide +kernel
/-- R225, R226: a global write sends a store for each element. -/
theorem test_global_write : nextIs (exec .globalStream (startS 0x41 1 false (dataRec 0 5 0 [devVa]) [dataRec 2 0 0 [0x332211]])) (fun s =>
      s.net.map Msg.kind == [.store devVa.toNat [0x11] (.dev 0x10000) none, .store (devVa.toNat + 2) [0x22] (.dev 0x10002) none,
        .store (devVa.toNat + 4) [0x33] (.dev 0x10004) none]) = true := by decide +kernel
/-- A global stream of node 2, from the page of `tlb0`, of whose three elements `asked` have been asked for and `got` returned. -/
def globS (asked : Nat) (got : Map Nat) : State :=
  let s := genS 0x41 0 1 []
  { s with
    tlbs := [(.stream 1 2 0, tlb0)], nextMsg := 4
    gens := s.gens.map (fun (e : Nat × GenRt) => (e.1, { e.2 with nest := some ⟨devVa.toNat, 5, 0, 1, asked, got, none, false, []⟩ })) }
theorem witness_GeneratorsAndControllers_global : (∃ g x s1, genAt (globS 0 []) 1 2 g ∧ g.op = 0x41 ∧ g.mode = 0 ∧ g.nest = some x ∧ x.phase = 1 ∧
      x.asked < g.runs 3 * g.count 0 ∧ x.whole (x.run * g.count 0) (g.count 0) = false ∧ hasRoom (globS 0 []) 1 g.outCh [0] = true ∧
      genRead 1 2 g ((g.addrs { x with run := x.asked / g.count 0 } none).drop (x.asked - x.asked / g.count 0 * g.count 0)) x.asked (globS 0 []) = .all s1) ∧
    (∃ g x, genAt (globS 3 [(1, 7)]) 1 2 g ∧ g.nest = some x ∧ g.runs 3 * g.count 0 ≤ x.asked ∧ x.whole (x.run * g.count 0) (g.count 0) = false) ∧
    (∃ g x, genAt (globS 3 [(0, 1), (1, 7), (2, 2)]) 1 2 g ∧ g.nest = some x ∧ x.whole (x.run * g.count 0) (g.count 0) = true ∧
      genCan (globS 3 [(0, 1), (1, 7), (2, 2)]) 1 g (g.outRec x.seq (x.elems (x.run * g.count 0) (g.count 0)))) :=
  ⟨⟨_, _, _, ⟨rfl, rfl, rfl, by decide +kernel, by decide +kernel, by decide +kernel⟩, by decide +kernel, by decide +kernel, rfl, rfl, by decide +kernel,
      by decide +kernel, by decide +kernel, by rfl⟩,
    ⟨_, _, ⟨rfl, rfl, rfl, by decide +kernel, by decide +kernel, by decide +kernel⟩, rfl, by decide +kernel, by decide +kernel⟩,
    ⟨_, _, ⟨rfl, rfl, rfl, by decide +kernel, by decide +kernel, by decide +kernel⟩, rfl, by decide +kernel, genCan_of (by decide +kernel)⟩⟩
/-- R225, R344: three accesses leave, one for each element; the record goes once every answer is there. -/
theorem test_global_stream : nextIs (exec .globalStream (globS 0 [])) (fun s => s.net.map Msg.kind == [.genLoad 0 devVa.toNat 1 (.dev 0x10000),
      .genLoad 1 (devVa.toNat + 2) 1 (.dev 0x10002), .genLoad 2 (devVa.toNat + 4) 1 (.dev 0x10004)]) = true ∧
    sends .globalStream (globS 3 [(0, 1), (1, 7)]) 0 = some [] ∧
    sends .globalStream (globS 3 [(0, 1), (1, 7), (2, 2)]) 0 = some [dataRec 2 5 0 [0x020701]] := by decide +kernel
/-- A gather whose index record stands at `i1`, or a token at one input or at both. -/
def gatherS (i0 i1 : List Rec) (nest : Option Nest) (last : Nat) : State :=
  let s := genS 0x42 0 1 []
  { s with
    tlbs := [(.stream 1 2 0, tlb0)]
    chans := s.chans.map (fun (e : Nat × ChanRt) => if e.1 = key2 1 0 then (e.1, { e.2 with buf := i0 }) else if e.1 = key2 1 1 then (e.1, { e.2 with buf := i1 }) else e)
    gens := s.gens.map (fun (e : Nat × GenRt) => (e.1, { e.2 with inCh := e.2.inCh.set 1 (some 1), nest := nest, last := last })) }
/-- What the gather passes. -/
def passes (s : State) : Option Nat := (s.gens.get? (key2 1 2)).bind (fun g => (gatherPass g (fireIns s 1 g.inCh.toList 0)).map Prod.fst)
theorem witness_GeneratorsAndControllers_gather : (∃ g x i, genAt (gatherS [dat 0 4] [dataRec 0 0 0 [0x100000000]] (some ⟨devVa.toNat, 5, 0, 1, 0, [], none, false, []⟩) 0) 1 2 g ∧
      g.op = 0x42 ∧ g.nest = some x ∧ x.held = none ∧
      headAt (fireIns (gatherS [dat 0 4] [dataRec 0 0 0 [0x100000000]] (some ⟨devVa.toNat, 5, 0, 1, 0, [], none, false, []⟩) 0) 1 g.inCh.toList 0) 1 = some i ∧
      isToken i = false ∧ rType i ≠ tNull) ∧
    passes (gatherS [madeRec tBow 0 0] [madeRec tBow 0 0] none 0) = some 0 ∧ passes (gatherS [madeRec tBow 0 0] [madeRec tBow 0 0] none 1) = some 1 ∧
    passes (gatherS [dat 0 4] [madeRec tBow 0 0] none 0) = some 1 ∧
    (∃ g, genAt (gatherS [madeRec tBow 0 0] [madeRec tBow 0 0] none 0) 1 2 g ∧ genCan (gatherS [madeRec tBow 0 0] [madeRec tBow 0 0] none 0) 1 g (madeRec tBow 0 0)) :=
  ⟨⟨_, _, _, ⟨rfl, rfl, rfl, by decide +kernel, by decide +kernel, by decide +kernel⟩, by decide +kernel, rfl, rfl, by rfl, by decide +kernel,
      by decide +kernel⟩, by decide +kernel, by decide +kernel, by decide +kernel,
    _, ⟨rfl, rfl, rfl, by decide +kernel, by decide +kernel, by decide +kernel⟩, genCan_of (by decide +kernel)⟩
/-- R51, R225: of two tokens the one that is in turn passes. -/
theorem test_gather_turn : nextIs (exec .globalGather (gatherS [madeRec tBow 0 0] [madeRec tBow 0 0] none 1)) (fun s =>
    (genOf s).map GenRt.last == some 0 && (s.chan? 1 1).map ChanRt.buf == some [] && (s.chan? 1 0).map ChanRt.buf == some [madeRec tBow 0 0]) = true := by decide +kernel
theorem witness_GeneratorsAndControllers_completion : (∃ g x, genAt (genS 0x40 1 3 []) 1 2 g ∧ g.nest = some x ∧ x.phase = 3 ∧ g.bs = false ∧
    genCan (genS 0x40 1 3 []) 1 g (dataRec 0 x.seq 0 [])) ∧ accessPending (genS 0x40 1 3 []) 1 2 = false ∧
    hostStoresOut (genS 0x40 1 3 []) 1 (some 2) = false ∧ hostStoresOut { genS 0x40 1 3 [] with hostPort := [{ fencedWrite with node := 2 }] } 1 (some 2) = true :=
  ⟨⟨_, _, ⟨rfl, rfl, rfl, by decide +kernel, by decide +kernel, by decide +kernel⟩, rfl, rfl, by decide +kernel, genCan_of (by decide +kernel)⟩,
    by decide +kernel⟩
/-- R225: the elements at 4, 6 and 8, in one record of fmt z8 with the seq of the start record; in address mode, the addresses. -/
theorem test_bank_stream : sends .bankStream (genS 0x40 0 1 [(4, 0x11), (8, 0x33)]) 0 = some [dataRec 2 5 0 [0x330011]] ∧
    sends .bankStream (genS 0x40 2 1 []) 0 = some [dataRec 0 5 0 [4, 6, 8]] := by decide +kernel
theorem test_completion : sends .generatorCompletion (genS 0x40 1 3 []) 0 = some [dataRec 0 5 0 []] := by decide +kernel

/-- A controller of two children at node 2 with the records of its parent and its first child. -/
def ctrlS (word want : Nat) (par kid : List Rec) : State :=
  small id id (fun s => { s with
    subj := .node 1 2
    chans := [(key2 1 0, { ChanRt.entry { inE with dst := 2, iport := 15, trig := false } with buf := par }),
      (key2 1 1, { ChanRt.entry { inE with dst := 2, trig := false } with buf := kid }), (key2 1 8, ChanRt.entry { outE with src := 2 }),
      (key2 1 9, ChanRt.entry { outE with src := 2, oport := 1 })]
    ctrls := [(key2 1 2, { word := word, fmt := Fmt.zero, halted := false, inCh := ((Vector.replicate 16 none).set 15 (some 0)).set 0 (some 1)
                           outCh := ((Vector.replicate 16 none).set 0 (some 8)).set 1 (some 9), want := want
                           issued := (Vector.replicate 16 0).set 0 (if want = 0 then 0 else 1), returned := Vector.replicate 16 0, rootDone := false, made := Vector.replicate 16 0, last := 0, ord := [] })] })
/-- Sequential and pipelined, of two children and 3 iterations, the pipelined with depth 2. -/
def seqWord : Nat := 0x50 * 2 ^ 120 + 2 ^ 116 + 3 * 2 ^ 72
def pipeWord : Nat := 0x51 * 2 ^ 120 + 2 ^ 116 + 2 ^ 110 + 3 * 2 ^ 72
theorem witness_GeneratorsAndControllers_controller : partsMove (ctrlS seqWord 0 [madeRec tPermit 0 2] []) 1 = true ∧
    (∃ c, (ctrlS seqWord 0 [madeRec tPermit 0 2] []).ctrls.get? (key2 1 2) = some c ∧ c.halted = false ∧ c.want = 0 ∧
      ctrlOffence c (fireIns (ctrlS seqWord 0 [madeRec tPermit 0 2] []) 1 c.inCh.toList 0) = none) ∧
    (∃ c, (ctrlS seqWord 6 [] [madeRec tDone 0 0]).ctrls.get? (key2 1 2) = some c ∧ c.halted = false ∧
      ctrlOffence c (fireIns (ctrlS seqWord 6 [] [madeRec tDone 0 0]) 1 c.inCh.toList 0) = none) ∧
    (∃ c r, (ctrlS seqWord 6 [] [madeRec tDone 0 1]).ctrls.get? (key2 1 2) = some c ∧
      ctrlOffence c (fireIns (ctrlS seqWord 6 [] [madeRec tDone 0 1]) 1 c.inCh.toList 0) = some r) :=
  ⟨by decide +kernel, ⟨_, rfl, rfl, rfl, by decide +kernel⟩, ⟨_, rfl, rfl, by decide +kernel⟩, ⟨_, madeRec tDone 0 1, rfl, by decide +kernel⟩⟩
/-- R228: a Permit of 2 asks for six iterations, and child 0 is granted one, or by the depth of 2. -/
theorem test_permit : nextIs (exec .controllerPermit (ctrlS seqWord 0 [madeRec tPermit 0 2] []))
      (fun s => (s.ctrls.get? (key2 1 2)).map (fun c => (c.want, c.iss 0, c.iss 1)) == some (6, 1, 0)) = true ∧
    nextIs (exec .controllerPermit (ctrlS pipeWord 0 [madeRec tPermit 0 2] []))
      (fun s => (s.ctrls.get? (key2 1 2)).map (fun c => (c.want, c.iss 0, c.iss 1)) == some (6, 2, 2)) = true := by decide +kernel
/-- A Done of child 0 lets child 1 begin the iteration; a Done of another index halts. -/
theorem test_done_record : nextIs (exec .controllerDone (ctrlS seqWord 6 [] [madeRec tDone 0 0]))
      (fun s => (s.ctrls.get? (key2 1 2)).map (fun c => (c.ret 0, c.iss 0, c.iss 1)) == some (1, 1, 1)) = true ∧
    nextIs (exec .controllerDone (ctrlS seqWord 6 [] [madeRec tDone 0 1])) (fun s => (s.ctrls.get? (key2 1 2)).map CtrlRt.halted == some true) = true := by
  decide +kernel

/-- A bf16 matrix node at node 2, with K = 4, N = 2, M = 2, P = 1 and an fp32 output, or a sort. -/
def matWord : Nat := 0x01 * 2 ^ 120 + 0x11 * 2 ^ 112 + 0x11 * 2 ^ 104 + 4 * 2 ^ 72 + 2 ^ 64 + 2 * 2 ^ 48 + 2 ^ 32
def matS (row col : List Rec) (f : MatRt → MatRt) : State :=
  small id id (fun s => { s with
    subj := .node 1 2
    chans := [(key2 1 0, { ChanRt.entry { inE with dst := 2, trig := false } with buf := row }),
      (key2 1 1, { ChanRt.entry { inE with dst := 2, iport := 1, trig := false } with buf := col }), (key2 1 8, ChanRt.entry { outE with src := 2 })]
    mats := [(key2 1 2, f { MatRt.entry tn0.g 2 matWord Fmt.zero with
      inCh := ((Vector.replicate 16 none).set 0 (some 0)).set 1 (some 1), outCh := (Vector.replicate 16 none).set 0 (some 8) })] })
/-- The matrix node's own state. -/
def matOf (s : State) : MatRt := (s.mats.get? (key2 1 2)).getD (MatRt.entry tn0.g 2 matWord Fmt.zero)
/-- The columns (1, 2, 0, 0) and (3, 4, 0, 0) in the first buffer. -/
def weighted (m : MatRt) : MatRt := { m with wbufs := [{ cols := [[0x40003F80], [0x40804040]], full := true }] }
/-- Row (1, 1, 0, 0) of bf16. -/
def rowRec : Rec := dataRec 0x11 5 7 [0x3F803F80]
theorem witness_MatrixFirings : (∃ m, matAt (matS [] [rowRec] id) 1 2 m false ∧ portChan m.inCh 1 = some 1 ∧ matHead (matS [] [rowRec] id) 1 m 1 = some rowRec ∧
      m.wbufs[m.wfill]? = some { cols := [], full := false } ∧ rowRec.units.length = matUnits m.wfmt m.K) ∧
    (∃ m, matAt (matS [rowRec] [] id) 1 2 m false ∧ portChan m.inCh 0 = some 0 ∧ matHead (matS [rowRec] [] id) 1 m 0 = some rowRec ∧
      hFmt rowRec.hdr = m.afmt ∧ m.rows.length < m.adepth ∧ m.settled = true) ∧
    (∃ m, matAt (matS [] [] (fun m => { weighted m with rows := [rowRec] })) 1 2 m false ∧ m.rows = [rowRec] ∧ m.drain = none ∧
      m.weights.full = true ∧ m.r + 1 < m.M) :=
  ⟨⟨_, ⟨rfl, rfl, rfl, by decide +kernel, by decide +kernel⟩, rfl, by decide +kernel, by decide +kernel, by decide +kernel⟩,
    ⟨_, ⟨rfl, rfl, rfl, by decide +kernel, by decide +kernel⟩, rfl, by decide +kernel, by decide +kernel, by decide +kernel, by decide +kernel⟩,
    _, ⟨rfl, rfl, rfl, by decide +kernel, by decide +kernel⟩, rfl, rfl, by decide +kernel, by decide +kernel⟩
/-- The matrix node with a resident row at input 0 (R37, R253). -/
def matRes (rows : List Rec) : State :=
  let s := matS [rowRec] [] (fun m => { weighted m with word := matWord + 2 ^ 92, rows := rows })
  { s with chans := s.chans.map (fun (e : Nat × ChanRt) => if e.1 = key2 1 0 then (e.1, { e.2 with e := { e.2.e with sticky := 3 } }) else e) }
theorem witness_MatrixFirings_resident : ∀ rows ∈ [[], [rowRec]], ∃ m ch, matAt (matRes rows) 1 2 m false ∧ portChan m.inCh 0 = some 0 ∧
    matHead (matRes rows) 1 m 0 = some rowRec ∧ (matRes rows).chan? 1 0 = some ch ∧ ch.resident = true ∧ m.rows = rows ∧ m.drain = none ∧
    hFmt rowRec.hdr = m.afmt ∧ m.rows.length < m.adepth ∧ m.weights.full = true := by
  intro rows h
  simp only [List.mem_cons, List.not_mem_nil, or_false] at h
  rcases h with rfl | rfl <;> exact ⟨_, _, ⟨rfl, rfl, rfl, by decide +kernel, by decide +kernel⟩, rfl, by decide +kernel, rfl, by decide +kernel, rfl, rfl,
    by decide +kernel, by decide +kernel, by decide +kernel⟩
/-- A resident row counts as used when it has fired. -/
theorem test_resident_row : nextIs (exec .activationRow (matRes [])) (fun s => (matOf s).rows == [rowRec] && (s.chan? 1 0).map ChanRt.used == some 0) = true ∧
    nextIs (exec .rowFiring (matRes [rowRec])) (fun s => (matOf s).rows == [] && (s.chan? 1 0).map (fun c => (c.used, c.buf.length)) == some (1, 1)) = true := by
  decide +kernel
theorem test_weight_column : nextIs (exec .weightColumn (matS [] [rowRec] id)) (fun s =>
    (matOf s).wbufs == [{ cols := [[0x3F803F80]], full := false }]) = true := by decide +kernel
theorem test_activation_row : nextIs (exec .activationRow (matS [rowRec] [] id)) (fun s => (matOf s).rows == [rowRec]) = true := by decide +kernel
/-- The row against the two columns gives 3 and 7. -/
theorem test_row_firing : nextIs (exec .rowFiring (matS [] [] (fun m => { weighted m with rows := [rowRec] }))) (fun s =>
    (matOf s).acc.get? 0 == some 0x40400000 && (matOf s).acc.get? 1 == some 0x40E00000 && (matOf s).live.get? 0 == some true) = true := by decide +kernel
theorem test_null_row : nextIs (exec .nullRow (matS [madeRec tNull 1 0] [] weighted)) (fun s => (matOf s).r == 1 && (matOf s).live == []) = true := by
  decide +kernel
theorem test_matrix_token : sends .matrixControlToken (matS [madeRec tBow 1 0] [] id) 0 = some [madeRec tBow 1 0] := by decide +kernel
/-- R248: the command words of `mm_drain` and `mm_clear`. -/
theorem test_mm_drain : nextIs (exec .mmDrain (matS [dataRec 0 0 0 [0, 0x0B00000000000000]] [] id)) (fun s => (matOf s).drain.isSome) = true ∧
    sends .mmDrain (matS [] [] (fun m => { m with drain := some ⟨0, true, false, false, []⟩, acc := [(0, 0x40400000), (1, 0x40E00000)], live := [(0, true)]
                                                  seqreg := [(0, 5)] })) 0 = some [dataRec 0x10 5 0 [0x40E0000040400000]] := by decide +kernel
theorem test_mm_clear : nextIs (exec .mmClear (matS [dataRec 0 0 0 [0, 0x0C00000000000000]] [] (fun m => { m with acc := [(0, 0x40400000)] })))
    (fun s => (matOf s).acc == []) = true := by decide +kernel

/-! ### Records and activations, virtual queues and turns -/

/-- Tenure 1 with a Data record in transit on channel 1, which leaves the graph, or on channel 0, to node `0` of kind `kind`. -/
def transitS (kind c : Nat) (r : Rec) : State :=
  small id (fun tn => { bareTenure kind [] with g := { (bareTenure kind []).g with chans := tn.g.chans } }) (fun s => { s with
    subj := .chan 1 c
    chans := [(key2 1 0, { ChanRt.entry inE with transit := if c = 0 then [r] else [] }), (key2 1 1, { ChanRt.entry outE with transit := if c = 1 then [r] else [] })]
    tasks := if kind = 0 then s.tasks else [] })
theorem witness_RecordsAndActivations : (∃ ch, (transitS 0 1 inRec).chan? 1 1 = some ch ∧ ch.feed = [] ∧ ch.transit = [inRec] ∧ rType inRec = tData ∧
      ch.e.dst = extEnd ∧ ch.e.sticky ≤ 1 ∧ (transitS 0 1 inRec).tasks.get? (key2 1 ch.e.dst) = none) ∧ crossing (transitS 0 1 inRec) 1 1 = 0 ∧
    (∃ ch tn, (transitS 1 0 (dat 6 0)).chan? 1 0 = some ch ∧ (transitS 1 0 (dat 6 0)).tenures.get? 1 = some tn ∧ ch.e.dst ≠ extEnd ∧
      tn.kindOf ch.e.dst ≠ 0) ∧
    fmtAccepts 5 (dat 6 0).hdr = false :=
  ⟨⟨_, rfl, rfl, rfl, by decide +kernel, rfl, by decide, by decide +kernel⟩, by decide +kernel, ⟨_, _, rfl, rfl, by decide, by decide +kernel⟩, by decide +kernel⟩
/-- A channel with its segment open, or with a resident record at its head. -/
def transitC (c : Nat) (r : Rec) (seg : Bool) (sticky : Nat) (buf : List Rec) : State :=
  let s := transitS 1 c r
  { s with chans := s.chans.map (fun (e : Nat × ChanRt) => (e.1, { e.2 with seg := seg, buf := buf, e := { e.2.e with sticky := sticky } })) }
/-- A node of the graph accepts a record; segments open and close, or are offended, at a node and at an external producer; a residence ends. -/
theorem witness_RecordsAndActivations_kinds : accepts (transitS 1 0 (dataRec 0 0 0 [])) 1 inE (dataRec 0 0 0 []) ∧ accepts (transitS 1 1 inRec) 1 outE inRec ∧
    rType (madeRec tBow 1 0) = tBow ∧ rType (madeRec tStern 1 0) = tStern ∧
    (∃ ch, (transitC 1 (madeRec tStern 1 0) true 0 []).chan? 1 1 = some ch ∧ ch.seg = true ∧ ch.e.src ≠ extEnd ∧ ch.feed = []) ∧
    (∃ ch, (transitC 0 (madeRec tBow 1 0) true 0 []).chan? 1 0 = some ch ∧ ch.seg = true ∧ ch.e.src = extEnd) ∧
    crossing (transitC 0 (madeRec tBow 1 0) true 0 []) 1 0 = 0 ∧
    (∃ ch, (transitC 0 (madeRec tStern 1 0) true 3 [dat 6 1]).chan? 1 0 = some ch ∧ 1 < ch.e.sticky ∧ ch.buf = [dat 6 1] ∧
      endsResidence ch.e.level (dataRec 6 0 0 [2]) = false ∧ endsResidence ch.e.level (madeRec tDimEnd 0 9) = true) ∧
    (transitC 0 (madeRec tDimEnd 0 9) true 3 [dat 6 1]).tasks.get? (key2 1 0) = none :=
  ⟨.inr (by decide +kernel), .inl (by decide +kernel), by decide +kernel, by decide +kernel, ⟨_, rfl, rfl, by decide +kernel, rfl⟩, ⟨_, rfl, rfl, rfl⟩,
    by decide +kernel, ⟨_, rfl, by decide +kernel, rfl, by decide +kernel, by decide +kernel⟩, by decide +kernel⟩
/-- R37, R42: a high enough dim_end behind a resident record ends its residence; a second bow halts the producer. -/
theorem test_record_residence : nextIs (exec .recordVisible (transitC 0 (madeRec tDimEnd 0 9) true 3 [dat 6 1])) (fun s =>
      (s.chan? 1 0).map ChanRt.buf == some [madeRec tDimEnd 0 9]) = true ∧
    nextIs (exec .recordVisible (transitC 1 (madeRec tBow 1 0) true 0 [])) (fun s => tenureIs s (fun tn => tn.laneFaults.map FaultRec.code == [cSegment])) = true := by
  decide +kernel
theorem test_record_visible : nextIs (exec .recordVisible (transitS 0 1 inRec)) (fun s =>
    (s.chan? 1 1).map (fun c => (c.buf, c.transit)) == some ([inRec], [])) = true := by decide +kernel
/-- An idle task with a trigger record. -/
def idleS (r : Rec) : State := small (fun k => { k with st := .idle, pc := 9 }) id (fun s => { s with
  subj := .node 1 0, chans := [(key2 1 0, { ChanRt.entry inE with buf := [r] }), (key2 1 1, ChanRt.entry outE)] })
theorem witness_RecordsAndActivations_start : ∃ tk tn, (idleS inRec).tasks.get? (key2 1 0) = some tk ∧ (idleS inRec).tenures.get? 1 = some tn ∧ tn.moves = true ∧
    tk.st = .idle ∧ tk.nullLeft = none ∧ trigHead (idleS inRec) 1 tk = some (0, inRec) ∧ rType inRec ≠ tNull ∧ tk.trigp = 0 ∧
    fmtAccepts tk.fmt.ins[0] inRec.hdr = true :=
  ⟨_, _, rfl, rfl, by decide +kernel, rfl, rfl, by decide +kernel, by decide +kernel, rfl, by decide +kernel⟩
theorem test_activation_start : nextIs (exec .activationStart (idleS inRec)) (fun s => nodeIs s (fun k => k.st == .running && k.pc == 0 && k.inp[0].cur &&
    k.trigSeq == hSeq inRec.hdr)) = true := by decide +kernel
theorem test_null_trigger : nextIs (exec .nullTrigger (idleS (madeRec tNull 4 0))) (fun s => nodeIs s (fun k => k.st == .idle) &&
    (s.chan? 1 0).map ChanRt.buf == some []) = true := by decide +kernel
/-- A channel of the tenure bound to predicate 2. -/
def predS : State := small id (fun tn => { tn with binds := [(1, .pred 2)], lkBlocked := true }) (fun s => { s with
  subj := .chan 1 1, chans := [(key2 1 1, { ChanRt.entry outE with buf := [dat 1 1] })] })
theorem witness_RecordsAndActivations_predicate : ∃ tn ch, predS.tenures.get? 1 = some tn ∧ predS.chan? 1 1 = some ch ∧ tn.binds.get? 1 = some (.pred 2) ∧
    ch.buf = [dat 1 1] ∧ ch.e.dst = extEnd ∧ ch.e.sticky ≤ 1 ∧ partsMove predS 1 = true ∧ rType (dat 1 1) = tData :=
  ⟨_, _, rfl, rfl, rfl, rfl, rfl, by decide, by decide +kernel, by decide +kernel⟩
/-- A record for predicate 2 that stands at its channel comes before a `choose` of that predicate, and before no other. -/
theorem witness_PassageCountersAndPredicates_ahead : (∃ tn, atPassage predS tn 1 ∧ predicateAhead predS 1 tn 2 = true ∧ predicateAhead predS 1 tn 0 = false) ∧
    (∃ tn, atPassage (pass id) tn 1 ∧ predicateAhead (pass id) 1 tn 0 = false) :=
  ⟨⟨_, ⟨rfl, by decide⟩, by decide +kernel, by decide +kernel⟩, _, ⟨rfl, by decide⟩, by decide +kernel⟩
theorem test_choose_after_record : nextIs (exec (.choose false 2 5) predS) (fun s => tenureIs s (fun tn => tn.lk.lpc == 0 && tn.lkBlocked)) = true := by
  decide +kernel
theorem test_predicate_record : nextIs (exec .predicateRecord predS) (fun s => tenureIs s (fun tn => tn.lk.qval == 4 && tn.lk.qvalid == 4 && !tn.lkBlocked)) = true := by
  decide +kernel

/-- A virtual queue of tenure 1: an input ring with a record for channel 0, or an output ring for channel 1. -/
def vqS (output : Bool) (capacity : Nat) (ring : List Rec) : State := small id (fun tn => { tn with g := { tn.g with chans := [{ inE with src := extEnd }, outE] } }) (fun s => { s with
  dawn := { s.dawn with power := .on, status := dawnStatus 3 false 0 }, subj := .vq 1, nextVq := 2
  vqs := [(1, ⟨0, output, capacity, ring, some (1, if output then 1 else 0), 0, none, false⟩)]
  chans := [(key2 1 0, ChanRt.entry { inE with src := extEnd }), (key2 1 1, { ChanRt.entry outE with buf := if output then [inRec] else [] })] })
theorem witness_VirtualQueuesAndTurns_queues : (vqS false 64 [inRec]).stage = 3 ∧ (vqS false 64 [inRec]).powered = true ∧
    (∃ q tn ch, (vqS false 64 [inRec]).vqs.get? 1 = some q ∧ q.bound = some (1, 0) ∧ (vqS false 64 [inRec]).tenures.get? 1 = some tn ∧
      (vqS false 64 [inRec]).chan? 1 0 = some ch ∧ q.ring = [inRec] ∧ agentRuns (vqS false 64 [inRec]) 1 0 tn = true ∧ 0 < ch.free ∧
      hLen inRec.hdr ≤ ch.e.width) ∧ ringBytes ([] : List Rec) + Rec.bytes inRec ≤ 64 ∧ 64 < ringBytes [inRec, inRec] + Rec.bytes inRec :=
  ⟨by decide +kernel, by decide +kernel, ⟨_, _, _, rfl, rfl, rfl, rfl, rfl, by decide +kernel, by decide +kernel, by decide +kernel⟩, by decide +kernel,
    by decide +kernel⟩
theorem test_vq_move : nextIs (exec .vqAgentMove (vqS false 64 [inRec])) (fun s => (s.vqs.get? 1).map VqRt.ring == some [] &&
    (s.chan? 1 0).map (fun c => c.transit ++ c.buf) == some [inRec]) = true := by decide +kernel
theorem test_vq_append : nextIs (exec .vqAgentAppend (vqS true 64 [])) (fun s => (s.vqs.get? 1).map VqRt.ring == some [inRec]) = true ∧
    nextIs (exec .vqAgentAppend (vqS true 64 [inRec, inRec])) (fun s => (s.vqs.get? 1).map VqRt.ring == some [inRec, inRec]) = true := by decide +kernel
theorem test_vq_assign : nextIs (exec .virtualQueueAssign { vqS false 64 [] with subj := .newVq 3 true 4096 none, mboxDoor := 1 }) (fun s =>
    (s.vqs.get? 2).map (fun q => (q.pasid, q.output, q.capacity)) == some (3, true, 4096)) = true := by decide +kernel
theorem test_bridged : nextIs (exec .bridgedRecordArrival { vqS false 64 [] with
      subj := .bridged 1 inRec, vqs := [(1, ⟨0, false, 64, [], none, 0, some 7, false⟩)] }) (fun s => (s.vqs.get? 1).map VqRt.ring == some [inRec]) = true := by
  decide +kernel
/-- Ports in use, and a part whose record enables none. -/
theorem witness_VirtualQueuesAndTurns_ports : 7 < (vqS false 64 []).enabled 1 8 ∧ (vqS false 64 []).enabled 1 8 ≤ 8 ∧
    ({ vqS false 64 [] with dawn := { (vqS false 64 []).dawn with units := [0, 0] } }).enabled 1 8 ≤ 0 ∧
    (vqS false 64 []).stage = 3 ∧ (∃ ch, (vqS true 64 []).chan? 1 1 = some ch ∧ ch.buf = [inRec]) ∧ partsMove (vqS true 64 []) 1 = true ∧
    (mboxSubmitted { vqS false 64 [] with mboxDoor := 1 }) = true :=
  ⟨by decide +kernel, by decide +kernel, by decide +kernel, by decide +kernel, ⟨_, rfl, rfl⟩, by decide +kernel, by decide +kernel⟩
theorem test_port : nextIs (exec .ethernetPortDown { vqS false 64 [] with subj := .port 3 }) (fun s => !s.ethUp[3] && s.ethUp[2]) = true ∧
    nextIs (exec .ethernetPortUp { vqS false 64 [] with subj := .port 3, ethUp := Vector.replicate 8 false }) (fun s => s.ethUp[3]) = true := by
  decide +kernel
/-- Tenures 1 and 2 share a region; tenure 1 is at a segment boundary after `slots` slots. -/
def turnS (slots : Nat) (yielded : Bool) : State := small (fun k => { k with st := .idle }) id (fun s => { s with
  subj := .tenure 1, tenures := [(1, { tn0 with partner := some 2, slots := slots, yielded := yielded }), (2, { tn0 with partner := some 1, active := false })] })
theorem witness_VirtualQueuesAndTurns_turns : atBoundary (turnS 6 false) 1 = true ∧ ready (turnS 6 false) 2 = true ∧ residualsHeld (flushTiles (turnS 6 false) 1) 1 = 0 := by
  decide +kernel
/-- R362: the seventh slot ends the turn, as a yield does. -/
theorem test_turn : nextIs (exec .segmentBoundarySwitch (turnS 6 false)) (fun s => s.tenures.map (fun e => e.2.active) == [false, true]) = true ∧
    nextIs (exec .segmentBoundarySwitch (turnS 5 false)) (fun s => s.tenures.map (fun e => e.2.active) == [true, false]) = true ∧
    nextIs (exec .segmentBoundarySwitch (turnS 0 true)) (fun s => s.tenures.map (fun e => e.2.active) == [false, true]) = true := by decide +kernel

/-! ### Translations -/

/-- The tables of `walked`, the subject `x` and a page request of the cell. -/
def xlateS (x : Subject) (va : Nat) : State := { walked with subj := x, pageReqs := [(.cell 1 0, 0, va)] }
theorem witness_TranslationEvents : canonical devVa.toNat = true ∧ isDevice devVa.toNat = true ∧ walked.powered = true ∧
    walked.tlb? (.cell 1 0) 0 devVa.toNat = none ∧ isDevice 0x5000 = false ∧ (.cell 1 0, 0, pageOf 0x5000) ∈ (xlateS .none 0x5000).pageReqs ∧
    pageOk 0x5000 0 65536 = true ∧ Layer.caches (.cell 1 0) = true ∧ (match walk walked 0 devVa.toNat with | .ok _ => true | _ => false) = true ∧ layerEntries (.cell 1 0) ≠ none ∧
    (.gone, 0, pageOf devVa.toNat) ∈ ({ walked with pageReqs := [(.gone, 0, devVa.toNat)] }).pageReqs ∧
    translatedInFlight { walked with net := [⟨3, 1, 0, none, 1, 0, 0, none, .load devVa.toNat 2 (.dev 0x10000) true (.g 1) none 0⟩] } 0 (devVa.toNat, 4096) = true ∧
    translatedInFlight walked 0 (devVa.toNat, 4096) = false :=
  by decide +kernel
theorem test_refill : nextIs (exec .translationRefill { walked with subj := .refill (.cell 1 0) 0 devVa.toNat }) (fun s => s.tlbs == [(.cell 1 0, tlb0)]) = true := by
  decide +kernel
theorem test_pri : nextIs (exec .priResponse (xlateS (.hostPage 0 0x5000 (some (0x5000, 4096, 0x9000, true, false))) 0x5000)) (fun s =>
      s.pageReqs == [] && s.hostPages.length == 1) = true ∧
    nextIs (exec .priResponse (xlateS (.hostPage 0 0x5000 none) 0x5000)) (fun s => s.pageReqs == [] && s.pageFails == [(.cell 1 0, 0, 0x5000)]) = true := by
  decide +kernel
theorem test_os_page : nextIs (exec .osPageResponse (xlateS (.osPage 0 devVa.toNat 0x7000 [(0x7000, 0x8001)] true) devVa.toNat)) (fun s =>
    s.pageReqs == [] && s.roots == [(0, 0x7000)] && s.devMem.read 0x7000 2 == [0x01, 0x80]) = true := by decide +kernel
theorem test_ats : nextIs (exec .atsInvalidation { walked with subj := .pages 0 devVa.toNat 4096, tlbs := [(.cell 1 0, tlb0)] }) (fun s => s.tlbs == []) = true := by
  decide +kernel

/-! ### Accesses at their homes and their replies -/

/-- Message 3 of node 0 at its home. -/
def flight (kind : MsgKind) (f : State → State) : State := f { mem (fun k => { k with pend := [.g 1], updpend := 1, sbcnt := k.sbcnt.set 2 1 }) with
  subj := .msg 3, net := [⟨3, 1, 0, none, 1, 0, 0, none, kind⟩], devMem := [(0x10000, 0x80), (0x10001, 0xFF)] }
/-- The bytes of device memory from 0x10000. -/
def bytesAt (s : State) (n : Nat) : List Byte := s.devMem.read 0x10000 n
theorem witness_MemoryEvents : tagCurrent (flight .accAck id) ⟨3, 1, 0, none, 1, 0, 0, none, .accAck⟩ = true ∧
    earlierOverlap (flight (.load devVa.toNat 2 (.dev 0x10000) true (.g 1) (some 2) 0) id)
      ⟨3, 1, 0, none, 1, 0, 0, none, .load devVa.toNat 2 (.dev 0x10000) true (.g 1) (some 2) 0⟩ = false ∧
    (((flight .accAck id).tenures.get? 1).elim 0 (fun tn => tn.dieOf 0) = unitDie 0) ∧ (flight .accAck id).gens.get? (key2 1 0) = none ∧
    hostStoresOut (flight .accAck id) 1 (some 0) = false := by decide +kernel
/-- The answer of an ordered fetch whose node has an earlier ordered fetch at the same unit. -/
theorem witness_MemoryEvents_ordered :
    (let k : MsgKind := .atomicReply 3 0 4 (some (.g 1)) true none 0
     let s := flight k (fun s => { s with net := s.net ++ [⟨2, 1, 0, none, 1, 0, 0, none, .atomicReply 2 0 4 (some (.g 1)) true none 0⟩] })
     earlierOrdered s ⟨3, 1, 0, none, 1, 0, 0, none, k⟩ = true ∧ earlierOrdered (flight k id) ⟨3, 1, 0, none, 1, 0, 0, none, k⟩ = false ∧
       nextIs (exec .atomicReply s) (fun s1 => s1.net == s.net) = true) := by decide +kernel
/-- A message at its home, or its reply at its interface. -/
theorem witness_MemoryEvents_home (k : MsgKind) : atHome (flight k id) 3 ⟨3, 1, 0, none, 1, 0, 0, none, k⟩ := ⟨rfl, rfl, rfl, rfl⟩
/-- A load's answer on the die of its home, and on another; a store to the host; what comes after a write at the host port; a reply too old. -/
theorem witness_MemoryEvents_ways :
    replyDie (flight .accAck id) ⟨3, 1, 0, none, 1, 0, 0, none, .accAck⟩ = unitDie 0 ∧
    replyDie (flight .accAck id) ⟨3, 1, 0, none, 1, 0, 5, none, .accAck⟩ ≠ unitDie (physUnit (.dev 0x10000)) ∧
    fencedOut (flight .accAck id) 1 (some 0) 3 = false ∧ fencedOut (flight .accAck (fun s => { s with hostPort := [fencedWrite] })) 1 (some 0) 3 = true ∧
    Msg.issuer ⟨3, 1, 0, none, 1, 0, 0, none, .accAck⟩ = some 0 ∧
    earlierOverlap (flight (.store devVa.toNat [1] (.host 0x9000) none) id) ⟨3, 1, 0, none, 1, 0, 0, none, .store devVa.toNat [1] (.host 0x9000) none⟩ = false ∧
    expired (flight .accAck id) ⟨3, 1, 0, none, 1, 0, 0, none, .accAck⟩ = false ∧
    tagCurrent (flight .accAck id) ⟨3, 1, 0, none, 2, 0, 0, none, .accAck⟩ = false ∧
    (0 : Nat) + 1048576 < (flight .accAck (fun s => { s with clk := Vector.replicate 4 1048577 })).nowOn 0 := by decide +kernel
theorem test_load_reply : nextIs (exec .loadReply (flight (.load devVa.toNat 2 (.dev 0x10000) true (.g 1) (some 2) 0) id)) (fun s =>
    nodeIs s (fun k => k.g[1] == 0xFFFFFF80 && k.pend == [] && k.sbcnt[2] == 0) && s.net == []) = true := by decide +kernel
theorem test_store_performed : nextIs (exec .storePerformed (flight (.store devVa.toNat [0x34, 0x12] (.dev 0x10000) (some 2)) id)) (fun s =>
    bytesAt s 2 == [0x34, 0x12] && nodeIs s (fun k => k.sbcnt[2] == 0)) = true := by decide +kernel
/-- R286: addition at the home, and the old word in the reply. -/
theorem test_atomic_perform : nextIs (exec .atomicPerform (flight (.atomic .add devVa.toNat 4 0x10000 1 0 (some (.g 1)) false 0) id)) (fun s =>
    bytesAt s 2 == [0x81, 0xFF] && s.net.map Msg.kind == [.atomicReply 3 0xFF80 4 (some (.g 1)) false none 0]) = true := by decide +kernel
theorem test_atomic_reply : nextIs (exec .atomicReply (flight (.atomicReply 2 0xFF80 4 (some (.g 1)) false none 0) id)) (fun s =>
    nodeIs s (fun k => k.g[1] == 0xFF80 && k.pend == [])) = true ∧
    nextIs (exec .atomicReply (flight (.atomicReply 2 0xFF80 4 none false none 0) id)) (fun s => nodeIs s (fun k => k.updpend == 0)) = true := by
  decide +kernel
/-- R78: a reply with a stale tag is dropped. -/
theorem test_reply_arrival : nextIs (exec .replyArrival (flight .accAck (fun s => { s with net := [⟨3, 1, 0, none, 2, 0, 0, none, .accAck⟩] }))) (fun s =>
    s.net == [] && nodeIs s (fun k => k.updpend == 1)) = true := by decide +kernel
theorem test_reply_expiry : nextIs (exec .replyExpiry (flight .accAck (fun s => { s with clk := Vector.replicate 4 1048577 }))) (fun s => s.net == []) = true ∧
    nextIs (exec .replyExpiry (flight .accAck (fun s => { s with clk := Vector.replicate 4 1048576 }))) (fun s => s.net.length == 1) = true := by decide +kernel
theorem test_confirming_read : nextIs (exec .confirmingReadCompletion (small (fun k => { k with wait := .confirm, hostDirty := true }) id
    (fun s => { s with subj := .node 1 0 }))) (fun s => nodeIs s (fun k => k.wait == .none && !k.hostDirty)) = true := by decide +kernel

/-- An accumulate of -1 to word 0 of the window, in a unit whose port has used `n` of its quota beside another port. -/
def accS (n : Nat) : State := flight (.acc 3 devVa.toNat (some 0x10000) (BitVec.ofInt 128 (-1)) 0) (fun s => { s with
  units := [(0, ⟨[(1, 3, 0, n)], [(1, 3, 0), (1, 3, 1)], 0⟩)] })
theorem witness_AccumulateEvents : (⟨[(1, 3, 0, 1)], [(1, 3, 0), (1, 3, 1)], 0⟩ : QuotaRt).refuses 1 3 0 1 = true ∧
    (⟨[(1, 3, 0, 0)], [(1, 3, 0), (1, 3, 1)], 0⟩ : QuotaRt).refuses 1 3 0 1 = false ∧ clobbers (accS 0) (.dev 0x10000) 16 = false ∧ fencedOut (accS 0) 1 (some 0) 3 = false := by decide +kernel
theorem test_accumulate : nextIs (exec .accumulateArrival (accS 0)) (fun s => bytesAt s 3 == [0x7F, 0xFF, 0x00] && s.net.map Msg.kind == [.accAck]) = true := by
  decide +kernel
theorem test_accumulate_ack : nextIs (exec .accumulateAcknowledgement (flight .accAck id)) (fun s => nodeIs s (fun k => k.updpend == 0)) = true := by decide +kernel
theorem test_refusal : nextIs (exec .refusalReply (flight (.refusal 3 devVa.toNat none 5 0) id)) (fun s =>
    nodeIs s (fun k => k.updpend == 0 && k.tile == [⟨3, devVa.toNat, 5, 0, 0⟩])) = true := by decide +kernel
/-- R301: a refusal in the cycle in which an accumulate to its word has left waits for the next cycle. -/
theorem witness_AccumulateEvents_late :
    (let k : MsgKind := .refusal 3 devVa.toNat none 5 0
     let s := fun (c : Nat) => flight k (fun s => { s.modTask 1 0 (fun k => { k with accNow := (0, [(3, devVa.toNat)]) }) with clk := Vector.replicate 4 c })
     lateRefusal (s 0) ⟨3, 1, 0, none, 1, 0, 0, none, k⟩ 3 devVa.toNat = true ∧ lateRefusal (s 1) ⟨3, 1, 0, none, 1, 0, 0, none, k⟩ 3 devVa.toNat = false ∧
       nextIs (exec .refusalReply (s 0)) (fun s1 => s1.net.length == 1) = true) := by decide +kernel
theorem test_flush_delivery : nextIs (exec .flushDelivery (flight (.flush 3 devVa.toNat (some 0x10000) 5 0) id)) (fun s =>
    s.net.map Msg.kind == [.accAck]) = true := by decide +kernel
theorem test_residual_age : nextIs (exec .residualAgeExpiry ({ mem (fun k => { k with tile := [⟨3, devVa.toNat, 5, 0, 0⟩] }) with
    subj := .residual (.cell 1 0) devVa.toNat, clk := Vector.replicate 4 65536 })) (fun s => nodeIs s (fun k => k.tile == [] && k.updpend == 1) && s.net.length == 1) = true := by
  decide +kernel
theorem test_interval : nextIs (exec .acceptanceIntervalEnd { accS 1 with subj := .unit 0, clk := Vector.replicate 4 256 }) (fun s => s.units == [(0, ⟨[], [], 256⟩)]) = true ∧
    nextIs (exec .acceptanceIntervalEnd { accS 1 with subj := .unit 0, clk := Vector.replicate 4 255 }) (fun s => s.units == (accS 1).units) = true := by decide +kernel

/-! ### Gates, combine trees and waves -/

/-- The gate of R310's table: count 2, at generation 5. -/
def gate5 (arrived early gen : Nat) : GateRt := { gate0 with count := 2, texp := 15, arrived := arrived, early := early, gen := gen }
/-- The four arrivals of R310's table. -/
theorem test_gate_table : ((gate5 0 0 5).arrive 0 1 true = (gate5 1 0 5, false)) ∧ ((gate5 1 0 5).arrive 0 1 false = (gate5 1 1 5, false)) ∧
    ((gate5 1 1 5).arrive 0 1 true = (gate5 1 0 6, false)) ∧ ((gate5 1 0 6).arrive 0 2 false = (gate5 0 0 7, true)) := by decide +kernel
/-- Gate node 1 with an arrival under way, an owed Permit, or a timer. -/
def gateS (x : Subject) (r : GateRt) (n : Nat) : State := flight (.gateArr 1 n true) (fun s => { s with
  subj := x, gates := [(key2 1 1, r)], chans := [(key2 1 5, ChanRt.entry { outE with src := 1 })] })
theorem witness_GatesTreesAndWaves : partsLand (gateS (.msg 3) (gate5 0 0 5) 1) 1 = true ∧ partsMove (gateS (.msg 3) (gate5 0 0 5) 1) 1 = true ∧
    0 < (((gateS (.msg 3) (gate5 0 0 5) 1).chan? 1 5).map ChanRt.free).getD 0 ∧ wavesRun (node id) 1 = true ∧ quietPending (node id) 1 true = false ∧
    quietPending (node id) 1 false = false := by decide +kernel
/-- An early arrival beyond the count in the cycle of the first such one; a gate whose timer has run out as the arrival comes; parts to which nothing lands. -/
theorem witness_GatesTreesAndWaves_order : (gate5 0 2 5).defers 7 1 false = true ∧ ({ gate5 0 2 5 with excess := some 7 }).defers 8 1 false = false ∧
    (gate5 0 2 5).defers 7 1 true = false ∧
    gateExpire 1 1 (gateS (.msg 3) (gate5 0 0 5) 1) = gateS (.msg 3) (gate5 0 0 5) 1 ∧
    ((gateExpire 1 1 { gateS (.msg 3) { gate5 1 0 5 with texp := 0, timer := some 0 } 1 with clk := Vector.replicate 4 1025 }).gates.get? (key2 1 1)).map GateRt.halted = some true ∧
    partsLand { gateS (.msg 3) (gate5 0 0 5) 1 with tenures := [(1, inPhase .paused tn0)] } 1 = false := by decide +kernel
/-- What a pass finds in the small state. -/
def sumsNow : Sums := sumsOf (node id) 1 (WaveSt.start true none)
/-- A wave of which a second pass is due, or that a node asks for, one after a loss, a point that a pass has visited, and a pound with records left of which nothing can move. -/
theorem witness_GatesTreesAndWaves_waves : quietPending (node (fun k => { k with wait := .quiet true .asked })) 1 true = true ∧
    (∃ w y, WaveSt.start true (some { sumsNow with left := true }) = w ∧ w.first = some y ∧ y.left = true) ∧
    leftBehind { sumsNow with left := true, h := 0, t := 0 } { sumsNow with left := true, h := 0, t := 0 } = true ∧
    verdict { sumsNow with i := 1, left := true } { sumsNow with i := 1, left := true } = .busy ∧
    verdict { sumsNow with b := 1 } { sumsNow with b := 1 } = .stalled ∧ lossAhead (node id) 1 tn0 = false ∧
    lossAhead (node id) 1 { tn0 with wOff := 1 } = true ∧ 0 ∉ (WaveSt.start true none).seen ∧ 0 ∈ ((WaveSt.start true none).visit (node id) 1 tn0 0).seen :=
  ⟨by decide +kernel, ⟨_, _, rfl, rfl, rfl⟩, by decide +kernel, by decide +kernel, by decide +kernel, by decide +kernel, by decide +kernel, by decide +kernel,
    by decide +kernel⟩
/-- R308: the early arrival beyond the count is kept until its cycle is over. -/
theorem test_gate_defers : nextIs (exec .gateArrival (gateS (.msg 3) (gate5 0 2 6) 1)) (fun s =>
    (s.gates.get? (key2 1 1)).map GateRt.excess == some (some 0) && (s.msg? 3).isSome) = true := by decide +kernel
theorem test_gate_arrival : nextIs (exec .gateArrival (gateS (.msg 3) (gate5 0 0 5) 1)) (fun s => s.gates.get? (key2 1 1) == some (gate5 1 0 5)) = true ∧
    nextIs (exec .gateArrival (gateS (.msg 3) (gate5 0 0 5) 3)) (fun s => (s.gates.get? (key2 1 1)).map GateRt.halted == some true) = true := by decide +kernel
/-- R372, R363: an arrival at a halted gate is taken from the network and counted by none. -/
theorem test_gate_halted : nextIs (exec .gateArrival (gateS (.msg 3) { gate5 0 0 5 with halted := true } 1)) (fun s =>
    s.gates.get? (key2 1 1) == some { gate5 0 0 5 with halted := true } && (s.msg? 3).isNone) = true := by decide +kernel
theorem test_gate_permit : nextIs (exec .gatePermit (gateS (.gate 1 1 0) { gate5 0 0 6 with outs := [(0, 5, 70)] } 1)) (fun s =>
    (s.chan? 1 5).map (fun c => c.transit ++ c.buf) == some [madeRec tPermit 6 64] && (s.gates.get? (key2 1 1)).map GateRt.outs == some [(0, 5, 6)]) = true := by
  decide +kernel
theorem test_gate_timeout : nextIs (exec .gateTimeout { gateS (.node 1 1) { gate5 1 0 5 with texp := 0, timer := some 0 } 1 with clk := Vector.replicate 4 1025 })
      (fun s => (s.gates.get? (key2 1 1)).map GateRt.halted == some true) = true ∧
    nextIs (exec .gateTimeout { gateS (.node 1 1) { gate5 1 0 5 with texp := 0, timer := some 0 } 1 with clk := Vector.replicate 4 1024 })
      (fun s => (s.gates.get? (key2 1 1)).map GateRt.halted == some false) = true := by decide +kernel
/-- A round of the tree: its one child completes it at the root. -/
def combS (x : Subject) (rounds : List Round) : State := flight (.contrib 0 0 0 0 [0x11] none) (fun s => { s with
  subj := x, combs := [(combKey 1 0 0, ⟨rounds, [], [], 0⟩)], clk := Vector.replicate 4 1025 })
theorem witness_GatesTreesAndWaves_tree : (∃ tn c, (combS (.msg 3) []).tenures.get? 1 = some tn ∧ tn.tree? 0 = some tree0 ∧ (combS (.msg 3) []).combs.get? (combKey 1 0 0) = some c ∧
      c.done.contains 0 = false ∧ (∀ r ∈ c.rounds, r.round ≠ 0)) ∧ tree0.nch 0 ≤ 1 ∧ 1 < ({ tree0 with ints := [(0xFFF, 0, 2)] }).nch 0 ∧ tree0.texp ≠ 15 ∧
    (∃ tn c r, (combS (.entry 1 0 0) [⟨0, [], 0⟩]).tenures.get? 1 = some tn ∧ (combS (.entry 1 0 0) [⟨0, [], 0⟩]).combs.get? (combKey 1 0 0) = some c ∧
      c.rounds.find? (fun r => decide (r.start + 2 ^ (10 + tree0.texp) < combNow (combS (.entry 1 0 0) [⟨0, [], 0⟩]) 1 tn 0 0)) = some r) ∧
    partsLand (combS (.msg 3) []) 1 = true :=
  ⟨⟨_, _, rfl, rfl, rfl, rfl, by simp⟩, by decide +kernel, by decide +kernel, by decide +kernel, ⟨_, _, ⟨0, [], 0⟩, rfl, rfl, by decide +kernel⟩, by decide +kernel⟩
theorem test_contribution : nextIs (exec .contributionArrival (combS (.msg 3) [])) (fun s =>
    (s.combs.get? (combKey 1 0 0)).map (fun c => (c.rounds, c.sent)) == some ([], 1) && (s.chan? 1 1).map ChanRt.transit == some [dataRec 0 0 0 [0x11]]) = true := by decide +kernel
theorem test_combine_timeout : nextIs (exec .combineTimeout (combS (.entry 1 0 0) [⟨0, [], 0⟩])) (fun s =>
    (s.combs.get? (combKey 1 0 0)).map (fun c => (c.rounds, c.done)) == some ([], [0])) = true := by decide +kernel
theorem test_wave : nextIs (exec .wavePeriod { node id with subj := .tenure 1, clk := Vector.replicate 4 4096 }) (fun s => tenureIs s (fun tn => tn.wave.isSome)) = true ∧
    nextIs (exec .wavePeriod { node id with subj := .tenure 1, clk := Vector.replicate 4 4095 }) (fun s => tenureIs s (fun tn => tn.wave.isNone)) = true ∧
    nextIs (exec .wavePass { small id (fun tn => { tn with wave := some (WaveSt.start true none) }) id with subj := .tenure 1 })
      (fun s => tenureIs s (fun tn => tn.wave.any (fun w => w.first.isSome))) = true := by decide +kernel
/-- R320: a pass that has visited node 0 finds there what it found, though the node is blocked since. -/
theorem test_wave_visit :
    let s := small (fun k => { k with st := .idle }) (fun tn => { tn with wave := some (WaveSt.start true none) }) id
    nextIs (exec .wavePass { s with subj := .node 1 0 }) (fun s1 => tenureIs s1 (fun tn => tn.wave.any (fun w =>
      w.seen == [0] && (sumsOf (s1.modTask 1 0 (fun k => { k with st := .blocked })) 1 w).b == 0 &&
      (sumsOf (s1.modTask 1 0 (fun k => { k with st := .blocked })) 1 (WaveSt.start true none)).b == 1))) = true := by decide +kernel

/-! ### Lighters -/

/-- The numbers of the two blocks that R282's worked request writes. -/
def blk0 : Nat := blockOf 0x0100000000020000
/-- The second of them. -/
def blk1 : Nat := blockOf 0x0100000000020040
/-- R282's worked request. -/
def req0 : LReq := LReq.ofUnits 3 1 0 0x3500000000010000 0x0100000000020000 0x0000010000200027 0x00A5000028000040
/-- R282's worked request, held by lighter 0 for tenure 1, with the pages of its source and destination translated. -/
def reqS (x : Subject) (f : LReq → LReq) : State :=
  let e : Tlb := { tlb0 with size := 2 ^ 21, va := 0x0100000000000000, pa := .dev 0 }
  { node id with
    subj := x, tlbs := [(.lighter 0 3 true, e), (.lighter 0 3 false, e)], devMem := [(0x10000, 0x5A)]
    lighters := [(0, { LighterRt.empty with reqs := [f req0] })] }
/-- The request as it stands. -/
def reqIs (s : State) (f : LReq → Bool) : Bool := match (s.lighter 0).reqs with
  | [q] => f q
  | _ => false
/-- The block writes under way. -/
def blocks (s : State) : List (Nat × Nat × List (Nat × List Byte)) := s.net.filterMap (fun m => match m.kind with
  | .block _ blk va segs _ => some (blk, va, segs)
  | _ => none)
theorem witness_LighterEvents_requests : mayStart (reqS (.request 0 3) id) 0 3 = true ∧
    (∃ q tn, heldReq (reqS (.burst 0 3 blk0 false) (fun q => { q with started := true })) 0 q tn ∧ q.mayBurst blk0 = true ∧ q.xfen = false ∧ q.rows = 3 ∧
      (q.pieces tn blk0).map (fun p => (p.row, p.off, p.at_, p.len)) = [(0, 0, 0, 40), (1, 0, 40, 24)] ∧ tn.watchHit 4 (q.srcRow 0).toNat 40 = none) :=
  ⟨by decide +kernel, { req0 with started := true }, tn0, ⟨by decide +kernel, by decide +kernel, by decide +kernel⟩, by decide +kernel, by decide +kernel,
    by decide +kernel, by decide +kernel, by decide +kernel⟩
/-- R277, R346: a request starts in its turn; one burst writes the 40 bytes of row 0 and 24 of row 1, and the second the other 56. -/
theorem test_lighter_request : nextIs (exec .lighterRequest (reqS (.request 0 3) id)) (fun s => reqIs s (fun q => q.started)) = true ∧
    nextIs (exec .lighterRequest (reqS (.burst 0 3 blk0 false) (fun q => { q with started := true }))) (fun s =>
      blocks s == [(blk0, 0x0100000000020000, [(0, 0x5A :: List.replicate 39 0), (40, List.replicate 24 0)])] && reqIs s (fun q => q.out == [blk0])) = true ∧
    nextIs (exec .lighterRequest (reqS (.burst 0 3 blk1 false) (fun q => { q with started := true }))) (fun s =>
      blocks s == [(blk1, 0x0100000000020040, [(0, List.replicate 16 0), (16, List.replicate 40 0)])]) = true := by decide +kernel
/-- Behind the payload the completion word 0xA5 is written at +256, and behind that the request completes. -/
theorem test_lighter_complete : nextIs (exec .lighterComplete (reqS (.request 0 3) (fun q => { q with started := true, done := [blk1, blk0] })))
      (fun s => blocks s == [(cwBurst, 0x0100000000020100, [(0, [0xA5, 0, 0, 0, 0, 0, 0, 0])])]) = true ∧
    nextIs (exec .lighterComplete (reqS (.request 0 3) (fun q => { q with started := true, done := [cwBurst, blk1, blk0] })))
      (fun s => (s.lighter 0).reqs == []) = true := by decide +kernel
/-- Channel 1 of the tenure bound to port 0 of its lighter, with a record at its head. -/
def portS (b : Binding) (x : Rec) : State := small id (fun tn => { tn with binds := [(1, b)], g := { tn.g with chans := [inE, outE], wins := [win0] } }) (fun s =>
  { s with subj := .chan 1 1, chans := [(key2 1 0, ChanRt.entry inE), (key2 1 1, { ChanRt.entry outE with buf := [x] })] })
/-- A well-formed Transfer request of port 0 that counts on no token. -/
def xferRec : Rec := { hdr := mkHdr tXfer 0 4 0 false 0, units := [0x0100000000010000, 0x0100000000020000, 0x27, 0x28000040] }
theorem witness_LighterEvents_records : (∃ tn ch, portHead (portS (.xfer 0) xferRec) 1 1 tn ch (.xfer 0) xferRec ∧
      (LReq.ofUnits 0 1 ch.e.src 0x0100000000010000 0x0100000000020000 0x27 0x28000040).malformed tn = false ∧
      lighterRoom (portS (.xfer 0) xferRec) ((portS (.xfer 0) xferRec).lighterOf tn ch.e.src 0) = true) ∧
    (∃ tn ch, portHead (portS (.accs 0 3) (dataRec 5 0 0 [devVa, 1])) 1 1 tn ch (.accs 0 3) (dataRec 5 0 0 [devVa, 1]) ∧
      tn.haltedStreams.contains 1 = false ∧ tn.win? 3 = some win0 ∧ winIndex? (tn.wbaseOf win0) win0.count devVa.toNat = some 0) :=
  ⟨⟨_, _, ⟨rfl, rfl, rfl, rfl, rfl, rfl, by decide +kernel⟩, by decide +kernel, by decide +kernel⟩,
    ⟨_, _, ⟨rfl, rfl, rfl, rfl, rfl, rfl, by decide +kernel⟩, by decide +kernel, rfl, by decide +kernel⟩⟩
theorem test_transfer_record : nextIs (exec .transferRequestRecord (portS (.xfer 0) xferRec)) (fun s =>
      s.lighters.map (fun e => e.2.reqs.length) == [1] && (s.chan? 1 1).map ChanRt.buf == some []) = true ∧
    nextIs (exec .transferRequestRecord (portS (.xfer 0) (dat 6 0))) (fun s => s.lighters == [] && tenureIs s (fun tn => tn.faultLane.length == 1)) = true := by
  decide +kernel
theorem test_accumulate_stream : nextIs (exec .accumulateStreamRecord (portS (.accs 0 3) (dataRec 5 0 0 [0x0100000000010040, 1])))
    (fun s => tenureIs s (fun tn => tn.haltedStreams == [1] && tn.faultLane.length == 1)) = true := by decide +kernel
/-- A request through transform 1. -/
def reqX : LReq := { LReq.ofUnits 3 1 0 0x4100000000010000 0x0300000000020000 0x1F 0x20000020 with started := true }
/-- A tenure with a transform from channel 0 to channel 1. -/
def xfTenure (tn : Tenure) : Tenure :=
  { tn with binds := [(0, .xf 1 1 1), (1, .xf 1 1 1)], g := { tn.g with chans := [{ inE with src := extEnd }, outE] } }
/-- The state with that request, and records at the output of the transform. -/
def xfS (f : LReq → LReq) (out : List Rec) : State :=
  let e : Tlb := { tlb0 with size := 2 ^ 21, va := 0x0100000000000000, pa := .dev 0 }
  let t := small id xfTenure id
  { t with
    subj := .request 0 3, tlbs := [(.lighter 0 3 true, e), (.lighter 0 3 false, e)], devMem := [(0x10000, 0x5A)]
    chans := [(key2 1 0, ChanRt.entry { inE with src := extEnd }), (key2 1 1, { ChanRt.entry outE with buf := out })]
    lighters := [(0, { LighterRt.empty with reqs := [f reqX] })] }
theorem witness_LighterEvents_transforms : ∃ q tn, heldReq (xfS id []) 0 q tn ∧ q.started = true ∧ q.stopped = false ∧ q.xfen = true ∧ q.row < q.rows ∧
    tn.transform? q.xf = some (0, 1, 1, 1) ∧ q.sent < q.rowbytes ∧ q.out.length < 4 ∧ 4 ≤ ({ q with out := [1, 2, 3, 4] } : LReq).out.length :=
  ⟨reqX, xfTenure tn0, ⟨by decide +kernel, by decide +kernel, by decide +kernel⟩, rfl, rfl, by decide +kernel, by decide +kernel, by decide +kernel,
    by decide +kernel, by decide +kernel, by decide +kernel⟩
theorem test_transform_row : nextIs (exec .transformRow (xfS id [])) (fun s => reqIs s (fun q => q.sent == 32) &&
      (s.chan? 1 0).map ChanRt.transit == some [dataRec 0 0 0 [0x5A, 0, 0, 0]]) = true ∧
    nextIs (exec .transformRow (xfS id [dataRec 0 0 0 [7]])) (fun s => reqIs s (fun q => q.got == [(0, [7, 0, 0, 0, 0, 0, 0, 0])])) = true := by decide +kernel

/-! ### Links, and the stages of dawn -/

/-- The only flit of a packet. -/
def flit0 : Flit := ⟨5, 0, false, 0, ⟨0, 1, 9, 1⟩, 0⟩
/-- That flit on the wire of the one module from die 0 to die 1, which expects `want`. -/
def flitS (x : Subject) (want : BitVec 10) (st : ModState) : State := { node id with
  subj := x, links := [(linkKey 0 1, { LinkRt.reset with
    mods := [{ ModRt.reset with st := st, wire := [flit0], expect := want, replay := [flit0], next := 6 }] })] }
/-- Module 0 of the pair. -/
def modIs (s : State) (f : ModRt → Bool) : Bool := match (s.linkOf 0 1).mods with
  | [m] => f m
  | _ => false
set_option maxRecDepth 20000 in
theorem witness_LinkAndDawnEvents_links : (∃ m, nextFlit (flitS (.flit 0 1 0 0) 5 .full) 0 1 0 m flit0 []) ∧ flit0.crcHolds 0 = true ∧
    flit0.crcHolds 1 = false ∧ flit0.seqRead 0 = 5 ∧ ((6 : BitVec 10) - 5).toNat ≤ 512 ∧ 512 < ((4 : BitVec 10) - 5).toNat ∧
    flit0.part + 1 = flit0.pkt.flits ∧ (⟨5, 0, false, 0, ⟨0, 1, 9, 2⟩, 0⟩ : Flit).part + 1 ≠ 2 ∧ seqBefore 0 1 = true ∧
    (∀ m ∈ ((flitS .none 5 .retired).linkOf 0 1).mods, m.st = .retired) :=
  ⟨⟨_, rfl, by decide, rfl⟩, by decide +kernel, by decide +kernel, by decide +kernel, by decide, by decide, rfl, by decide, by decide +kernel, by decide +kernel⟩
set_option maxRecDepth 20000 in
/-- R393: in order, a duplicate, a gap, and a CRC failure, after each of which all that is not acknowledged stands on the wire again. -/
theorem test_flit : nextIs (exec .flitReceive (flitS (.flit 0 1 0 0) 5 .full)) (fun s => modIs s (fun m => m.expect == 6 && m.wire == [])) = true ∧
    nextIs (exec .flitReceive (flitS (.flit 0 1 0 0) 6 .full)) (fun s => modIs s (fun m => m.expect == 6 && m.wire == [])) = true ∧
    nextIs (exec .flitReceive (flitS (.flit 0 1 0 0) 4 .full)) (fun s => modIs s (fun m => m.expect == 4 && m.wire.length == 1)) = true ∧
    nextIs (exec .flitReceive (flitS (.flit 0 1 0 1) 5 .full)) (fun s => modIs s (fun m => m.expect == 5 && m.wire.length == 1 && m.fails.length == 1)) = true := by
  decide +kernel
theorem test_retrain : nextIs (exec .retrainComplete (flitS (.retrain 0 1 0 true) 5 .retraining)) (fun s => modIs s (fun m => m.st == .half)) = true ∧
    nextIs (exec .retrainComplete (flitS (.retrain 0 1 0 false) 5 .retraining)) (fun s => modIs s (fun m => m.st != .half && m.st != .full)) = true := by
  decide +kernel
theorem test_flr : nextIs (exec .functionLevelReset (node id)) (fun s => s.tenures == [] && s.queues == []) = true ∧
    nextIs (exec .linkDown (node id)) (fun s => s.tenures == [] && s.vqs == []) = true := by decide +kernel
theorem test_pcie : nextIs (exec .pcieRetrain { node id with subj := .link 6 8 }) (fun s => s.pcie == (6, 8)) = true := by decide +kernel
/-- The powered module at a stage of dawn, with the svn 7 of slot 0 running and the counter at 3. -/
def stageS (n : Nat) (x : Subject) : State := { State.reset with
  subj := x, dawn := { State.reset.dawn with power := .on, status := dawnStatus n false 0, image := some (0, 7), counter := 3 } }
theorem witness_LinkAndDawnEvents_dawn : (stageS 1 .none).powered = true ∧ (stageS 1 .none).stage = 1 ∧ (stageS 1 .none).dawnError = false ∧
    sliceLost [0, 17] = false ∧ sliceLost (List.range 16) = true ∧ (stageS 2 .none).stage = 2 ∧ (powerReset State.reset .held).powered = false ∧
    (∃ g, (stageS 3 .none).gov[0]? = some g ∧ g.floor.toNat < g.fclk.toNat) :=
  ⟨by decide +kernel, by decide +kernel, by decide +kernel, by decide +kernel, by decide +kernel, by decide +kernel, by decide +kernel, _, rfl, by decide⟩
theorem test_training : nextIs (exec .hbmTrainingComplete (stageS 1 (.failed [0, 17]))) (fun s => s.stage == 2 && s.dawn.failedChannels == [0, 17]) = true ∧
    nextIs (exec .hbmTrainingComplete (stageS 1 (.failed (List.range 16)))) (fun s => s.stage == 1 && s.dawnError) = true := by decide +kernel
/-- R401: the counter rises above itself and up to the svn of the image, and not beyond. -/
theorem test_counter : nextIs (exec .counterRaise (stageS 3 (.value 7))) (fun s => s.dawn.counter == 7) = true ∧
    nextIs (exec .counterRaise (stageS 3 (.value 8))) (fun s => s.dawn.counter == 3) = true := by decide +kernel
theorem test_undervoltage : nextIs (exec .undervoltage (stageS 3 .none)) (fun s => !s.powered && s.dawn.counter == 3) = true := by decide +kernel
theorem test_thermal : nextIs (exec .thermalTrip (stageS 3 (.die 0 0))) (fun s => s.powered) = true ∧
    nextIs (exec .thermalTrip { stageS 3 (.die 0 0) with gov := Vector.replicate 4 { GovRt.reset with fclk := 20 } }) (fun s => !s.powered) = true := by
  decide +kernel

/-! ### Management -/

theorem witness_ManagementAnswers : (stageS 3 .none).powered = true ∧ otherBudgets (stageS 3 .none) 2 + 1250 ≤ 5000 ∧
    5000 < otherBudgets { stageS 3 .none with gov := Vector.replicate 4 { GovRt.reset with budget := 1400 } } 2 + 1250 ∧
    (stageS 3 .none).dawn.seed = none ∧ ({ (stageS 3 .none).dawn with seed := some 5 }).seed = some 5 := by decide +kernel
theorem test_set_budget : nextIs (exec .setBudget (stageS 3 (.die 2 700))) (fun s => s.gov[2].budget == 700 && s.gov[1].budget == 1250) = true ∧
    nextIs (exec .setBudget (stageS 3 (.die 2 599))) (fun s => s.gov[2].budget == 1250) = true := by decide +kernel
theorem test_get_version : nextIs (exec .getVersion (stageS 3 .none)) (fun s => s.mctp.map (fun m => (m.type, m.body)) == [(5, [0x12])]) = true := by
  decide +kernel
theorem test_power_cycle : nextIs (exec .powerCycleRequest (stageS 3 .none)) (fun s => !s.powered && s.mctp.length == 1) = true := by decide +kernel

/-! ### Steps, decoding, and the canonical form -/

/-- A turn of the node with `nop`, and of its lockkeeper. -/
def turn (a : List Turn) (code : List W32) : State := { node (fun k => { k with code := code }) with agenda := a }
theorem witness_StepRunsDecodedInstruction : (∃ tk i len, (turn [.issue 1 0] [0b000000_000001_000010_000011_00000000#32]).tasks.get? (key2 1 0) = some tk ∧
      mayIssue (turn [] [0b000000_000001_000010_000011_00000000#32]) 1 tk = true ∧ 0 ≤ tk.pc ∧ decodeTask (tk.code.drop tk.pc.toNat) = some (i, len)) ∧
    (∃ tk, (turn [.issue 1 0] []).tasks.get? (key2 1 0) = some tk ∧ mayIssue (turn [] []) 1 tk = true ∧
      decodeTask (tk.code.drop tk.pc.toNat) = none) ∧
    (∃ tn i len, (pass id).tenures.get? 1 = some tn ∧ mayPass { pass id with agenda := [] } tn = true ∧
      decodePassage ([0b000001_000000_00000000_000000000101#32].drop 0) = some (i, len)) :=
  ⟨⟨_, .addW (.g 1) (.g 2) (.g 3), 1, rfl, by decide +kernel, by decide, by decide +kernel⟩, ⟨_, rfl, by decide +kernel, by decide +kernel⟩,
    ⟨_, .enter 5, 1, rfl, by decide +kernel, by decide +kernel⟩⟩
/-- The words at the PC run; outside the partition CODE_RANGE does; with no turn left a cycle passes. -/
theorem test_step : nextIs (step (turn [.issue 1 0] [0b000000_000001_000010_000011_00000000#32])) (fun s => nodeIs s (fun k => k.pc == 1)) = true ∧
    nextIs (step (turn [] [])) (fun s => s.clk[0] == 1) = true := by decide +kernel
theorem witness_WordsRoundTrip : encode (.addW (.g 1) (.g 2) (.i 3)) = some [0b000000_000001_000010_100011_00000000#32] ∧
    (Instr.addW (.g 1) (.g 2) (.i 3)).wf = true ∧ (Instr.addW (.g 1) (.g 2) (.i 3)).isPassage = false ∧ (Instr.enter 5).isPassage = true ∧
    encode (.enter 5) = some [0b000001_000000_00000000_000000000101#32] ∧ (Instr.enter 5).wf = true := by decide +kernel
theorem witness_DecodedInstructionsWellFormed : (decodeRaw 0b000000_100001_000010_000011_00000000#32).wf = false ∧
    decodePassage [0b000001_000000_00000000_000000000101#32] = some (.enter 5, 1) := by decide +kernel
theorem witness_StepKeepsMemoryCanonical : State.reset.memWf ∧ (∃ s, step State.reset = .next s) := ⟨⟨by decide +kernel, by decide +kernel⟩, _, rfl⟩

/-! ### Further clauses: for each a state that meets it -/

/-- R173, R174: the last aligned address of the partition, an unaligned one within it, and addresses outside it. -/
theorem witness_BankLoadStoreResult_bounds : (∀ a ∈ [(0#64), 56, 52, 57, 64, 0xFFFFFFFFFFFFFFFF], ∃ c1, read64 (.a 1) (ctx (node (bankTask a)) 1) = .ok (a, c1) ∧
      c1.tk.bankBytes = 64) ∧ ((56#64).toInt + 8 ≤ 64 ∧ (56#64).toInt % 8 = 0) ∧ ((52#64).toInt + 8 ≤ 64 ∧ (52#64).toInt % 8 ≠ 0) ∧
    64 < (57#64).toInt + 8 ∧ (0xFFFFFFFFFFFFFFFF#64).toInt < 0 ∧ (60#64).toInt % 4 = 0 ∧ (63#64).toInt + 1 ≤ 64 := by
  refine ⟨?_, by decide⟩
  intro a h
  simp only [List.mem_cons, List.not_mem_nil, or_false] at h
  rcases h with rfl | rfl | rfl | rfl | rfl | rfl <;> exact ⟨_, rfl, rfl⟩
theorem test_bank_double : gives (.ldD (.v 1) (.a 1) 0) (node (bankTask 0)) (fun k => k.v[1] == 0x88070605) = true ∧
    gives (.ldD (.v 1) (.a 1) 0) (node (fun k => { bankTask 52 k with tvec := 0x8010 })) (fun k => k.tcause == 0x0204 && k.targ == 52) = true ∧
    gives (.stD (.v 1) (.a 1) 0) (node (fun k => { bankTask 57 k with tvec := 0x8010 })) (fun k => k.tcause == 0x0203 && k.targ == 57) = true := by
  decide +kernel
/-- R289: a floating-point atomic of the node on its way. -/
def fadd0 : State := flight (.atomic .faddFp32 devVa.toNat 4 0x10000 0 0 none false 0) id
theorem witness_SystemRegisters_waits : faddPending fadd0 1 0 = true ∧ startsB (.sysr (.g 1) 0x400) fadd0 1 = true ∧
    startsB (.sysw (.g 1) 0x400) fadd0 1 = true ∧ (∃ x c1, read32 (.g 2) (ctx fadd0 1) = .ok (x, c1)) :=
  ⟨by decide +kernel, by decide +kernel, by decide +kernel, _, _, rfl⟩
theorem test_sysr_waits : gives (.sysr (.g 3) 0x400) fadd0 (fun k => k.pc == 0) = true ∧ gives (.sysr (.g 3) 0x300) fadd0 (fun k => k.g[3] == 4) = true := by
  decide +kernel
/-- A store of the node on its way, issued before what comes next. -/
def store0 : State := flight (.store devVa.toNat [1] (.dev 0x10000) none) (fun s => { s with nextMsg := 4 })
theorem witness_TransferWaitFenceToken_waita : earlierIn store0 1 0 store0.nextMsg (.dev 0x10000, 8) = true ∧
    earlierIn (mem id) 1 0 (mem id).nextMsg (.dev 0x10000, 8) = false ∧ startsB (.waita (.a 1) (.g 2)) (mem (fun k => { k with wait := .word 1 1 1 true })) 1 = true ∧
    startsB (.waita (.a 1) (.g 2)) (mem (fun k => { k with wait := .word 1 1 1 false })) 1 = true ∧ accessPending store0 1 0 = true ∧
    (ctx (node (fun k => { k with hostDirty := true })) 1).tk.hostDirty = true := by decide +kernel

/-- A tenure in an entered pound that has not asked for a wave; that has; that is out of a pound. -/
theorem witness_PassageEnterAndLeave_asks : atPassage (pass id) { tn0 with g := { tn0.g with chans := [{ inE with src := extEnd }] }, lk := { tn0.lk with lpc := 11 } } 1 ∧
    tn0.lk.lstate = 1 ∧ notAsked tn0 ∧ tn0.lkWait = .none ∧ tn0.partner = none ∧ tn0.load = none ∧ rootsDone (pass id) 1 = true ∧
    rootsDone (ctrlS (seqWord + 2 ^ 108) 0 [] []) 1 = false := by
  refine ⟨⟨rfl, by decide⟩, rfl, ?_, rfl, rfl, rfl, by decide +kernel, by decide +kernel⟩
  intro g v h
  cases (show WaitSt.none = .quiet g v from h)
theorem witness_PassageEnterAndLeave_states : (∃ tn g v, atPassage (pass (fun tn => { tn with lkWait := .quiet true .asked })) tn 1 ∧ tn.lkWait = .quiet g v ∧ v ≠ .quiet) ∧
    (∃ tn, atPassage (pass (fun tn => { tn with lk := { tn.lk with lstate := 0 } })) tn 1 ∧ tn.lk.lstate ≠ 1) ∧
    (∃ tn, atPassage (pass (fun tn => { tn with partner := some 2 })) tn 1 ∧ tn.partner ≠ none) ∧
    (∃ tn, atPassage (pass (fun tn => { locked tn with load := none, lkWait := .none })) tn 1 ∧ tn.load = none ∧ tn.lk.lstate ≠ 1 ∧ endsBound tn 0 = true) ∧
    (∃ tn l, atPassage (pass (fun tn => { locked tn with load := (locked tn).load.map (fun l => { l with committed := false }) })) tn 1 ∧
      tn.load = some l ∧ l.committed = false) ∧ (∃ tn, atPassage (pass (fun tn => { locked tn with binds := [] })) tn 1 ∧ endsBound tn 0 = false) ∧
    (∃ tn x, atPassage (pass (fun tn => { tn with g := { tn.g with wins := [win0] } })) tn 1 ∧ tn.g.wins.find? (fun e => e.wid == 3) = some x ∧
      x.isLocal = false ∧ notAsked tn ∧ reached walked { tn with pasid := 0 } [(devVa.toNat, 16, true)]) :=
  ⟨⟨_, _, _, ⟨rfl, by decide⟩, rfl, by decide⟩, ⟨_, ⟨rfl, by decide⟩, by decide⟩, ⟨_, ⟨rfl, by decide⟩, by decide⟩,
    ⟨_, ⟨rfl, by decide⟩, rfl, by decide, by decide +kernel⟩, ⟨_, _, ⟨rfl, by decide⟩, rfl, rfl⟩, ⟨_, ⟨rfl, by decide⟩, by decide +kernel⟩,
    ⟨_, _, ⟨rfl, by decide⟩, rfl, rfl, (fun _ _ h => by cases (show WaitSt.none = WaitSt.quiet _ _ from h)), ⟨_, rfl⟩, .inr (by decide +kernel)⟩⟩
/-- A local window of another pound, and one of the entered pound. -/
theorem witness_PassageEnterAndLeave_local : ∀ b ∈ [true, false], ∃ tn x,
    atPassage (pass (fun tn => { tn with g := { tn.g with wins := [{ win0 with isLocal := true, pound := if b then 1 else 0 }] } })) tn 1 ∧ tn.lk.lstate = 1 ∧
    tn.g.wins.find? (fun e => e.wid == 3) = some x ∧ x.isLocal = true ∧ decide (x.pound ≠ tn.lk.lpound.toNat) = b := by
  intro b h
  simp only [List.mem_cons, List.not_mem_nil, or_false] at h
  rcases h with rfl | rfl <;> exact ⟨_, _, ⟨rfl, by decide⟩, rfl, rfl, rfl, by decide +kernel⟩
theorem test_settle_local : leads (.settle 3) (pass (fun tn => { tn with g := { tn.g with wins := [{ win0 with isLocal := true, pound := 1 }] } }))
    (fun tn => tn.lk.lpc == 11) = true := by decide +kernel
/-- A tenure at each place of the course of `done`, with its command, its region and a bound queue. -/
def leaving (g : Tenure → Tenure) : State := host [{ cmd [1] with idx := 9, st := .active }] (fun tn => g (inPhase .running tn)) (fun s => { s with
  vqs := [(5, ⟨0, false, 1024, [], some (1, 0), 0, none, false⟩)] })
theorem witness_PassageRetires : (∃ tn, (leaving id).tenures.get? 1 = some tn ∧ tn.lk.lstate ≠ 2 ∧ tn.lkWait = .none ∧ rootsDone (leaving id) 1 = true) ∧
    (∃ tn, (leaving (fun tn => { tn with lk := { tn.lk with lstate := 2 } })).tenures.get? 1 = some tn ∧ tn.lk.lstate = 2 ∧ tn.lkWait = .none ∧
      reached (leaving id) tn (leavingRanges (leaving id) tn)) ∧
    (∃ tn, (leaving (fun tn => { tn with lkWait := .confirm })).tenures.get? 1 = some tn ∧ tn.lkWait = .confirm) ∧
    (∃ tn r, (leaving (fun tn => { tn with lkWait := .begun })).tenures.get? 1 = some tn ∧ tn.lkWait = .begun ∧ tn.region = some r ∧
      ∃ x c, (leaving id).queues.get? tn.queue = some x ∧ x.cmd? tn.cmd = some c) :=
  ⟨⟨_, rfl, by decide, rfl, by decide +kernel⟩, ⟨_, rfl, rfl, rfl, ⟨_, rfl⟩, .inl rfl⟩, ⟨_, rfl, rfl⟩, ⟨_, _, rfl, rfl, rfl, _, _, rfl, rfl⟩⟩
/-- `done` frees the queue and completes the LAUNCH. -/
theorem test_done_completes : nextIs (exec .done (leaving (fun tn => { tn with lkWait := .begun }))) (fun s =>
    s.tenures == [] && (s.vqs.get? 5).map VqRt.bound == some none &&
      (match s.queues.get? 1 with
        | some x => (x.pending.getLast?).map (fun p => (bitsOf p.word0.toNat 32 16, p.result)) == some (0, 3)
        | none => false)) = true := by decide +kernel

theorem witness_HostQueuesAndCompletions_descriptor : descOk (0x10000 + 0x10000 * 2 ^ 64 + 6 * 2 ^ 128 + 16 * 2 ^ 136 + 2 ^ 148) = true ∧
    descOk (0x10000 + 0x10000 * 2 ^ 64 + 5 * 2 ^ 128 + 16 * 2 ^ 136 + 2 ^ 148) = false ∧
    mboxSubmitted { node id with mboxDoor := 1 } = false ∧ mboxSubmitted { stageS 1 .none with mboxDoor := 1 } = true ∧ (stageS 1 .none).stage ≠ 3 := by
  decide +kernel
theorem witness_RegistersAndGovernor_interval : (node id).gov[0].last < { node id with nowNs := 50000 }.interval ∧
    { node id with nowNs := 49999 }.interval ≤ (node id).gov[0].last ∧ (node id).gov[0].readAt ≠ some 0 ∧
    queueAt? (host [] id id) 0 = some (1, queue0 []) ∧ queueAt? (host [] id id) 1 = none := by decide +kernel
theorem witness_SignalAndWaitCommands_page : (∃ a, hostRange (host [] id id) (.command 1 0) 0 0x40000 8 false = .ask a) ∧
    (∃ parts, hostRange (host [] id id) (.command 1 0) 0 0x10800 8 false = .ok parts) := ⟨⟨_, rfl⟩, _, rfl⟩

theorem witness_LaunchAndRegionResult_tokens : ∃ tn, admitted.tenures.get? 1 = some tn ∧ admissionTurn admitted tn = true ∧
    (nextCandidate admitted tn).isSome = true ∧ lackingToken admitted 1 ⟨0, 9⟩ = none ∧ lackingToken admitted 1 ⟨0, 11⟩ = some 0 ∧
    lackingToken { admitted with tokens := Vector.replicate 4 (some 1) } 1 ⟨0, 11⟩ = none := ⟨_, rfl, by decide +kernel⟩
theorem witness_LoadsAndSubtrees_reads : planeBusy (loading true) tn0 = false ∧
    (∃ tn r, { loading true with planes := [(0, ⟨⟨0, 0⟩, 2, false, 0, 0⟩)] }.tenures.get? 1 = some tn ∧ tn.region = some r ∧ r.first = 0 ∧
      planeBusy { loading true with planes := [(0, ⟨⟨0, 0⟩, 2, false, 0, 0⟩)] } tn = true) ∧
    ((locked tn0).load.map (fun l => (Load.acked l tn0.g [] true).isNone)) = some true ∧
    outstanding (flight .accAck (fun s => s)) [(1, 4)] = true := ⟨by decide +kernel, ⟨_, _, rfl, rfl, by decide +kernel⟩, by decide +kernel, by decide +kernel⟩

/-- R222: a permission with carg 0 from `o2` of a loop-exit drain, behind a fork, at one input of an addition. -/
def deniedS : State :=
  let s := oper (opWord 1 6 0) [[dat 6 1], [dataRec 0 5 0 []]] id
  { s with
    chans := s.chans.map (fun (e : Nat × ChanRt) => if e.1 = key2 1 1 then (e.1, { e.2 with e := { e.2.e with src := 3 } }) else e) ++
      [(key2 1 20, ChanRt.entry { outE with src := 4, oport := 2, dst := 3 })]
    opers := s.opers ++ [(key2 1 3, { OperRt.entry tn0.g 3 (opWord 0x30 0 0) Fmt.zero with inCh := (Vector.replicate 16 none).set 0 (some 20) }),
      (key2 1 4, OperRt.entry tn0.g 4 (opWord 0x3A 0 0) Fmt.zero)] }
theorem witness_OperatorFirings_denied : operAtB deniedS 1 = true ∧ (∃ i ∈ insOf deniedS 1 (operOf deniedS), i.resident = false ∧ deniesFiring deniedS 1 i = true) ∧
    (streamHeads deniedS 1 (operOf deniedS)).all (fun r => rType r == tData) = true := by decide +kernel
theorem test_denied : sends .nullFiring deniedS 0 = some [madeNull (dat 6 1).hdr] ∧ sends .arithmeticFiring deniedS 0 = some [] := by
  decide +kernel
/-- R216: the control record selects a side with a token while the other side is empty. -/
theorem witness_StreamOperators_merge : operAtB (oper (opWord 0x32 0 0) [[madeRec tBow 1 0], [], [dat 1 0]] id) 0x32 = true ∧
    operAtB (oper (opWord 0x32 0 0) [[madeRec tBow 1 0], [madeRec tBow 2 0], []] id) 0x32 = true ∧
    (insOf (oper (opWord 0x32 0 0) [[madeRec tBow 1 0], [], [dat 1 0]] id) 1 (operOf (oper (opWord 0x32 0 0) [[madeRec tBow 1 0], [], [dat 1 0]] id))).length = 3 := by
  decide +kernel
theorem test_merge_mismatch : nextIs (exec .merge (oper (opWord 0x32 0 0) [[madeRec tBow 1 0], [], [dat 1 0]] id)) (fun s => (operOf s).halted) = true ∧
    sends .merge (oper (opWord 0x32 0 0) [[madeRec tBow 1 0], [madeRec tBow 2 0], []] id) 0 = some [madeRec tBow 1 0] := by decide +kernel

/-- A sort of z32 keys in descending order, the first three of them (R252). -/
def sortS (keys : List W64) : State := matS [dataRec 6 5 keys.length keys] [] (fun _ =>
  { MatRt.entry tn0.g 2 (9 * 2 ^ 120 + 6 * 2 ^ 112 + 3 * 2 ^ 97) Fmt.zero with
    inCh := (Vector.replicate 16 none).set 0 (some 0), outCh := (Vector.replicate 16 none).set 0 (some 8) })
theorem witness_MatrixFirings_sort : (∃ m, matAt (sortS [0x0000000100000003, 0x0000000300000002]) 1 2 m true ∧
      clearInputs (sortS [0x0000000100000003, 0x0000000300000002]) 1 []
        (fireIns (sortS [0x0000000100000003, 0x0000000300000002]) 1 m.inCh.toList 0) = sortS [0x0000000100000003, 0x0000000300000002]) ∧
    (roundRobin 1 (fireIns (ctrlS seqWord 6 [] [madeRec tDone 0 0]) 1 ((((Vector.replicate 16 none).set 15 (some 0)).set 0 (some 1)).toList) 0)
      (fun i => i.port != 15)).isSome = true :=
  ⟨⟨_, ⟨rfl, rfl, rfl, by decide +kernel, by decide +kernel⟩, by rfl⟩, by decide +kernel⟩
/-- R252: the three greatest of 3, 1, 2, 3; no key at all; and the rule's own example, a NaN among bf16 keys with implied tokens. -/
theorem test_sort : sends .sort (sortS [0x0000000100000003, 0x0000000300000002]) 0 = some [dataRec 6 5 3 [0x0000000300000003, 2]] ∧
    nextIs (exec .sort (sortS [])) (fun s => (matOf s).halted) = true ∧
    sortRecs (MatRt.entry tn0.g 2 (0x0A * 2 ^ 120 + 0x11 * 2 ^ 112 + 4 * 2 ^ 104 + 2 ^ 97) Fmt.zero)
      (dataRec 0x11 5 0 [0x4040BF8040403E80, 0x0000000000007FC1]) none =
      .ok [(0, dataRec 0x11 5 1 [0x7FC1]), (1, dataRec 4 5 1 [4])] := by decide +kernel

/-- R337, R342: a host-shared write at the host port, behind another. -/
def portS0 (strict : Bool) : State := { node id with subj := .msg 3, hostPort := [⟨2, 1, 0, none, false, 0x9000, [(0, [1])], none, none, [], [], none, [], []⟩,
  ⟨3, 1, 0, none, strict, 0x9010, [(0, [7])], none, none, [], [], none, [], []⟩] }
theorem witness_MemoryEvents_port : (portS0 false).msg? 3 = none ∧ ((portS0 false).hostPort.find? (fun p => p.id == 3)).isSome = true ∧
    ((portS0 true).hostPort.head?).map PortWrite.id ≠ some 3 ∧ hostStoresOut (portS0 false) 1 (some 0) = true := by decide +kernel
theorem test_port_write : nextIs (exec .storePerformed (portS0 false)) (fun s => s.hostMem == [(0x9010, 7)] && s.hostPort.length == 1) = true ∧
    nextIs (exec .storePerformed (portS0 true)) (fun s => s.hostMem == [] && s.hostPort.length == 2) = true := by decide +kernel
/-- R305: a gate whose word stands at the accessed bytes. -/
def gated (k : MsgKind) : State := flight k (fun s => { walked with
  subj := s.subj, tenures := s.tenures, tasks := s.tasks, net := s.net, tlbs := s.tlbs, nextMsg := 4, gates := [(key2 1 1, { gate0 with gaddr := devVa.toNat })] })
theorem witness_MemoryEvents_gate : clobbers (gated .accAck) (.dev 0x10000) 1 = true ∧ clobbers (gated .accAck) (.dev 0x1000F) 1 = true ∧
    clobbers (gated .accAck) (.dev 0x10010) 1 = false ∧ readWaits (gated .accAck) ⟨3, 1, 0, none, 1, 0, 0, none, .accAck⟩ = false ∧
    readWaits { store0 with net := store0.net ++ [⟨4, 1, 0, none, 1, 0, 0, none, .load devVa.toNat 1 (.dev 0x10000) false (.g 1) none 0⟩] }
      ⟨4, 1, 0, none, 1, 0, 0, none, .load devVa.toNat 1 (.dev 0x10000) false (.g 1) none 0⟩ = true := by decide +kernel
theorem test_clobber : nextIs (exec .storePerformed (gated (.store devVa.toNat [1] (.dev 0x10000) none))) (fun s =>
      s.devMem == walked.devMem && tenureIs s (fun tn => tn.faultLane.length == 1)) = true ∧
    nextIs (exec .accumulateArrival (gated (.acc 3 devVa.toNat (some 0x10000) 1 0))) (fun s =>
      s.devMem == walked.devMem && tenureIs s (fun tn => tn.laneFaults.map FaultRec.src == [7])) = true := by decide +kernel

theorem witness_LighterEvents_gather : nextRead [(0x100000000010020, 40)] 0 = some (0x100000000010020, 32) ∧
    nextRead [(0x100000000010020, 40)] 32 = some (0x100000000010040, 8) ∧ nextRead [(0x100000000010020, 40)] 40 = none ∧
    payloadDone (reqS .none id) tn0 req0 = false ∧ payloadDone (reqS .none id) tn0 { req0 with done := [blk0, blk1] } = true := by decide +kernel
/-- The state of a transform in which nothing moves. -/
def stillS (f : LReq → LReq) : State := (xfS f []).modTask 1 0 (fun k => { k with st := .idle })
theorem witness_LighterEvents_ratio : transformStill (stillS id) 1 (xfTenure tn0) 0 1 = true ∧ reqX.rowbytes = 32 ∧
    ({ reqX with sent := 32 }).rowbytes ≤ ({ reqX with sent := 32 }).sent := by decide +kernel
/-- R279: no more output can come for a row that is short of its ratio. -/
theorem test_short_row : nextIs (exec .transformRow (stillS (fun q => { q with sent := 32 }))) (fun s => reqIs s (fun q => q.stopped) &&
    tenureIs s (fun tn => tn.faultLane.length == 1)) = true := by decide +kernel
/-- A request whose write stands at the host port, one whose read was lost, and one whose accesses come after a write at the host port. -/
theorem witness_LighterEvents_port : reqPortOut { reqS .none id with hostPort := [{ fencedWrite with lighter := some 0, req := some 3 }] } 0 3 = true ∧
    reqPortOut (reqS .none id) 0 3 = false ∧ fencedOut { reqS .none id with hostPort := [fencedWrite] } 1 none 3 = true ∧
    fencedOut { reqS .none id with hostPort := [{ fencedWrite with fenced := none, ahead := [3] }] } 1 none 3 = true ∧ fencedOut (reqS .none id) 1 none 3 = false ∧
    ({ req0 with lost := [5] }).lost.contains blk0 = false ∧ req0.stopped = false ∧ req0.cwen = true ∧
    isDevice ((req0.dst : Int) + req0.cwoff).toNat = true ∧
    pairLost { reqS .none id with links := [(linkKey 0 1, { LinkRt.reset with mods := [] })] } 0 (unitDie (physUnit (.dev 0x10000))) = true ∧
    pairLost (reqS .none id) 0 (unitDie (physUnit (.dev 0x10000))) = false := by decide +kernel
/-- A row whose source is sent: its output is whole, or something can still come. -/
theorem witness_LighterEvents_rows : transformStill (xfS (fun q => { q with sent := 32 }) []) 1 (xfTenure tn0) 0 1 = false ∧
    (∃ q, ({ reqX with sent := 32, got := [(0, List.replicate 32 0)] }) = q ∧ (q.got.getD q.row []).length = q.dstBytes (xfTenure tn0) ∧ q.rowbytes ≤ q.sent) ∧
    reqX.rows ≤ ({ reqX with row := 1 }).row := ⟨by decide +kernel, ⟨_, rfl, by decide +kernel, by decide⟩, by decide⟩
/-- The published check value of CRC-32C, of the digits 1 to 9. -/
theorem test_crc : crc32c 72 0x393837363534333231 = 0xE3069283 := by decide +kernel
/-- R295: a target that is not 16-byte aligned halts its stream; a stern flushes the lighter. -/
theorem test_stream_align : nextIs (exec .accumulateStreamRecord (portS (.accs 0 3) (dataRec 5 0 0 [0x0100000000010008, 1])))
      (fun s => tenureIs s (fun tn => tn.haltedStreams == [1] && tn.faultLane.length == 1)) = true ∧
    nextIs (exec .accumulateStreamRecord (portS (.accs 0 3) (madeRec tStern 0 0))) (fun s => (s.chan? 1 1).map ChanRt.buf == some []) = true := by
  decide +kernel

end Sys2Proof.Tests
end

/-! PROOFS. Writes of host registers, the budgets of the dies, and the governor's comparison (R7, R26 to R28, R386). -/

namespace Sys2Proof.Machine

/-! ### The events with their subjects, while the module runs -/

section
variable {s : State} (hp : s.powered = true)
include hp

theorem exec_registerWrite {r : RegAddr} {v : W64} (hs : s.subj = .register r v) :
    exec .registerWrite s = .next (registerWrite r v s) := by
  change execRegisterWrite s = _
  simp [execRegisterWrite, hs, hp]

theorem exec_pwrBudgetWrite {d : Nat} {w : W32} (hs : s.subj = .die d w) :
    exec .pwrBudgetWrite s = .next (setBudget d w s) := by
  change execPwrBudgetWrite s = _
  simp [execPwrBudgetWrite, hs, hp]

theorem exec_governorTick {d : Nat} {w : W32} (hs : s.subj = .die d w) :
    exec .governorTick s = .next (governorTick d w s) := by
  change execGovernorTick s = _
  simp [execGovernorTick, hs, hp]

end

/-! ### A register written (R7, R386) -/

/-- Eight bytes within MBOX_REQ are all taken. -/
theorem registerWrite_mboxReq {s : State} {off : Nat} (v : W64) (h : off + 8 ≤ 0x1000) :
    registerWrite (.bar2 off) v s = { s with bar2 := s.bar2.write off (leBytes v.toNat 8) } := by
  have whole : min 8 (0x1000 - off) = 8 := by omega
  have inside : off < 0x1000 := by omega
  simp only [registerWrite, if_pos inside, whole]

theorem registerWrite_mboxDoor (s : State) (v : W64) :
    registerWrite (.bar2 0x2000) v s = { s with mboxDoor := v.truncate 32 } := rfl

/-- Eight bytes within the MSI-X table are all taken; no interrupt is sent for a vector that does not pend. -/
theorem registerWrite_msixTable {s : State} {off : Nat} (v : W64) (lo : 0x10000 ≤ off) (hi : off + 8 ≤ 0x18000)
    (idle : s.msixPba.contains ((off - 0x10000) / 16) = false) :
    registerWrite (.bar2 off) v s = { s with bar2 := s.bar2.write off (leBytes v.toNat 8) } := by
  have notReq : ¬ off < 0x1000 := by omega
  have notDoor : off ≠ 0x2000 := by omega
  have inside : 0x10000 ≤ off ∧ off < 0x18000 := by omega
  have whole : min 8 (0x18000 - off) = 8 := by omega
  simp only [registerWrite, if_neg notReq, if_neg notDoor, if_pos inside, whole, idle, Bool.false_and, Bool.false_eq_true, if_false]

/-- Outside MBOX_REQ, MBOX_DOOR and the MSI-X table BAR2 is read-only or Reserved. -/
theorem registerWrite_bar2_ignored {s : State} {off : Nat} (v : W64) (notReq : 0x1000 ≤ off) (notDoor : off ≠ 0x2000)
    (notTable : off < 0x10000 ∨ 0x18000 ≤ off) : registerWrite (.bar2 off) v s = s := by
  have outside : ¬ (0x10000 ≤ off ∧ off < 0x18000) := by omega
  simp only [registerWrite, if_neg (Nat.not_lt.mpr notReq), if_neg notDoor, if_neg outside]

/-- A write to the kick page of a queue: KICK_TAIL and CPL_HEAD alone take it. -/
theorem registerWrite_kick {s : State} {slot q : Nat} {x : QueueRt} (off : Nat) (v : W64) (hq : queueAt? s slot = some (q, x)) :
    registerWrite (.kick slot off) v s =
      if off = 0 then kickTailWrite q (v.truncate 32) s
      else if off = 8 then s.modQueue q (fun x => { x with cplHead := v.truncate 32 }) else s := by
  simp only [registerWrite, hq]

theorem registerWrite_kick_unassigned {s : State} {slot : Nat} (off : Nat) (v : W64) (hq : queueAt? s slot = none) :
    registerWrite (.kick slot off) v s = s := by
  simp only [registerWrite, hq]

/-- A write to the governor block of a die: GOV_EVENTS alone takes it, and loses the bits that are written as 1. -/
theorem registerWrite_gov (s : State) (d : Fin 4) (off : Nat) (v : W64) :
    registerWrite (.gov d.val off) v s =
      if off = 0x10 then { s with gov := s.gov.set d { s.gov[d] with events := s.gov[d].events &&& ~~~(v.truncate 32) } } else s := by
  simp only [registerWrite, dif_pos d.isLt, Fin.getElem_fin]

theorem hostRegisterWrites_holds : hostRegisterWrites := by
  refine ⟨fun s off v hs hp => ?_, fun s off v hs hp => exec_registerWrite hp hs, fun s slot q off x v hs hp hq => ?_,
    fun s slot off v hs hp hq => ?_, fun s d off v hs hp => ?_⟩ <;> rw [exec_registerWrite hp hs]
  · refine ⟨fun h => ?_, fun h => ?_, fun lo hi idle => ?_, fun notReq notDoor notTable => ?_⟩
    · rw [registerWrite_mboxReq v h]
    · rw [h, registerWrite_mboxDoor]
    · rw [registerWrite_msixTable v lo hi idle]
    · rw [registerWrite_bar2_ignored v notReq notDoor notTable]
  · rw [registerWrite_kick off v hq]
    exact ⟨fun h => by rw [if_pos h], fun h => by rw [if_neg (by omega), if_pos h], fun h0 h8 => by rw [if_neg h0, if_neg h8]⟩
  · rw [registerWrite_kick_unassigned off v hq]
  · rw [registerWrite_gov]
    exact ⟨fun h => by rw [if_pos h], fun h => by rw [if_neg h]⟩

/-! ### A budget written (R28) -/

theorem setBudget_taken {s : State} {d : Fin 4} {w : W32} (lo : 600 ≤ w.toNat) (hi : w.toNat ≤ 1250)
    (sum : otherBudgets s d.val + w.toNat ≤ 5000) :
    setBudget d.val w s = { s with gov := s.gov.set d { s.gov[d] with budget := w } } := by
  have sound : ¬ (w.toNat < 600 ∨ 1250 < w.toNat ∨ 5000 < otherBudgets s d.val + w.toNat) := by omega
  simp only [setBudget, dif_pos d.isLt, if_neg sound, Fin.getElem_fin]

theorem setBudget_ignored {s : State} {d : Fin 4} {w : W32}
    (bad : w.toNat < 600 ∨ 1250 < w.toNat ∨ 5000 < otherBudgets s d.val + w.toNat) : setBudget d.val w s = s := by
  simp only [setBudget, dif_pos d.isLt, if_pos bad]

/-! ### A comparison (R26) -/

section
variable {g : GovRt} {w : W32}

theorem GovRt.tick_stepDown (excess : g.budget.toNat < w.toNat) (above : g.floor.toNat < g.fclk.toNat) :
    g.tick w = { g with now := w, fclk := g.fclk - 1, events := g.events ||| 1 } := by
  simp only [GovRt.tick, if_pos excess, if_pos above]

theorem GovRt.tick_atFloor (excess : g.budget.toNat < w.toNat) (floor : g.fclk.toNat ≤ g.floor.toNat) :
    g.tick w = { g with now := w, events := g.events ||| 2 } := by
  simp only [GovRt.tick, if_pos excess, if_neg (Nat.not_lt.mpr floor)]

theorem GovRt.tick_stepUp (spare : w.toNat + 150 ≤ g.budget.toNat) (below : g.fclk.toNat < 33) :
    g.tick w = { g with now := w, fclk := g.fclk + 1 } := by
  have within : ¬ g.budget.toNat < w.toNat := by omega
  simp only [GovRt.tick, if_neg within, if_pos (And.intro spare below)]

theorem GovRt.tick_hold (within : w.toNat ≤ g.budget.toNat) (stay : g.budget.toNat < w.toNat + 150 ∨ 33 ≤ g.fclk.toNat) :
    g.tick w = { g with now := w } := by
  have noStep : ¬ (w.toNat + 150 ≤ g.budget.toNat ∧ g.fclk.toNat < 33) := by omega
  simp only [GovRt.tick, if_neg (Nat.not_lt.mpr within), if_neg noStep]

end

@[simp] theorem nowOn_fin (s : State) (d : Fin 4) : s.nowOn d.val = s.clk[d] := by
  simp [State.nowOn]

/-- The state in which the governor of die `d` has compared measured power `w` with its budget. -/
def compared (s : State) (d : Fin 4) (w : W32) : State :=
  { s with gov := s.gov.set d { s.gov[d].tick w with last := s.interval } }

/-- No comparison in an interval that has had one, and none in a cycle in which FCLK_NOW has been read. -/
theorem governorTick_none {s : State} {d : Fin 4} (w : W32) (h : s.interval ≤ s.gov[d].last ∨ s.gov[d].readAt = some s.clk[d]) :
    governorTick d.val w s = s := by
  rw [← nowOn_fin s d] at h
  exact (dif_pos d.isLt).trans (if_pos h)

/-- A due comparison is the governor's tick; only a die above its budget at the floor clock is reported as well. -/
theorem governorTick_due {s : State} {d : Fin 4} (w : W32) (new : s.gov[d].last < s.interval) (unread : s.gov[d].readAt ≠ some s.clk[d]) :
    governorTick d.val w s =
      if s.gov[d].budget.toNat < w.toNat ∧ s.gov[d].fclk.toNat ≤ s.gov[d].floor.toNat then
        report { compared s d w with osEvents := s.osEvents ++ [OsEvent.governor d.val] } 1 [d.val]
      else compared s d w := by
  have due : ¬ (s.interval ≤ s.gov[d].last ∨ s.gov[d].readAt = some (s.nowOn d.val)) := by
    rw [nowOn_fin]
    exact not_or.mpr ⟨Nat.not_le.mpr new, unread⟩
  exact (dif_pos d.isLt).trans (if_neg due)

/-- A read of FCLK_NOW gives the clock, and is remembered for the rest of its cycle. -/
theorem registerRead_fclkNow (s : State) (d : Fin 4) :
    registerRead (.gov d.val 0x08) s = (s.gov[d].fclk.setWidth 64, { s with gov := s.gov.set d { s.gov[d] with readAt := some s.clk[d] } }) := by
  simp [registerRead, readRegister, readGov, noteRead]

theorem governorResult_holds : governorResult := by
  refine ⟨fun s d w hs hp => ?_, fun s d w hs hp => ?_, fun _ => rfl, registerRead_fclkNow⟩
  · rw [exec_pwrBudgetWrite hp hs]
    exact ⟨fun lo hi sum => by rw [setBudget_taken lo hi sum], fun bad => by rw [setBudget_ignored bad]⟩
  · rw [exec_governorTick hp hs]
    refine ⟨fun new unread => ?_, fun h => by rw [governorTick_none w h]⟩
    rw [governorTick_due w new unread]
    refine ⟨fun excess above => ?_, fun excess floor => ?_, fun spare below => ?_, fun within stay => ?_⟩
    · rw [if_neg (by omega), compared, GovRt.tick_stepDown excess above]
    · rw [if_pos ⟨excess, floor⟩, compared, GovRt.tick_atFloor excess floor]
    · rw [if_neg (by omega), compared, GovRt.tick_stepUp spare below]
    · rw [if_neg (by omega), compared, GovRt.tick_hold within stay]

/-- Settles O39: the clauses on host registers and on the governor, each from the lemma about its operation. -/
theorem registersAndGovernor : Obligations.RegistersAndGovernor := ⟨hostRegisterWrites_holds, governorResult_holds⟩

end Sys2Proof.Machine

/-! PROOFS. The registers after reset, at pound entry and at admission (R28, R157, R353). -/

namespace Sys2Proof.Machine

/-! ### The governor blocks after reset (R28) -/

/-- Every die's governor block is the one that `GovRt.reset` writes out, so what holds of that block holds of each. -/
theorem State.reset_gov (d : Fin 4) : State.reset.gov[d] = GovRt.reset :=
  Vector.getElem_replicate d.isLt

theorem resetGovernorRegisters_holds : resetGovernorRegisters := by
  intro d
  rw [State.reset_gov d]
  exact ⟨rfl, rfl, rfl, rfl, rfl⟩

/-! ### The registers of a task node at pound entry (R157) -/

section
variable (code : List W32) (bank : Nat) (fmt : Fmt) (i o : Vector (Option Nat) 16) (trigp : Nat)

@[simp] theorem TaskRt.entry_g (r : Fin 16) : (TaskRt.entry code bank fmt i o trigp).g[r] = 0 :=
  Vector.getElem_replicate r.isLt
@[simp] theorem TaskRt.entry_a (r : Fin 8) : (TaskRt.entry code bank fmt i o trigp).a[r] = 0 :=
  Vector.getElem_replicate r.isLt
@[simp] theorem TaskRt.entry_v (r : Fin 8) : (TaskRt.entry code bank fmt i o trigp).v[r] = 0 :=
  Vector.getElem_replicate r.isLt
@[simp] theorem TaskRt.entry_p (r : Fin 4) : (TaskRt.entry code bank fmt i o trigp).p[r] = 0 :=
  Vector.getElem_replicate r.isLt

end

/-- The registers of a task node by bank; the lockkeeper's are the Reset column of R353, which `Lockkeeper.reset` writes out. -/
theorem entryRegistersZero_holds : entryRegistersZero := by
  refine ⟨fun code bank fmt i o p => ⟨fun r => ?g, fun r => ⟨?a, ?v⟩, fun r => ?p⟩, ?lockkeeper⟩
  case g => exact TaskRt.entry_g code bank fmt i o p r
  case a => exact TaskRt.entry_a code bank fmt i o p r
  case v => exact TaskRt.entry_v code bank fmt i o p r
  case p => exact TaskRt.entry_p code bank fmt i o p r
  case lockkeeper => exact ⟨rfl, rfl, rfl, rfl, rfl, rfl, rfl, rfl, rfl, rfl, rfl, rfl⟩

/-- Settles O2: the governor blocks of reset, the registers of a task node at entry, and the lockkeeper's at admission. -/
theorem resetAndEntryValues : Obligations.ResetAndEntryValues := ⟨resetGovernorRegisters_holds, entryRegistersZero_holds⟩

end Sys2Proof.Machine

/-! PROOFS. PAUSE, RESUME and KILL, and the course of a pause (R43, R65, R363 to R366). -/

namespace Sys2Proof.Machine

/-! ### The head command of a queue starts -/

/-- No command of the queue that has started can go on, so the command event starts the one at its head. -/
theorem commandEvent_head {mine : Cmd → Bool} {run : State → Nat → QueueRt → Cmd → State} {s : State} {q : Nat} {x : QueueRt} {c : Cmd}
    (h : atHead s q x c) (sound : c.barred s = false) (own : mine c = true) :
    commandEvent mine run s = run (startCmd s q c.idx) q x c := by
  obtain ⟨hsubj, hpow, hring, hq, hstarted, hhead, hwins⟩ := h
  have none_goes_on : x.cmds.find? (fun d => d.st == .started && mine d && !awaitsPage s q d) = none := by
    rw [List.find?_eq_none]
    intro d hd
    by_cases hst : d.st = .started
    · simp [hstarted d hd hst]
    · simp [hst]
  simp [commandEvent, hsubj, hpow, hring, hq, none_goes_on, hhead, hwins, sound, own]

/-- PAUSE, RESUME and KILL name no address. -/
theorem Cmd.barred_of_tenureCommand {c : Cmd} {op : Nat} (s : State) (hop : op = 6 ∨ op = 7 ∨ op = 8) (hc : c.op = op)
    (sound : c.malformed = false) : c.barred s = false := by
  have noAddress : c.namesHost = false := by
    obtain rfl | rfl | rfl := hop <;> simp [Cmd.namesHost, hc]
  simp [Cmd.barred, sound, noAddress]

/-! ### PAUSE (R65, R363) -/

section
variable {s : State} {q t : Nat} {x : QueueRt} {c : Cmd} {tn : Tenure}

theorem exec_pausePreferred (h : namesTenure s q x c 6 t tn) (hw : c.w 2 = 0) :
    exec .pausePreferred s = .next (runPause (startCmd s q c.idx) q x c) := by
  obtain ⟨hhead, sound, hop, -⟩ := h
  exact congrArg _ (commandEvent_head hhead (Cmd.barred_of_tenureCommand s (.inl rfl) hop sound) (by simp [hop, hw]))

theorem exec_pauseForced (h : namesTenure s q x c 6 t tn) (hw : c.w 2 = 1) :
    exec .pauseForced s = .next (runPause (startCmd s q c.idx) q x c) := by
  obtain ⟨hhead, sound, hop, -⟩ := h
  exact congrArg _ (commandEvent_head hhead (Cmd.barred_of_tenureCommand s (.inl rfl) hop sound) (by simp [hop, hw]))

variable (named : tenureOf s x.pasid c.handle = some (t, tn)) (able : c.w 2 = 1 → s.forcedPause = true)
include named able

theorem runPause_running (ph : tn.phase = .running) :
    runPause s q x c = setCmd (startPause s t (decide (c.w 2 = 1) || decide (tn.g.segmax = 0)) false (some (q, c.idx))) q c.idx .active := by
  have notBarred : (decide (c.w 2 = 1) && !s.forcedPause) = false := by simpa using able
  simp [runPause, notBarred, named, ph]

theorem runPause_admission (ph : tn.phase = .admission) : runPause s q x c =
    complete (releaseTokens (s.modTenure t (fun y => { y with phase := .pausedAdmission })) t) q c.idx stOk 0 0 := by
  have notBarred : (decide (c.w 2 = 1) && !s.forcedPause) = false := by simpa using able
  simp [runPause, notBarred, named, ph]

theorem runPause_pausing (ph : tn.phase = .pausing) : runPause s q x c =
    setCmd (s.modTenure t (fun y => { y with pause := y.pause.map (fun p => { p with cmds := p.cmds ++ [(q, c.idx)] }) })) q c.idx .active := by
  have notBarred : (decide (c.w 2 = 1) && !s.forcedPause) = false := by simpa using able
  simp [runPause, notBarred, named, ph]

theorem runPause_badState (ph : tn.phase = .paused ∨ tn.phase = .held ∨ tn.phase = .replacing) :
    runPause s q x c = complete s q c.idx stBadState 0 0 := by
  have notBarred : (decide (c.w 2 = 1) && !s.forcedPause) = false := by simpa using able
  obtain ph | ph | ph := ph <;> simp [runPause, notBarred, named, ph]

end

/-! ### RESUME and KILL (R65, R366) -/

/-- A tenure whose pause is not in progress, and for which no RESUME waits, has no command to complete but its LAUNCH. -/
theorem Tenure.waitingCmds_nil {tn : Tenure} (ph : tn.phase ≠ .pausing) (alone : tn.resumes = []) : tn.waitingCmds = [] := by
  cases hp : tn.pause <;> simp [Tenure.waitingCmds, hp, ph, alone]

section
variable {s : State} {q t : Nat} {x : QueueRt} {c : Cmd} {tn : Tenure}

theorem exec_resume (h : namesTenure s q x c 7 t tn) : exec .resume s = .next (runResume (startCmd s q c.idx) q x c) := by
  obtain ⟨hhead, sound, hop, -⟩ := h
  exact congrArg _ (commandEvent_head hhead (Cmd.barred_of_tenureCommand s (.inr (.inl rfl)) hop sound) (by simp [hop]))

theorem exec_kill (h : namesTenure s q x c 8 t tn) : exec .kill s = .next (runKill (startCmd s q c.idx) q x c) := by
  obtain ⟨hhead, sound, hop, -⟩ := h
  exact congrArg _ (commandEvent_head hhead (Cmd.barred_of_tenureCommand s (.inr (.inr rfl)) hop sound) (by simp [hop]))

/-- A RESUME that waits for its tenure beside those that wait for it already. -/
def resumeWaits (s : State) (q t idx : Nat) : State :=
  setCmd (s.modTenure t (fun y => { y with resumes := y.resumes ++ [(q, idx)] })) q idx .active

variable (named : tenureOf s x.pasid c.handle = some (t, tn))
include named

theorem runResume_inPlace (ph : tn.phase = .paused) (able : missingFeatures s tn = 0) (held : tn.region.isSome = true) :
    runResume s q x c = runAgain (resumeWaits s q t c.idx) t := by
  simp [runResume, resumeWaits, named, ph, able, held]

theorem runResume_replacing (ph : tn.phase = .paused) (able : missingFeatures s tn = 0) (gone : tn.region = none) :
    runResume s q x c = (resumeWaits s q t c.idx).modTenure t (fun y => { y with phase := .replacing, tried := [], failures := [] }) := by
  simp [runResume, resumeWaits, named, ph, able, gone]

theorem runResume_restoreFeature (ph : tn.phase = .paused) (lacks : missingFeatures s tn ≠ 0) :
    runResume s q x c = complete s q c.idx cRestoreFeature 0 (BitVec.ofNat 64 (missingFeatures s tn)) := by
  simp [runResume, named, ph, lacks]

theorem runResume_pausedAdmission (ph : tn.phase = .pausedAdmission) :
    runResume s q x c = (resumeWaits s q t c.idx).modTenure t (fun y => { y with phase := .admission }) := by
  simp [runResume, resumeWaits, named, ph]

theorem runResume_badState (ph : tn.phase = .running ∨ tn.phase = .admission ∨ tn.phase = .pausing) :
    runResume s q x c = complete s q c.idx stBadState 0 0 := by
  obtain ph | ph | ph := ph <;> simp [runResume, named, ph]

theorem runKill_running (ph : tn.phase = .running) (alone : tn.resumes = []) :
    runKill s q x c = complete (endTenure (launchLast s t stKilled (BitVec.ofNat 64 tn.handle) 0) t) q c.idx stOk 0 0 := by
  simp [runKill, named, ph, Tenure.waitingCmds_nil (by simp [ph]) alone, killWaiting]

theorem runKill_admission (ph : tn.phase = .admission) (alone : tn.resumes = []) :
    runKill s q x c = complete (endTenure (complete s tn.queue tn.cmd stKilled 0 0) t) q c.idx stOk 0 0 := by
  simp [runKill, named, ph, Tenure.waitingCmds_nil (by simp [ph]) alone, killWaiting]

end

/-! ### The course of a pause (R43, R363) -/

section
variable {s : State} {t : Nat} {tn : Tenure} {p : PauseSt}

theorem exec_segmaxExpiry (hs : s.subj = .tenure t) (hp : s.powered = true) : exec .segmaxExpiry s = .next (segmaxExpiry t s) := by
  change execSegmaxExpiry s = _
  simp [execSegmaxExpiry, hs, hp]

theorem exec_pauseComplete (hs : s.subj = .tenure t) (hp : s.powered = true) : exec .pauseComplete s = .next (pauseComplete t s) := by
  change execPauseComplete s = _
  simp [execPauseComplete, hs, hp]

variable (ht : s.tenures.get? t = some tn) (ph : tn.phase = .pausing) (hpause : tn.pause = some p)
include ht ph hpause

/-- A preferred pause that has waited segmax cycles of the base die goes on as a forced one. -/
theorem segmaxExpiry_due {d : Fin 4} (hd : tn.baseDie = d.val) (preferred : p.forced = false) (due : p.since[d] + tn.g.segmax ≤ s.clk[d]) :
    segmaxExpiry t s = s.modTenure t (fun y => { y with pause := some { p with forced := true, since := s.clk } }) := by
  have notEarly : ¬ s.nowOn tn.baseDie < (p.since[tn.baseDie]?.getD 0) + tn.g.segmax := by
    simpa [hd, State.nowOn] using due
  simp [segmaxExpiry, ht, ph, hpause, preferred, notEarly]

theorem pauseComplete_early (preferred : p.forced = false) (within : atBoundary s t = false) : pauseComplete t s = s := by
  simp [pauseComplete, ht, ph, hpause, preferred, within]

/-- A preferred pause at a segment boundary takes effect as a forced one does. -/
theorem pauseComplete_atBoundary {tn1 : Tenure} (preferred : p.forced = false) (boundary : atBoundary s t = true)
    (h1 : (flushTiles (s.modTenure t (fun y => { y with pause := some { p with forced := true, since := s.clk } })) t).tenures.get? t = some tn1) :
    let s1 := flushTiles (s.modTenure t (fun y => { y with pause := some { p with forced := true, since := s.clk } })) t
    pauseComplete t s = if atRest s1 t tn1 then finishPause s1 t tn1 { p with forced := true, since := s.clk } else s1 := by
  simp [pauseComplete, ht, ph, hpause, preferred, boundary, h1]

theorem pauseComplete_forced {tn1 : Tenure} (forced : p.forced = true)
    (h1 : (flushTiles (s.modTenure t (fun y => { y with pause := some p })) t).tenures.get? t = some tn1) :
    let s1 := flushTiles (s.modTenure t (fun y => { y with pause := some p })) t
    pauseComplete t s = if atRest s1 t tn1 then finishPause s1 t tn1 p else s1 := by
  simp [pauseComplete, ht, ph, hpause, forced, h1]

end

/-- Settles O44: each clause is the lemma about its command or event in the phase that it names. -/
theorem pauseResumeKill : Obligations.PauseResumeKill := by
  refine ⟨fun e he s q t x c tn h hw able => ?pause, fun s q t x c tn h => ?resume, fun s q t x c tn h => ?kill,
    fun s t tn p hs hp ht ph hpause => ?course⟩
  case pause =>
    have hi : exec e.1 s = .next (runPause (startCmd s q c.idx) q x c) := by
      simp only [List.mem_cons, List.not_mem_nil, or_false] at he
      obtain rfl | rfl := he
      · exact exec_pausePreferred h hw
      · exact exec_pauseForced h hw
    obtain ⟨-, -, -, named⟩ := h
    rw [hi, ← hw]
    rw [← hw] at able
    exact ⟨fun ph => congrArg _ (runPause_running named able ph), fun ph => congrArg _ (runPause_admission named able ph),
      fun ph => congrArg _ (runPause_pausing named able ph), fun ph => congrArg _ (runPause_badState named able ph)⟩
  case resume =>
    rw [exec_resume h]
    obtain ⟨-, -, -, named⟩ := h
    exact ⟨fun ph able held => congrArg _ (runResume_inPlace named ph able held),
      fun ph able gone => congrArg _ (runResume_replacing named ph able gone),
      fun ph lacks => congrArg _ (runResume_restoreFeature named ph lacks),
      fun ph => congrArg _ (runResume_pausedAdmission named ph), fun ph => congrArg _ (runResume_badState named ph)⟩
  case kill =>
    rw [exec_kill h]
    obtain ⟨-, -, -, named⟩ := h
    exact ⟨fun ph alone => congrArg _ (runKill_running named ph alone), fun ph alone => congrArg _ (runKill_admission named ph alone)⟩
  case course =>
    rw [exec_segmaxExpiry hs hp, exec_pauseComplete hs hp]
    refine ⟨fun d hd preferred due => congrArg _ (segmaxExpiry_due ht ph hpause hd preferred due),
      fun preferred within => congrArg _ (pauseComplete_early ht ph hpause preferred within),
      fun tn1 preferred boundary h1 => ?_, fun tn1 forced h1 => ?_⟩
    · rw [pauseComplete_atBoundary ht ph hpause preferred boundary h1]
      exact ⟨fun rest => by rw [if_pos rest], fun rest => by rw [if_neg (by simp [rest])]⟩
    · rw [pauseComplete_forced ht ph hpause forced h1]
      exact ⟨fun rest => by rw [if_pos rest], fun rest => by rw [if_neg (by simp [rest])]⟩

end Sys2Proof.Machine

/-! PROOFS. Records that become visible, activations and Null triggers, and predicate records (R34, R37, R41, R42, R150 to R152, R354). -/

namespace Sys2Proof.Machine

/-! ### Channels after an update -/

@[simp] theorem State.modChan_chan?_self (s : State) (t c : Nat) (f : ChanRt → ChanRt) : (s.modChan t c f).chan? t c = (s.chan? t c).map f :=
  Map.get?_modify_self s.chans (key2 t c) f

@[simp] theorem State.modTenure_chan? (s : State) (t u c : Nat) (f : Tenure → Tenure) : (s.modTenure t f).chan? u c = s.chan? u c := rfl

/-- With no bound argument range there is nothing that could enter the channel. -/
theorem ChanRt.takeFeed_nil {ch : ChanRt} (h : ch.feed = []) : ch.takeFeed = ch := by
  cases ch; cases h; simp [ChanRt.takeFeed]

/-- A channel that is not sticky has no residence that could be over. -/
theorem ChanRt.over_of_sticky_le {ch : ChanRt} (h : ch.e.sticky ≤ 1) : ch.over = false := by
  have notResident : ch.resident = false := by simpa [ChanRt.resident] using h
  unfold ChanRt.over
  split
  · simp [notResident]
  · rfl

/-! ### The head of a channel settles (R37) -/

theorem settleHead_of_not_over {s : State} {t c : Nat} {ch : ChanRt} (hch : s.chan? t c = some ch) (stays : ch.over = false) :
    settleHead s t c = s := by
  cases hbuf : ch.buf <;> simp [settleHead, hch, hbuf, stays]

theorem settleHead_of_over {s : State} {t c : Nat} {ch : ChanRt} {h : Rec} {rest : List Rec} (hch : s.chan? t c = some ch)
    (hbuf : ch.buf = h :: rest) (ends : ch.over = true) : settleHead s t c = headLost (popOne s t c) t c h := by
  simp [settleHead, hch, hbuf, ends]

/-- The head of a channel that is not sticky is popped, and the record behind it stays. -/
theorem popHead_of_sticky_le {s : State} {t c : Nat} {ch : ChanRt} (hch : s.chan? t c = some ch) (h : ch.e.sticky ≤ 1) :
    popHead s t c = popOne s t c := by
  have hpop : (popOne s t c).chan? t c = some ch.pop := by simp [popOne, hch]
  exact settleHead_of_not_over hpop (ChanRt.over_of_sticky_le h)

/-! ### A record arrives (R34, R41, R42) -/

/-- The oldest record in transit has left the way behind it to `rest`. -/
def recordArrived (s : State) (t c : Nat) (rest : List Rec) : State :=
  (s.modChan t c ChanRt.takeFeed).modChan t c (fun x => { x with transit := rest })

/-- Record `r` stands in the channel, whose open bit (R42) is `seg`. -/
def recordPut (s : State) (t c : Nat) (rest : List Rec) (r : Rec) (seg : Bool) : State :=
  (recordArrived s t c rest).modChan t c (fun x => { x with buf := x.buf ++ [r], seg := seg })

/-- The record is discarded, and counts as consumed at the consumer's end (R41, R42). -/
def recordDiscarded (s : State) (t c : Nat) (rest : List Rec) (e : ChanE) : State :=
  (recordArrived s t c rest).modTenure t (fun x => x.conP (chanPoint e.dst c) 1)

/-- Whether the consumer is a task with a current record on the channel, which is not taken from under it (R182). -/
def headInUse (s : State) (t : Nat) (e : ChanE) : Bool :=
  match s.tasks.get? (key2 t e.dst) with
  | some tk => (tk.inp[e.iport]?.map InPort.cur).getD false
  | none => false

/-- What an arrived record comes to: it stands in the channel, and may end the residence of the head. -/
def recordLands (s : State) (t c : Nat) (e : ChanE) (rest : List Rec) (r : Rec) (seg : Bool) : State :=
  if headInUse s t e then recordPut s t c rest r seg else settleHead (recordPut s t c rest r seg) t c

section
variable {s : State} {t c : Nat} {ch : ChanRt} {tn : Tenure} {r : Rec} {rest : List Rec}

theorem exec_recordVisible (hs : s.subj = .chan t c) : exec .recordVisible s = .next (recordVisible t c s) := by
  change execRecordVisible s = _
  simp [execRecordVisible, hs]

/-- `accepts`, as the consumer's interface decides it. -/
def formatFits (s : State) (t : Nat) (e : ChanE) (r : Rec) : Bool := e.dst == extEnd || fmtAccepts (inFmt s t e.dst e.iport) r.hdr

theorem formatFits_iff {e : ChanE} : formatFits s t e r = true ↔ accepts s t e r := by
  simp [accepts, formatFits]

theorem recordPut_chan? (hch : s.chan? t c = some ch) (hfeed : ch.feed = []) (seg : Bool) :
    (recordPut s t c rest r seg).chan? t c = some { ch with transit := rest, buf := ch.buf ++ [r], seg := seg } := by
  simp [recordPut, recordArrived, hch, ChanRt.takeFeed_nil hfeed]

/-- A record on a channel that is not sticky ends no residence. -/
theorem recordLands_of_sticky_le (hch : s.chan? t c = some ch) (hfeed : ch.feed = []) (h : ch.e.sticky ≤ 1) (seg : Bool) :
    recordLands s t c ch.e rest r seg = recordPut s t c rest r seg := by
  have stays : settleHead (recordPut s t c rest r seg) t c = recordPut s t c rest r seg :=
    settleHead_of_not_over (recordPut_chan? hch hfeed seg) (ChanRt.over_of_sticky_le h)
  simp [recordLands, stays]

/-- A record behind the one resident record of a node that is no task ends its residence, or does not. -/
theorem recordLands_behind_resident {h : Rec} (hch : s.chan? t c = some ch) (hfeed : ch.feed = []) (sticky : 1 < ch.e.sticky)
    (noTask : s.tasks.get? (key2 t ch.e.dst) = none) (hbuf : ch.buf = [h]) (hdata : rType h = tData) (seg : Bool) :
    recordLands s t c ch.e rest r seg =
      if endsResidence ch.e.level r then headLost (popOne (recordPut s t c rest r seg) t c) t c h else recordPut s t c rest r seg := by
  have hput := recordPut_chan? (r := r) (rest := rest) hch hfeed seg
  have hover : ({ ch with transit := rest, buf := ch.buf ++ [r], seg := seg } : ChanRt).over = endsResidence ch.e.level r := by
    simp [ChanRt.over, ChanRt.resident, hbuf, sticky, hdata]
  have free : headInUse s t ch.e = false := by simp [headInUse, noTask]
  rw [recordLands, free]
  cases ends : endsResidence ch.e.level r with
  | true => simp [settleHead_of_over hput (by rw [hbuf]; rfl) (hover.trans ends)]
  | false => simp [settleHead_of_not_over hput (hover.trans ends)]

variable (hch : s.chan? t c = some ch) (hfeed : ch.feed = []) (ht : s.tenures.get? t = some tn) (htransit : ch.transit = r :: rest)
  (hcross : crossing s t c = 0)
include hch hfeed ht htransit hcross

/-- The course of an arrival: the format table (R41), the order of segments (R42), and the place in the channel. -/
theorem recordVisible_eq : recordVisible t c s =
    if (!formatFits s t ch.e r && !(ch.e.dst != extEnd && tn.kindOf ch.e.dst == 0)) = true then
      nodeFault (recordDiscarded s t c rest ch.e) t ch.e.dst cFormat (BitVec.ofNat 64 c)
    else if (formatFits s t ch.e r && (rType r == tBow || rType r == tStern) && ((rType r == tBow) == ch.seg)) = true then
      if ch.e.src = extEnd then engineFault (recordDiscarded s t c rest ch.e) t cSegment 0 extEnd 0xFF (BitVec.ofNat 64 c)
      else nodeFault (recordDiscarded s t c rest ch.e) t ch.e.src cSegment (BitVec.ofNat 64 c)
    else recordLands s t c ch.e rest r
      (if formatFits s t ch.e r && rType r == tBow then true else if formatFits s t ch.e r && rType r == tStern then false else ch.seg) := by
  have hch' : (s.modChan t c ChanRt.takeFeed).chan? t c = some ch := by simp [hch, ChanRt.takeFeed_nil hfeed]
  have hcross' : crossing (s.modChan t c ChanRt.takeFeed) t c = 0 := hcross
  unfold recordVisible
  simp only [hch', State.modChan_tenures, ht, htransit, hcross', List.length_cons, Nat.succ_ne_zero, nonpos_iff_eq_zero, if_false]
  rfl

/-- A record that is neither a bow nor a stern leaves the open bit; a task finds one of the wrong format at the head. -/
theorem recordVisible_inside (notBow : rType r ≠ tBow) (notStern : rType r ≠ tStern) (fits : accepts s t ch.e r ∨ tn.kindOf ch.e.dst = 0) :
    recordVisible t c s = recordLands s t c ch.e rest r ch.seg := by
  have notDiscarded : (!formatFits s t ch.e r && !(ch.e.dst != extEnd && tn.kindOf ch.e.dst == 0)) = false := by
    obtain fits | task := fits
    · simp [formatFits_iff.mpr fits]
    · by_cases outside : ch.e.dst = extEnd <;> simp [formatFits, outside, task]
  rw [recordVisible_eq hch hfeed ht htransit hcross, notDiscarded]
  simp [notBow, notStern]

theorem recordVisible_bow (bow : rType r = tBow) (closed : ch.seg = false) (fits : accepts s t ch.e r) :
    recordVisible t c s = recordLands s t c ch.e rest r true := by
  simp [recordVisible_eq hch hfeed ht htransit hcross, formatFits_iff.mpr fits, bow, closed]

theorem recordVisible_stern (stern : rType r = tStern) (opened : ch.seg = true) (fits : accepts s t ch.e r) :
    recordVisible t c s = recordLands s t c ch.e rest r false := by
  have notBow : tStern ≠ tBow := by decide
  simp [recordVisible_eq hch hfeed ht htransit hcross, formatFits_iff.mpr fits, stern, notBow, opened]

theorem recordVisible_badFormat (inside : ch.e.dst ≠ extEnd) (noTask : tn.kindOf ch.e.dst ≠ 0)
    (bad : fmtAccepts (inFmt s t ch.e.dst ch.e.iport) r.hdr = false) :
    recordVisible t c s = nodeFault (recordDiscarded s t c rest ch.e) t ch.e.dst cFormat (BitVec.ofNat 64 c) := by
  simp [recordVisible_eq hch hfeed ht htransit hcross, formatFits, inside, noTask, bad]

theorem recordVisible_badSegment (fits : accepts s t ch.e r) (bad : rType r = tBow ∧ ch.seg = true ∨ rType r = tStern ∧ ch.seg = false) :
    recordVisible t c s =
      if ch.e.src = extEnd then engineFault (recordDiscarded s t c rest ch.e) t cSegment 0 extEnd 0xFF (BitVec.ofNat 64 c)
      else nodeFault (recordDiscarded s t c rest ch.e) t ch.e.src cSegment (BitVec.ofNat 64 c) := by
  have notBow : tStern ≠ tBow := by decide
  obtain ⟨kind, seg⟩ | ⟨kind, seg⟩ := bad <;>
    simp [recordVisible_eq hch hfeed ht htransit hcross, formatFits_iff.mpr fits, kind, seg, notBow]

end

/-! ### An activation starts, or a Null is taken without one (R150 to R152) -/

section
variable {s : State} {t n c : Nat} {tk : TaskRt} {tn : Tenure} {r : Rec}

theorem exec_activationStart (hs : s.subj = .node t n) : exec .activationStart s = .next (activationStart t n s) := by
  change execActivationStart s = _
  simp [execActivationStart, hs]

theorem exec_nullTrigger (hs : s.subj = .node t n) : exec .nullTrigger s = .next (nullTrigger t n s) := by
  change execNullTrigger s = _
  simp [execNullTrigger, hs]

variable (htk : s.tasks.get? (key2 t n) = some tk) (ht : s.tenures.get? t = some tn) (moves : tn.moves = true) (idle : tk.st = .idle)
  (fresh : tk.nullLeft = none) (head : trigHead s t tk = some (c, r)) (hp : tk.trigp < 16)
  (fits : fmtAccepts (tk.fmt.ins[tk.trigp]) r.hdr = true)
include htk ht moves idle fresh head hp fits

theorem activationStart_trigger (notNull : rType r ≠ tNull) : activationStart t n s = orderRec { s with tasks := s.tasks.set (key2 t n) { tk with
      st := .running, pc := 0, inp := tk.inp.set tk.trigp { cur := true, idx := 0 }, trigSeq := hSeq r.hdr, srCount := 0 } } t n r := by
  simp [activationStart, htk, ht, moves, idle, fresh, head, hp, fits, notNull]

theorem activationStart_null (null : rType r = tNull) : activationStart t n s = s := by
  simp [activationStart, htk, ht, moves, idle, fresh, head, hp, fits, null]

/-- With no port to forward it to, a Null trigger is used up at once. -/
theorem nullTrigger_unforwarded (null : rType r = tNull) (nowhere : forwardPorts tk = []) : nullTrigger t n s =
    { useHead s t c with tasks := (useHead s t c).tasks.set (key2 t n) { tk with nullLeft := none, st := .idle } } := by
  simp [nullTrigger, htk, ht, moves, idle, fresh, head, hp, fits, null, nowhere, forwardNulls]

end

/-! ### A predicate record (R354) -/

section
variable {s : State} {t c : Nat} {tn : Tenure} {ch : ChanRt} {r : Rec} {rest : List Rec}

theorem exec_predicateRecord (hs : s.subj = .chan t c) : exec .predicateRecord s = .next (predicateRecord t c s) := by
  change execPredicateRecord s = _
  simp [execPredicateRecord, hs]

/-- A tenure once a record, popped and counted as consumed at `pt`, has set its predicate `m`. -/
def predicateTaken (tn : Tenure) (pt m : Nat) (b : Bool) : Tenure :=
  let tn := tn.conP pt 1
  { tn with
    lk := { tn.lk with qval := putBit tn.lk.qval (BitVec.ofNat 3 m) b, qvalid := putBit tn.lk.qvalid (BitVec.ofNat 3 m) true }
    lkBlocked := false }

@[simp] theorem orderRec_tenures (s : State) (t n : Nat) (r : Rec) : (orderRec s t n r).tenures = s.tenures := by
  unfold orderRec; split <;> rfl

theorem popOne_tenure (ht : s.tenures.get? t = some tn) : (popOne s t c).tenures.get? t = some (tn.conP (s.chanEnd t c) 1) := by
  simp [popOne, Map.get?_modify_self, ht]

/-- A Data record on a channel bound to predicate `m` sets it with its first unit's lowest bit. -/
theorem predicateRecord_sets {m : Nat} {u : W64} {us : List W64} (ht : s.tenures.get? t = some tn) (hch : s.chan? t c = some ch)
    (bound : tn.binds.get? c = some (.pred m)) (hbuf : ch.buf = r :: rest) (outside : ch.e.dst = extEnd) (sticky : ch.e.sticky ≤ 1)
    (moves : partsMove s t = true) (data : rType r = tData) (units : r.units = u :: us) :
    (predicateRecord t c s).tenures.get? t = some (predicateTaken tn (s.chanEnd t c) m (u.getLsbD 0)) := by
  have popped : (popHead s t c).tenures.get? t = some (tn.conP (s.chanEnd t c) 1) := by
    rw [popHead_of_sticky_le hch sticky, popOne_tenure ht]
  simp [predicateRecord, ht, hch, bound, hbuf, outside, moves, data, units, modLk, Map.get?_modify_self, popped, predicateTaken]

end

/-- Settles O46: the oldest record in transit by what it is and whether it is accepted, then the events of an idle task, then the predicate record. -/
theorem recordsAndActivations : Obligations.RecordsAndActivations := by
  refine ⟨fun s t c ch tn r rest hs hch hfeed ht htransit hcross => ?arrival,
    fun s t n c tk tn r hp hs htk ht moves idle fresh head fits => ?activation,
    fun s t c m tn ch r rest u us hs ht hch bound hbuf outside sticky moves data units => ?predicate⟩
  case arrival =>
    rw [exec_recordVisible hs]
    refine ⟨fun notBow notStern fits => ?inside, fun fits sticky => ?segment, fun inside noTask bad => congrArg _
      (recordVisible_badFormat hch hfeed ht htransit hcross inside noTask bad), fun fits bad => ?order⟩
    case inside =>
      rw [recordVisible_inside hch hfeed ht htransit hcross notBow notStern fits]
      refine ⟨fun sticky => congrArg _ (recordLands_of_sticky_le hch hfeed sticky _), fun h sticky noTask hbuf hdata => ?_⟩
      rw [recordLands_behind_resident hch hfeed sticky noTask hbuf hdata]
      exact ⟨fun ends => by rw [if_pos ends]; rfl, fun stays => by rw [if_neg (by simp [stays])]; rfl⟩
    case segment =>
      refine ⟨fun bow closed => congrArg _ ?_, fun stern opened => congrArg _ ?_⟩
      · rw [recordVisible_bow hch hfeed ht htransit hcross bow closed fits, recordLands_of_sticky_le hch hfeed sticky]; rfl
      · rw [recordVisible_stern hch hfeed ht htransit hcross stern opened fits, recordLands_of_sticky_le hch hfeed sticky]; rfl
    case order =>
      rw [recordVisible_badSegment hch hfeed ht htransit hcross fits bad]
      exact ⟨fun node => by rw [if_neg node]; rfl, fun outside => by rw [if_pos outside]; rfl⟩
  case activation =>
    rw [exec_activationStart hs, exec_nullTrigger hs]
    exact ⟨fun notNull => congrArg _ (activationStart_trigger htk ht moves idle fresh head hp fits notNull),
      fun null => congrArg _ (activationStart_null htk ht moves idle fresh head hp fits null),
      fun null nowhere => ⟨_, congrArg _ (nullTrigger_unforwarded htk ht moves idle fresh head hp fits null nowhere), rfl, rfl⟩⟩
  case predicate =>
    exact ⟨_, _, exec_predicateRecord hs, predicateRecord_sets ht hch bound hbuf outside sticky moves data units, rfl, rfl, rfl, rfl⟩

end Sys2Proof.Machine

/-! PROOFS. What a task instruction can reach outside its node: its tenure, the channels of its ports and the consumers on its inputs (R37, R339,
R375). -/

namespace Sys2Proof.Machine

/-! ### The frame of a node -/

/-- The state with the parts left out of which a task instruction may change some, and with the order left out in which later accesses come after the
writes under way at the host port (R339). -/
def State.beyond (s : State) : State :=
  { s with tasks := [], ctrls := [], gates := [], opers := [], gens := [], mats := [], chans := [], tenures := []
           hostPort := s.hostPort.map (fun p => { p with after := [] }) }

/-- A channel of one of the ports of a node. -/
def PortChan (ins outs : Vector (Option Nat) 16) (c : Nat) : Prop := ∃ q : Fin 16, ins[q] = some c ∨ outs[q] = some c

/-- Key `k` is not that of the consumer that a channel bound to an input names: such a consumer loses a record whose residence is over (R37). -/
def NoConsumer (s : State) (t : Nat) (ins : Vector (Option Nat) 16) (k : Nat) : Prop :=
  ∀ (q : Fin 16) (c : Nat) (ch : ChanRt), ins[q] = some c → s.chan? t c = some ch → k ≠ key2 t ch.e.dst

/-- What node `n` of tenure `t` leaves as it was, its ports being bound to `ins` and `outs`, as a relation that composes: the channels keep their
ends, so the consumers that they name stay the same. -/
structure OutsideFrame (t n : Nat) (ins outs : Vector (Option Nat) 16) (s s' : State) : Prop where
  beyond : s'.beyond = s.beyond
  tenures : ∀ k, k ≠ t → s'.tenures.get? k = s.tenures.get? k
  node : ∀ k, k ≠ key2 t n → s'.tasks.get? k = s.tasks.get? k ∧ s'.ctrls.get? k = s.ctrls.get? k ∧ s'.gates.get? k = s.gates.get? k
  consumers : ∀ k, k ≠ key2 t n → NoConsumer s t ins k →
    s'.opers.get? k = s.opers.get? k ∧ s'.gens.get? k = s.gens.get? k ∧ s'.mats.get? k = s.mats.get? k
  chans : ∀ k, (∀ c, PortChan ins outs c → k ≠ key2 t c) → s'.chans.get? k = s.chans.get? k
  ends : ∀ c, (s'.chan? t c).map ChanRt.e = (s.chan? t c).map ChanRt.e

/-- The consumers that the channels name are the same while the channels keep their ends. -/
theorem NoConsumer.of_ends {s s' : State} {t k : Nat} {ins : Vector (Option Nat) 16}
    (ends : ∀ c, (s'.chan? t c).map ChanRt.e = (s.chan? t c).map ChanRt.e) (h : NoConsumer s t ins k) : NoConsumer s' t ins k := by
  intro q c ch hq hch
  have he := ends c
  rw [hch] at he
  obtain ⟨ch0, hch0, same⟩ := Option.map_eq_some_iff.mp he.symm
  exact same ▸ h q c ch0 hq hch0

namespace OutsideFrame
variable {t n : Nat} {ins outs : Vector (Option Nat) 16} {s s' s'' : State}

theorem refl (s : State) : OutsideFrame t n ins outs s s :=
  ⟨rfl, fun _ _ => rfl, fun _ _ => ⟨rfl, rfl, rfl⟩, fun _ _ _ => ⟨rfl, rfl, rfl⟩, fun _ _ => rfl, fun _ => rfl⟩

theorem trans (h : OutsideFrame t n ins outs s s') (h' : OutsideFrame t n ins outs s' s'') : OutsideFrame t n ins outs s s'' where
  beyond := h'.beyond.trans h.beyond
  tenures k hk := (h'.tenures k hk).trans (h.tenures k hk)
  node k hk := by
    obtain ⟨a, b, c⟩ := h.node k hk
    obtain ⟨a', b', c'⟩ := h'.node k hk
    exact ⟨a'.trans a, b'.trans b, c'.trans c⟩
  consumers k hk hc := by
    obtain ⟨a, b, c⟩ := h.consumers k hk hc
    obtain ⟨a', b', c'⟩ := h'.consumers k hk (hc.of_ends h.ends)
    exact ⟨a'.trans a, b'.trans b, c'.trans c⟩
  chans k hk := (h'.chans k hk).trans (h.chans k hk)
  ends c := (h'.ends c).trans (h.ends c)

/-! ### The updates that keep it -/

theorem modTenure (s : State) (f : Tenure → Tenure) : OutsideFrame t n ins outs s (s.modTenure t f) where
  beyond := rfl
  tenures _ hk := Map.get?_modify_ne _ _ _ _ hk
  node _ _ := ⟨rfl, rfl, rfl⟩
  consumers _ _ _ := ⟨rfl, rfl, rfl⟩
  chans _ _ := rfl
  ends _ := rfl

theorem modChan {c : Nat} (s : State) (hc : PortChan ins outs c) {f : ChanRt → ChanRt} (keeps : ∀ x, (f x).e = x.e) :
    OutsideFrame t n ins outs s (s.modChan t c f) where
  beyond := rfl
  tenures _ _ := rfl
  node _ _ := ⟨rfl, rfl, rfl⟩
  consumers _ _ _ := ⟨rfl, rfl, rfl⟩
  chans _ hk := Map.get?_modify_ne _ _ _ _ (hk c hc)
  ends c' := by
    by_cases hk : key2 t c' = key2 t c
    · simp [State.chan?, State.modChan, hk, Map.get?_modify_self, Function.comp_def, keeps]
    · simp [State.chan?, State.modChan, Map.get?_modify_ne _ _ _ _ hk]

/-- The node's own state changes. -/
theorem setTask (s : State) (tk : TaskRt) : OutsideFrame t n ins outs s { s with tasks := s.tasks.set (key2 t n) tk } where
  beyond := rfl
  tenures _ _ := rfl
  node _ hk := ⟨Map.get?_set_ne _ _ _ _ hk, rfl, rfl⟩
  consumers _ _ _ := ⟨rfl, rfl, rfl⟩
  chans _ _ := rfl
  ends _ := rfl

/-- Later accesses come after other writes of the host port, which themselves stay as they are. -/
theorem modPort (s : State) (u : Nat) (mine : PortWrite → Bool) {f : PortWrite → PortWrite}
    (keeps : ∀ p, { f p with after := [] } = { p with after := [] }) : OutsideFrame t n ins outs s (modPort s u mine f) := by
  refine ⟨?_, fun _ _ => rfl, fun _ _ => ⟨rfl, rfl, rfl⟩, fun _ _ _ => ⟨rfl, rfl, rfl⟩, fun _ _ => rfl, fun _ => rfl⟩
  have port : (Machine.modPort s u mine f).hostPort.map (fun p => { p with after := [] }) = s.hostPort.map (fun p => { p with after := [] }) := by
    rw [Machine.modPort, List.map_map]
    refine List.map_congr_left (fun p _ => ?_)
    simp only [Function.comp_apply]
    split
    · exact keeps p
    · rfl
  simp only [State.beyond, port]
  rfl

/-- A record that the node takes orders writes of the host port before what the node issues later (R339). -/
theorem orderRec (s : State) (m : Nat) (r : Rec) : OutsideFrame t n ins outs s (orderRec s t m r) := by
  unfold Machine.orderRec
  split
  · exact refl s
  · exact modPort s t _ (fun _ => rfl)

section
variable {c : Nat} (bound : ∃ q : Fin 16, ins[q] = some c)
include bound

theorem portChan_of_input : PortChan ins outs c := bound.imp fun _ h => .inl h

theorem popOne (s : State) : OutsideFrame t n ins outs s (popOne s t c) :=
  (modChan s (f := ChanRt.pop) (portChan_of_input bound) (fun _ => rfl)).trans (modTenure _ _)

/-- A consumer that loses its head is the one that the channel of the input names. -/
theorem headLost (s : State) (r : Rec) : OutsideFrame t n ins outs s (headLost s t c r) := by
  obtain ⟨q, hq⟩ := bound
  unfold Machine.headLost
  split
  · rename_i ch hch
    refine ⟨rfl, fun _ _ => rfl, fun _ _ => ⟨rfl, rfl, rfl⟩, fun k _ hk => ?_, fun _ _ => rfl, fun _ => rfl⟩
    have other : k ≠ key2 t ch.e.dst := hk q c ch hq hch
    exact ⟨Map.get?_modify_ne _ _ _ _ other, Map.get?_modify_ne _ _ _ _ other, Map.get?_modify_ne _ _ _ _ other⟩
  · exact refl s

theorem settleHead (s : State) : OutsideFrame t n ins outs s (settleHead s t c) := by
  unfold Machine.settleHead
  split
  · split
    · split
      · exact (popOne bound s).trans (headLost bound _ _)
      · exact refl s
    · exact refl s
  · exact refl s

theorem popHead (s : State) : OutsideFrame t n ins outs s (popHead s t c) :=
  (popOne bound s).trans (settleHead bound _)

end

/-! ### A node that halts or takes a trap (R372, R375) -/

theorem dropOpen (l : List (Option Nat)) (s : State) (hl : ∀ c, some c ∈ l → PortChan ins outs c) :
    OutsideFrame t n ins outs s (dropOpen s t l) := by
  induction l generalizing s with
  | nil => exact refl s
  | cons o l ih =>
    have hl' : ∀ c, some c ∈ l → PortChan ins outs c := fun c hc => hl c (List.mem_cons_of_mem _ hc)
    cases o with
    | none => exact ih s hl'
    | some c => exact (modChan s (f := fun ch => { ch with opn := none }) (hl c List.mem_cons_self) (fun _ => rfl)).trans (ih _ hl')

theorem haltNode {tk : TaskRt} (htk : s.tasks.get? (key2 t n) = some tk) (hout : tk.outCh = outs) :
    OutsideFrame t n ins outs s (haltNode s t n) := by
  subst hout
  have ports : ∀ c, some c ∈ tk.outCh.toList → PortChan ins tk.outCh c := by
    intro c hc
    obtain ⟨i, hi, h⟩ := List.getElem_of_mem hc
    rw [Vector.getElem_toList] at h
    exact ⟨⟨i, by simpa using hi⟩, .inr h⟩
  have halted : ∀ u : State, OutsideFrame t n ins tk.outCh u { u with
      opers := u.opers.modify (key2 t n) (fun x => { x with halted := true })
      gens := u.gens.modify (key2 t n) (fun x => { x with halted := true })
      ctrls := u.ctrls.modify (key2 t n) (fun x => { x with halted := true })
      mats := u.mats.modify (key2 t n) (fun x => { x with halted := true })
      gates := u.gates.modify (key2 t n) (fun x => { x with halted := true }) } := fun u =>
    ⟨rfl, fun _ _ => rfl, fun _ hk => ⟨rfl, Map.get?_modify_ne _ _ _ _ hk, Map.get?_modify_ne _ _ _ _ hk⟩,
      fun _ hk _ => ⟨Map.get?_modify_ne _ _ _ _ hk, Map.get?_modify_ne _ _ _ _ hk, Map.get?_modify_ne _ _ _ _ hk⟩, fun _ _ => rfl, fun _ => rfl⟩
  simp only [Machine.haltNode, htk]
  exact ((setTask s _).trans (dropOpen _ _ ports)).trans (halted _)

theorem takeTrap {tk : TaskRt} (s : State) (hout : tk.outCh = outs) (code : Nat) (arg : W64) (src : Int) :
    OutsideFrame t n ins outs s (takeTrap s t n tk code arg src) := by
  unfold Machine.takeTrap
  split
  · exact ((setTask s tk).trans (haltNode (Map.get?_set_self _ _ _) hout)).trans (modTenure _ _)
  · exact setTask s _

/-- The frame that the obligations name. -/
theorem outsideNodeFrame {x : TaskRt} (hx : s.tasks.get? (key2 s.cur.1 s.cur.2) = some x)
    (h : OutsideFrame s.cur.1 s.cur.2 x.inCh x.outCh s s') : outsideNodeFrame s s' := by
  have same {α : Type} (f : State → α) : f s'.beyond = f s.beyond := congrArg f h.beyond
  refine ⟨fun a => ⟨congrArg (Memory.get · a) (same State.hostMem), congrArg (Memory.get · a) (same State.devMem)⟩,
    ⟨same State.gov, same State.dawn, same State.repair, same State.units, same State.tokens⟩,
    ⟨same State.queues, same State.vqs, same State.handles, same State.irqs, same State.osEvents, same State.mctp⟩,
    ⟨same State.net, same State.lighters, same State.links, same State.hostPort⟩,
    ⟨same State.hostPages, same State.pasidOff, same State.roots, same State.tlbs, same State.pageReqs, same State.pageFails⟩,
    ⟨same State.wins, same State.combs, same State.subtrees, same State.planes⟩, h.tenures, h.node, fun y hy => ?_⟩
  obtain rfl : x = y := Option.some.inj (hx.symm.trans hy)
  exact ⟨h.consumers, fun k hk => h.chans k (fun c ⟨q, hq⟩ => hk q c hq)⟩

end OutsideFrame

end Sys2Proof.Machine

/-! PROOFS. What a task instruction that accesses registers, ports, predicates and its bank can change, whatever it comes to (R133, R153, R375). -/

namespace Sys2Proof.Machine

/-! ### The frame of the registers -/

/-- What an instruction may write of its node's state: the register that is its destination, its predicate, the flags, the bank. -/
structure Writes where
  dst : Option Opnd
  pred : Option (Fin 4)
  flags : Bool
  bank : Bool

/-- The state of a node with the parts left out that `RegsFrame` speaks of apart, and with those left out that change as instructions are issued and
take records: its status, its PC, the current records, and the counts behind each atomic (R380). -/
def TaskRt.unwritten (k : TaskRt) : TaskRt :=
  { k with st := .idle, pc := 0, g := Vector.replicate 16 0, a := Vector.replicate 8 0, v := Vector.replicate 8 0, p := Vector.replicate 4 0
           fflags := 0, bank := [], inp := Vector.replicate 16 { cur := false, idx := 0 }, atoms := [], wflags := []
           tpc := 0, tcause := 0, targ := 0, tsrc := 0, tstat := 0 }

/-- The trap registers (R374). -/
def TaskRt.trapRegs (k : TaskRt) : BitVec 16 × BitVec 16 × W64 × BitVec 16 × BitVec 1 := (k.tpc, k.tcause, k.targ, k.tsrc, k.tstat)

theorem TaskRt.setReg_trapRegs (k : TaskRt) (d : Opnd) (u : W64) : (k.setReg d u).trapRegs = k.trapRegs := by
  cases d <;> rfl

/-- What an instruction that may write `w` leaves of its node's state, the trap registers apart, as a relation that composes. -/
structure RegsFrame (w : Writes) (x y : TaskRt) : Prop where
  g : ∀ r : Fin 16, w.dst ≠ some (.g r) → y.g[r] = x.g[r]
  a : ∀ r : Fin 8, w.dst ≠ some (.a r) → y.a[r] = x.a[r]
  v : ∀ r : Fin 8, w.dst ≠ some (.v r) → y.v[r] = x.v[r]
  p : ∀ q : Fin 4, w.pred ≠ some q → y.p[q] = x.p[q]
  fflags : w.flags = false → y.fflags = x.fflags
  bank : w.bank = false → y.bank = x.bank
  rest : y.unwritten = x.unwritten

namespace RegsFrame
variable {w : Writes} {x y z : TaskRt}

theorem refl (w : Writes) (x : TaskRt) : RegsFrame w x x :=
  ⟨fun _ _ => rfl, fun _ _ => rfl, fun _ _ => rfl, fun _ _ => rfl, fun _ => rfl, fun _ => rfl, rfl⟩

theorem trans (h : RegsFrame w x y) (h' : RegsFrame w y z) : RegsFrame w x z where
  g r hr := (h'.g r hr).trans (h.g r hr)
  a r hr := (h'.a r hr).trans (h.a r hr)
  v r hr := (h'.v r hr).trans (h.v r hr)
  p q hq := (h'.p q hq).trans (h.p q hq)
  fflags hf := (h'.fflags hf).trans (h.fflags hf)
  bank hb := (h'.bank hb).trans (h.bank hb)
  rest := h'.rest.trans h.rest

theorem inCh (h : RegsFrame w x y) : y.inCh = x.inCh := (congrArg TaskRt.inCh h.rest : y.unwritten.inCh = x.unwritten.inCh)
theorem outCh (h : RegsFrame w x y) : y.outCh = x.outCh := (congrArg TaskRt.outCh h.rest : y.unwritten.outCh = x.unwritten.outCh)

/-- A register of the node written is the destination alone. -/
theorem setReg {d : Opnd} (hd : w.dst = some d) (x : TaskRt) (u : W64) : RegsFrame w x (x.setReg d u) := by
  cases d with
  | g n =>
    refine ⟨fun r hr => ?_, fun _ _ => rfl, fun _ _ => rfl, fun _ _ => rfl, fun _ => rfl, fun _ => rfl, rfl⟩
    have other : n.val ≠ r.val := fun h => hr (by rw [hd, Fin.ext h])
    exact Vector.getElem_set_ne n.isLt r.isLt other
  | a n =>
    refine ⟨fun _ _ => rfl, fun r hr => ?_, fun _ _ => rfl, fun _ _ => rfl, fun _ => rfl, fun _ => rfl, rfl⟩
    have other : n.val ≠ r.val := fun h => hr (by rw [hd, Fin.ext h])
    exact Vector.getElem_set_ne n.isLt r.isLt other
  | v n =>
    refine ⟨fun _ _ => rfl, fun _ _ => rfl, fun r hr => ?_, fun _ _ => rfl, fun _ => rfl, fun _ => rfl, rfl⟩
    have other : n.val ≠ r.val := fun h => hr (by rw [hd, Fin.ext h])
    exact Vector.getElem_set_ne n.isLt r.isLt other
  | i _ => exact refl w x
  | o _ => exact refl w x

theorem setPred {p : Fin 4} (hp : w.pred = some p) (x : TaskRt) (u : BitVec 4) : RegsFrame w x { x with p := x.p.set p u } := by
  refine ⟨fun _ _ => rfl, fun _ _ => rfl, fun _ _ => rfl, fun q hq => ?_, fun _ => rfl, fun _ => rfl, rfl⟩
  have other : p.val ≠ q.val := fun h => hq (by rw [hp, Fin.ext h])
  exact Vector.getElem_set_ne p.isLt q.isLt other

theorem setFlags (hf : w.flags = true) (x : TaskRt) (f : Flags) : RegsFrame w x { x with fflags := x.fflags ||| f } :=
  ⟨fun _ _ => rfl, fun _ _ => rfl, fun _ _ => rfl, fun _ _ => rfl, fun h => absurd (h.symm.trans hf) (by decide), fun _ => rfl, rfl⟩

theorem setBank (hb : w.bank = true) (x : TaskRt) (m : Memory) : RegsFrame w x { x with bank := m } :=
  ⟨fun _ _ => rfl, fun _ _ => rfl, fun _ _ => rfl, fun _ _ => rfl, fun _ => rfl, fun h => absurd (h.symm.trans hb) (by decide), rfl⟩

theorem setInp (x : TaskRt) (i : Vector InPort 16) : RegsFrame w x { x with inp := i } :=
  ⟨fun _ _ => rfl, fun _ _ => rfl, fun _ _ => rfl, fun _ _ => rfl, fun _ => rfl, fun _ => rfl, rfl⟩

theorem setStatus (x : TaskRt) (st : TStatus) : RegsFrame w x { x with st := st } :=
  ⟨fun _ _ => rfl, fun _ _ => rfl, fun _ _ => rfl, fun _ _ => rfl, fun _ => rfl, fun _ => rfl, rfl⟩

theorem setWflags (x : TaskRt) (fs : List WFlag) : RegsFrame w x { x with wflags := fs } :=
  ⟨fun _ _ => rfl, fun _ _ => rfl, fun _ _ => rfl, fun _ _ => rfl, fun _ => rfl, fun _ => rfl, rfl⟩

theorem issued (x : TaskRt) (pc : Int) : RegsFrame w x { x.issued with pc := pc } :=
  ⟨fun _ _ => rfl, fun _ _ => rfl, fun _ _ => rfl, fun _ _ => rfl, fun _ => rfl, fun _ => rfl, rfl⟩

end RegsFrame

/-! ### What a running instruction can change -/

/-- From context `c` to context `c'` an instruction that may write `w` has changed nothing else. -/
structure CtxFrame (w : Writes) (c c' : TCtx) : Prop where
  tenure : c'.t = c.t
  number : c'.n = c.n
  outside : OutsideFrame c.t c.n c.tk.inCh c.tk.outCh c.s c'.s
  regs : RegsFrame w c.tk c'.tk
  traps : c'.tk.trapRegs = c.tk.trapRegs

theorem CtxFrame.refl (w : Writes) (c : TCtx) : CtxFrame w c c := ⟨rfl, rfl, .refl _, .refl w _, rfl⟩

theorem CtxFrame.trans {w : Writes} {c c' c'' : TCtx} (h : CtxFrame w c c') (h' : CtxFrame w c' c'') : CtxFrame w c c'' where
  tenure := h'.tenure.trans h.tenure
  number := h'.number.trans h.number
  outside := h.outside.trans (by simpa only [h.tenure, h.number, h.regs.inCh, h.regs.outCh] using h'.outside)
  regs := h.regs.trans h'.regs
  traps := h'.traps.trans h.traps

/-- How an instruction that stops in context `c` stops: it waits with nothing performed, or takes a trap, which leaves nothing changed but records
discarded at its ports (R41, R133, R153). -/
def StopFrame (c : TCtx) : Stop → Prop
  | .wait _ | .trap _ _ | .watch _ => True
  | .trapAfter f _ _ => ∀ s, OutsideFrame c.t c.n c.tk.inCh c.tk.outCh s (f s)
  | .hold _ _ | .ask _ => False

theorem StopFrame.of_ctxFrame {w : Writes} {c c' : TCtx} {e : Stop} (h : CtxFrame w c c') (he : StopFrame c' e) : StopFrame c e := by
  cases e <;> simp only [StopFrame, h.tenure, h.number, h.regs.inCh, h.regs.outCh] at he ⊢
  exact he

/-- From context `c`, `m` changes nothing but what an instruction that may write `w` changes, or stops as such a one stops. -/
def ConfinedAt {α : Type} (w : Writes) (c : TCtx) (m : TM α) : Prop :=
  match m c with
  | .ok (_, c') => CtxFrame w c c'
  | .error e => StopFrame c e

/-- From every context. -/
def Confined {α : Type} (w : Writes) (m : TM α) : Prop := ∀ c, ConfinedAt w c m

theorem ConfinedAt.of_ok {α : Type} {w : Writes} {c c' : TCtx} {m : TM α} {a : α} (h : m c = .ok (a, c')) (hc : CtxFrame w c c') :
    ConfinedAt w c m := by
  simp only [ConfinedAt, h]; exact hc

theorem ConfinedAt.of_error {α : Type} {w : Writes} {c : TCtx} {m : TM α} {e : Stop} (h : m c = .error e) (hc : StopFrame c e) :
    ConfinedAt w c m := by
  simp only [ConfinedAt, h]; exact hc

theorem ConfinedAt.ok {α : Type} {w : Writes} {c c' : TCtx} {m : TM α} {a : α} (hm : ConfinedAt w c m) (h : m c = .ok (a, c')) :
    CtxFrame w c c' := by
  simpa only [ConfinedAt, h] using hm

theorem ConfinedAt.error {α : Type} {w : Writes} {c : TCtx} {m : TM α} {e : Stop} (hm : ConfinedAt w c m) (h : m c = .error e) :
    StopFrame c e := by
  simpa only [ConfinedAt, h] using hm

theorem ConfinedAt.bind {α β : Type} {w : Writes} {c : TCtx} {m : TM α} {f : α → TM β} (hm : ConfinedAt w c m)
    (hf : ∀ a c', m c = .ok (a, c') → ConfinedAt w c' (f a)) : ConfinedAt w c (m >>= f) := by
  cases h : m c with
  | error e => exact .of_error (tm_bind_error h) (hm.error h)
  | ok r =>
    obtain ⟨a, c'⟩ := r
    have hrun : (m >>= f) c = f a c' := tm_bind_ok h
    cases h' : f a c' with
    | error e => exact .of_error (hrun.trans h') (((hf a c' h).error h').of_ctxFrame (hm.ok h))
    | ok r' => exact .of_ok (hrun.trans h') ((hm.ok h).trans ((hf a c' h).ok h'))

namespace Confined
variable {α β : Type} {w : Writes}

theorem bind {m : TM α} {f : α → TM β} (hm : Confined w m) (hf : ∀ a, Confined w (f a)) : Confined w (m >>= f) :=
  fun c => (hm c).bind (fun a c' _ => hf a c')

theorem pure (a : α) : Confined w (pure a : TM α) := fun c => .of_ok rfl (.refl w c)
theorem getTk : Confined w getTk := fun c => .of_ok rfl (.refl w c)
theorem getT : Confined w getT := fun c => .of_ok rfl (.refl w c)
theorem getN : Confined w getN := fun c => .of_ok rfl (.refl w c)
theorem wait (b : Bool) : Confined w (stop (.wait b) : TM α) := fun _ => .of_error rfl trivial
theorem watch (f : WFlag) : Confined w (stop (.watch f) : TM α) := fun _ => .of_error rfl trivial
theorem raise (code : Nat) (arg : W64) : Confined w (raise code arg : TM α) := fun _ => .of_error rfl trivial

theorem raiseIf (b : Bool) (code : Nat) (arg : W64) : Confined w (raiseIf b code arg) := by
  cases b
  · exact pure ()
  · exact raise code arg

theorem stallUnless (b : Bool) : Confined w (stallUnless b) := by
  cases b
  · exact wait false
  · exact pure ()

theorem getTn : Confined w getTn := by
  intro c
  unfold ConfinedAt Machine.getTn
  cases c.s.tenures.get? c.t with
  | none => exact trivial
  | some tn => exact .refl w c

theorem getChan (k : Nat) : Confined w (getChan k) := by
  intro c
  unfold ConfinedAt Machine.getChan
  cases c.s.chan? c.t k with
  | none => exact trivial
  | some ch => exact .refl w c

theorem useReg (o : Opnd) : Confined w (useReg o) := by
  intro c
  unfold ConfinedAt Machine.useReg
  cases c.tk.wflags.find? (fun f => f.dst == some o) with
  | some f => exact trivial
  | none =>
    cases c.tk.pend.contains o with
    | true => exact trivial
    | false => exact .refl w c

/-- The node's own state changes within the frame. -/
theorem modTk {f : TaskRt → TaskRt} (regs : ∀ k, RegsFrame w k (f k)) (traps : ∀ k, (f k).trapRegs = k.trapRegs) : Confined w (modTk f) :=
  fun c => .of_ok rfl ⟨rfl, rfl, .refl _, regs c.tk, traps c.tk⟩

end Confined

/-- The state outside the node changes within the frame. -/
theorem ConfinedAt.modST {w : Writes} {c : TCtx} {f : State → Nat → Nat → State}
    (h : OutsideFrame c.t c.n c.tk.inCh c.tk.outCh c.s (f c.s c.t c.n)) : ConfinedAt w c (modST f) :=
  .of_ok rfl ⟨rfl, rfl, h, .refl w _, rfl⟩

/-! ### Ports (R132, R176 to R179) -/

theorem Confined.inChan {w : Writes} (p : Fin 16) : Confined w (inChan p) := by
  refine Confined.getTk.bind (fun tk => ?_)
  split
  · exact .pure _
  · exact .raise _ _

theorem Confined.outChan {w : Writes} (p : Fin 16) : Confined w (outChan p) := by
  refine Confined.getTk.bind (fun tk => ?_)
  split
  · exact .pure _
  · exact .raise _ _

/-- The channel that an input port gives is the one bound to it. -/
theorem inChan_ok {p : Fin 16} {c c' : TCtx} {k : Nat} (h : inChan p c = .ok (k, c')) : c' = c ∧ c.tk.inCh[p] = some k := by
  unfold inChan at h
  rw [tm_bind_ok (getTk_run c)] at h
  cases hk : c.tk.inCh[p] with
  | none => simp only [hk] at h; cases h
  | some j => simp only [hk] at h; cases h; exact ⟨rfl, rfl⟩

theorem outChan_ok {p : Fin 16} {c c' : TCtx} {k : Nat} (h : outChan p c = .ok (k, c')) : c' = c ∧ c.tk.outCh[p] = some k := by
  unfold outChan at h
  rw [tm_bind_ok (getTk_run c)] at h
  cases hk : c.tk.outCh[p] with
  | none => simp only [hk] at h; cases h
  | some j => simp only [hk] at h; cases h; exact ⟨rfl, rfl⟩

theorem getChan_ok {k : Nat} {c c' : TCtx} {ch : ChanRt} (h : getChan k c = .ok (ch, c')) : c' = c := by
  unfold getChan at h
  cases hk : c.s.chan? c.t k with
  | none => simp only [hk] at h; cases h
  | some j => simp only [hk] at h; cases h; rfl

namespace Confined
variable {w : Writes}

/-- A record made current: the residence of the head of its own channel may end, a record of the wrong format is discarded, and the writes that the
record follows on are ordered before what the node issues. -/
theorem currentRec (p : Fin 16) : Confined w (currentRec p) := by
  intro c
  refine (inChan p c).bind (fun k c1 h1 => ?_)
  obtain ⟨rfl, hk⟩ := inChan_ok h1
  have bound : ∃ q : Fin 16, c1.tk.inCh[q] = some k := ⟨p, hk⟩
  refine (getTk c1).bind (fun tk c2 h2 => ?_)
  cases h2
  refine (getT c1).bind (fun t c3 h3 => ?_)
  cases h3
  dsimp only
  split
  case' isTrue =>
    refine (ConfinedAt.modST (.settleHead bound c1.s)).bind (fun _ c4 h4 => ?_)
    cases h4
  case isTrue | isFalse =>
    refine (getChan k _).bind (fun ch c5 h5 => ?_)
    obtain rfl := getChan_ok h5
    split
    · exact wait true _
    · split
      · exact pure _ _
      · split
        · exact .of_error rfl (fun s => (OutsideFrame.settleHead bound s).trans (.popHead bound _))
        · refine ConfinedAt.bind (.modST ?_) (fun _ c6 _ => ?_)
          · exact (OutsideFrame.modChan (f := ChanRt.access) _ (OutsideFrame.portChan_of_input bound)
              (fun x => by unfold ChanRt.access; split <;> rfl)).trans (.orderRec _ _ _)
          · refine bind ?_ (fun _ => pure _) c6
            exact modTk (fun x => .setInp x _) (fun _ => rfl)

theorem popUnit (p : Fin 16) : Confined w (popUnit p) := by
  refine (currentRec p).bind (fun r => getTk.bind (fun tk => ?_))
  dsimp only
  split
  · refine bind ?_ (fun _ => pure _)
    exact modTk (fun x => .setInp x _) (fun _ => rfl)
  · exact raise _ _

theorem pushUnit (p : Fin 16) (u : W64) : Confined w (pushUnit p u) := by
  intro c
  refine (outChan p c).bind (fun k c1 h1 => ?_)
  obtain ⟨rfl, hk⟩ := outChan_ok h1
  refine (getChan k c1).bind (fun ch c2 h2 => ?_)
  obtain rfl := getChan_ok h2
  split
  · exact raise _ _ _
  · split
    · exact raise _ _ _
    · exact .modST (.modChan _ ⟨p, .inr hk⟩ (fun _ => rfl))

/-! ### Operands and predicates (R133, R158) -/

theorem read64 (o : Opnd) : Confined w (read64 o) := by
  cases o with
  | g n => exact (useReg _).bind (fun _ => getTk.bind (fun _ => pure _))
  | a n => exact (useReg _).bind (fun _ => getTk.bind (fun _ => pure _))
  | v n => exact (useReg _).bind (fun _ => getTk.bind (fun _ => pure _))
  | i p => exact popUnit p
  | o p => exact raise _ _

theorem read32 (o : Opnd) : Confined w (read32 o) := by
  cases o with
  | g n => exact (useReg _).bind (fun _ => getTk.bind (fun _ => pure _))
  | a n => exact (useReg _).bind (fun _ => getTk.bind (fun _ => pure _))
  | v n => exact (useReg _).bind (fun _ => getTk.bind (fun _ => pure _))
  | i p => exact (popUnit p).bind (fun _ => pure _)
  | o p => exact raise _ _

theorem read2 (a b : Opnd) : Confined w (read2 a b) :=
  (read64 a).bind (fun _ => (read64 b).bind (fun _ => pure _))

theorem write64 {d : Opnd} (hd : w.dst = some d) (u : W64) : Confined w (write64 d u) := by
  have reg : Confined w (do Machine.useReg d; Machine.modTk (fun k => k.setReg d u)) :=
    (useReg d).bind (fun _ => modTk (fun k => .setReg hd k u) (fun k => k.setReg_trapRegs d u))
  cases d with
  | g n => exact reg
  | a n => exact reg
  | v n => exact reg
  | i p => exact raise _ _
  | o p => exact pushUnit p u

theorem write32 {d : Opnd} (hd : w.dst = some d) (u : W32) : Confined w (write32 d u) := write64 hd _

theorem readPred (p : Fin 4) : Confined w (readPred p) := by
  unfold Machine.readPred
  split
  · exact pure _
  · exact getTk.bind (fun _ => pure _)

theorem writePred {p : Fin 4} (hp : w.pred = some p) (u : BitVec 4) : Confined w (writePred p u) := by
  unfold Machine.writePred
  split
  · exact raise _ _
  · exact modTk (fun k => .setPred hp k u) (fun _ => rfl)

theorem setFlags (hf : w.flags = true) (f : Flags) : Confined w (setFlags f) :=
  modTk (fun k => .setFlags hf k f) (fun _ => rfl)

/-! ### The effects of the instructions -/

section
variable {d a b : Opnd} (hd : w.dst = some d)
include hd

theorem scalar2 (f : W32 → W32 → W32) : Confined w (scalar2 f d a b) :=
  (read32 a).bind (fun _ => (read32 b).bind (fun _ => write32 hd _))

theorem scalar1 (f : W32 → W32) : Confined w (scalar1 f d a) :=
  (read32 a).bind (fun _ => write32 hd _)

theorem addr2 (f : W64 → W64 → W64) : Confined w (addr2 f d a b) :=
  (read64 a).bind (fun _ => (read64 b).bind (fun _ => write64 hd _))

theorem perm2 (f : VFmt) (g : List Nat → List Nat → List Nat) : Confined w (perm2 d a b f g) :=
  (read2 a b).bind (fun _ => write64 hd _)

theorem writeLanes (hf : w.flags = true) (f : VFmt) (rs : List (Nat × Flags)) : Confined w (writeLanes d f rs) :=
  (write64 hd _).bind (fun _ => setFlags hf _)

theorem vec2 (hf : w.flags = true) (op : Arith) (f : VFmt) : Confined w (vec2 op d a b f) :=
  (read2 a b).bind (fun _ => writeLanes hd hf f _)

theorem vec1 (hf : w.flags = true) (op : Arith) (f : VFmt) : Confined w (vec1 op d a f) :=
  (read64 a).bind (fun _ => writeLanes hd hf f _)

theorem vecFused (hf : w.flags = true) (negProd negAdd lane0 : Bool) (f : VFmt) : Confined w (vecFused negProd negAdd lane0 d a b f) :=
  (read2 a b).bind (fun _ => (read64 d).bind (fun _ => writeLanes hd hf f _))

end

/-- The address of an access to the bank is checked before anything is written. -/
theorem bankAddr (b : Opnd) (off : Int) (size : Nat) : Confined w (bankAddr b off size) :=
  (read64 b).bind (fun _ => getTk.bind (fun _ => (raiseIf _ _ _).bind (fun _ => (raiseIf _ _ _).bind (fun _ => pure _))))

theorem bodyLd {d : Opnd} (hd : w.dst = some d) (signed : Bool) (size : Nat) (b : Opnd) (off : Int) : Confined w (bodyLd signed size d b off) :=
  (bankAddr b off size).bind (fun _ => getTk.bind (fun _ => write32 hd _))

theorem bodyLdD {d : Opnd} (hd : w.dst = some d) (b : Opnd) (off : Int) : Confined w (bodyLdD d b off) :=
  (bankAddr b off 8).bind (fun _ => getTk.bind (fun _ => write64 hd _))

theorem bodySt (hb : w.bank = true) (size : Nat) (d b : Opnd) (off : BitVec 12) : Confined w (bodySt size d b off) := by
  have store (ea : Nat) (u : W64) : Confined w (Machine.modTk (fun k => { k with bank := k.bank.write ea (leBytes u.toNat size) })) :=
    modTk (fun k => .setBank hb k _) (fun _ => rfl)
  refine (bankAddr b _ size).bind (fun ea => ?_)
  dsimp only
  split
  · exact (read64 d).bind (fun u => store ea u)
  · exact (read32 d).bind (fun u => store ea _)

section
variable {p : Fin 4} (hp : w.pred = some p)
include hp

theorem compare2 (f : W32 → W32 → Bool) (a b : Opnd) : Confined w (compare2 f p a b) :=
  (read32 a).bind (fun _ => (read32 b).bind (fun _ => writePred hp _))

theorem compareA (f : W64 → W64 → Bool) (a b : Opnd) : Confined w (compareA f p a b) :=
  (read64 a).bind (fun _ => (read64 b).bind (fun _ => writePred hp _))

theorem pred2 (f : BitVec 4 → BitVec 4 → BitVec 4) (q r : Fin 4) : Confined w (pred2 f p q r) :=
  (readPred q).bind (fun _ => (readPred r).bind (fun _ => writePred hp _))

end

/-! ### The checks before it (R147, R380) -/

theorem decodeChecks (i : Instr) (word : W32) : Confined w (decodeChecks i word) := by
  refine getTk.bind (fun tk => getTn.bind (fun tn => getN.bind (fun n => (raiseIf _ _ _).bind (fun _ => (raiseIf _ _ _).bind (fun _ => ?_)))))
  split
  · exact raise _ _
  · exact pure ()

theorem atomicStall : Confined w atomicStall := by
  refine getTn.bind (fun tn => getTk.bind (fun tk => ?_))
  split
  · exact watch _
  · exact stallUnless _

end Confined

end Sys2Proof.Machine

/-! PROOFS. The frames of the register instructions and of the bank stores (R37, R133, R157, R174, R375). -/

namespace Sys2Proof.Machine

/-! ### The node after a trap (R375) -/

@[simp] theorem dropOpen_tasks (s : State) (t : Nat) (l : List (Option Nat)) : (dropOpen s t l).tasks = s.tasks := by
  induction l generalizing s with
  | nil => rfl
  | cons o l ih => cases o <;> simp [dropOpen, ih, State.modChan]

theorem haltNode_task {s : State} {t n : Nat} {tk : TaskRt} (h : s.tasks.get? (key2 t n) = some tk) :
    (haltNode s t n).tasks.get? (key2 t n) = some { tk with st := .halted } := by
  simp [haltNode, h, Map.get?_set_self]

/-- A trap changes no register but the trap registers, and those only as the node enters its handler. -/
theorem takeTrap_task {s : State} {t n code : Nat} {tk y : TaskRt} {arg : W64} {src : Int} (w : Writes)
    (h : (takeTrap s t n tk code arg src).tasks.get? (key2 t n) = some y) :
    RegsFrame w tk y ∧ (y.tstat = tk.tstat → y.trapRegs = tk.trapRegs) := by
  unfold takeTrap at h
  split at h
  · rw [reportFault_tasks, haltNode_task (Map.get?_set_self _ _ _)] at h
    cases h
    exact ⟨.setStatus tk .halted, fun _ => rfl⟩
  · rename_i enabled
    rw [Map.get?_set_self] at h
    cases h
    refine ⟨⟨fun _ _ => rfl, fun _ _ => rfl, fun _ _ => rfl, fun _ _ => rfl, fun _ => rfl, fun _ => rfl, rfl⟩, fun same => ?_⟩
    exact absurd (by simp [← same]) enabled

/-! ### Every outcome of an instruction -/

/-- What a step of the issuing node, whose state is `x`, leaves as it was, where it may write `w`. -/
structure StepFrame (w : Writes) (s t : State) (x : TaskRt) : Prop where
  outside : OutsideFrame s.cur.1 s.cur.2 x.inCh x.outCh s t
  node : ∀ y, t.tasks.get? (key2 s.cur.1 s.cur.2) = some y → RegsFrame w x y ∧ (y.tstat = x.tstat → y.trapRegs = x.trapRegs)

section
variable {w : Writes} {s t u : State} {x tk : TaskRt}

/-- The frame that the obligations name. -/
theorem StepFrame.registersFrame (h : StepFrame w s t x) (hx : s.tasks.get? (key2 s.cur.1 s.cur.2) = some x)
    (bank : w.dst ≠ none ∨ w.pred ≠ none → w.bank = false) : registersFrame s t w.dst w.pred w.flags := by
  refine ⟨h.outside.outsideNodeFrame hx, fun x' y hx' hy => ?_⟩
  obtain rfl : x = x' := Option.some.inj (hx.symm.trans hx')
  obtain ⟨regs, traps⟩ := h.node y hy
  have same {α : Type} (f : TaskRt → α) : f y.unwritten = f x.unwritten := congrArg f regs.rest
  refine ⟨regs.g, regs.a, regs.v, regs.p, regs.fflags, same TaskRt.sbcnt, same TaskRt.sberr, same TaskRt.acts, same TaskRt.srseed,
    same TaskRt.nullfwd, same TaskRt.tvec, same TaskRt.updpend, same TaskRt.code, same TaskRt.fmt,
    fun named => regs.bank (bank named), fun status => ?_⟩
  have held := traps status
  simp only [TaskRt.trapRegs, Prod.mk.injEq] at held
  obtain ⟨tpc, tcause, targ, tsrc, -⟩ := held
  exact ⟨tpc, tcause, targ, tsrc⟩

/-- The node's own state is written last. -/
theorem StepFrame.setTask (outside : OutsideFrame s.cur.1 s.cur.2 x.inCh x.outCh s u) (regs : RegsFrame w x tk)
    (traps : tk.trapRegs = x.trapRegs) : StepFrame w s { u with tasks := u.tasks.set (key2 s.cur.1 s.cur.2) tk } x := by
  refine ⟨outside.trans (.setTask u tk), fun y hy => ?_⟩
  rw [Map.get?_set_self] at hy
  cases hy
  exact ⟨regs, fun _ => traps⟩

/-- The node takes a trap. -/
theorem StepFrame.takeTrap (outside : OutsideFrame s.cur.1 s.cur.2 x.inCh x.outCh s u) (regs : RegsFrame w x tk)
    (traps : tk.trapRegs = x.trapRegs) (code : Nat) (arg : W64) (src : Int) : StepFrame w s (takeTrap u s.cur.1 s.cur.2 tk code arg src) x := by
  refine ⟨outside.trans (.takeTrap u regs.outCh code arg src), fun y hy => ?_⟩
  obtain ⟨kept, held⟩ := takeTrap_task w hy
  have status : tk.tstat = x.tstat := congrArg (fun r => r.2.2.2.2) traps
  exact ⟨regs.trans kept, fun h => (held (h.trans status.symm)).trans traps⟩

end

/-- The context in which an instruction of `len` words of node `x` begins. -/
def startCtx (s : State) (x : TaskRt) (len : Nat) : TCtx :=
  { s := s, t := s.cur.1, n := s.cur.2, tk := { x with st := .running }, next := x.pc + len }

/-- An instruction whose course is confined comes to a state in its frame, be it complete, waiting or trapped. -/
theorem runTask_stepFrame {w : Writes} {i : Instr} {word : W32} {len : Nat} {body : TM Unit} {s t : State} {x : TaskRt}
    (hx : s.tasks.get? (key2 s.cur.1 s.cur.2) = some x)
    (course : ConfinedAt w (startCtx s x len) (do decodeChecks i word; atomicStall; body)) (h : runTask i word len body s = .next t) :
    StepFrame w s t x := by
  have begun : RegsFrame w x { x with st := .running } := .setStatus x .running
  simp only [runTask, hx] at h
  split at h
  case h_1 c' heq =>
    have done : CtxFrame w (startCtx s x len) c' := course.ok heq
    cases h
    exact .setTask done.outside (begun.trans (done.regs.trans (.issued _ _))) done.traps
  case h_2 blocked heq =>
    cases h
    exact .setTask (.refl s) (.setStatus x _) rfl
  case h_3 f heq => exact (course.error heq).elim
  case h_4 blocked c' heq => exact (course.error heq).elim
  case h_5 code arg heq =>
    cases h
    exact .takeTrap (.refl s) begun rfl _ _ _
  case h_6 f code arg heq =>
    have discards : ∀ u, OutsideFrame s.cur.1 s.cur.2 x.inCh x.outCh u (f u) := course.error heq
    cases h
    exact .takeTrap (discards s) begun rfl _ _ _
  case h_7 f heq =>
    cases h
    exact .takeTrap (.refl s) (begun.trans (.setWflags _ _)) rfl _ _ _

/-! ### The register instructions (R162 to R168, R173, R189, R191, R195) -/

/-- The effect of `i` is confined to what an instruction that may write `w` changes. -/
def Runs (w : Writes) (i : Instr) : Prop := ∃ body : TM Unit, Confined w body ∧ ∀ s, exec i s = run1 i body s

theorem Runs.registersFrame {w : Writes} {i : Instr} {s t : State} (hi : Runs w i) (bank : w.dst ≠ none ∨ w.pred ≠ none → w.bank = false)
    (h : exec i s = .next t) : registersFrame s t w.dst w.pred w.flags := by
  obtain ⟨body, confined, runs⟩ := hi
  rw [runs, run1] at h
  cases hx : s.tasks.get? (key2 s.cur.1 s.cur.2) with
  | none => simp [runTask, hx] at h
  | some x =>
    have course := (Confined.decodeChecks i (instrWord i)).bind (fun _ => Confined.atomicStall.bind (fun _ => confined))
    exact (runTask_stepFrame hx (course _) h).registersFrame hx bank

/-- One destination, and no flags. -/
def toReg (d : Opnd) : Writes := ⟨some d, none, false, false⟩
/-- One destination, and flags. -/
def toLanes (d : Opnd) : Writes := ⟨some d, none, true, false⟩
/-- One predicate. -/
def toPred (p : Fin 4) : Writes := ⟨none, some p, false, false⟩
/-- The bank. -/
def toBank : Writes := ⟨none, none, false, true⟩
/-- Nothing. -/
def toNothing : Writes := ⟨none, none, false, false⟩

theorem runs_scalarTwo (d a b : Opnd) : ∀ e ∈ scalarTwoRules, Runs (toReg d) (e.1 d a b) := by
  simp only [scalarTwoRules, List.forall_mem_cons, List.not_mem_nil, false_implies, implies_true, and_true]
  and_intros <;> exact ⟨_, .scalar2 rfl _, fun _ => rfl⟩

theorem runs_scalarOne (d a : Opnd) : ∀ e ∈ scalarOneRules, Runs (toReg d) (e.1 d a) := by
  simp only [scalarOneRules, List.forall_mem_cons, List.not_mem_nil, false_implies, implies_true, and_true]
  and_intros <;> exact ⟨_, .scalar1 rfl _, fun _ => rfl⟩

theorem runs_scalarImmediate (d a : Opnd) (k : BitVec 14) : ∀ e ∈ scalarImmediateRules, Runs (toReg d) (e.1 d a k) := by
  simp only [scalarImmediateRules, List.forall_mem_cons, List.not_mem_nil, false_implies, implies_true, and_true]
  and_intros <;> exact ⟨_, .scalar1 rfl _, fun _ => rfl⟩

theorem runs_shiftImmediate (d a : Opnd) (k : BitVec 5) : ∀ e ∈ shiftImmediateRules, Runs (toReg d) (e.1 d a k) := by
  simp only [shiftImmediateRules, List.forall_mem_cons, List.not_mem_nil, false_implies, implies_true, and_true]
  and_intros <;> exact ⟨_, .scalar1 rfl _, fun _ => rfl⟩

theorem runs_addressTwo (d a b : Opnd) : ∀ e ∈ [Instr.addA, .addzA, .subA, .catA], Runs (toReg d) (e d a b) := by
  simp only [List.forall_mem_cons, List.not_mem_nil, false_implies, implies_true, and_true]
  refine ⟨⟨_, .addr2 rfl _, fun _ => rfl⟩, ⟨_, ?addz, fun _ => rfl⟩, ⟨_, .addr2 rfl _, fun _ => rfl⟩, ⟨_, ?cat, fun _ => rfl⟩⟩
  case addz => exact (Confined.read64 a).bind (fun _ => (Confined.read32 b).bind (fun _ => .write64 rfl _))
  case cat => exact (Confined.read32 a).bind (fun _ => (Confined.read32 b).bind (fun _ => .write64 rfl _))

theorem runs_addressOne (d a : Opnd) : ∀ e ∈ [Instr.movA, .loA, .hiA], Runs (toReg d) (e d a) := by
  simp only [List.forall_mem_cons, List.not_mem_nil, false_implies, implies_true, and_true]
  exact ⟨⟨_, (Confined.read64 a).bind (fun _ => .write64 rfl _), fun _ => rfl⟩,
    ⟨_, (Confined.read64 a).bind (fun _ => .write32 rfl _), fun _ => rfl⟩,
    ⟨_, (Confined.read64 a).bind (fun _ => .write32 rfl _), fun _ => rfl⟩⟩

theorem runs_bankLoad (d b : Opnd) (off : BitVec 14) : ∀ e ∈ bankLoadRules, Runs (toReg d) (e.1 d b off) := by
  simp only [bankLoadRules, List.forall_mem_cons, List.not_mem_nil, false_implies, implies_true, and_true]
  and_intros <;> exact ⟨_, .bodyLd rfl _ _ _ _, fun _ => rfl⟩

theorem runs_registerForm {i : Instr} {d : Opnd} (h : registerForm i d) : Runs (toReg d) i := by
  obtain ⟨e, he, a, b, rfl⟩ | ⟨e, he, a, rfl⟩ | ⟨e, he, a, k, rfl⟩ | ⟨e, he, a, k, rfl⟩ | ⟨e, he, a, b, rfl⟩ | ⟨e, he, a, rfl⟩ |
    ⟨a, k, rfl⟩ | ⟨k, rfl⟩ | ⟨k, rfl⟩ | ⟨q, rfl⟩ | ⟨e, he, b, off, rfl⟩ | ⟨b, off, rfl⟩ := h
  · exact runs_scalarTwo d a b e he
  · exact runs_scalarOne d a e he
  · exact runs_scalarImmediate d a k e he
  · exact runs_shiftImmediate d a k e he
  · exact runs_addressTwo d a b e he
  · exact runs_addressOne d a e he
  · exact ⟨_, (Confined.read64 a).bind (fun _ => .write64 rfl _), fun _ => rfl⟩
  · exact ⟨_, .write32 rfl _, fun _ => rfl⟩
  · exact ⟨_, .write32 rfl _, fun _ => rfl⟩
  · exact ⟨_, (Confined.readPred q).bind (fun _ => .write32 rfl _), fun _ => rfl⟩
  · exact runs_bankLoad d b off e he
  · exact ⟨_, .bodyLdD rfl _ _, fun _ => rfl⟩

theorem runs_laneForm {i : Instr} {d : Opnd} (h : laneForm i d) : Runs (toLanes d) i := by
  obtain ⟨e, he, a, b, f, rfl⟩ | ⟨e, he, a, f, rfl⟩ | ⟨e, he, a, b, f, rfl⟩ | ⟨e, he, a, b, f, rfl⟩ := h <;> revert e
  · simp only [laneRules, List.forall_mem_cons, List.not_mem_nil, false_implies, implies_true, and_true]
    and_intros <;> exact ⟨_, .vec2 rfl rfl _ _, fun _ => rfl⟩
  · simp only [List.forall_mem_cons, List.not_mem_nil, false_implies, implies_true, and_true]
    and_intros <;> exact ⟨_, .vec1 rfl rfl _ _, fun _ => rfl⟩
  · simp only [fusedRules, List.forall_mem_cons, List.not_mem_nil, false_implies, implies_true, and_true]
    and_intros <;> exact ⟨_, .vecFused rfl rfl _ _ _ _, fun _ => rfl⟩
  · simp only [permuteRules, List.forall_mem_cons, List.not_mem_nil, false_implies, implies_true, and_true]
    and_intros <;> exact ⟨_, .perm2 rfl _ _, fun _ => rfl⟩

theorem runs_predicateForm {i : Instr} {p : Fin 4} (h : predicateForm i p) : Runs (toPred p) i := by
  obtain ⟨e, he, a, b, rfl⟩ | ⟨e, he, a, b, rfl⟩ | ⟨e, he, q, r, rfl⟩ | ⟨a, rfl⟩ := h
  · revert e
    simp only [compareRules, List.forall_mem_cons, List.not_mem_nil, false_implies, implies_true, and_true]
    and_intros <;> exact ⟨_, .compare2 rfl _ _ _, fun _ => rfl⟩
  · revert e
    simp only [compareAddressRules, List.forall_mem_cons, List.not_mem_nil, false_implies, implies_true, and_true]
    and_intros <;> exact ⟨_, .compareA rfl _ _ _, fun _ => rfl⟩
  · revert e
    simp only [predicateRules, List.forall_mem_cons, List.not_mem_nil, false_implies, implies_true, and_true]
    and_intros <;> exact ⟨_, .pred2 rfl _ _ _, fun _ => rfl⟩
  · exact ⟨_, (Confined.read32 a).bind (fun _ => .writePred rfl _), fun _ => rfl⟩

/-- Settles O59: the effect of each form is confined to its destination, and every outcome of a confined effect is in the frame. -/
theorem registerInstructionsFrame : Obligations.RegisterInstructionsFrame :=
  ⟨fun _ _ _ _ form h => (runs_registerForm form).registersFrame (fun _ => rfl) h,
    fun _ _ _ _ form h => (runs_laneForm form).registersFrame (fun _ => rfl) h,
    fun _ _ _ _ form h => (runs_predicateForm form).registersFrame (fun _ => rfl) h⟩

/-! ### The bank stores (R174) -/

theorem tm_bind_eq_ok {α β : Type} {m : TM α} {f : α → TM β} {c c' : TCtx} {b : β} (h : (m >>= f) c = .ok (b, c')) :
    ∃ a c1, m c = .ok (a, c1) ∧ f a c1 = .ok (b, c') := by
  cases hm : m c with
  | error e => rw [tm_bind_error hm] at h; cases h
  | ok r => exact ⟨r.1, r.2, rfl, by rwa [tm_bind_ok hm] at h⟩

theorem raiseIf_eq_ok {b : Bool} {code : Nat} {arg : W64} {c c' : TCtx} {u : Unit} (h : raiseIf b code arg c = .ok (u, c')) :
    b = false ∧ c' = c := by
  cases b
  · cases h; exact ⟨rfl, rfl⟩
  · cases h

/-- The bank address of an access that passes its checks is base + offset. -/
theorem bankAddr_ok {b : Opnd} {off : Int} {size ea : Nat} {c c' : TCtx} (h : bankAddr b off size c = .ok (ea, c')) :
    ∃ base, read64 b c = .ok (base, c') ∧ 0 ≤ base.toInt + off ∧ ea = (base.toInt + off).toNat := by
  obtain ⟨base, c1, hread, h⟩ := tm_bind_eq_ok h
  obtain ⟨k, c2, hk, checks⟩ := tm_bind_eq_ok h
  cases hk
  obtain ⟨_, c3, hrange, rest⟩ := tm_bind_eq_ok checks
  obtain ⟨inRange, rfl⟩ := raiseIf_eq_ok hrange
  obtain ⟨_, c4, halign, last⟩ := tm_bind_eq_ok rest
  obtain ⟨-, rfl⟩ := raiseIf_eq_ok halign
  cases last
  simp only [Bool.or_eq_false_iff, decide_eq_false_iff_not, not_lt] at inRange
  exact ⟨base, hread, inRange.1, rfl⟩

/-- A store that completes has written its bytes at base + offset, into the bank as it was. -/
theorem bodySt_ok {size : Nat} {d b : Opnd} {off : BitVec 12} {c c' : TCtx} (h : bodySt size d b off c = .ok ((), c')) :
    ∃ (base : W64) (c1 : TCtx) (n : Nat), read64 b c = .ok (base, c1) ∧ 0 ≤ base.toInt + off.toInt ∧
      c'.tk.bank = c.tk.bank.write (base.toInt + off.toInt).toNat (leBytes n size) := by
  obtain ⟨ea, c1, haddr, h⟩ := tm_bind_eq_ok h
  obtain ⟨base, hread, low, rfl⟩ := bankAddr_ok haddr
  have kept (c2 : TCtx) (reads : CtxFrame toNothing c1 c2) : c2.tk.bank = c.tk.bank :=
    (((Confined.read64 b c).ok hread).trans reads).regs.bank rfl
  dsimp only at h
  split at h
  · obtain ⟨u, c2, hdata, h⟩ := tm_bind_eq_ok h
    cases h
    exact ⟨base, c1, u.toNat, hread, low, by rw [← kept c2 ((Confined.read64 d c1).ok hdata)]⟩
  · obtain ⟨u, c2, hdata, h⟩ := tm_bind_eq_ok h
    cases h
    exact ⟨base, c1, _, hread, low, by rw [← kept c2 ((Confined.read32 d c1).ok hdata)]⟩

@[simp] theorem leBytes_length (n size : Nat) : (leBytes n size).length = size := by
  induction size generalizing n with
  | zero => rfl
  | succ size ih => simp [leBytes, ih]

theorem bankStoreForm_runs {i : Instr} {b : Opnd} {off : BitVec 12} {size : Nat} (h : bankStoreForm i b off size) :
    ∃ d, ∀ s, exec i s = run1 i (bodySt size d b off) s := by
  obtain ⟨e, he, d, rfl, rfl⟩ | ⟨d, rfl, rfl⟩ := h
  · refine ⟨d, ?_⟩
    revert e
    simp only [bankStoreRules, List.forall_mem_cons, List.not_mem_nil, false_implies, implies_true, and_true]
    and_intros <;> exact fun _ => rfl
  · exact ⟨d, fun _ => rfl⟩

/-- An instruction that stops has changed no register, and no byte of the bank. -/
theorem runTask_stepFrame_of_error {w : Writes} {i : Instr} {word : W32} {len : Nat} {body : TM Unit} {s t : State} {c : TCtx}
    {x : TaskRt} {e : Stop} (starts : Starts i len s c) (hx : s.tasks.get? (key2 s.cur.1 s.cur.2) = some x) (confined : Confined w body)
    (he : body c = .error e) (h : runTask i word len body s = .next t) : StepFrame toNothing s t x := by
  have course := starts.prelude word body
  obtain ⟨x', hx', rfl⟩ := starts.task
  obtain rfl : x = x' := Option.some.inj (hx.symm.trans hx')
  exact runTask_stepFrame hx (.of_error (course.trans he) ((confined _).error he)) h

/-- Settles O60: a store that completes has written its bytes at base + offset; one that does not has changed nothing. -/
theorem bankStoresFrame : Obligations.BankStoresFrame := by
  intro i b off size s t c form starts h
  obtain ⟨d, runs⟩ := bankStoreForm_runs form
  have confined : Confined toBank (bodySt size d b off) := .bodySt rfl size d b off
  refine ⟨Runs.registersFrame ⟨_, confined, runs⟩ (by simp [toBank]) h, fun x y hx hy _ => ?_⟩
  rw [runs, run1] at h
  cases hbody : bodySt size d b off c with
  | error e =>
    obtain ⟨regs, -⟩ := (runTask_stepFrame_of_error starts hx confined hbody h).node y hy
    have same : y.bank = x.bank := regs.bank rfl
    exact ⟨fun _ _ _ _ _ => by rw [same], fun _ _ => same⟩
  | ok r =>
    obtain ⟨_, c'⟩ := r
    obtain ⟨base, c1, n, hread, low, stored⟩ := bodySt_ok hbody
    rw [runTask_done starts _ hbody] at h
    obtain ⟨x', hx', rfl⟩ := starts.task
    obtain rfl : x = x' := Option.some.inj (hx.symm.trans hx')
    cases h
    rw [completed, Map.get?_set_self] at hy
    cases hy
    refine ⟨fun base' c1' hread' j outside => ?_, fun e he => ?_⟩
    · cases hread.symm.trans hread'
      have apart : j < (base.toInt + off.toInt).toNat ∨ (base.toInt + off.toInt).toNat + (leBytes n size).length ≤ j := by
        rw [leBytes_length]
        omega
      exact (congrArg (Memory.get · j) stored).trans (Memory.get_write_outside _ _ _ _ apart)
    · cases hread.symm.trans he

end Sys2Proof.Machine

/-! PROOFS. The registers of host queues, their creation and destruction, and completion records (R59 to R62, R65, R66, R386). -/

namespace Sys2Proof.Machine

@[simp] theorem State.modQueue_queue?_self (s : State) (q : Nat) (f : QueueRt → QueueRt) :
    (s.modQueue q f).queues.get? q = (s.queues.get? q).map f :=
  Map.get?_modify_self s.queues q f

/-! ### The events with their subjects -/

section
variable {s : State}

theorem exec_kickTailWrite {q : Nat} {v : W32} (hs : s.subj = .write q v) (hp : s.powered = true) :
    exec .kickTailWrite s = .next (kickTailWrite q v s) := by
  change execKickTailWrite s = _
  simp [execKickTailWrite, hs, hp]

theorem exec_cplHeadWrite {q : Nat} {v : W32} (hs : s.subj = .write q v) (hp : s.powered = true) :
    exec .cplHeadWrite s = .next (s.modQueue q (fun y => { y with cplHead := v })) := by
  change execCplHeadWrite s = _
  simp [execCplHeadWrite, hs, hp]

theorem exec_createQueue {desc : BitVec 512} {die : Nat} (hs : s.subj = .newQueue desc die) :
    exec .createQueue s =
      .next (if mboxSubmitted s then (if s.stage = 3 then createQueue desc.toNat die s else mboxAnswer s .notReady) else s) := by
  change execCreateQueue s = _
  cases sent : mboxSubmitted s <;> by_cases ready : s.stage = 3 <;> simp [execCreateQueue, hs, sent, ready]

theorem exec_destroyQueue {q : Nat} (hs : s.subj = .queue q) (sent : mboxSubmitted s = true) :
    exec .destroyQueue s = .next (mboxAnswer (leaveAsks { s with queues := s.queues.erase q } (Layer.ofQueue q)) .ok) := by
  change execDestroyQueue s = _
  simp [execDestroyQueue, hs, sent]

theorem exec_mboxDoorWrite {v : W32} (hs : s.subj = .value v) (hp : s.powered = true) :
    exec .mboxDoorWrite s = .next { s with mboxDoor := v } := by
  change execMboxDoorWrite s = _
  simp [execMboxDoorWrite, hs, hp]

theorem exec_completionWrite {q k : Nat} (hs : s.subj = .completion q k) (hp : s.powered = true) :
    exec .completionWrite s = .next (completionWrite q k s) := by
  change execCompletionWrite s = _
  simp [execCompletionWrite, hs, hp]

end

/-! ### KICK_TAIL and the entries that it announces (R60, R61) -/

section
variable {s : State} {q : Nat} {x : QueueRt}

/-- The three courses of a kick: of a queue in error, of one beyond the ring, and of one within it. -/
theorem kickTailWrite_eq (v : W32) (hq : s.queues.get? q = some x) :
    kickTailWrite q v s =
      let s1 := s.modQueue q (fun y => { y with kickTail := v })
      if x.failed then s1 else if 2 ^ x.cmdlog < (v - x.head).toNat then queueError s1 q stBadCommand else fetchRing s1 q := by
  simp only [kickTailWrite, hq]

/-- One announced entry whose page is there is read as a command that waits. -/
theorem fetchRing_one {parts : List (Phys × Nat)} (hq : s.queues.get? q = some x) (sound : x.failed = false)
    (one : x.kickTail = x.head + 1)
    (hr : hostRange s (.ring q) x.pasid (x.cmdva + x.head.toNat % 2 ^ x.cmdlog * 64) 64 false = .ok parts) :
    fetchRing s q = s.modQueue q (fun y => { y with
      head := y.head + 1, cmds := y.cmds ++ [{
        idx := x.head.toNat, words := wordsOf (readParts s parts) 8, st := .waiting,
        since := if x.cmds.any (fun c => c.st == .waiting) then 0 else s.nowNs, args := none }] }) := by
  have announced : (x.kickTail - x.head).toNat = 1 := by rw [one]; bv_omega
  have unread : (x.head == x.kickTail) = false := by rw [one, beq_eq_false_iff_ne]; bv_omega
  simp only [fetchRing, hq, announced, readRing, sound, unread, hr, Bool.or_self, Bool.false_eq_true, if_false]

/-- STATUS of a queue in error holds the cause, and no command of it is left that has not started. -/
theorem queueError_queue {cause : Nat} (hq : s.queues.get? q = some x) (fits : cause < 65536) :
    ∃ y, (queueError s q cause).queues.get? q = some y ∧ y.status.toNat % 4 = 2 ∧ y.status.toNat / 65536 = cause ∧
      (∀ c ∈ y.cmds, c.st ≠ .waiting) := by
  refine ⟨_, by rw [queueError, State.modQueue_queue?_self, hq]; rfl, ?_⟩
  have status : (BitVec.ofNat 32 (2 + cause * 65536)).toNat = 2 + cause * 65536 := by
    rw [BitVec.toNat_ofNat]; omega
  dsimp only
  rw [status]
  exact ⟨by omega, by omega, fun c hc => by simpa using (List.mem_filter.mp hc).2⟩

end

/-! ### Queues made and destroyed (R59, R386) -/

/-- What a map gives for a key is one of its entries. -/
theorem Map.mem_of_get? {α : Type} {m : Map α} {k : Nat} {y : α} (h : m.get? k = some y) : (k, y) ∈ m := by
  induction m with
  | nil => cases h
  | cons e m ih =>
    obtain ⟨j, z⟩ := e
    rw [Map.get?] at h
    split at h
    · next hj => cases h; rw [hj]; exact List.mem_cons_self
    · exact List.mem_cons_of_mem _ (ih h)

/-- The `k` identifiers of 32 bits from `n` on. -/
def idsFrom (n k : Nat) : List Nat := (List.range k).map (fun i => (n + i) % 4294967296)

theorem idsFrom_nodup {n k : Nat} (few : k ≤ 2 ^ 32) : (idsFrom n k).Nodup := by
  refine List.Nodup.map_on (fun i hi j hj e => ?_) List.nodup_range
  rw [List.mem_range] at hi hj
  omega

/-- Of more identifiers than a map has entries, one is free. -/
theorem exists_unused_id {α : Type} {m : Map α} (n : Nat) (few : m.length < 2 ^ 32) : ∃ k ∈ idsFrom n (m.length + 1), m.get? k = none := by
  by_contra! used
  have keys : idsFrom n (m.length + 1) ⊆ m.map Prod.fst := fun k hk => by
    obtain ⟨y, hy⟩ := Option.ne_none_iff_exists'.mp (used k hk)
    exact List.mem_map.mpr ⟨(k, y), Map.mem_of_get? hy, rfl⟩
  have short := ((idsFrom_nodup few).subperm keys).length_le
  simp [idsFrom] at short

theorem freshId_free {α : Type} {m : Map α} (n : Nat) (few : m.length < 2 ^ 32) :
    freshId m n < 2 ^ 32 ∧ m.get? (freshId m n) = none := by
  obtain ⟨k, hk, unused⟩ := exists_unused_id n few
  obtain ⟨f, hf⟩ : ∃ f, (idsFrom n (m.length + 1)).find? (fun k => (m.get? k).isNone) = some f :=
    Option.isSome_iff_exists.mp (List.find?_isSome.mpr ⟨k, hk, by rw [unused]; rfl⟩)
  have found : freshId m n = f := congrArg (·.getD n) hf
  obtain ⟨j, -, hj⟩ := List.mem_map.mp (List.mem_of_find?_eq_some hf)
  have free := List.find?_some hf
  rw [found]
  exact ⟨by omega, by simpa using free⟩

theorem freeSlot?_free {s : State} {k : Nat} (h : freeSlot? s = some k) : k < 16384 ∧ ∀ e ∈ s.queues, e.2.slot ≠ k := by
  unfold freeSlot? at h
  have unused := List.find?_some h
  exact ⟨List.mem_range.mp (List.mem_of_find?_eq_some h), fun e he => by simpa using List.all_eq_true.mp unused e he⟩

theorem mboxSubmitted_iff {s : State} (hp : s.powered = true) : mboxSubmitted s = true ↔ s.mboxDoor = 1 ∧ s.stage ≠ 0 := by
  simp [mboxSubmitted, hp, State.stage]

theorem createQueue_made {s : State} {desc slot : Nat} (die : Nat) (free : freeSlot? s = some slot) (sound : descOk desc = true)
    (used : s.enabled 6 4 ≠ 0) : createQueue desc die s = mboxAnswer { s with
      queues := s.queues.set (freshId s.queues s.nextQueue) (QueueRt.create desc (die % s.enabled 6 4) slot),
      nextQueue := (freshId s.queues s.nextQueue + 1) % 2 ^ 32 } .ok := by
  unfold createQueue
  rw [free]
  simp [sound, used]

theorem createQueue_refused {s : State} {desc : Nat} (die : Nat)
    (lacks : freeSlot? s = none ∨ descOk desc = false ∨ s.enabled 6 4 = 0) : createQueue desc die s = mboxAnswer s .refused := by
  unfold createQueue
  cases free : freeSlot? s with
  | none => rfl
  | some slot =>
    have unmade : (descOk desc && s.enabled 6 4 != 0) = false := by
      obtain noSlot | unsound | unused := lacks
      · rw [free] at noSlot; cases noSlot
      · simp [unsound]
      · simp [unused]
    simp [unmade]

theorem hostQueueRegisters_holds : hostQueueRegisters := by
  refine ⟨fun s q v x hs hp hq => ?kick, fun s q x parts hq sound one hr => fetchRing_one hq sound one hr,
    fun x s q cause hq fits => queueError_queue hq fits, fun s desc die hs => ?create, fun s hp => mboxSubmitted_iff hp,
    fun s k h => freeSlot?_free h, fun s n few _ => freshId_free n few, fun d die slot => ⟨rfl, rfl, rfl, rfl⟩,
    fun s st => ⟨rfl, rfl⟩, fun s q hs sent => exec_destroyQueue hs sent, fun s v hs hp => exec_mboxDoorWrite hs hp⟩
  case kick =>
    dsimp only
    rw [exec_kickTailWrite hs hp, exec_cplHeadWrite hs hp, kickTailWrite_eq v hq]
    exact ⟨fun sound beyond => by simp only [sound, if_pos beyond, Bool.false_eq_true, if_false, stBadCommand],
      fun sound within => by simp only [sound, if_neg (Nat.not_lt.mpr within), Bool.false_eq_true, if_false],
      fun failed => by simp only [failed, if_true], rfl⟩
  case create =>
    rw [exec_createQueue hs]
    refine ⟨fun sent ready => ?_, fun sent early => by rw [if_pos sent, if_neg early], fun unsent => by simp [unsent]⟩
    rw [if_pos sent, if_pos ready]
    exact ⟨fun slot free sound used => congrArg _ (createQueue_made die free sound used),
      fun lacks => congrArg _ (createQueue_refused die lacks)⟩

/-! ### Completion records (R62, R65, R66) -/

section
variable {s : State} {q k : Nat} {x : QueueRt} {p : Cpl}

/-- The bytes of a completion, with the phase of the pass in which it is written. -/
def cplBytes (x : QueueRt) (p : Cpl) : List Byte :=
  leBytes (p.word0.toNat + (if x.cplNext / 2 ^ x.cpllog % 2 = 0 then 2 ^ 63 else 0)) 8 ++ leBytes p.result.toNat 8 ++
    leBytes p.detail.toNat 8 ++ leBytes p.word3.toNat 8

variable (hq : s.queues.get? q = some x) (hk : x.pending[k]? = some p)
include hq hk

theorem completionWrite_full (full : 2 ^ x.cpllog ≤ (BitVec.ofNat 32 x.cplNext - x.cplHead).toNat) : completionWrite q k s = s := by
  simp only [completionWrite, hq, hk, full, decide_true, Bool.or_true, if_true]

theorem completionWrite_joined (joined : joinedFirst x.pending p = true) : completionWrite q k s = s := by
  simp [completionWrite, hq, hk, joined]

theorem completionWrite_written {parts : List (Phys × Nat)} (unblocked : cplBlocked s p = false) (alone : joinedFirst x.pending p = false)
    (oldest : ∀ o ∈ x.pending.take k, o.cmd ≠ p.cmd) (room : (BitVec.ofNat 32 x.cplNext - x.cplHead).toNat < 2 ^ x.cpllog)
    (hr : hostRange s (.ring q) x.pasid (x.cplva + x.cplNext % 2 ^ x.cpllog * 32) 32 true = .ok parts) :
    completionWrite q k s =
      let s2 := (wakeWaiters (writeParts s parts (cplBytes x p))).modQueue q (fun y => { y with
        pending := y.pending.eraseIdx k, cplNext := y.cplNext + 1,
        cmds := if p.fin then y.cmds.filter (fun c => c.idx != p.cmd) else y.cmds })
      if p.irq && x.irqen then raiseIrq s2 x.vector else s2 := by
  have first : (x.pending.take k).any (fun o => o.cmd == p.cmd) = false := by simpa using oldest
  simp only [completionWrite, hq, hk, unblocked, alone, first, Nat.not_le.mpr room, hr, cplBytes, Bool.or_self, decide_false,
    Bool.false_eq_true, if_false]

end

/-- A completion with fin = 0 that has been written keeps the others waiting while its own last one is to come. -/
theorem joinedFirst_of_mem {ps : List Cpl} {p o : Cpl} (ho : o ∈ ps) (joined : o.joined = true) (other : o.cmd ≠ p.cmd)
    (written : ∀ e ∈ ps, e.cmd = o.cmd → e.fin = true) : joinedFirst ps p = true := by
  refine List.any_eq_true.mpr ⟨o, ho, ?_⟩
  have last : ps.all (fun e => e.fin || e.cmd != o.cmd) = true :=
    List.all_eq_true.mpr fun e he => by by_cases own : e.cmd = o.cmd <;> simp [own, written e he]
  simp [joined, other, last]

theorem completionsWritten_holds : completionsWritten := by
  refine ⟨fun s q k x p hs hp hq hk unblocked alone oldest => ⟨fun parts room hr => ?_, fun full => ?_⟩,
    fun s q k x p o hs hp hq hk ho joined other written => ?_⟩
  · rw [exec_completionWrite hs hp, completionWrite_written hq hk unblocked alone oldest room hr]
    rfl
  · rw [exec_completionWrite hs hp, completionWrite_full hq hk full]
  · rw [exec_completionWrite hs hp, completionWrite_joined hq hk (joinedFirst_of_mem ho joined other written)]

/-- Settles O38: the registers of a queue, and its completions. -/
theorem hostQueuesAndCompletions : Obligations.HostQueuesAndCompletions := ⟨hostQueueRegisters_holds, completionsWritten_holds⟩

end Sys2Proof.Machine

/-! PROOFS. SIGNAL and WAIT, and commands that complete with BAD_COMMAND (R58, R63 to R65, R68). -/

namespace Sys2Proof.Machine

/-! ### A barred command (R63, R68) -/

theorem Cmd.barred_iff (s : State) (c : Cmd) :
    c.barred s = true ↔ c.malformed = true ∨ (s.dawn.caps.getLsbD 0 = false ∧ c.namesHost = true) := by
  simp only [Cmd.barred, bitOf, BitVec.testBit_toNat, Bool.or_eq_true, Bool.and_eq_true, Bool.not_eq_true']

/-- Every command that has started awaits a page, so none goes on. -/
theorem atHead_none_goes_on {s : State} {q : Nat} {x : QueueRt} {c : Cmd} (h : atHead s q x c) (mine : Cmd → Bool) :
    x.cmds.find? (fun d => d.st == .started && mine d && !awaitsPage s q d) = none := by
  obtain ⟨-, -, -, -, started, -, -⟩ := h
  rw [List.find?_eq_none]
  intro d hd
  by_cases hst : d.st = .started
  · simp [started d hd hst]
  · simp [hst]

/-- A barred command at the head is completed whichever command event comes. -/
theorem commandEvent_barred {mine : Cmd → Bool} {run : State → Nat → QueueRt → Cmd → State} {s : State} {q : Nat} {x : QueueRt} {c : Cmd}
    (h : atHead s q x c) (barred : c.barred s = true) :
    commandEvent mine run s = complete (startCmd s q c.idx) q c.idx stBadCommand 0 0 := by
  have none_goes_on := atHead_none_goes_on h mine
  obtain ⟨hsubj, hpow, hring, hq, -, hhead, hwins⟩ := h
  simp [commandEvent, hsubj, hpow, hring, hq, none_goes_on, hhead, hwins, barred]

theorem exec_commandEvent (s : State) {e : Instr} (he : e ∈ commandEvents) :
    ∃ mine run, exec e s = .next (commandEvent mine run s) := by
  simp only [commandEvents, List.mem_cons, List.not_mem_nil, or_false] at he
  obtain rfl | rfl | rfl | rfl | rfl | rfl | rfl | rfl | rfl | rfl | rfl | rfl | rfl | rfl | rfl := he <;> exact ⟨_, _, rfl⟩

/-! ### Accesses of a command -/

section
variable {s : State} {q va len : Nat} {x : QueueRt} {c : Cmd} {write : Bool} {k : List (Phys × Nat) → State} {parts : List (Phys × Nat)}

/-- A command goes on with the pieces of an aligned range whose pages are there. -/
theorem withAligned_ok (aligned : va % 8 = 0) (hr : hostRange s (.command q c.idx) x.pasid va len write = .ok parts) :
    withAligned s q x c va len write k = k parts := by
  simp [withAligned, withRange, aligned, hr]

end

theorem Cmd.w_lt (c : Cmd) (k : Nat) : c.w k < 2 ^ 64 := BitVec.isLt _

/-! ### SIGNAL (R65) -/

section
variable {s : State} {q : Nat} {x : QueueRt} {c : Cmd} {parts : List (Phys × Nat)}

theorem exec_signalSet (h : atHead s q x c) (sound : c.barred s = false) (hop : c.op = 4) (hw : c.w 3 = 0) :
    exec .signalSet s = .next (runSignal (startCmd s q c.idx) q x c) :=
  congrArg _ (commandEvent_head h sound (by simp [hop, hw]))

theorem exec_signalAdd (h : atHead s q x c) (sound : c.barred s = false) (hop : c.op = 4) (hw : c.w 3 = 1) :
    exec .signalAdd s = .next (runSignal (startCmd s q c.idx) q x c) :=
  congrArg _ (commandEvent_head h sound (by simp [hop, hw]))

variable (aligned : c.w 1 % 8 = 0) (hr : hostRange s (.command q c.idx) x.pasid (c.w 1) 8 true = .ok parts)
include aligned hr

theorem runSignal_set (hw : c.w 3 = 0) : runSignal s q x c =
    complete (wakeWaiters (writeParts s parts (leBytes (c.w 2) 8))) q c.idx stOk (BitVec.ofNat 64 (c.w 2)) 0 := by
  have notAdd : ¬ c.w 3 = 1 := by omega
  simp only [runSignal, withAligned_ok aligned hr, if_neg notAdd, Nat.mod_eq_of_lt (c.w_lt 2)]

theorem runSignal_add (hw : c.w 3 = 1) : runSignal s q x c =
    let new := (leNat (readParts s parts) + c.w 2) % 2 ^ 64
    complete (wakeWaiters (writeParts s parts (leBytes new 8))) q c.idx stOk (BitVec.ofNat 64 new) 0 := by
  simp only [runSignal, withAligned_ok aligned hr, if_pos hw]

end

/-! ### WAIT (R64, R65) -/

theorem Cmd.waitHolds_iff (c : Cmd) (v : Nat) :
    c.waitHolds v = true ↔ if bitOf (c.w 3) 0 = true then v = c.w 2 else c.w 2 ≤ v := by
  unfold Cmd.waitHolds
  split <;> simp

section
variable {s : State} {q : Nat} {x : QueueRt} {c : Cmd} {parts : List (Phys × Nat)}

theorem exec_wait (h : atHead s q x c) (sound : c.barred s = false) (hop : c.op = 5) :
    exec .wait s = .next (runWait (startCmd s q c.idx) q x c) :=
  congrArg _ (commandEvent_head h sound (by simp [hop]))

theorem runWait_read (aligned : c.w 1 % 8 = 0) (hr : hostRange s (.command q c.idx) x.pasid (c.w 1) 8 false = .ok parts) :
    runWait s q x c =
      let v := leNat (readParts s parts)
      if c.waitHolds v then complete s q c.idx stOk (BitVec.ofNat 64 v) 0 else holdQueue s q c (BitVec.ofNat 64 v) := by
  simp [runWait, aligned, hr]

theorem runWait_pageAwaited (aligned : c.w 1 % 8 = 0) (hr : hostRange s (.command q c.idx) x.pasid (c.w 1) 8 false = .wait) :
    runWait s q x c = holdQueue s.tookFree q c (Config.freeWord s.freeCtr) := by
  simp [runWait, aligned, hr]

end

section
variable {s : State} {q idx since : Nat} {x : QueueRt} {c : Cmd} {v0 : W64}

theorem exec_waitSatisfied (hs : s.subj = .queue q) (hp : s.powered = true) : exec .waitSatisfied s = .next (waitSatisfied q s) := by
  change execWaitSatisfied s = _
  simp [execWaitSatisfied, hs, hp]

theorem exec_waitTimeout (hs : s.subj = .queue q) (hp : s.powered = true) : exec .waitTimeout s = .next (waitTimeout q s) := by
  change execWaitTimeout s = _
  simp [execWaitTimeout, hs, hp]

variable (hq : s.queues.get? q = some x) (hwait : x.waiting = some (idx, since, v0)) (hc : x.cmd? idx = some c)
include hq hwait hc

theorem waitSatisfied_read {parts : List (Phys × Nat)} (hr : hostRange s (.command q idx) x.pasid (c.w 1) 8 false = .ok parts) :
    waitSatisfied q s =
      let v := leNat (readParts s parts)
      if c.waitHolds v then complete (s.modQueue q (fun y => { y with waiting := none })) q idx stOk (BitVec.ofNat 64 v) 0
      else s.modQueue q (fun y => { y with waiting := some (idx, since, BitVec.ofNat 64 v) }) := by
  simp [waitSatisfied, hq, hwait, hc, hr]

theorem waitTimeout_eq : waitTimeout q s =
    let limit := bitsOf (c.w 3) 32 32
    if limit = 0 ∨ s.nowNs < since + limit * 1000 then s
    else complete (s.modQueue q (fun y => { y with waiting := none })) q idx stWaitTimeout v0 0 := by
  simp only [waitTimeout, hq, hwait, hc]

end

/-- Settles O40: each clause is the lemma about its command or event. -/
theorem signalAndWaitCommands : Obligations.SignalAndWaitCommands := by
  refine ⟨fun e he s q x c h barred => ?barred, fun s q x c parts h sound hop aligned hr => ?signal,
    fun s q x c parts h sound hop aligned hr => ?wait, fun s q x c h sound hop aligned hr => ?awaited,
    fun s q idx since v0 x c parts hs hp hq hwait hc hr => ?satisfied, fun s q idx since v x c hs hp hq hwait hc => ?timeout,
    Cmd.barred_iff⟩
  case barred =>
    obtain ⟨mine, run, event⟩ := exec_commandEvent s he
    rw [event, commandEvent_barred h barred, stBadCommand]
  case signal =>
    exact ⟨fun hw => by rw [exec_signalSet h sound hop hw, runSignal_set aligned hr hw, stOk],
      fun hw => by rw [exec_signalAdd h sound hop hw, runSignal_add aligned hr hw, stOk]⟩
  case wait =>
    dsimp only
    rw [exec_wait h sound hop, runWait_read aligned hr, ← Cmd.waitHolds_iff]
    exact ⟨fun holds => by rw [if_pos holds, stOk], fun unmet => by rw [if_neg unmet, holdQueue]⟩
  case awaited =>
    rw [exec_wait h sound hop, runWait_pageAwaited aligned hr]
    rfl
  case satisfied =>
    rw [exec_waitSatisfied hs hp, waitSatisfied_read hq hwait hc hr]
    exact ⟨fun holds => by rw [if_pos holds, stOk], fun unmet => by rw [if_neg (by simp [unmet])]⟩
  case timeout =>
    rw [exec_waitTimeout hs hp, waitTimeout_eq hq hwait hc]
    exact ⟨fun limited passed => by rw [if_neg (by omega), stWaitTimeout], fun early => by rw [if_pos early]⟩

end Sys2Proof.Machine

/-! PROOFS. PUSH, PULL and QUERY (R64, R65, R69 to R73). -/

namespace Sys2Proof.Machine

/-! ### The records of a PUSH buffer (R38, R65) -/

theorem natUnits_length (x n : Nat) : (natUnits x n).length = n := by
  induction n generalizing x with
  | zero => rfl
  | succ n ih => simp [natUnits, ih]

theorem bytesUnits_length (bs : List Byte) : (bytesUnits bs).length = bs.length / 8 := natUnits_length _ _

theorem ringBytes_eq_sum (rs : List Rec) : ringBytes rs = (rs.map Rec.bytes).sum := by
  rw [ringBytes, List.sum_eq_foldl, List.foldl_map]

theorem ringBytes_cons (r : Rec) (rs : List Rec) : ringBytes (r :: rs) = Rec.bytes r + ringBytes rs := by
  simp [ringBytes_eq_sum]

/-- A walk that succeeds finds `n` records, which together fill the buffer. -/
theorem pushRecords_fill {n : Nat} {bs : List Byte} {rs : List Rec} (h : pushRecords n bs = .ok rs) :
    rs.length = n ∧ ringBytes rs = bs.length := by
  induction n generalizing bs rs with
  | zero =>
    rw [pushRecords] at h
    split at h
    · next empty => cases h; simp [ringBytes, List.isEmpty_iff.mp empty]
    · cases h
  | succ n ih =>
    rw [pushRecords] at h
    split at h
    · cases h
    · dsimp only at h
      split at h
      · cases h
      · split at h
        · cases h
        · next whole =>
          split at h
          · next rest found =>
            cases h
            obtain ⟨count, bytes⟩ := ih found
            rw [List.length_drop] at bytes
            refine ⟨congrArg (· + 1) count, ?_⟩
            rw [ringBytes_cons, bytes, Rec.bytes, bytesUnits_length, List.length_take, List.length_drop]
            omega
          · next failed => exact absurd h (failed _)

/-! ### PUSH -/

section
variable {s : State} {q : Nat} {x : QueueRt} {c : Cmd} {v : VqRt} {parts : List (Phys × Nat)}

theorem exec_push (h : atHead s q x c) (sound : c.barred s = false) (hop : c.op = 2) :
    exec .push s = .next (runPush (startCmd s q c.idx) q x c) :=
  congrArg _ (commandEvent_head h sound (by simp [hop]))

theorem runPush_badQueue (unusable : usableVq s x.pasid (bitsOf (c.w 1) 0 32) false = none) :
    runPush s q x c = complete s q c.idx stBadQueue 0 0 := by
  simp only [runPush, unusable]

variable (usable : usableVq s x.pasid (bitsOf (c.w 1) 0 32) false = some v) (aligned : c.w 2 % 8 = 0)
  (hr : hostRange s (.command q c.idx) x.pasid (c.w 2) (bitsOf (c.w 3) 0 32) false = .ok parts)
include usable aligned hr

theorem runPush_walked {rs : List Rec} (walked : pushRecords (bitsOf (c.w 3) 32 32) (readParts s parts) = .ok rs) :
    runPush s q x c =
      if v.capacity < ringBytes v.ring + ringBytes rs then complete s q c.idx stVqFull 0 0
      else complete (appendRecs s (bitsOf (c.w 1) 0 32) v rs) q c.idx stOk (BitVec.ofNat 64 (bitsOf (c.w 3) 32 32)) 0 := by
  simp only [runPush, usable, withAligned_ok aligned hr, walked]

theorem runPush_malformed {st : Nat} (failed : pushRecords (bitsOf (c.w 3) 32 32) (readParts s parts) = .error st) :
    runPush s q x c = complete s q c.idx st 0 (plainDetail st) := by
  simp only [runPush, usable, withAligned_ok aligned hr, failed]

end

/-! ### PULL -/

section
variable {s : State} {q : Nat} {x : QueueRt} {c : Cmd} {v : VqRt} {parts : List (Phys × Nat)}

theorem exec_pull (h : atHead s q x c) (sound : c.barred s = false) (hop : c.op = 3) :
    exec .pull s = .next (runPull (startCmd s q c.idx) q x c) :=
  congrArg _ (commandEvent_head h sound (by simp [hop]))

theorem runPull_badQueue (unusable : usableVq s x.pasid (bitsOf (c.w 1) 0 32) true = none) :
    runPull s q x c = complete s q c.idx stBadQueue 0 0 := by
  simp only [runPull, unusable]

/-- The records that a PULL moves. -/
def pulled (c : Cmd) (v : VqRt) : List Rec := pullRecords (bitsOf (c.w 3) 32 32) (bitsOf (c.w 3) 0 32) v.ring

theorem runPull_moves (usable : usableVq s x.pasid (bitsOf (c.w 1) 0 32) true = some v) (aligned : c.w 2 % 8 = 0)
    (hr : hostRange s (.command q c.idx) x.pasid (c.w 2) ((pulled c v).flatMap packRec).length true = .ok parts) :
    runPull s q x c =
      let rs := pulled c v
      let bs := rs.flatMap packRec
      let s2 := wakeWaiters (writeParts s parts bs)
      complete { s2 with vqs := s2.vqs.set (bitsOf (c.w 1) 0 32) { v with ring := v.ring.drop rs.length } } q c.idx stOk
        (BitVec.ofNat 64 (bs.length + rs.length * 2 ^ 32)) 0 := by
  rw [pulled] at hr
  simp only [runPull, usable, withAligned_ok aligned hr, pulled]

end

/-! ### QUERY -/

/-- The events of a QUERY, with their selectors (R69). -/
def queryEvents : List (Instr × Nat) :=
  [(Instr.queryCapabilities, 0), (.queryTenure, 1), (.queryCounts, 2), (.queryGovernor, 3), (.queryVirtualQueue, 4)]

theorem exec_queryEvent (s : State) {e : Instr × Nat} (he : e ∈ queryEvents) : exec e.1 s = .next (queryEvent e.2 s) := by
  simp only [queryEvents, List.mem_cons, List.not_mem_nil, or_false] at he
  obtain rfl | rfl | rfl | rfl | rfl := he <;> rfl

section
variable {s : State} {q : Nat} {x : QueueRt} {c : Cmd}

theorem queryEvent_head {sel : Nat} (h : atHead s q x c) (sound : c.barred s = false) (hop : c.op = 9) (hsel : bitsOf (c.w 1) 0 16 = sel) :
    queryEvent sel s = runQuery (startCmd s q c.idx) q x c :=
  commandEvent_head h sound (by simp [hop, hsel])

theorem runQuery_replies {bs : List Byte} {parts : List (Phys × Nat)}
    (replies : queryReply s x.pasid (bitsOf (c.w 1) 0 16) (bitsOf (c.w 1) 32 32) = .ok bs) (aligned : c.w 2 % 8 = 0)
    (hr : hostRange s (.command q c.idx) x.pasid (c.w 2) bs.length true = .ok parts) :
    runQuery s q x c =
      let s2 := complete (wakeWaiters (writeParts s parts bs)) q c.idx stOk (BitVec.ofNat 64 bs.length) 0
      if bitsOf (c.w 1) 0 16 = 3 then noteRead (bitsOf (c.w 1) 32 32) s2 else s2 := by
  simp only [runQuery, replies, withAligned_ok aligned hr]

theorem runQuery_fails {st : Nat} (fails : queryReply s x.pasid (bitsOf (c.w 1) 0 16) (bitsOf (c.w 1) 32 32) = .error st) :
    runQuery s q x c = complete s q c.idx st 0 0 := by
  simp only [runQuery, fails]

end

/-- Settles O41: each clause is the lemma about its command; the records of a PUSH come from `pushRecords_fill`. -/
theorem pushPullQueryCommands : Obligations.PushPullQueryCommands := by
  refine ⟨fun s q x c h sound hop => ?push, fun n bs rs h => pushRecords_fill h, fun s q x c h sound hop => ?pull,
    fun e he s q x c h sound hop hsel => ?query⟩
  case push =>
    dsimp only
    rw [exec_push h sound hop]
    refine ⟨fun unusable => congrArg _ (runPush_badQueue unusable),
      fun v parts usable aligned hr => ⟨fun rs walked => ?_, fun st failed => ?_⟩⟩
    · rw [runPush_walked usable aligned hr walked]
      exact ⟨fun room => by rw [if_neg (Nat.not_lt.mpr room), stOk], fun full => by rw [if_pos full, stVqFull]⟩
    · rw [runPush_malformed usable aligned hr failed]
  case pull =>
    dsimp only
    rw [exec_pull h sound hop]
    exact ⟨fun unusable => congrArg _ (runPull_badQueue unusable),
      fun v parts usable aligned hr => congrArg _ (runPull_moves usable aligned hr)⟩
  case query =>
    rw [exec_queryEvent s he, queryEvent_head h sound hop hsel, ← hsel]
    exact ⟨fun bs parts replies aligned hr => congrArg _ (runQuery_replies replies aligned hr),
      fun st fails => congrArg _ (runQuery_fails fails)⟩

end Sys2Proof.Machine

/-! PROOFS. LAUNCH, the search for a region, the grant tokens, and the grant of a plane (R65, R77 to R80, R84 to R86, R361, R420). -/

namespace Sys2Proof.Machine

@[simp] theorem setCmd_tenures (s : State) (q idx : Nat) (st : CmdSt) : (setCmd s q idx st).tenures = s.tenures := rfl

/-! ### LAUNCH (R58, R65, R420) -/

section
variable {s : State} {q : Nat} {x : QueueRt} {c : Cmd} {args : List Byte}

theorem exec_launch (h : atHead s q x c) (sound : c.barred s = false) (hop : c.op = 1) :
    exec .launch s = .next (runLaunch (startCmd s q c.idx) q x c) :=
  congrArg _ (commandEvent_head h sound (by simp [hop]))

/-- A LAUNCH whose argument block can be read goes on with the copy of it. -/
theorem runLaunch_copies {parts : List (Phys × Nat)} (uncopied : c.args = none) (aligned : c.w 2 % 8 = 0)
    (hr : hostRange s (.command q c.idx) x.pasid (c.w 2) (c.w 3) false = .ok parts) :
    runLaunch s q x c = launchWith (setArgs s q c.idx (readParts s parts)) q x c (readParts s parts) := by
  simp only [runLaunch, uncopied, withAligned_ok aligned hr]

/-- The graph of a LAUNCH, read and checked with its argument block as far as its pages are there. -/
def checkedGraph (s : State) (q : Nat) (x : QueueRt) (c : Cmd) (args : List Byte) : GM Graph :=
  readHeader s (.command q c.idx) x.pasid (c.w 1) >>= admissionChecks s (.command q c.idx) x.pasid (c.w 1) args

theorem launchWith_admits {g : Graph} (passes : checkedGraph s q x c args = .ok g) : launchWith s q x c args = admitLaunch s q x c args g := by
  unfold checkedGraph at passes
  simp only [launchWith, passes]

theorem launchWith_rejects {code arg detail : Nat} (fails : checkedGraph s q x c args = .error (.reject code arg detail)) :
    launchWith s q x c args =
      complete s q c.idx code (if code < 0x100 then 0 else BitVec.ofNat 64 arg) (BitVec.ofNat 64 detail) := by
  unfold checkedGraph at fails
  simp only [launchWith, fails]

end

/-- The tenure that a LAUNCH makes (R65, R353). -/
def launched (s : State) (x : QueueRt) (q : Nat) (c : Cmd) (args : List Byte) (g : Graph) : Tenure :=
  { Tenure.fresh g g.passage with
    handle := s.handles.getD x.pasid 1, pasid := x.pasid, queue := q, cmd := c.idx, die := x.die, since := s.nowNs, objAddr := c.w 1, args := args }

theorem admitLaunch_tenures (s : State) (q : Nat) (x : QueueRt) (c : Cmd) (args : List Byte) (g : Graph) :
    (admitLaunch s q x c args g).tenures = s.tenures.set s.nextTenure (launched s x q c args g) := rfl

/-! ### Grant tokens (R80) -/

/-- Whether a tenure's Gykan holds the token of a die. -/
def holdsToken (s : State) (t d : Nat) : Bool := s.tokens[d]?.join == some t

theorem holdsToken_iff {s : State} {t : Nat} (d : Fin 4) : holdsToken s t d.val = true ↔ s.tokens[d] = some t := by
  simp [holdsToken]

theorem Region.dies_ascending (r : Region) : r.dies.Pairwise (· < ·) := List.pairwise_lt_range.filter _

theorem lackingToken_small {s : State} {t : Nat} {r : Region} (small : r.j < 10) : lackingToken s t r = none := if_pos small

theorem lackingToken_none {s : State} {t : Nat} {r : Region} (wide : 10 ≤ r.j) (h : lackingToken s t r = none) :
    ∀ d ∈ r.dies, holdsToken s t d = true := by
  rw [lackingToken, if_neg (Nat.not_lt.mpr wide), List.find?_eq_none] at h
  intro d hd
  simpa [holdsToken] using h d hd

/-- The token that is lacking is the first: those of the dies before it are held, and those of the dies behind it belong to higher dies. -/
theorem lackingToken_some {s : State} {t d : Nat} {r : Region} (h : lackingToken s t r = some d) :
    holdsToken s t d = false ∧ ∃ before behind, r.dies = before ++ d :: behind ∧ (∀ e ∈ before, holdsToken s t e = true ∧ e < d) ∧
      ∀ e ∈ behind, d < e := by
  unfold lackingToken at h
  split at h
  · cases h
  · obtain ⟨lacks, before, behind, hdies, held⟩ := List.find?_eq_some_iff_append.mp h
    have ascending := r.dies_ascending
    rw [hdies, List.pairwise_append] at ascending
    obtain ⟨-, tail, below⟩ := ascending
    refine ⟨by simpa [holdsToken] using lacks, before, behind, hdies, fun e he => ⟨by simpa [holdsToken] using held e he, ?_⟩,
      (List.pairwise_cons.mp tail).1⟩
    exact below e he d List.mem_cons_self

theorem lackingToken_lower_held {s : State} {t d e : Nat} {r : Region} (h : lackingToken s t r = some d) (he : e ∈ r.dies) (lower : e < d) :
    holdsToken s t e = true := by
  obtain ⟨-, before, behind, hdies, held, above⟩ := lackingToken_some h
  rw [hdies, List.mem_append, List.mem_cons] at he
  obtain he | rfl | he := he
  · exact (held e he).1
  · exact absurd lower (Nat.lt_irrefl _)
  · exact absurd lower (Nat.lt_asymm (above e he))

/-- The dies whose tokens a tenure's Gykan holds. -/
def heldTokens (s : State) (t : Nat) : List Nat := (List.range 4).filter (holdsToken s t)

@[simp] theorem mem_heldTokens {s : State} {t d : Nat} : d ∈ heldTokens s t ↔ d < 4 ∧ holdsToken s t d = true := by
  simp [heldTokens]

theorem tokensInOrder_iff {s : State} {t : Nat} {r : Region} :
    tokensInOrder s t r = true ↔ heldTokens s t = r.dies.take (heldTokens s t).length := beq_iff_eq

/-- No token is taken below one that is held. -/
theorem tokensInOrder_below {s : State} {t d e : Nat} {r : Region} (h : lackingToken s t r = some d) (inOrder : tokensInOrder s t r = true)
    (he : e ∈ heldTokens s t) : e < d := by
  obtain ⟨lacks, before, behind, hdies, below, -⟩ := lackingToken_some h
  have order := tokensInOrder_iff.mp inOrder
  have lacked : d ∉ heldTokens s t := fun hd => by simp [lacks] at hd
  rw [hdies, List.take_append] at order
  rw [order, List.mem_append] at he
  obtain he | he := he
  · exact (below e (List.mem_of_mem_take he)).2
  · cases beyond : (heldTokens s t).length - before.length with
    | zero => simp [beyond] at he
    | succ j =>
      rw [order, beyond] at lacked
      simp at lacked

theorem takeGrantToken_taken {s : State} {u : Nat} (t : Nat) {d : Fin 4} (h : s.tokens[d] = some u) : takeGrantToken s t d.val = s := by
  have taken : s.tokens[d.val].isNone = false := by rw [← Fin.getElem_fin, h]; rfl
  simp [takeGrantToken, taken]

/-! ### An attempt on a candidate (R84 to R86) -/

theorem nextCandidate_some {s : State} {tn : Tenure} {r : Region} (h : nextCandidate s tn = some r) :
    r ∈ candidatesOf s tn ∧ r ∉ tn.tried ∧ ∀ k ∈ r.subtrees, (s.sub k).st = .free := by
  have chosen := List.find?_some h
  rw [Bool.and_eq_true] at chosen
  obtain ⟨untried, free⟩ := chosen
  exact ⟨List.mem_of_find?_eq_some h, by simpa using untried, fun k hk => eq_of_beq (List.all_eq_true.mp free k hk)⟩

section
variable {s : State} {t : Nat} {tn : Tenure}

theorem exec_candidateAttempt (hs : s.subj = .tenure t) (hp : s.powered = true) :
    exec .candidateAttempt s = .next (candidateAttempt t s) := by
  change execCandidateAttempt s = _
  simp [execCandidateAttempt, hs, hp]

variable (ph : tn.phase = .admission)
include ph

theorem Tenure.searchPound_admission : tn.searchPound = 0 := by simp [Tenure.searchPound, ph]

theorem regionGranted_admission (s : State) (t : Nat) :
    regionGranted s t tn = completeResumes (s.modTenure t (fun y => { y with phase := .running })) t stOk 0 := by
  simp [regionGranted, ph]

theorem searchFailed_admission (s : State) (t code arg detail : Nat) :
    searchFailed s t tn code arg detail = admissionFail s t code (BitVec.ofNat 64 arg) (BitVec.ofNat 64 detail) := by
  simp [searchFailed, ph]

variable (ht : s.tenures.get? t = some tn) (unplaced : tn.region = none)
include ht unplaced

theorem candidateAttempt_noCandidate (nowhere : candidatesOf s tn = []) : candidateAttempt t s = admissionFail s t cNofitRegion 0 0 := by
  simp [candidateAttempt, ht, ph, unplaced, nowhere, searchFailed_admission ph]

/-- A tenure whose turn it is takes the next token that its next candidate needs, unless it holds others that do not come before it. -/
theorem candidateAttempt_lacking {r : Region} {d : Nat} (someLeft : candidatesOf s tn ≠ []) (next : nextCandidate s tn = some r)
    (turn : admissionTurn s tn = true) (lacks : lackingToken s t r = some d) :
    candidateAttempt t s = if tokensInOrder s t r then takeGrantToken s t d else releaseTokens s t := by
  simp [candidateAttempt, ht, ph, unplaced, someLeft, next, turn, lacks]

theorem candidateAttempt_allHeld {r : Region} (someLeft : candidatesOf s tn ≠ []) (next : nextCandidate s tn = some r)
    (turn : admissionTurn s tn = true) (allHeld : lackingToken s t r = none) : candidateAttempt t s = attempt s t tn r := by
  simp [candidateAttempt, ht, ph, unplaced, someLeft, next, turn, allHeld]

end

section
variable {s : State} {t : Nat} {tn : Tenure} {r : Region} (ph : tn.phase = .admission)
include ph

theorem attempt_fits {p : Placement} (fits : placePound s.repair tn.g 0 r = .ok p) :
    attempt s t tn r =
      releaseTokens (completeResumes ((grantRegion s t r).modTenure t (fun y => { y with phase := .running })) t stOk 0) t := by
  simp only [attempt, Tenure.searchPound_admission ph, fits, regionGranted_admission ph]

theorem attempt_fails {f : Failure} (fails : placePound s.repair tn.g 0 r = .error f) :
    attempt s t tn r = releaseTokens (candidateFailed s t tn r f) t := by
  simp only [attempt, Tenure.searchPound_admission ph, fails]

end

/-! ### The grant of a plane (R79, R361) -/

theorem planeTag_ne {s : State} {resident : Nat} {other : Tenure} (r : Region) (ho : s.tenures.get? resident = some other) :
    planeTag s resident r ≠ other.gtag := by
  rw [planeTag, ho]
  by_cases same : other.gtag = grantTag s r
  · simp only [same, Option.any_some, beq_self_eq_true, if_true]
    split <;> omega
  · simp [same, Ne.symm same]

section
variable {s : State} {t resident : Nat} {tn other : Tenure} {r : Region} {p : Placement}

theorem exec_planeGrant (hs : s.subj = .planes t resident) (hp : s.powered = true) :
    exec .planeGrant s = .next (planeGrant t resident s) := by
  change execPlaneGrant s = _
  simp [execPlaneGrant, hs, hp]

theorem planeGrant_fits (ht : s.tenures.get? t = some tn) (ho : s.tenures.get? resident = some other) (apart : t ≠ resident)
    (ph : tn.phase = .admission) (unplaced : tn.region = none) (region : other.region = some r) (alone : other.partner = none)
    (idle : s.planes.get? r.first = none) (least : (jRange tn.g.pounds).1 ≤ r.j) (most : r.j ≤ (jRange tn.g.pounds).2)
    (fits : placeBeside s tn.g 0 r (some other) = .ok p) :
    planeGrant t resident s =
      releaseTokens (completeResumes ((grantPlane s t resident r).modTenure t (fun y => { y with phase := .running })) t stOk 0) t := by
  have idlePlane : planeIdle s other r = true := by simp [planeIdle, alone, idle]
  simp [planeGrant, ht, ho, region, apart, ph, unplaced, idlePlane, least, most, Tenure.searchPound_admission ph, fits,
    regionGranted_admission ph]

end

/-- Settles O42: each clause is the lemma about its operation. -/
theorem launchAndRegionResult : Obligations.LaunchAndRegionResult := by
  refine ⟨fun s q x c parts h sound hop uncopied aligned hr => ?launch, fun s q x c args g => ?admitted,
    fun s t tn hs hp ht ph unplaced => ?attempt, fun s t r => ?tokens, fun s t r d h inOrder e he => ?order,
    fun s t u d h => takeGrantToken_taken t h, fun s resident other r ho => planeTag_ne r ho, fun s tn r h => nextCandidate_some h,
    fun s t resident tn other r p hs hp ht ho apart ph unplaced region alone idle least most fits => ?plane⟩
  case launch =>
    dsimp only
    rw [exec_launch h sound hop, runLaunch_copies uncopied aligned hr]
    exact ⟨fun g passes => congrArg _ (launchWith_admits passes), fun code arg detail fails => congrArg _ (launchWith_rejects fails)⟩
  case admitted =>
    refine ⟨launched s x q c args g, ?_, rfl, rfl, rfl, rfl, rfl, rfl, fun t ht => ?_⟩ <;> rw [admitLaunch_tenures]
    · exact Map.get?_set_self _ _ _
    · exact Map.get?_set_ne _ _ _ _ ht
  case attempt =>
    rw [exec_candidateAttempt hs hp]
    refine ⟨fun nowhere => congrArg _ (candidateAttempt_noCandidate ph ht unplaced nowhere), fun r someLeft next turn => ?_⟩
    refine ⟨fun d lacks inOrder => ?_, fun d lacks outOfOrder => ?_, fun p allHeld fits => ?_, fun f allHeld fails => ?_⟩
    · rw [candidateAttempt_lacking ph ht unplaced someLeft next turn lacks, if_pos inOrder]
    · rw [candidateAttempt_lacking ph ht unplaced someLeft next turn lacks, if_neg (by simp [outOfOrder])]
    · rw [candidateAttempt_allHeld ph ht unplaced someLeft next turn allHeld, attempt_fits ph fits, stOk]
    · rw [candidateAttempt_allHeld ph ht unplaced someLeft next turn allHeld, attempt_fails ph fails]
  case tokens =>
    refine ⟨lackingToken_small, fun wide h d hd => (holdsToken_iff d).mp (lackingToken_none wide h d.val hd), fun d h => ⟨?_, ?_⟩⟩
    · obtain ⟨-, before, behind, hdies, -, -⟩ := lackingToken_some h
      simp [hdies]
    · exact fun e he lower => (holdsToken_iff e).mp (lackingToken_lower_held h he lower)
  case order => exact tokensInOrder_below h inOrder (mem_heldTokens.mpr ⟨e.isLt, (holdsToken_iff e).mpr he⟩)
  case plane => rw [exec_planeGrant hs hp, planeGrant_fits ht ho apart ph unplaced region alone idle least most fits, stOk]

end Sys2Proof.Machine

/-! PROOFS. Virtual queues and their agents, the bridge, and the turns of time-shared planes (R70 to R72, R362, R391). -/

namespace Sys2Proof.Machine

/-! ### What popping a record, and the bridge, leave unchanged -/

@[simp] theorem popOne_vqs (s : State) (t c : Nat) : (popOne s t c).vqs = s.vqs := rfl

@[simp] theorem headLost_vqs (s : State) (t c : Nat) (r : Rec) : (headLost s t c r).vqs = s.vqs := by
  unfold headLost
  split <;> rfl

@[simp] theorem settleHead_vqs (s : State) (t c : Nat) : (settleHead s t c).vqs = s.vqs := by
  cases hch : s.chan? t c with
  | none => simp only [settleHead, hch]
  | some ch =>
    cases stays : ch.over with
    | false => rw [settleHead_of_not_over hch stays]
    | true =>
      cases hbuf : ch.buf with
      | nil => simp only [settleHead, hch, hbuf]
      | cons h rest => rw [settleHead_of_over hch hbuf stays, headLost_vqs, popOne_vqs]

@[simp] theorem popHead_vqs (s : State) (t c : Nat) : (popHead s t c).vqs = s.vqs := by
  rw [popHead, settleHead_vqs, popOne_vqs]

@[simp] theorem markBridges_ethUp (s : State) : (markBridges s).ethUp = s.ethUp := rfl

@[simp] theorem pumpBridge_ethUp (s : State) (v : Nat) : (pumpBridge s v).ethUp = s.ethUp := by
  unfold pumpBridge
  split
  · split
    · split <;> rfl
    · rfl
  · rfl

@[simp] theorem pumpAll_ethUp (vs : List Nat) (s : State) : (pumpAll vs s).ethUp = s.ethUp := by
  induction vs generalizing s with
  | nil => rfl
  | cons v vs ih => rw [pumpAll, ih, pumpBridge_ethUp]

/-! ### A virtual queue assigned (R70) -/

theorem exec_virtualQueueAssign {s : State} {pasid capacity : Nat} {output : Bool} (hs : s.subj = .newVq pasid output capacity none)
    (sent : mboxSubmitted s = true) : exec .virtualQueueAssign s = .next (if s.stage = 3 then mboxAnswer { s with
      vqs := s.vqs.set (freshId s.vqs s.nextVq) ⟨pasid, output, capacity % 2 ^ 31, [], none, 0, none, false⟩,
      nextVq := (freshId s.vqs s.nextVq + 1) % 4294967296 } .ok else mboxAnswer s .notReady) := by
  change execVirtualQueueAssign s = _
  by_cases ready : s.stage = 3 <;> simp [execVirtualQueueAssign, hs, sent, ready]

/-! ### The agents of virtual queues (R71, R72, R391) -/

section
variable {s : State} {v t c : Nat} {q : VqRt} {tn : Tenure} {ch : ChanRt} {r : Rec} {rest : List Rec}

theorem exec_vqAgentMove (hs : s.subj = .vq v) : exec .vqAgentMove s = .next (vqAgentMove v s) := by
  change execVqAgentMove s = _
  simp [execVqAgentMove, hs]

theorem exec_vqAgentAppend (hs : s.subj = .vq v) : exec .vqAgentAppend s = .next (vqAgentAppend v s) := by
  change execVqAgentAppend s = _
  simp [execVqAgentAppend, hs]

theorem exec_bridgedRecordArrival (hs : s.subj = .bridged v r) (hp : s.powered = true) :
    exec .bridgedRecordArrival s = .next (bridgedArrival v r s) := by
  change execBridgedRecordArrival s = _
  simp [execBridgedRecordArrival, hs, hp]

theorem bridgedArrival_eq (hq : s.vqs.get? v = some q) (input : q.output = false) (linked : q.bridge.isSome = true)
    (path : q.bridgeLost = false) :
    bridgedArrival v r s = if q.capacity < ringBytes q.ring + Rec.bytes r then s else appendRecs s v q [r] := by
  have isLinked : q.bridge.isNone = false := by simpa using linked
  simp [bridgedArrival, hq, input, isLinked, path]

theorem pumpBridge_unlinked (hq : s.vqs.get? v = some q) (unlinked : q.bridge = none) : pumpBridge s v = s := by
  simp only [pumpBridge, hq, unlinked]

variable (hq : s.vqs.get? v = some q) (bound : q.bound = some (t, c)) (hch : s.chan? t c = some ch)
include hq bound hch

theorem vqAgentMove_moves (ht : s.tenures.get? t = some tn) (input : q.output = false) (hring : q.ring = r :: rest)
    (runs : agentRuns s t c tn = true) (slot : 0 < ch.free) (fits : hLen r.hdr ≤ ch.e.width) :
    vqAgentMove v s =
      sendRec (State.modTenure { s with vqs := s.vqs.set v { q with ring := rest, counted := q.counted - 1 } } t
        (fun x => x.conG (vqPoint v) (min q.counted 1))) t c r := by
  simp [vqAgentMove, hq, bound, hring, ht, hch, input, runs, Nat.ne_of_gt slot, Nat.not_lt.mpr fits]

theorem vqAgentMove_noSlot (ht : s.tenures.get? t = some tn) (full : ch.free = 0) : vqAgentMove v s = s := by
  cases hring : q.ring <;> simp [vqAgentMove, hq, bound, hring, ht, hch, full]

/-- A delivered record is appended to an output ring that no bridge empties, when the ring has room. -/
theorem vqAgentAppend_eq (output : q.output = true) (unlinked : q.bridge = none) (hbuf : ch.buf = r :: rest) (moves : partsMove s t = true) :
    vqAgentAppend v s =
      if q.capacity < ringBytes q.ring + Rec.bytes r then s else popHead { s with vqs := s.vqs.set v { q with ring := q.ring ++ [r] } } t c := by
  have appended : (popHead { s with vqs := s.vqs.set v { q with ring := q.ring ++ [r] } } t c).vqs.get? v =
      some { q with ring := q.ring ++ [r] } := by rw [popHead_vqs]; exact Map.get?_set_self _ _ _
  rw [← pumpBridge_unlinked appended unlinked]
  simp [vqAgentAppend, hq, bound, hch, hbuf, output, moves]

end

/-! ### The ports of the Ethernet switches (R391) -/

section
variable {s : State} {p : Fin 8}

theorem exec_ethernetPortDown (hs : s.subj = .port p.val) :
    exec .ethernetPortDown s = .next (markBridges { s with ethUp := s.ethUp.set p false }) := by
  change execEthernetPortDown s = _
  simp [execEthernetPortDown, hs]

theorem exec_ethernetPortUp (hs : s.subj = .port p.val) :
    exec .ethernetPortUp s = .next (if p.val < s.enabled 1 8 then
      pumpAll (s.vqs.map Prod.fst) (markBridges { s with ethUp := s.ethUp.set p true }) else s) := by
  change execEthernetPortUp s = _
  simp [execEthernetPortUp, hs]

end

/-! ### The turns of time-shared planes (R362) -/

section
variable {s : State} {t p : Nat} {tn : Tenure}

theorem exec_segmentBoundarySwitch (hs : s.subj = .tenure t) (hp : s.powered = true) :
    exec .segmentBoundarySwitch s = .next (segmentSwitch t s) := by
  change execSegmentBoundarySwitch s = _
  simp [execSegmentBoundarySwitch, hs, hp]

/-- At a segment boundary of the active tenure a slot ends, and with it the turn when it is a ready partner's. -/
theorem segmentSwitch_atBoundary (ht : s.tenures.get? t = some tn) (partner : tn.partner = some p) (active : tn.active = true)
    (ph : tn.phase = .running) (boundary : atBoundary s t = true) :
    segmentSwitch t s =
      if ready s p = true ∧ (tn.yielded = true ∨ 6 ≤ tn.slots) then
        if residualsHeld (flushTiles s t) t = 0 then takeTurn (flushTiles s t) p else flushTiles s t
      else s.modTenure t (fun x => { x with slots := tn.slots + 1 }) := by
  simp [segmentSwitch, ht, partner, active, ph, boundary]

end

/-- Settles O47: each clause is the lemma about its event. -/
theorem virtualQueuesAndTurns : Obligations.VirtualQueuesAndTurns := by
  refine ⟨fun s pasid capacity output hs sent => ?assign, fun s v t c q tn ch hs hq bound ht hch => ?agent,
    fun s v r q hs hp hq input linked path => ?bridged, fun s p hs => ?port,
    fun s t p tn hs hp ht partner active ph boundary => ?turn⟩
  case assign =>
    rw [exec_virtualQueueAssign hs sent]
    exact ⟨fun ready => by rw [if_pos ready], fun early => by rw [if_neg early]⟩
  case agent =>
    rw [exec_vqAgentMove hs, exec_vqAgentAppend hs]
    refine ⟨fun r rest input hring runs slot fits => congrArg _ (vqAgentMove_moves hq bound hch ht input hring runs slot fits),
      fun full => congrArg _ (vqAgentMove_noSlot hq bound hch ht full), fun r rest output unlinked hbuf moves => ?_⟩
    rw [vqAgentAppend_eq hq bound hch output unlinked hbuf moves]
    exact ⟨fun room => by rw [if_neg (Nat.not_lt.mpr room)], fun full => by rw [if_pos full]⟩
  case bridged =>
    rw [exec_bridgedRecordArrival hs hp, bridgedArrival_eq hq input linked path]
    exact ⟨fun room => by rw [if_neg (Nat.not_lt.mpr room)], fun full => by rw [if_pos full]⟩
  case port =>
    rw [exec_ethernetPortUp hs]
    refine ⟨exec_ethernetPortDown hs, fun enabled => ⟨_, rfl, ?_⟩, fun absent => by rw [if_neg (Nat.not_lt.mpr absent)]⟩
    rw [if_pos enabled, pumpAll_ethUp, markBridges_ethUp]
  case turn =>
    rw [exec_segmentBoundarySwitch hs hp, segmentSwitch_atBoundary ht partner active ph boundary]
    refine ⟨fun stays => ?_, fun able due done => by rw [if_pos ⟨able, due⟩, if_pos done],
      fun able due held => by rw [if_pos ⟨able, due⟩, if_neg held]⟩
    rw [if_neg]
    rintro ⟨able, due⟩
    obtain notReady | ⟨notYielded, few⟩ := stays
    · simp [able] at notReady
    · obtain yielded | enough := due
      · simp [yielded] at notYielded
      · omega

end Sys2Proof.Machine

/-! PROOFS. Configuration loads, and the states of L4 subtrees and planes (R77 to R79, R97, R98, R101, R127, R381, R382). -/

namespace Sys2Proof.Machine

/-! ### Packets and their CRC words (R97) -/

theorem joinWords_lt (ws : List Nat) : joinWords ws < 2 ^ (128 * ws.length) := by
  induction ws with
  | nil => simp [joinWords]
  | cons w ws ih =>
    have low : w % 2 ^ 128 < 2 ^ 128 := Nat.mod_lt _ (by decide)
    rw [joinWords, List.length_cons, Nat.mul_succ, pow_add]
    omega

theorem crcPacket_mod (ws : List Nat) : crcPacket ws % 2 ^ (128 * ws.length) = joinWords ws := by
  rw [crcPacket, Nat.add_mul_mod_self_right, Nat.mod_eq_of_lt (joinWords_lt ws)]

theorem crcPacket_div (ws : List Nat) : crcPacket ws / 2 ^ (128 * ws.length) = (crc32c (128 * ws.length) (joinWords ws)).toNat := by
  rw [crcPacket, Nat.add_mul_div_right _ _ (by positivity), Nat.div_eq_of_lt (joinWords_lt ws), Nat.zero_add]

/-- A packet that arrives as it was sent is good. -/
theorem packetGood_crcPacket (ws : List Nat) : packetGood ws.length (crcPacket ws) = true := by
  rw [packetGood, crcPacket_mod, crcPacket_div, BitVec.ofNat_toNat, BitVec.setWidth_eq, beq_self_eq_true]

theorem receive_bad {e : Nat} {ws : List Nat} (bad : packetGood ws.length (crcPacket ws ^^^ e) = false) : receive (some e) ws = none := by
  simp [receive, bad]

/-! ### The packets of a load as they arrive (R96, R97, R127) -/

theorem receiveWords_clean (m : Map (List Nat)) : receiveWords [] m = some m := by
  induction m with
  | nil => rfl
  | cons e m ih => simp [receiveWords, ih, noiseOf, receive]

theorem receivePatches_clean (k : Nat) (ps : List (Nat × Nat × Nat)) : receivePatches [] k ps = some ps := by
  induction ps generalizing k with
  | nil => rfl
  | cons e ps ih => simp [receivePatches, ih, noiseOf, receive]

theorem receiveFmts_clean (g : Graph) (parts : Map Nat) (fs : Map Fmt) : receiveFmts [] g parts fs = some fs := by
  induction fs with
  | nil => rfl
  | cons e fs ih => simp [receiveFmts, ih, noiseOf]

/-- One packet of words that does not arrive is enough. -/
theorem receiveWords_lost {noise : List (Nat × Nat)} {m : Map (List Nat)} {n : Nat} {ws : List Nat} (hm : (n, ws) ∈ m)
    (lost : receive (noiseOf noise (2 * n)) ws = none) : receiveWords noise m = none := by
  induction m with
  | nil => cases hm
  | cons e m ih =>
    obtain rfl | hm := List.mem_cons.mp hm
    · simp [receiveWords, lost]
    · simp [receiveWords, ih hm]

theorem receivePatches_lost {noise : List (Nat × Nat)} {k n i v : Nat} {rest : List (Nat × Nat × Nat)}
    (lost : receive (noiseOf noise k) [v] = none) : receivePatches noise k ((n, i, v) :: rest) = none := by
  simp [receivePatches, lost]

/-- A load as its elements have it, from what arrived of its words, its patch words and its format blocks. -/
def Load.arrived (l : Load) (g : Graph) (ws : Map (List Nat)) (ps : List (Nat × Nat × Nat)) (fs : Map Fmt) : Load :=
  { l with
    words := applyPatches ps ws, patches := [], fmts := loadedFmts g l.place.pound (applyPatches ps ws) fs, committed := true }

/-- A load is acknowledged good exactly where no uncorrectable error strikes and every packet arrives. -/
theorem Load.acked_eq_some {l l' : Load} {g : Graph} {noise : List (Nat × Nat)} {ue : Bool} :
    l.acked g noise ue = some l' ↔ ue = false ∧ ∃ ws ps fs, receiveWords noise l.words = some ws ∧
      receivePatches noise firstPatch l.patches = some ps ∧ receiveFmts noise g l.parts l.fmts = some fs ∧ l.arrived g ws ps fs = l' := by
  cases ue
  case true => simp [Load.acked]
  case false =>
    simp only [Load.acked, Bool.false_eq_true, if_false, true_and]
    split
    next ws ps fs words patches fmts => simp [Load.arrived, words, patches, fmts]
    next someLost => exact ⟨nofun, fun ⟨ws, ps, fs, words, patches, fmts, _⟩ => (someLost ws ps fs words patches fmts).elim⟩

section
variable {l : Load} {g : Graph} {noise : List (Nat × Nat)} {ue : Bool}

theorem Load.acked_uncorrectable : l.acked g noise true = none := rfl

theorem Load.acked_clean : l.acked g [] false = some (l.arrived g l.words l.patches l.fmts) :=
  Load.acked_eq_some.mpr ⟨rfl, _, _, _, receiveWords_clean _, receivePatches_clean _ _, receiveFmts_clean _ _ _, rfl⟩

theorem Load.acked_badWords {n e : Nat} {ws : List Nat} (hm : (n, ws) ∈ l.words) (he : noiseOf noise (2 * n) = some e)
    (bad : packetGood ws.length (crcPacket ws ^^^ e) = false) : l.acked g noise ue = none := by
  refine Option.eq_none_iff_forall_ne_some.mpr fun l' good => ?_
  obtain ⟨-, _, _, _, words, -⟩ := Load.acked_eq_some.mp good
  rw [receiveWords_lost hm (by rw [he, receive_bad bad])] at words
  cases words

theorem Load.acked_badPatch {n k v e : Nat} {rest : List (Nat × Nat × Nat)} (hpatch : l.patches = (n, k, v) :: rest)
    (he : noiseOf noise firstPatch = some e) (bad : packetGood 1 (crcPacket [v] ^^^ e) = false) : l.acked g noise ue = none := by
  refine Option.eq_none_iff_forall_ne_some.mpr fun l' good => ?_
  obtain ⟨-, _, _, _, -, patches, -⟩ := Load.acked_eq_some.mp good
  rw [hpatch, receivePatches_lost (by rw [he, receive_bad (ws := [v]) bad])] at patches
  cases patches

end

/-! ### The acknowledgements come in (R97, R98) -/

section
variable {s : State} {t : Nat} {noise : List (Nat × Nat)} {ue : Bool} {tn : Tenure} {l : Load}

theorem exec_loadCommit (hs : s.subj = .loadAck t noise ue) :
    exec .loadCommit s = .next (if s.powered then loadCommit t noise ue s else s) := by
  change execLoadCommit s = _
  simp only [execLoadCommit, hs]

variable (ht : s.tenures.get? t = some tn) (hl : tn.load = some l)
include ht hl

theorem loadCommit_notAwaited (h : l.todo ≠ [] ∨ l.committed = true) : loadCommit t noise ue s = s := by
  have notDue : (l.committed || !l.todo.isEmpty) = true := by
    rw [Bool.or_eq_true, Bool.not_eq_true', List.isEmpty_eq_false_iff]
    exact h.symm
  simp [loadCommit, ht, hl, notDue]

variable (uncommitted : l.committed = false) (whole : l.todo = [])
include uncommitted whole

theorem loadCommit_good {l' : Load} (good : l.acked tn.g noise ue = some l') :
    loadCommit t noise ue s = if tn.phase = .replacing then replaced s t l' else s.modTenure t (fun y => { y with load := some l' }) := by
  simp [loadCommit, ht, hl, uncommitted, whole, good]

theorem loadCommit_failed (failed : l.acked tn.g noise ue = none) :
    loadCommit t noise ue s =
      if 3 ≤ l.fails then loadTrouble s t cConfigLoadUe l.place.pound else readLoad s t l.place.pound (l.fails + 1) := by
  simp [loadCommit, ht, hl, uncommitted, whole, failed]

end

/-! ### The words of a load are read (R79, R101, R381, R382) -/

section
variable {s : State} {t : Nat} {tn : Tenure}

/-- A load that has read the word at `off`, and is ready to be sent where that was the last (R381). -/
def Load.withWord (l : Load) (g : Graph) (r : Region) (off w : Nat) (rest : List (Nat × Nat)) : Load :=
  let l' : Load := { l with todo := rest, parts := l.parts.set off w }
  if rest.isEmpty then l'.ready g r else l'

section
variable {l : Load} {r : Region} {off n : Nat} {rest : List (Nat × Nat)}
variable (ht : s.tenures.get? t = some tn) (hl : tn.load = some l) (hr : tn.region = some r) (todo : l.todo = (off, n) :: rest)
include ht hl hr todo

theorem readNext_planeBusy (busy : planeBusy s tn = true) : readNext s t = s := by
  simp [readNext, ht, hl, hr, todo, busy]

theorem readNext_reads {w : Nat} (idle : planeBusy s tn = false)
    (hw : Obj.entry { s := s, l := .passage t, pasid := tn.pasid, addr := tn.objAddr, size := tn.g.size } l.place.pound off n = .ok w) :
    readNext s t = s.modTenure t (fun y => { y with load := some (l.withWord tn.g r off w rest), codePage := none }) := by
  simp [readNext, ht, hl, hr, todo, idle, hw, Load.withWord]

end

theorem step_loadRead {rest : List Turn} (turn : s.agenda = .loadRead t :: rest) (hp : s.powered = true) (ht : s.tenures.get? t = some tn)
    (noPage : tn.codePage = none) : step s = .next (readNext { s with agenda := rest } t) := by
  have powered : State.powered { s with agenda := rest } = true := hp
  simp [step, turn, powered, turnEffect, loadReads, ht, noPage]

theorem exec_codePageResolved_launch {q : Nat} {x : QueueRt} {c : Cmd} (hs : s.subj = .queue q) (hp : s.powered = true)
    (hq : s.queues.get? q = some x) (hc : x.cmds.find? (fun d => d.st == .started && d.op == 1) = some c) :
    exec .codePageResolved s = .next (runLaunch s q x c) := by
  change execCodePageResolved s = _
  simp only [execCodePageResolved, hs, hp, if_true, launchGoesOn, hq, hc]

theorem exec_codePageResolved_load {p : Nat × PageSt} (hs : s.subj = .tenure t) (hp : s.powered = true) (ht : s.tenures.get? t = some tn)
    (page : tn.codePage = some p) : exec .codePageResolved s = .next (readNext s t) := by
  change execCodePageResolved s = _
  simp [execCodePageResolved, hs, hp, loadGoesOn, ht, page]

end

theorem configurationLoads_holds : configurationLoads := by
  refine ⟨fun s t noise ue tn l hs hp ht hl uncommitted whole => ?acks, fun s t noise ue tn l hs ht hl h => ?notAwaited, fun l g => ?acked,
    packetGood_crcPacket, fun s t tn l r off n rest ht hl hr todo => ?reads,
    fun s t rest tn turn hp ht noPage => step_loadRead turn hp ht noPage,
    fun s q x c hs hp hq hc => exec_codePageResolved_launch hs hp hq hc,
    fun s t tn p hs hp ht page => exec_codePageResolved_load hs hp ht page⟩
  case acks =>
    rw [exec_loadCommit hs, if_pos hp]
    refine ⟨fun l' good => ?_, fun failed => ?_⟩
    · rw [loadCommit_good ht hl uncommitted whole good]
      exact ⟨fun ph => by rw [if_neg ph], fun ph => by rw [if_pos ph]⟩
    · rw [loadCommit_failed ht hl uncommitted whole failed]
      exact ⟨fun few => by rw [if_neg (Nat.not_le.mpr few)], fun fourth => by rw [if_pos fourth]⟩
  case notAwaited => rw [exec_loadCommit hs, loadCommit_notAwaited ht hl h, ite_self]
  case acked =>
    refine ⟨fun _ => Load.acked_uncorrectable, Load.acked_clean, fun noise l' good => ?_,
      fun noise n ws e hm he bad => Load.acked_badWords hm he bad,
      fun noise n k v e rest hpatch he bad => Load.acked_badPatch hpatch he bad⟩
    obtain ⟨-, _, _, _, -, -, -, rfl⟩ := Load.acked_eq_some.mp good
    exact ⟨rfl, rfl⟩
  case reads => exact ⟨readNext_planeBusy ht hl hr todo, fun w idle hw => readNext_reads ht hl hr todo idle hw⟩

/-! ### What a draining subtree or plane waits for (R77 to R79) -/

theorem outstanding_iff {s : State} {left : List (Nat × Nat)} : outstanding s left = true ↔ ∃ x ∈ s.net, ∃ n, (x.t, n) ∈ left ∧ x.id < n := by
  simp only [outstanding, Msg.sentBefore, List.any_eq_true, Bool.and_eq_true, beq_iff_eq, decide_eq_true_eq, Prod.exists]
  exact exists_congr fun x => and_congr_right fun _ =>
    ⟨fun ⟨_, n, hmem, ht, hn⟩ => ⟨n, ht ▸ hmem, hn⟩, fun ⟨n, hmem, hn⟩ => ⟨_, n, hmem, rfl, hn⟩⟩

theorem mem_discard {s : State} {left : List (Nat × Nat)} {x : Msg} :
    x ∈ (discard s left).net ↔ x ∈ s.net ∧ ∀ n, (x.t, n) ∈ left → n ≤ x.id := by
  simp only [discard, List.mem_filter, Bool.not_eq_true', Msg.sentBefore, List.any_eq_false, Bool.and_eq_true, beq_iff_eq, decide_eq_true_eq,
    Prod.forall, not_and, Nat.not_lt]
  exact and_congr_right fun _ => ⟨fun h n hn => h _ n hn rfl, fun h a n hn ha => h n (ha ▸ hn)⟩

theorem outstanding_discard (s : State) (left : List (Nat × Nat)) : outstanding (discard s left) left = false := by
  rw [← Bool.not_eq_true, outstanding_iff]
  rintro ⟨x, hx, n, hn, early⟩
  exact absurd early (Nat.not_lt.mpr ((mem_discard.mp hx).2 n hn))

/-! ### Subtrees and planes drain, are zeroed, reserved and released (R77 to R79, R101) -/

@[simp] theorem withSub_sub_self (s : State) (k : Nat) (x : SubRt) : (withSub s k x).sub k = x := by
  simp [withSub, State.sub, Map.getD, Map.get?_set_self]

theorem modSubs_one (f : SubRt → SubRt) (k : Nat) (s : State) : modSubs f [k] s = withSub s k (f (s.sub k)) := rfl

/-- A subtree that a tenure leaves owes what was sent before, whether another tenure still holds it or not. -/
theorem leaveSubs_owed (s : State) (t k : Nat) : ((leaveSubs t [k] s).sub k).owed = (s.sub k).owed ++ [(t, s.nextMsg)] := by
  simp only [leaveSubs, modSubs_one, withSub_sub_self]
  split <;> rfl

section
variable {s : State} {x : DrainRef} {left : List (Nat × Nat)} {cycles k b : Nat} {p : PlaneRt}

theorem drainOf_subtree (draining : (s.sub k).st = .draining) :
    drainOf s (.subtree k) = some ((s.sub k).owed, subNow s k - (s.sub k).since) := by
  simp [drainOf, draining]

theorem drainOf_plane (hb : s.planes.get? b = some p) (draining : p.zeroing = false) :
    drainOf s (.plane b) = some ([(p.t, p.bound)], s.nowOn (b / 512) - p.since) := by
  simp [drainOf, hb, draining]

theorem startZeroing_subtree : startZeroing s (.subtree k) = withSub s k { s.sub k with st := .zeroing, owners := [] } := rfl

theorem startZeroing_plane : startZeroing s (.plane b) = { s with planes := s.planes.modify b (fun y => { y with zeroing := true }) } := rfl

variable (hp : s.powered = true)
include hp

theorem exec_drainComplete (hs : s.subj = .drain x) (drains : drainOf s x = some (left, cycles)) :
    exec .drainComplete s = .next (if outstanding s left = true then s else startZeroing s x) := by
  change execDrainComplete s = _
  cases owed : outstanding s left <;> simp [execDrainComplete, hs, drains, hp, owed]

theorem exec_drainTimeout (hs : s.subj = .drain x) (drains : drainOf s x = some (left, cycles)) :
    exec .drainTimeout s = .next (if 1048576 ≤ cycles then startZeroing (discard s left) x else s) := by
  change execDrainTimeout s = _
  simp [execDrainTimeout, hs, drains, hp]

theorem exec_zeroingComplete_subtree (hs : s.subj = .drain (.subtree k)) (zeroing : (s.sub k).st = .zeroing) :
    exec .zeroingComplete s = .next (withSub s k { s.sub k with st := .free, owners := [], owed := [] }) := by
  change execZeroingComplete s = _
  simp [execZeroingComplete, hs, hp, zeroing, modSubs_one]

theorem exec_zeroingComplete_plane (hs : s.subj = .drain (.plane b)) (hb : s.planes.get? b = some p) (zeroing : p.zeroing = true) :
    exec .zeroingComplete s = .next { s with planes := s.planes.erase b } := by
  change execZeroingComplete s = _
  simp [execZeroingComplete, hs, hp, hb, zeroing]

theorem exec_reserveSubtree (hs : s.subj = .subtree k) :
    exec .reserveSubtree s = .next (if k < 2048 ∧ (s.sub k).st = .free then withSub s k { s.sub k with st := .reserved } else s) := by
  change execReserveSubtree s = _
  simp [execReserveSubtree, hs, hp, modSubs_one]

theorem exec_releaseSubtree (hs : s.subj = .subtree k) :
    exec .releaseSubtree s = .next (if (s.sub k).st = .reserved then withSub s k { s.sub k with st := .zeroing } else s) := by
  change execReleaseSubtree s = _
  simp [execReleaseSubtree, hs, hp, modSubs_one]

end

theorem subtreeStates_holds : subtreeStates := by
  refine ⟨fun s k hs hp => ?subtree,
    fun s left => ⟨outstanding_iff, outstanding_discard s left, fun x hx late => mem_discard.mpr ⟨hx, late⟩⟩,
    leaveSubs_owed, fun s b p hs hp hb => ?plane, fun s k hs hp => ?reserve⟩
  case subtree =>
    refine ⟨fun draining clear => ?_, fun draining owed => ?_, fun draining long => ?_, fun draining short => ?_,
      exec_zeroingComplete_subtree hp hs⟩
    · rw [exec_drainComplete hp hs (drainOf_subtree draining), if_neg (by simp [clear]), startZeroing_subtree]
    · rw [exec_drainComplete hp hs (drainOf_subtree draining), if_pos owed]
    · rw [exec_drainTimeout hp hs (drainOf_subtree draining), if_pos (by omega), startZeroing_subtree]
      rfl
    · rw [exec_drainTimeout hp hs (drainOf_subtree draining), if_neg (by omega)]
  case plane =>
    refine ⟨fun draining clear => ?_, fun draining long => ?_, exec_zeroingComplete_plane hp hs hb⟩
    · rw [exec_drainComplete hp hs (drainOf_plane hb draining), if_neg (by simp [clear]), startZeroing_plane]
    · rw [exec_drainTimeout hp hs (drainOf_plane hb draining), if_pos (by omega), startZeroing_plane]
      rfl
  case reserve =>
    rw [exec_reserveSubtree hp hs, exec_releaseSubtree hp hs]
    exact ⟨fun inside free => by rw [if_pos ⟨inside, free⟩], fun taken => by rw [if_neg (fun h => taken h.2)],
      fun reserved => by rw [if_pos reserved], fun other => by rw [if_neg other]⟩

/-- Settles O43: the clauses on loads and on subtrees, each from the lemma about its operation. -/
theorem loadsAndSubtrees : Obligations.LoadsAndSubtrees := ⟨configurationLoads_holds, subtreeStates_holds⟩

end Sys2Proof.Machine

/-! PROOFS. Loads, stores and atomics at their homes, their replies, and the confirming read (R78, R272 to R274, R285, R286, R305, R326, R337,
R342). -/

namespace Sys2Proof.Machine

/-! ### A message where it arrives (R78, R319) -/

/-- Counting a message moves no node: its answer goes to the same die. -/
theorem replyDie_consume (s : State) (x : Msg) : replyDie (consume s x) x = replyDie s x := by
  have counted : (consume s x).tenures.get? x.t =
      (s.tenures.get? x.t).map (fun tn => if x.kind.poundScope then tn.conP x.receiver 1 else tn.conG x.receiver 1) :=
    Map.get?_modify_self _ _ _
  unfold replyDie
  rw [counted]
  cases x.lighter
  case some => rfl
  case none =>
    cases s.tenures.get? x.t
    case none => rfl
    case some tn => cases x.kind.poundScope <;> rfl

/-- No request is too long in transit: only replies expire. -/
theorem expired_request {s : State} {x : Msg} (request : x.kind.isReply = false) : expired s x = false := by simp [expired, request]

theorem expired_reply {s : State} {x : Msg} (hr : x.kind.isReply = true) : expired s x = true ↔ x.sent + 1048576 < s.nowOn (replyDie s x) := by
  simp [expired, hr]

theorem delivered_iff {s : State} {x : Msg} : delivered s x = true ↔ tagCurrent s x = true ∧ expired s x = false := by simp [delivered]

/-- Host memory holds no gate word (R305). -/
theorem clobbers_host (s : State) (a len : Nat) : clobbers s (.host a) len = false := by
  simp only [clobbers, List.any_eq_false]
  intro g _
  cases hg : s.tenures.get? (keyT g.1) <;> simp [gateUnder, hg]

/-! ### Loads (R272 to R274, R394) -/

section
variable {s : State} {m : Nat} {x : Msg}

theorem exec_loadReply (hs : s.subj = .msg m) : exec .loadReply s = .next (loadReply m false s) := by
  change execLoadReply s = _
  simp only [execLoadReply, hs]

/-- A read at its home waits, or is answered with the bytes it finds there. -/
theorem loadReply_load (h : atHome s m x) {va size pc : Nat} {pa : Phys} {signed : Bool} {dst : Opnd} {tok : Option Nat}
    (hk : x.kind = .load va size pa signed dst tok pc) :
    loadReply m false s =
      if readWaits s x = true then s
      else answerRead s x (.loadReply va size (memRead s x.t va pa size) false signed dst tok pc)
        (fun s1 => loadArrives s1 x va size (memRead s x.t va pa size) false signed dst tok pc) := by
  obtain ⟨-, hm, crossed, current⟩ := h
  have arrives : delivered s x = true := delivered_iff.mpr ⟨current, expired_request (by rw [hk]; rfl)⟩
  simp only [loadReply, hm, crossed, Option.isSome_none, Bool.false_eq_true, if_false, arrives, Bool.not_true, hk]

theorem answerRead_crosses {k : MsgKind} {here : State → State} (apart : replyDie s x ≠ unitDie x.home) :
    answerRead s x k here = reply (consume s x) x k := by
  simp only [answerRead, replyDie_consume, if_neg apart]

theorem answerRead_here {k : MsgKind} {here : State → State} (near : replyDie s x = unitDie x.home) :
    answerRead s x k here = here (countCon (countInj (consume s x) x.t (unitPoint x.home) k) x.t x.near k) := by
  simp only [answerRead, replyDie_consume, if_pos near]

/-- Good data is written into the destination, which waits no longer. -/
theorem loadArrives_good (va size pc : Nat) (bs : List Byte) (signed : Bool) (dst : Opnd) (tok : Option Nat) :
    loadArrives s x va size bs false signed dst tok pc = s.modTask x.t x.node (fun k =>
      (TaskRt.setReg { k with pend := k.pend.filter (fun p => p != dst) } dst (loadValue signed size bs)).dropToken tok) := rfl

end

/-! ### Stores (R272, R273, R305, R337) -/

section
variable {s : State} {m va : Nat} {x : Msg} {bs : List Byte} {pa : Phys} {tok : Option Nat}

theorem exec_storePerformed (hs : s.subj = .msg m) : exec .storePerformed s = .next (storePerformed m s) := by
  change execStorePerformed s = _
  simp only [execStorePerformed, hs]

section
variable (h : atHome s m x) (hk : x.kind = .store va bs pa tok)
include h hk

theorem storePerformed_waits (behind : earlierOverlap s x = true ∨ fencedOut s x.t x.issuer x.id = true) : storePerformed m s = s := by
  obtain ⟨-, hm, crossed, current⟩ := h
  simp only [storePerformed, hm, crossed, hk, current, Option.isSome_none, Bool.not_true, Bool.false_eq_true, if_false,
    Bool.or_eq_true, if_pos behind]

/-- The store of a node that is no generator, with nothing to wait for. -/
theorem storePerformed_task (noGen : s.gens.get? (key2 x.t x.node) = none) (first : earlierOverlap s x = false)
    (unfenced : fencedOut s x.t x.issuer x.id = false) : storePerformed m s = taskStorePerformed (consume s x) x va pa bs tok := by
  obtain ⟨-, hm, crossed, current⟩ := h
  simp only [storePerformed, hm, crossed, hk, current, first, unfenced, noGen, Option.isSome_none, Bool.not_true, Bool.or_self,
    Bool.false_eq_true, if_false]

end

theorem taskStorePerformed_device (a : Nat) :
    taskStorePerformed s x va (.dev a) bs tok =
      if clobbers s (.dev a) bs.length = true then
        homeFault (s.modTask x.t x.node (fun k => k.dropToken tok)) x cGateClobber (BitVec.ofNat 64 va)
      else (performAt s x.t va (.dev a) bs).modTask x.t x.node (fun k => k.dropToken tok) := rfl

theorem taskStorePerformed_host (a : Nat) :
    taskStorePerformed s x va (.host a) bs tok =
      (portIssue s x false none tok a [(0, bs)]).modTask x.t x.node (fun k => k.dropToken tok) := by
  rw [taskStorePerformed, clobbers_host, if_neg Bool.false_ne_true, storeOut]

end

/-! ### Writes of the host port (R337, R342) -/

section
variable {s : State} {m : Nat} {p : PortWrite} (hport : s.hostPort.find? (fun p => p.id == m) = some p)
include hport

theorem portPerform_performs (inTurn : p.strict = false ∨ (s.hostPort.head?).map PortWrite.id = some m) :
    portPerform m s = { s with hostMem := writeSegs s.hostMem p.pa p.segs, hostPort := s.hostPort.filter (fun q => q.id != m) } := by
  have free : (p.strict && (s.hostPort.head?).map PortWrite.id != some m) = false := by
    simpa only [Bool.and_eq_false_iff, bne_eq_false_iff_eq] using inTurn
  simp only [portPerform, hport, free, Bool.false_eq_true, if_false]

theorem portPerform_waits (strict : p.strict = true) (behind : (s.hostPort.head?).map PortWrite.id ≠ some m) : portPerform m s = s := by
  have held : (p.strict && (s.hostPort.head?).map PortWrite.id != some m) = true := by
    rw [Bool.and_eq_true, bne_iff_ne]
    exact ⟨strict, behind⟩
  simp only [portPerform, hport, held, if_true]

end

/-- A write that has left the network is one of the host port. -/
theorem storePerformed_port {s : State} {m : Nat} (gone : s.msg? m = none) : storePerformed m s = portPerform m s := by
  simp only [storePerformed, gone]

/-! ### Atomics and their answers (R285, R286) -/

section
variable {s : State} {m : Nat} {x : Msg}

theorem exec_atomicPerform (hs : s.subj = .msg m) : exec .atomicPerform s = .next (atomicPerform m false s) := by
  change execAtomicPerform s = _
  simp only [execAtomicPerform, hs]

theorem exec_atomicReply (hs : s.subj = .msg m) : exec .atomicReply s = .next (atomicReply m s) := by
  change execAtomicReply s = _
  simp only [execAtomicReply, hs]

/-- The old word of an atomic, as its home finds it. -/
def atomOld (s : State) (x : Msg) (va size pa : Nat) : Nat := leNat (memRead s x.t va (.dev pa) size)

/-- An atomic done at its home: consumed, its flags kept there, and its new word written. -/
def atomDone (s : State) (x : Msg) (va size pa : Nat) (new : Nat × Flags) : State :=
  performAt ((consume s x).modTenure x.t (fun tn => tn.addHomeFlags (homePa pa).1 new.2)) x.t va (.dev pa) (leBytes new.1 size)

theorem atomicPerform_performs (h : atHome s m x) {op : AtomOp} {va size pa arg e pc : Nat} {dst : Option Opnd} {ord : Bool}
    (hk : x.kind = .atomic op va size pa arg e dst ord pc) (first : earlierOverlap s x = false)
    (unfenced : fencedOut s x.t x.issuer m = false) (noGate : clobbers s (.dev pa) size = false) :
    atomicPerform m false s = reply (atomDone s x va size pa (atomNew op size (atomOld s x va size pa) arg e)) x
      (.atomicReply m (atomOld s x va size pa) size dst ord ((s.tenures.get? x.t).bind (fun tn => tn.watchHit 2 va size)) pc) := by
  obtain ⟨-, hm, crossed, current⟩ := h
  simp only [atomicPerform, hm, crossed, hk, current, first, unfenced, noGate, Option.isSome_none, Bool.not_true, Bool.or_self,
    Bool.false_eq_true, if_false]
  rfl

/-- A task that has the answer to its atomic `req`: a fetch writes its destination, another form lowers `updpend` (R286). -/
def TaskRt.answered (k : TaskRt) (req old size : Nat) : Option Opnd → TaskRt
  | some d => { TaskRt.setReg { k with atoms := k.atoms.filter (fun a => a.1 != req) } d (atomValue size old) with
      pend := k.pend.filter (fun p => p != d) }
  | none => { k with atoms := k.atoms.filter (fun a => a.1 != req), updpend := k.updpend - 1 }

section
variable {req old size pc : Nat} {dst : Option Opnd} {ord : Bool} {watch : Option W64}
variable (h : atHome s m x) (fresh : expired s x = false) (hk : x.kind = .atomicReply req old size dst ord watch pc)
include h fresh hk

theorem atomicReply_waits (ordered : ord = true) (behind : earlierOrdered s x = true) : atomicReply m s = s := by
  obtain ⟨-, hm, crossed, current⟩ := h
  have arrives : delivered s x = true := delivered_iff.mpr ⟨current, fresh⟩
  simp only [atomicReply, hm, crossed, hk, arrives, ordered, behind, Option.isSome_none, Bool.not_true, Bool.false_eq_true, if_false,
    Bool.and_self, if_true]

/-- An answer without a watch flag, in its turn. -/
theorem atomicReply_unwatched (unwatched : watch = none) (inTurn : ord = true → earlierOrdered s x = false) :
    atomicReply m s = (consume s x).modTask x.t x.node (fun k => k.answered req old size dst) := by
  obtain ⟨-, hm, crossed, current⟩ := h
  have arrives : delivered s x = true := delivered_iff.mpr ⟨current, fresh⟩
  have free : (ord && earlierOrdered s x) = false := by
    cases ord
    case false => rfl
    case true => exact inTurn rfl
  simp only [atomicReply, hm, crossed, hk, arrives, free, unwatched, Option.isSome_none, Bool.not_true, Bool.false_eq_true, if_false]
  cases dst <;> rfl

end

end

/-! ### Replies at their interfaces (R78) -/

section
variable {s : State} {m : Nat} {x : Msg}

theorem exec_replyArrival (hs : s.subj = .msg m) : exec .replyArrival s = .next (replyArrival m s) := by
  change execReplyArrival s = _
  simp only [execReplyArrival, hs]

theorem exec_replyExpiry (hs : s.subj = .msg m) : exec .replyExpiry s = .next (replyExpiry m s) := by
  change execReplyExpiry s = _
  simp only [execReplyExpiry, hs]

theorem exec_accumulateAcknowledgement (hs : s.subj = .msg m) :
    exec .accumulateAcknowledgement s = .next (accumulateAcknowledgement m s) := by
  change execAccumulateAcknowledgement s = _
  simp only [execAccumulateAcknowledgement, hs]

variable (hm : s.msg? m = some x) (hr : x.kind.isReply = true)
include hm hr

theorem replyArrival_dropped (crossed : x.cross = none) (undelivered : delivered s x = false) : replyArrival m s = s.dropMsg m := by
  simp only [replyArrival, hm, hr, crossed, undelivered, Option.isSome_none, Bool.not_true, Bool.or_self, Bool.not_false,
    Bool.false_eq_true, if_false, if_true]

theorem replyArrival_acknowledgement (crossed : x.cross = none) (arrives : delivered s x = true) (hk : x.kind = .accAck) :
    replyArrival m s = accumulateAcknowledgement m s := by
  rw [hk] at hr
  simp only [replyArrival, hm, hk, hr, crossed, arrives, Option.isSome_none, Bool.not_true, Bool.or_self, Bool.false_eq_true, if_false]

theorem replyExpiry_eq : replyExpiry m s = if x.sent + 1048576 < s.nowOn (replyDie s x) then s.dropMsg m else s := by
  simp only [replyExpiry, hm, expired_reply hr]

end

/-! ### The confirming read (R326) -/

theorem exec_confirmingReadCompletion {s : State} {t n : Nat} {k : TaskRt} (hs : s.subj = .node t n)
    (hk : s.tasks.get? (key2 t n) = some k) (waits : k.wait = .confirm) :
    exec .confirmingReadCompletion s = .next (if hostStoresOut s t (some n) = true then s
      else { s with tasks := s.tasks.set (key2 t n) { k with wait := .none, hostDirty := false } }) := by
  change execConfirmingReadCompletion s = _
  cases out : hostStoresOut s t (some n) <;> simp [execConfirmingReadCompletion, confirmingReadCompletion, hs, hk, waits, out]

/-- Settles O49: each clause is the lemma about its event. -/
theorem memoryEvents : Obligations.MemoryEvents := by
  refine ⟨fun s m va size pc x pa signed dst tok h hk => ?load, fun s m va x bs tok h noGen => ?store, fun s m p hs gone hport => ?port,
    fun s m va size pa arg e pc x op dst ord h hk first unfenced noGate => ?atomic, fun s m req old size pc x ord h fresh => ?answer,
    fun s m x hs hm hr => ?reply, fun s t n k hs hk waits => ?confirm⟩
  case load =>
    rw [exec_loadReply h.1, loadReply_load h hk]
    refine ⟨fun behind => by rw [if_pos behind], fun clear apart => ?_, fun clear near => ?_⟩ <;> rw [if_neg (by simp [clear])]
    · rw [answerRead_crosses apart]
    · rw [answerRead_here near, loadArrives_good]
  case store =>
    rw [exec_storePerformed h.1]
    refine ⟨fun a hk first unfenced => ?_, fun a hk first unfenced => ?_, fun pa hk behind => by rw [storePerformed_waits h hk behind]⟩ <;>
      rw [storePerformed_task h hk noGen first unfenced]
    · rw [taskStorePerformed_device]
      exact ⟨fun clear => by rw [if_neg (by simp [clear])], fun gate => by rw [if_pos gate]⟩
    · rw [taskStorePerformed_host]
  case port =>
    rw [exec_storePerformed hs, storePerformed_port gone]
    exact ⟨fun inTurn => by rw [portPerform_performs hport inTurn], fun strict behind => by rw [portPerform_waits hport strict behind]⟩
  case atomic =>
    rw [exec_atomicPerform h.1, atomicPerform_performs h hk first unfenced noGate]
    rfl
  case answer =>
    rw [exec_atomicReply h.1]
    exact ⟨fun d w hk behind => congrArg _ (atomicReply_waits h fresh hk rfl behind),
      fun d hk inTurn => congrArg _ (atomicReply_unwatched h fresh hk rfl inTurn),
      fun hk => congrArg _ (atomicReply_unwatched h fresh hk rfl nofun)⟩
  case reply =>
    rw [exec_replyArrival hs, exec_replyExpiry hs, replyExpiry_eq hm hr]
    refine ⟨fun crossed stale => ?_, fun crossed current late => ?_, fun crossed current fresh hk => ?_, fun late => by rw [if_pos late],
      fun inTime => by rw [if_neg (Nat.not_lt.mpr inTime)]⟩
    · rw [replyArrival_dropped hm hr crossed (by simp [delivered, stale])]
    · rw [replyArrival_dropped hm hr crossed (by simp [delivered, (expired_reply hr).mpr late])]
    · rw [replyArrival_acknowledgement hm hr crossed (delivered_iff.mpr ⟨current, fresh⟩) hk, exec_accumulateAcknowledgement hs]
  case confirm =>
    rw [exec_confirmingReadCompletion hs hk waits]
    exact ⟨fun performed => by rw [if_neg (by simp [performed])], fun unperformed => by rw [if_pos unperformed]⟩

end Sys2Proof.Machine

/-! PROOFS. Words and the instructions that they are: what the encoder writes the decoder reads back, in the task space and in the passage
space, and what words decode to is well formed (R131, R132, R134, R136, R352, R355, R358, R360). -/

namespace Sys2Proof

/-! ### Operands, formats and flags in their fields (R111, R132, R138) -/

@[simp] theorem Opnd.ofBits_bits (d : Opnd) : Opnd.ofBits d.bits = d := by
  cases d <;> rename_i n <;> revert n <;> decide

@[simp] theorem VFmt.ofBits?_bits (f : VFmt) : VFmt.ofBits? f.bits = some f := by cases f <;> rfl

@[simp] theorem Mode.ofBits?_bits (m : Mode) : Mode.ofBits? m.bits = some m := by cases m <;> rfl

@[simp] theorem ofBool_beq_one (b : Bool) : (BitVec.ofBool b == 1#1) = b := by cases b <;> rfl

/-! ### The fields of a word, by its format (R131) -/

section
variable {w : W32} {m d a b : BitVec 6} {u v y z : BitVec 4} {p q r : BitVec 2} {l o : BitVec 1} {f : BitVec 8} {g : BitVec 3}

/-- R format. -/
theorem fields_R (h : m ++ d ++ a ++ b ++ f = w) :
    fld w 26 6 = m ∧ fld w 20 6 = d ∧ fld w 14 6 = a ∧ fld w 8 6 = b ∧ fld w 0 8 = f := by
  subst h
  simp (disch := decide) only [fld, BitVec.extractLsb'_append_eq_of_le, BitVec.extractLsb'_append_eq_of_add_le, BitVec.extractLsb'_eq_self,
    Nat.reduceSub, and_self]

/-- R format whose destination is a predicate. -/
theorem fields_R_predicate (h : m ++ z ++ p ++ a ++ b ++ f = w) :
    fld w 26 6 = m ∧ fld w 22 4 = z ∧ fld w 20 2 = p ∧ fld w 14 6 = a ∧ fld w 8 6 = b ∧ fld w 0 8 = f := by
  subst h
  simp (disch := decide) only [fld, BitVec.extractLsb'_append_eq_of_le, BitVec.extractLsb'_append_eq_of_add_le, BitVec.extractLsb'_eq_self,
    Nat.reduceSub, and_self]

/-- R format whose operands are predicates. -/
theorem fields_R_predicates (h : m ++ z ++ p ++ y ++ q ++ u ++ r ++ f = w) :
    fld w 26 6 = m ∧ fld w 22 4 = z ∧ fld w 20 2 = p ∧ fld w 16 4 = y ∧ fld w 14 2 = q ∧ fld w 10 4 = u ∧ fld w 8 2 = r ∧
      fld w 0 8 = f := by
  subst h
  simp (disch := decide) only [fld, BitVec.extractLsb'_append_eq_of_le, BitVec.extractLsb'_append_eq_of_add_le, BitVec.extractLsb'_eq_self,
    Nat.reduceSub, and_self]

/-- R format whose first source is a predicate. -/
theorem fields_R_predicateSource (h : m ++ d ++ z ++ q ++ b ++ f = w) :
    fld w 26 6 = m ∧ fld w 20 6 = d ∧ fld w 16 4 = z ∧ fld w 14 2 = q ∧ fld w 8 6 = b ∧ fld w 0 8 = f := by
  subst h
  simp (disch := decide) only [fld, BitVec.extractLsb'_append_eq_of_le, BitVec.extractLsb'_append_eq_of_add_le, BitVec.extractLsb'_eq_self,
    Nat.reduceSub, and_self]

/-- R format with a token in place of s2. -/
theorem fields_R_token (h : m ++ d ++ a ++ l ++ g ++ p ++ f = w) :
    fld w 26 6 = m ∧ fld w 20 6 = d ∧ fld w 14 6 = a ∧ fld w 13 1 = l ∧ fld w 10 3 = g ∧ fld w 8 2 = p ∧ fld w 0 8 = f := by
  subst h
  simp (disch := decide) only [fld, BitVec.extractLsb'_append_eq_of_le, BitVec.extractLsb'_append_eq_of_add_le, BitVec.extractLsb'_eq_self,
    Nat.reduceSub, and_self]

/-- R format with a port of a lighter in place of s2. -/
theorem fields_R_port {k : BitVec 3} (h : m ++ d ++ a ++ g ++ k ++ f = w) :
    fld w 26 6 = m ∧ fld w 20 6 = d ∧ fld w 14 6 = a ∧ fld w 11 3 = g ∧ fld w 8 3 = k ∧ fld w 0 8 = f := by
  subst h
  simp (disch := decide) only [fld, BitVec.extractLsb'_append_eq_of_le, BitVec.extractLsb'_append_eq_of_add_le, BitVec.extractLsb'_eq_self,
    Nat.reduceSub, and_self]

/-- R format of an atomic without a result; the passage instruction `setp`. -/
theorem fields_R_atomic (h : m ++ d ++ a ++ b ++ u ++ l ++ g = w) :
    fld w 26 6 = m ∧ fld w 20 6 = d ∧ fld w 14 6 = a ∧ fld w 8 6 = b ∧ fld w 4 4 = u ∧ fld w 3 1 = l ∧ fld w 0 3 = g := by
  subst h
  simp (disch := decide) only [fld, BitVec.extractLsb'_append_eq_of_le, BitVec.extractLsb'_append_eq_of_add_le, BitVec.extractLsb'_eq_self,
    Nat.reduceSub, and_self]

/-- R format of an atomic with a result. -/
theorem fields_R_fetch {k : BitVec 1} (h : m ++ d ++ a ++ b ++ k ++ o ++ q ++ l ++ g = w) :
    fld w 26 6 = m ∧ fld w 20 6 = d ∧ fld w 14 6 = a ∧ fld w 8 6 = b ∧ fld w 7 1 = k ∧ fld w 6 1 = o ∧ fld w 4 2 = q ∧ fld w 3 1 = l ∧
      fld w 0 3 = g := by
  subst h
  simp (disch := decide) only [fld, BitVec.extractLsb'_append_eq_of_le, BitVec.extractLsb'_append_eq_of_add_le, BitVec.extractLsb'_eq_self,
    Nat.reduceSub, and_self]

/-- I format, and M format of a load. -/
theorem fields_I {k : BitVec 14} (h : m ++ d ++ a ++ k = w) :
    fld w 26 6 = m ∧ fld w 20 6 = d ∧ fld w 14 6 = a ∧ fld w 0 14 = k := by
  subst h
  simp (disch := decide) only [fld, BitVec.extractLsb'_append_eq_of_le, BitVec.extractLsb'_append_eq_of_add_le, BitVec.extractLsb'_eq_self,
    Nat.reduceSub, and_self]

/-- I format of a shift by an immediate. -/
theorem fields_I_shift {k : BitVec 5} (h : m ++ d ++ a ++ b ++ g ++ k = w) :
    fld w 26 6 = m ∧ fld w 20 6 = d ∧ fld w 14 6 = a ∧ fld w 8 6 = b ∧ fld w 5 3 = g ∧ fld w 0 5 = k := by
  subst h
  simp (disch := decide) only [fld, BitVec.extractLsb'_append_eq_of_le, BitVec.extractLsb'_append_eq_of_add_le, BitVec.extractLsb'_eq_self,
    Nat.reduceSub, and_self]

/-- M format of a store; the passage instruction `enter`. -/
theorem fields_M_store {k : BitVec 12} (h : m ++ d ++ b ++ q ++ k = w) :
    fld w 26 6 = m ∧ fld w 20 6 = d ∧ fld w 14 6 = b ∧ fld w 12 2 = q ∧ fld w 0 12 = k := by
  subst h
  simp (disch := decide) only [fld, BitVec.extractLsb'_append_eq_of_le, BitVec.extractLsb'_append_eq_of_add_le, BitVec.extractLsb'_eq_self,
    Nat.reduceSub, and_self]

/-- B format; the passage instruction `dec.jnz`. -/
theorem fields_B {k : BitVec 16} (h : m ++ a ++ p ++ q ++ k = w) :
    fld w 26 6 = m ∧ fld w 20 6 = a ∧ fld w 18 2 = p ∧ fld w 16 2 = q ∧ fld w 0 16 = k := by
  subst h
  simp (disch := decide) only [fld, BitVec.extractLsb'_append_eq_of_le, BitVec.extractLsb'_append_eq_of_add_le, BitVec.extractLsb'_eq_self,
    Nat.reduceSub, and_self]

/-- B format of `call`; the passage instructions `jmp` and `fault`. -/
theorem fields_B_call {k : BitVec 16} (h : m ++ a ++ z ++ k = w) :
    fld w 26 6 = m ∧ fld w 20 6 = a ∧ fld w 16 4 = z ∧ fld w 0 16 = k := by
  subst h
  simp (disch := decide) only [fld, BitVec.extractLsb'_append_eq_of_le, BitVec.extractLsb'_append_eq_of_add_le, BitVec.extractLsb'_eq_self,
    Nat.reduceSub, and_self]

/-- S format. -/
theorem fields_S {k : BitVec 20} (h : m ++ d ++ k = w) : fld w 26 6 = m ∧ fld w 20 6 = d ∧ fld w 0 20 = k := by
  subst h
  simp (disch := decide) only [fld, BitVec.extractLsb'_append_eq_of_le, BitVec.extractLsb'_append_eq_of_add_le, BitVec.extractLsb'_eq_self,
    Nat.reduceSub, and_self]

/-- V format. -/
theorem fields_V (h : m ++ d ++ a ++ b ++ u ++ v = w) :
    fld w 26 6 = m ∧ fld w 20 6 = d ∧ fld w 14 6 = a ∧ fld w 8 6 = b ∧ fld w 4 4 = u ∧ fld w 0 4 = v := by
  subst h
  simp (disch := decide) only [fld, BitVec.extractLsb'_append_eq_of_le, BitVec.extractLsb'_append_eq_of_add_le, BitVec.extractLsb'_eq_self,
    Nat.reduceSub, and_self]

/-- V format whose second source is a predicate. -/
theorem fields_V_predicate (h : m ++ d ++ a ++ z ++ p ++ u ++ v = w) :
    fld w 26 6 = m ∧ fld w 20 6 = d ∧ fld w 14 6 = a ∧ fld w 10 4 = z ∧ fld w 8 2 = p ∧ fld w 4 4 = u ∧ fld w 0 4 = v := by
  subst h
  simp (disch := decide) only [fld, BitVec.extractLsb'_append_eq_of_le, BitVec.extractLsb'_append_eq_of_add_le, BitVec.extractLsb'_eq_self,
    Nat.reduceSub, and_self]

/-- V format of a conversion. -/
theorem fields_V_convert (h : m ++ d ++ a ++ g ++ l ++ p ++ u ++ v = w) :
    fld w 26 6 = m ∧ fld w 20 6 = d ∧ fld w 14 6 = a ∧ fld w 11 3 = g ∧ fld w 10 1 = l ∧ fld w 8 2 = p ∧ fld w 4 4 = u ∧
      fld w 0 4 = v := by
  subst h
  simp (disch := decide) only [fld, BitVec.extractLsb'_append_eq_of_le, BitVec.extractLsb'_append_eq_of_add_le, BitVec.extractLsb'_eq_self,
    Nat.reduceSub, and_self]

end

/-! ### Task words, by their major opcode (R136) -/

/-- The word of `i` reads as `i`. -/
def ReadsBack (i : Instr) : Prop := ∀ w, encode i = some [w] → decodeRaw w = i

theorem word_eq {x w : W32} (h : some [x] = some [w]) : x = w := List.head_eq_of_cons_eq (Option.some.inj h)

section
variable (d a b : Opnd)

theorem readsBack_scalar : ∀ i ∈ [Instr.addW d a b, .subW d a b, .andW d a b, .orW d a b, .xorW d a b, .sllW d a b, .srlW d a b, .sraW d a b,
    .mulW d a b, .mulhsW d a b, .mulhzW d a b, .divsW d a b, .divzW d a b, .remsW d a b, .remzW d a b, .minsW d a b, .maxsW d a b, .minzW d a b,
    .maxzW d a b, .addsW d a b, .subsW d a b, .clzW d a, .cntW d a, .movW d a], ReadsBack i := by
  simp only [List.forall_mem_cons, List.not_mem_nil, false_implies, implies_true, and_true]
  and_intros <;> (
    intro w h
    obtain ⟨major, hd, ha, hb, function⟩ := fields_R (word_eq h)
    rw [decodeRaw, major]
    change decMajor00 w = _
    simp only [decMajor00, hd, ha, hb, function, Opnd.ofBits_bits]
    rfl)

theorem readsBack_compare (p : Fin 4) : ∀ i ∈ [Instr.cmpEqW p a b, .cmpNeW p a b, .cmpLtsW p a b, .cmpLtzW p a b, .cmpGesW p a b,
    .cmpGezW p a b], ReadsBack i := by
  simp only [List.forall_mem_cons, List.not_mem_nil, false_implies, implies_true, and_true]
  and_intros <;> (
    intro w h
    obtain ⟨major, hz, hp, ha, hb, function⟩ := fields_R_predicate (word_eq h)
    rw [decodeRaw, major]
    change decMajor01 w = _
    simp only [decMajor01, hz, hp, ha, hb, function, Opnd.ofBits_bits]
    rfl)

theorem readsBack_predicates (p q r : Fin 4) : ∀ i ∈ [Instr.pand p q r, .por p q r, .pxor p q r, .pandn p q r], ReadsBack i := by
  simp only [List.forall_mem_cons, List.not_mem_nil, false_implies, implies_true, and_true]
  and_intros <;> (
    intro w h
    obtain ⟨major, hz, hp, hy, hq, hu, hr, function⟩ := fields_R_predicates (word_eq h)
    rw [decodeRaw, major]
    change decMajor02 w = _
    simp only [decMajor02, hz, hp, hy, hq, hu, hr, function]
    rfl)

theorem readsBack_pset (p : Fin 4) : ReadsBack (.pset p a) := by
  intro w h
  obtain ⟨major, hz, hp, ha, hb, function⟩ := fields_R_predicate (word_eq h)
  rw [decodeRaw, major]
  change decMajor02 w = _
  simp [decMajor02, hz, hp, ha, hb, function, Opnd.ofBits_bits]

theorem readsBack_pget (q : Fin 4) : ReadsBack (.pget d q) := by
  intro w h
  obtain ⟨major, hd, hz, hq, hb, function⟩ := fields_R_predicateSource (word_eq h)
  rw [decodeRaw, major]
  change decMajor02 w = _
  simp [decMajor02, hd, hz, hq, hb, function, Opnd.ofBits_bits]

theorem readsBack_immediate (k : BitVec 14) : ∀ i ∈ [Instr.addiW d a k, .andiW d a k, .oriW d a k, .xoriW d a k, .addiA d a k, .ldS8 d a k,
    .ldZ8 d a k, .ldS16 d a k, .ldZ16 d a k, .ldW d a k, .ldD d a k], ReadsBack i := by
  simp only [List.forall_mem_cons, List.not_mem_nil, false_implies, implies_true, and_true]
  and_intros <;> (
    intro w h
    obtain ⟨major, hd, ha, hk⟩ := fields_I (word_eq h)
    rw [decodeRaw, major, ← Opnd.ofBits_bits d, ← Opnd.ofBits_bits a, ← hd, ← ha, ← hk]
    rfl)

theorem readsBack_dbnz (k : BitVec 14) : ReadsBack (.dbnz d k) := by
  intro w h
  obtain ⟨major, hd, ha, hk⟩ := fields_I (word_eq h)
  rw [decodeRaw, major]
  change decMajor14 w = _
  simp only [decMajor14, hd, ha, hk, Opnd.ofBits_bits]
  rfl

theorem readsBack_shiftImmediate (k : BitVec 5) : ∀ i ∈ [Instr.slliW d a k, .srliW d a k, .sraiW d a k], ReadsBack i := by
  simp only [List.forall_mem_cons, List.not_mem_nil, false_implies, implies_true, and_true]
  and_intros <;> (
    intro w h
    obtain ⟨major, hd, ha, selector, hz, hk⟩ := fields_I_shift (word_eq h)
    rw [decodeRaw, major]
    change decMajor07 w = _
    simp only [decMajor07, hd, ha, selector, hz, hk, Opnd.ofBits_bits]
    rfl)

theorem readsBack_long (k : BitVec 20) : ∀ i ∈ [Instr.liW d k, .luiW d k, .sysr d k, .sysw d k], ReadsBack i := by
  simp only [List.forall_mem_cons, List.not_mem_nil, false_implies, implies_true, and_true]
  and_intros <;> (
    intro w h
    obtain ⟨major, hd, hk⟩ := fields_S (word_eq h)
    rw [decodeRaw, major, ← Opnd.ofBits_bits d, ← hd, ← hk]
    rfl)

theorem readsBack_address : ∀ i ∈ [Instr.addA d a b, .addzA d a b, .subA d a b, .movA d a, .loA d a, .hiA d a, .catA d a b], ReadsBack i := by
  simp only [List.forall_mem_cons, List.not_mem_nil, false_implies, implies_true, and_true]
  and_intros <;> (
    intro w h
    obtain ⟨major, hd, ha, hb, function⟩ := fields_R (word_eq h)
    rw [decodeRaw, major]
    change decMajor0A w = _
    simp [decMajor0A, hd, ha, hb, function, Opnd.ofBits_bits])

theorem readsBack_compareAddress (p : Fin 4) : ∀ i ∈ [Instr.cmpEqA p a b, .cmpLtzA p a b], ReadsBack i := by
  simp only [List.forall_mem_cons, List.not_mem_nil, false_implies, implies_true, and_true]
  and_intros <;> (
    intro w h
    obtain ⟨major, hz, hp, ha, hb, function⟩ := fields_R_predicate (word_eq h)
    rw [decodeRaw, major]
    change decMajor0A w = _
    simp [decMajor0A, hz, hp, ha, hb, function, Opnd.ofBits_bits])

theorem readsBack_branch (p : Fin 4) (k : BitVec 16) : ∀ i ∈ [Instr.br p k, .brz a p k, .brnz a p k, .brneg a p k], ReadsBack i := by
  simp only [List.forall_mem_cons, List.not_mem_nil, false_implies, implies_true, and_true]
  and_intros <;> (
    intro w h
    obtain ⟨major, ha, hp, condition, hk⟩ := fields_B (word_eq h)
    rw [decodeRaw, major]
    change decMajor10 w = _
    simp [decMajor10, ha, hp, condition, hk, Opnd.ofBits_bits])

theorem readsBack_branchNot (p : Fin 4) (k : BitVec 16) : ∀ i ∈ [Instr.brNp p k, .brzNp a p k, .brnzNp a p k, .brnegNp a p k], ReadsBack i := by
  simp only [List.forall_mem_cons, List.not_mem_nil, false_implies, implies_true, and_true]
  and_intros <;> (
    intro w h
    obtain ⟨major, ha, hp, condition, hk⟩ := fields_B (word_eq h)
    rw [decodeRaw, major]
    change decMajor11 w = _
    simp [decMajor11, ha, hp, condition, hk, Opnd.ofBits_bits])

theorem readsBack_call (k : BitVec 16) : ReadsBack (.call k) := by
  intro w h
  obtain ⟨major, ha, hz, hk⟩ := fields_B_call (word_eq h)
  rw [decodeRaw, major]
  change decMajor12 w = _
  simp only [decMajor12, ha, hz, hk]
  rfl

theorem readsBack_jump : ∀ i ∈ [Instr.jr a, .callr a, .end_, .nop], ReadsBack i := by
  simp only [List.forall_mem_cons, List.not_mem_nil, false_implies, implies_true, and_true]
  and_intros <;> (
    intro w h
    obtain ⟨major, hd, ha, hb, function⟩ := fields_R (word_eq h)
    rw [decodeRaw, major]
    change decMajor13 w = _
    simp [decMajor13, hd, ha, hb, function, Opnd.ofBits_bits])
theorem readsBack_channel : ∀ i ∈ [Instr.open_ d a, .close d, .next_ a, .hdr d a, .send d a, .left d a, .cpy d a b], ReadsBack i := by
  simp only [List.forall_mem_cons, List.not_mem_nil, false_implies, implies_true, and_true]
  and_intros <;> (
    intro w h
    obtain ⟨major, hd, ha, hb, function⟩ := fields_R (word_eq h)
    rw [decodeRaw, major]
    change decMajor18 w = _
    simp [decMajor18, hd, ha, hb, function])

theorem readsBack_store (k : BitVec 12) : ∀ i ∈ [Instr.stB d b k, .stH d b k, .stW d b k, .stD d b k], ReadsBack i := by
  simp only [List.forall_mem_cons, List.not_mem_nil, false_implies, implies_true, and_true]
  and_intros <;> (
    intro w h
    obtain ⟨major, hd, hb, selector, hk⟩ := fields_M_store (word_eq h)
    rw [decodeRaw, major]
    change decMajor26 w = _
    simp only [decMajor26, hd, hb, selector, hk, Opnd.ofBits_bits]
    rfl)

theorem readsBack_global (t : Bool) (k : BitVec 3) : ∀ i ∈ [Instr.gldS8 d a t k, .gldZ8 d a t k, .gldS16 d a t k, .gldZ16 d a t k, .gldW d a t k,
    .gldD d a t k, .gstB d a t k, .gstH d a t k, .gstW d a t k, .gstD d a t k], ReadsBack i := by
  simp only [List.forall_mem_cons, List.not_mem_nil, false_implies, implies_true, and_true]
  and_intros <;> (
    intro w h
    obtain ⟨major, hd, ha, ht, hk, hz, function⟩ := fields_R_token (word_eq h)
    rw [decodeRaw, major]
    change decMajor28 w = _
    simp [decMajor28, hd, ha, ht, hk, hz, function])

theorem readsBack_xfer (k : BitVec 3) : ReadsBack (.xfer a k) := by
  intro w h
  obtain ⟨major, hd, ha, hz, hk, function⟩ := fields_R_port (word_eq h)
  rw [decodeRaw, major]
  change decMajor29 w = _
  simp [decMajor29, hd, ha, hz, hk, function]

theorem readsBack_accumulate (k : BitVec 6) : ∀ i ∈ [Instr.accFp32 k a b, .accBf16 k a b, .accFp16 k a b, .accS8 k a b, .accZ8 k a b,
    .accS16 k a b, .accZ16 k a b, .accS32 k a b, .accZ32 k a b, .accS64 k a b, .flushr k, .flushrAll], ReadsBack i := by
  simp only [List.forall_mem_cons, List.not_mem_nil, false_implies, implies_true, and_true]
  and_intros <;> (
    intro w h
    obtain ⟨major, hk, ha, hb, function⟩ := fields_R (word_eq h)
    rw [decodeRaw, major]
    change decMajor2A w = _
    simp [decMajor2A, hk, ha, hb, function])

theorem readsBack_atomic (t : Bool) : ∀ i ∈ [Instr.atomAdd a b t, .atomMin a b t, .atomMax a b t, .atomMinz a b t, .atomMaxz a b t,
    .atomAnd a b t, .atomOr a b t, .atomXor a b t], ReadsBack i := by
  simp only [List.forall_mem_cons, List.not_mem_nil, false_implies, implies_true, and_true]
  and_intros <;> (
    intro w h
    obtain ⟨major, hd, ha, hb, unsigned, ht, function⟩ := fields_R_atomic (word_eq h)
    rw [decodeRaw, major]
    change decMajor2B w = _
    simp [decMajor2B, hd, ha, hb, unsigned, ht, function])

/-- The low two bits of a field of four. -/
theorem fld_low_half (w : W32) (lo : Nat) : fld w lo 2 = (fld w lo 4).extractLsb' 0 2 := by
  ext i hi
  simp [fld, show i < 4 by omega]

theorem readsBack_fetch (t x : Bool) : ∀ i ∈ [Instr.atomAddF d a b t x, .atomMinF d a b t x, .atomMaxF d a b t x, .atomMinzF d a b t x,
    .atomMaxzF d a b t x, .atomAndF d a b t x, .atomOrF d a b t x, .atomXorF d a b t x, .atomSwap d a b t x,
    .atomCas d a b t x], ReadsBack i := by
  simp only [List.forall_mem_cons, List.not_mem_nil, false_implies, implies_true, and_true]
  and_intros <;> (
    intro w h
    obtain ⟨major, hd, ha, hb, hz, ht, unsigned, hx, function⟩ := fields_R_fetch (word_eq h)
    rw [decodeRaw, major]
    change decMajor2B w = _
    have ne0 : fld w 4 4 ≠ 0#4 := fun e => by rw [fld_low_half, e] at unsigned; exact absurd unsigned (by decide)
    have ne1 : fld w 4 4 ≠ 1#4 := fun e => by rw [fld_low_half, e] at unsigned; exact absurd unsigned (by decide)
    simp [decMajor2B, hd, ha, hb, hz, ht, unsigned, hx, function, ne0, ne1])

theorem readsBack_floatAtomic : ∀ i ∈ [Instr.atomFaddFp32 a b, .atomFaddBf16 a b, .atomFaddFp32F d a b, .atomFaddBf16F d a b], ReadsBack i := by
  simp only [List.forall_mem_cons, List.not_mem_nil, false_implies, implies_true, and_true]
  and_intros <;> (
    intro w h
    obtain ⟨major, hd, ha, hb, function⟩ := fields_R (word_eq h)
    rw [decodeRaw, major]
    change decMajor2C w = _
    simp [decMajor2C, hd, ha, hb, function])

theorem readsBack_vector (f : VFmt) : ∀ i ∈ [Instr.vAdd d a b f, .vSub d a b f, .vMul d a b f, .vMin d a b f, .vMax d a b f, .vAbs d a f,
    .vNeg d a f, .vAdds d a b f, .vSubs d a b f, .vAnd d a b f, .vOr d a b f, .vXor d a b f, .vSll d a b f, .vSrl d a b f,
    .vSra d a b f], ReadsBack i := by
  simp only [List.forall_mem_cons, List.not_mem_nil, false_implies, implies_true, and_true]
  and_intros <;> (
    intro w h
    obtain ⟨major, hd, ha, hb, hf, function⟩ := fields_V (word_eq h)
    rw [decodeRaw, major]
    change decMajor30 w = _
    simp [decMajor30, hd, ha, hb, hf, function])

theorem readsBack_fused (f : VFmt) : ∀ i ∈ [Instr.vFma d a b f, .vFms d a b f, .vFnma d a b f, .vFmab d a b f, .vDot d a b f], ReadsBack i := by
  simp only [List.forall_mem_cons, List.not_mem_nil, false_implies, implies_true, and_true]
  and_intros <;> (
    intro w h
    obtain ⟨major, hd, ha, hb, hf, function⟩ := fields_V (word_eq h)
    rw [decodeRaw, major]
    change decMajor31 w = _
    simp [decMajor31, hd, ha, hb, hf, function])

theorem readsBack_vectorCompare (f : VFmt) :
    ∀ i ∈ [Instr.vCmpEq d a b f, .vCmpLt d a b f, .vCmpLe d a b f, .vCmpUn d a b f, .vSel d a b f],
      ReadsBack i := by
  simp only [List.forall_mem_cons, List.not_mem_nil, false_implies, implies_true, and_true]
  and_intros <;> (
    intro w h
    obtain ⟨major, hd, ha, hb, hf, function⟩ := fields_V (word_eq h)
    rw [decodeRaw, major]
    change decMajor32 w = _
    simp [decMajor32, hd, ha, hb, hf, function])

theorem readsBack_permute (f : VFmt) : ∀ i ∈ [Instr.vShuf d a b f, .vZip d a b f, .vUnzip d a b f], ReadsBack i := by
  simp only [List.forall_mem_cons, List.not_mem_nil, false_implies, implies_true, and_true]
  and_intros <;> (
    intro w h
    obtain ⟨major, hd, ha, hb, hf, function⟩ := fields_V (word_eq h)
    rw [decodeRaw, major]
    change decMajor33 w = _
    simp [decMajor33, hd, ha, hb, hf, function])

theorem readsBack_lane (k : BitVec 6) (f : VFmt) : ∀ i ∈ [Instr.vBcast d a k f, .vRot d a k f, .vIns d a k f, .vExt d a k f], ReadsBack i := by
  simp only [List.forall_mem_cons, List.not_mem_nil, false_implies, implies_true, and_true]
  and_intros <;> (
    intro w h
    obtain ⟨major, hd, ha, hk, hf, function⟩ := fields_V (word_eq h)
    rw [decodeRaw, major]
    change decMajor33 w = _
    simp [decMajor33, hd, ha, hk, hf, function])

theorem readsBack_compress (p : Fin 4) (f : VFmt) : ReadsBack (.cmpr2of4 d a p f) := by
  intro w h
  obtain ⟨major, hd, ha, hz, hp, hf, function⟩ := fields_V_predicate (word_eq h)
  rw [decodeRaw, major]
  change decMajor33 w = _
  simp [decMajor33, hd, ha, hz, hp, hf, function]

theorem readsBack_convert (r : Mode) (t : Bool) (f g : VFmt) : ReadsBack (.vCvt d a r t f g) := by
  intro w h
  obtain ⟨major, hd, ha, hr, ht, hz, hf, hg⟩ := fields_V_convert (word_eq h)
  rw [decodeRaw, major]
  change decMajor34 w = _
  simp [decMajor34, hd, ha, hr, ht, hz, hf, hg]

theorem readsBack_reduce (f : VFmt) : ∀ i ∈ [Instr.vRsum d a f, .vRmax d a f, .vRmin d a f, .vRdot d a b f], ReadsBack i := by
  simp only [List.forall_mem_cons, List.not_mem_nil, false_implies, implies_true, and_true]
  and_intros <;> (
    intro w h
    obtain ⟨major, hd, ha, hb, hf, function⟩ := fields_V (word_eq h)
    rw [decodeRaw, major]
    change decMajor35 w = _
    simp [decMajor35, hd, ha, hb, hf, function])

theorem readsBack_scale (f : VFmt) : ∀ i ∈ [Instr.vSclx d a b f, .vMxpack d a b f, .vMxunpack d a b f, .vLdexp d a b f], ReadsBack i := by
  simp only [List.forall_mem_cons, List.not_mem_nil, false_implies, implies_true, and_true]
  and_intros <;> (
    intro w h
    obtain ⟨major, hd, ha, hb, hf, function⟩ := fields_V (word_eq h)
    rw [decodeRaw, major]
    change decMajor36 w = _
    simp [decMajor36, hd, ha, hb, hf, function])

theorem readsBack_scl (k : BitVec 6) (f : VFmt) : ReadsBack (.vScl d a k f) := by
  intro w h
  obtain ⟨major, hd, ha, hk, hf, function⟩ := fields_V (word_eq h)
  rw [decodeRaw, major]
  change decMajor36 w = _
  simp [decMajor36, hd, ha, hk, hf, function]

theorem readsBack_wsb (k : BitVec 8) : ReadsBack (.wsb k) := by
  intro w h
  obtain ⟨major, hd, ha, hb, hk⟩ := fields_R (word_eq h)
  rw [decodeRaw, major]
  change decMajor38 w = _
  simp [decMajor38, hd, ha, hb, hk]

theorem readsBack_sync (k : BitVec 6) : ∀ i ∈ [Instr.gateArr k a, .gateWait k a, .quietP, .quietG, .combSend a b, .fenceG, .fenceS,
    .waita a b], ReadsBack i := by
  simp only [List.forall_mem_cons, List.not_mem_nil, false_implies, implies_true, and_true]
  and_intros <;> (
    intro w h
    obtain ⟨major, hk, ha, hb, function⟩ := fields_R (word_eq h)
    rw [decodeRaw, major]
    change decMajor39 w = _
    simp [decMajor39, hk, ha, hb, function])

theorem readsBack_trap : ∀ i ∈ [Instr.trap a, .rte, .halt, .brk], ReadsBack i := by
  simp only [List.forall_mem_cons, List.not_mem_nil, false_implies, implies_true, and_true]
  and_intros <;> (
    intro w h
    obtain ⟨major, hd, ha, hb, function⟩ := fields_R (word_eq h)
    rw [decodeRaw, major]
    change decMajor3E w = _
    simp [decMajor3E, hd, ha, hb, function])

end

/-- Only an event reads back as an illegal word, so no instruction of a program is written as the word that begins a long-immediate group (R134). -/
theorem ReadsBack.ne_prefixWord {i : Instr} (back : ReadsBack i) {w : W32} (h : encode i = some [w]) : w ≠ prefixWord := by
  rintro rfl
  have illegal : i = .illegalInstruction prefixWord := (back _ h).symm
  subst illegal
  cases h

/-- A well-formed instruction whose word reads back is decoded from it at the front of any words. -/
theorem ReadsBack.decodeTask {i : Instr} (back : ReadsBack i) (oneWord : ∃ w, encode i = some [w]) {ws : List W32} (rest : List W32)
    (h : encode i = some ws) (formed : i.wf = true) : decodeTask (ws ++ rest) = some (i, ws.length) := by
  obtain ⟨w, hw⟩ := oneWord
  obtain rfl : [w] = ws := Option.some.inj (hw.symm.trans h)
  simp [Sys2Proof.decodeTask, decodeTaskWord, back.ne_prefixWord hw, back w hw, formed]

theorem taskWordsRoundTrip_holds : taskWordsRoundTrip := by
  intro i ws rest h formed task
  cases i with
  | addW d a b | subW d a b | andW d a b | orW d a b | xorW d a b | sllW d a b | srlW d a b | sraW d a b | mulW d a b | mulhsW d a b
  | mulhzW d a b | divsW d a b | divzW d a b | remsW d a b | remzW d a b | minsW d a b | maxsW d a b | minzW d a b | maxzW d a b
  | addsW d a b | subsW d a b => exact (readsBack_scalar d a b _ (by simp)).decodeTask ⟨_, rfl⟩ rest h formed
  | clzW d a | cntW d a | movW d a => exact (readsBack_scalar d a a _ (by simp)).decodeTask ⟨_, rfl⟩ rest h formed
  | cmpEqW p a b | cmpNeW p a b | cmpLtsW p a b | cmpLtzW p a b | cmpGesW p a b | cmpGezW p a b =>
    exact (readsBack_compare a b p _ (by simp)).decodeTask ⟨_, rfl⟩ rest h formed
  | pand p q r | por p q r | pxor p q r | pandn p q r => exact (readsBack_predicates p q r _ (by simp)).decodeTask ⟨_, rfl⟩ rest h formed
  | pset p a => exact (readsBack_pset a p).decodeTask ⟨_, rfl⟩ rest h formed
  | pget d q => exact (readsBack_pget d q).decodeTask ⟨_, rfl⟩ rest h formed
  | addiW d a k | andiW d a k | oriW d a k | xoriW d a k | addiA d a k | ldS8 d a k | ldZ8 d a k | ldS16 d a k | ldZ16 d a k | ldW d a k
  | ldD d a k => exact (readsBack_immediate d a k _ (by simp)).decodeTask ⟨_, rfl⟩ rest h formed
  | slliW d a k | srliW d a k | sraiW d a k => exact (readsBack_shiftImmediate d a k _ (by simp)).decodeTask ⟨_, rfl⟩ rest h formed
  | liW d k | luiW d k | sysr d k | sysw d k => exact (readsBack_long d k _ (by simp)).decodeTask ⟨_, rfl⟩ rest h formed
  | addA d a b | addzA d a b | subA d a b | catA d a b => exact (readsBack_address d a b _ (by simp)).decodeTask ⟨_, rfl⟩ rest h formed
  | movA d a | loA d a | hiA d a => exact (readsBack_address d a a _ (by simp)).decodeTask ⟨_, rfl⟩ rest h formed
  | cmpEqA p a b | cmpLtzA p a b => exact (readsBack_compareAddress a b p _ (by simp)).decodeTask ⟨_, rfl⟩ rest h formed
  | br p k => exact (readsBack_branch (.g 0) p k _ (by simp)).decodeTask ⟨_, rfl⟩ rest h formed
  | brz a p k | brnz a p k | brneg a p k => exact (readsBack_branch a p k _ (by simp)).decodeTask ⟨_, rfl⟩ rest h formed
  | brNp p k => exact (readsBack_branchNot (.g 0) p k _ (by simp)).decodeTask ⟨_, rfl⟩ rest h formed
  | brzNp a p k | brnzNp a p k | brnegNp a p k => exact (readsBack_branchNot a p k _ (by simp)).decodeTask ⟨_, rfl⟩ rest h formed
  | call k => exact (readsBack_call k).decodeTask ⟨_, rfl⟩ rest h formed
  | jr a | callr a => exact (readsBack_jump a _ (by simp)).decodeTask ⟨_, rfl⟩ rest h formed
  | end_ | nop => exact (readsBack_jump (.g 0) _ (by simp)).decodeTask ⟨_, rfl⟩ rest h formed
  | dbnz d k => exact (readsBack_dbnz d k).decodeTask ⟨_, rfl⟩ rest h formed
  | open_ d a | hdr d a | send d a | left d a => exact (readsBack_channel d a a _ (by simp)).decodeTask ⟨_, rfl⟩ rest h formed
  | close d | next_ d => exact (readsBack_channel d d d _ (by simp)).decodeTask ⟨_, rfl⟩ rest h formed
  | cpy d a b => exact (readsBack_channel d a b _ (by simp)).decodeTask ⟨_, rfl⟩ rest h formed
  | stB d b k | stH d b k | stW d b k | stD d b k => exact (readsBack_store d b k _ (by simp)).decodeTask ⟨_, rfl⟩ rest h formed
  | gldS8 d a t k | gldZ8 d a t k | gldS16 d a t k | gldZ16 d a t k | gldW d a t k | gldD d a t k | gstB d a t k | gstH d a t k
  | gstW d a t k | gstD d a t k => exact (readsBack_global d a t k _ (by simp)).decodeTask ⟨_, rfl⟩ rest h formed
  | xfer a k => exact (readsBack_xfer a k).decodeTask ⟨_, rfl⟩ rest h formed
  | accFp32 k a b | accBf16 k a b | accFp16 k a b | accS8 k a b | accZ8 k a b | accS16 k a b | accZ16 k a b | accS32 k a b | accZ32 k a b
  | accS64 k a b => exact (readsBack_accumulate a b k _ (by simp)).decodeTask ⟨_, rfl⟩ rest h formed
  | flushr k => exact (readsBack_accumulate (.g 0) (.g 0) k _ (by simp)).decodeTask ⟨_, rfl⟩ rest h formed
  | flushrAll => exact (readsBack_accumulate (.g 0) (.g 0) 0 _ (by simp)).decodeTask ⟨_, rfl⟩ rest h formed
  | atomAdd a b t | atomMin a b t | atomMax a b t | atomMinz a b t | atomMaxz a b t | atomAnd a b t | atomOr a b t | atomXor a b t =>
    exact (readsBack_atomic a b t _ (by simp)).decodeTask ⟨_, rfl⟩ rest h formed
  | atomAddF d a b t x | atomMinF d a b t x | atomMaxF d a b t x | atomMinzF d a b t x | atomMaxzF d a b t x | atomAndF d a b t x
  | atomOrF d a b t x | atomXorF d a b t x | atomSwap d a b t x | atomCas d a b t x =>
    exact (readsBack_fetch d a b t x _ (by simp)).decodeTask ⟨_, rfl⟩ rest h formed
  | atomFaddFp32 a b | atomFaddBf16 a b => exact (readsBack_floatAtomic a a b _ (by simp)).decodeTask ⟨_, rfl⟩ rest h formed
  | atomFaddFp32F d a b | atomFaddBf16F d a b => exact (readsBack_floatAtomic d a b _ (by simp)).decodeTask ⟨_, rfl⟩ rest h formed
  | vAdd d a b f | vSub d a b f | vMul d a b f | vMin d a b f | vMax d a b f | vAdds d a b f | vSubs d a b f | vAnd d a b f | vOr d a b f
  | vXor d a b f | vSll d a b f | vSrl d a b f | vSra d a b f => exact (readsBack_vector d a b f _ (by simp)).decodeTask ⟨_, rfl⟩ rest h formed
  | vAbs d a f | vNeg d a f => exact (readsBack_vector d a a f _ (by simp)).decodeTask ⟨_, rfl⟩ rest h formed
  | vFma d a b f | vFms d a b f | vFnma d a b f | vFmab d a b f | vDot d a b f =>
    exact (readsBack_fused d a b f _ (by simp)).decodeTask ⟨_, rfl⟩ rest h formed
  | vCmpEq d a b f | vCmpLt d a b f | vCmpLe d a b f | vCmpUn d a b f | vSel d a b f =>
    exact (readsBack_vectorCompare d a b f _ (by simp)).decodeTask ⟨_, rfl⟩ rest h formed
  | vShuf d a b f | vZip d a b f | vUnzip d a b f => exact (readsBack_permute d a b f _ (by simp)).decodeTask ⟨_, rfl⟩ rest h formed
  | vBcast d a k f | vRot d a k f | vIns d a k f | vExt d a k f => exact (readsBack_lane d a k f _ (by simp)).decodeTask ⟨_, rfl⟩ rest h formed
  | cmpr2of4 d a p f => exact (readsBack_compress d a p f).decodeTask ⟨_, rfl⟩ rest h formed
  | vCvt d a r t f g => exact (readsBack_convert d a r t f g).decodeTask ⟨_, rfl⟩ rest h formed
  | vRsum d a f | vRmax d a f | vRmin d a f => exact (readsBack_reduce d a a f _ (by simp)).decodeTask ⟨_, rfl⟩ rest h formed
  | vRdot d a b f => exact (readsBack_reduce d a b f _ (by simp)).decodeTask ⟨_, rfl⟩ rest h formed
  | vScl d a k f => exact (readsBack_scl d a k f).decodeTask ⟨_, rfl⟩ rest h formed
  | vSclx d a b f | vMxpack d a b f | vMxunpack d a b f | vLdexp d a b f =>
    exact (readsBack_scale d a b f _ (by simp)).decodeTask ⟨_, rfl⟩ rest h formed
  | wsb k => exact (readsBack_wsb k).decodeTask ⟨_, rfl⟩ rest h formed
  | gateArr k a | gateWait k a => exact (readsBack_sync a a k _ (by simp)).decodeTask ⟨_, rfl⟩ rest h formed
  | combSend a b | waita a b => exact (readsBack_sync a b 0 _ (by simp)).decodeTask ⟨_, rfl⟩ rest h formed
  | quietP | quietG | fenceG | fenceS => exact (readsBack_sync (.g 0) (.g 0) 0 _ (by simp)).decodeTask ⟨_, rfl⟩ rest h formed
  | trap a => exact (readsBack_trap a _ (by simp)).decodeTask ⟨_, rfl⟩ rest h formed
  | rte | halt | brk => exact (readsBack_trap (.g 0) _ (by simp)).decodeTask ⟨_, rfl⟩ rest h formed
  | longImmediatePrefix imm third => cases h; rfl
  | enter | lock | bindArg | bindVq | bindXfer | bindAccs | bindXf | bindPred | choose | jmp | yield_ | ireload | watch | unwatch | fault
  | done | wave | quiet | setp | waitp | count | decJnz | settle => cases task
  | _ => cases h

/-! ### The fields of the passage words (R355 to R360) -/

section
variable {w : W32} {m d a b : BitVec 6} {u z : BitVec 4} {p q : BitVec 2} {l o : BitVec 1} {g : BitVec 3}

/-- `lock`. -/
theorem fields_lock {k : BitVec 12} (h : m ++ d ++ a ++ l ++ o ++ k = w) :
    fld w 26 6 = m ∧ fld w 20 6 = d ∧ fld w 14 6 = a ∧ fld w 13 1 = l ∧ fld w 12 1 = o ∧ fld w 0 12 = k := by
  subst h
  simp (disch := decide) only [fld, BitVec.extractLsb'_append_eq_of_le, BitVec.extractLsb'_append_eq_of_add_le, BitVec.extractLsb'_eq_self,
    Nat.reduceSub, and_self]

/-- `choose`. -/
theorem fields_choose {k : BitVec 16} (h : m ++ l ++ g ++ p ++ z ++ k = w) :
    fld w 26 6 = m ∧ fld w 25 1 = l ∧ fld w 22 3 = g ∧ fld w 20 2 = p ∧ fld w 16 4 = z ∧ fld w 0 16 = k := by
  subst h
  simp (disch := decide) only [fld, BitVec.extractLsb'_append_eq_of_le, BitVec.extractLsb'_append_eq_of_add_le, BitVec.extractLsb'_eq_self,
    Nat.reduceSub, and_self]

/-- `wave`. -/
theorem fields_wave {k : BitVec 17} (h : m ++ d ++ g ++ k = w) :
    fld w 26 6 = m ∧ fld w 20 6 = d ∧ fld w 17 3 = g ∧ fld w 0 17 = k := by
  subst h
  simp (disch := decide) only [fld, BitVec.extractLsb'_append_eq_of_le, BitVec.extractLsb'_append_eq_of_add_le, BitVec.extractLsb'_eq_self,
    Nat.reduceSub, and_self]

/-- `unwatch`. -/
theorem fields_unwatch {x : BitVec 6} (h : m ++ d ++ a ++ b ++ x ++ p = w) :
    fld w 26 6 = m ∧ fld w 20 6 = d ∧ fld w 14 6 = a ∧ fld w 8 6 = b ∧ fld w 2 6 = x ∧ fld w 0 2 = p := by
  subst h
  simp (disch := decide) only [fld, BitVec.extractLsb'_append_eq_of_le, BitVec.extractLsb'_append_eq_of_add_le, BitVec.extractLsb'_eq_self,
    Nat.reduceSub, and_self]

/-- `settle`. -/
theorem fields_settle {k : BitVec 6} (h : m ++ d ++ a ++ b ++ p ++ k = w) :
    fld w 26 6 = m ∧ fld w 20 6 = d ∧ fld w 14 6 = a ∧ fld w 8 6 = b ∧ fld w 6 2 = p ∧ fld w 0 6 = k := by
  subst h
  simp (disch := decide) only [fld, BitVec.extractLsb'_append_eq_of_le, BitVec.extractLsb'_append_eq_of_add_le, BitVec.extractLsb'_eq_self,
    Nat.reduceSub, and_self]

/-- `quiet`. -/
theorem fields_quiet {k : BitVec 7} (h : m ++ d ++ a ++ b ++ k ++ l = w) :
    fld w 26 6 = m ∧ fld w 20 6 = d ∧ fld w 14 6 = a ∧ fld w 8 6 = b ∧ fld w 1 7 = k ∧ fld w 0 1 = l := by
  subst h
  simp (disch := decide) only [fld, BitVec.extractLsb'_append_eq_of_le, BitVec.extractLsb'_append_eq_of_add_le, BitVec.extractLsb'_eq_self,
    Nat.reduceSub, and_self]

/-- `waitp`. -/
theorem fields_waitp {k : BitVec 5} (h : m ++ d ++ a ++ b ++ k ++ g = w) :
    fld w 26 6 = m ∧ fld w 20 6 = d ∧ fld w 14 6 = a ∧ fld w 8 6 = b ∧ fld w 3 5 = k ∧ fld w 0 3 = g := by
  subst h
  simp (disch := decide) only [fld, BitVec.extractLsb'_append_eq_of_le, BitVec.extractLsb'_append_eq_of_add_le, BitVec.extractLsb'_eq_self,
    Nat.reduceSub, and_self]

/-- `count`. -/
theorem fields_count {k : BitVec 20} (h : m ++ z ++ p ++ k = w) :
    fld w 26 6 = m ∧ fld w 22 4 = z ∧ fld w 20 2 = p ∧ fld w 0 20 = k := by
  subst h
  simp (disch := decide) only [fld, BitVec.extractLsb'_append_eq_of_le, BitVec.extractLsb'_append_eq_of_add_le, BitVec.extractLsb'_eq_self,
    Nat.reduceSub, and_self]

/-- The first word of a `bind`. -/
theorem fields_bind {k : BitVec 24} (h : m ++ p ++ k = w) :
    fld w 26 6 = m ∧ fld w 24 2 = p ∧ fld w 0 24 = k := by
  subst h
  simp (disch := decide) only [fld, BitVec.extractLsb'_append_eq_of_le, BitVec.extractLsb'_append_eq_of_add_le, BitVec.extractLsb'_eq_self,
    Nat.reduceSub, and_self]

/-- The second word of a `bind`. -/
theorem fields_bindTarget {k : BitVec 28} (h : z ++ k = w) :
    fld w 28 4 = z ∧ fld w 0 28 = k := by
  subst h
  simp (disch := decide) only [fld, BitVec.extractLsb'_append_eq_of_le, BitVec.extractLsb'_append_eq_of_add_le, BitVec.extractLsb'_eq_self,
    Nat.reduceSub, and_self]

/-- The third word of a `bind xf`. -/
theorem fields_bindTransform {k : BitVec 24} (h : k ++ u ++ z = w) :
    fld w 8 24 = k ∧ fld w 4 4 = u ∧ fld w 0 4 = z := by
  subst h
  simp (disch := decide) only [fld, BitVec.extractLsb'_append_eq_of_le, BitVec.extractLsb'_append_eq_of_add_le, BitVec.extractLsb'_eq_self,
    Nat.reduceSub, and_self]

/-- The first word of a `watch`. -/
theorem fields_watch {k : BitVec 20} {i j : BitVec 1} (h : m ++ k ++ l ++ o ++ i ++ j ++ p = w) :
    fld w 26 6 = m ∧ fld w 6 20 = k ∧ fld w 5 1 = l ∧ fld w 4 1 = o ∧ fld w 3 1 = i ∧ fld w 2 1 = j ∧ fld w 0 2 = p := by
  subst h
  simp (disch := decide) only [fld, BitVec.extractLsb'_append_eq_of_le, BitVec.extractLsb'_append_eq_of_add_le, BitVec.extractLsb'_eq_self,
    Nat.reduceSub, and_self]

/-- The third word of a `watch`, with the upper half of its base. -/
theorem fields_watchBase {k : BitVec 7} {x : BitVec 25} (h : k ++ x = w) :
    fld w 25 7 = k ∧ fld w 0 25 = x := by
  subst h
  simp (disch := decide) only [fld, BitVec.extractLsb'_append_eq_of_le, BitVec.extractLsb'_append_eq_of_add_le, BitVec.extractLsb'_eq_self,
    Nat.reduceSub, and_self]

/-- The fourth word of a `watch`. -/
theorem fields_watchUnits {k x : BitVec 8} {y : BitVec 16} (h : k ++ x ++ y = w) :
    fld w 24 8 = k ∧ fld w 16 8 = x ∧ fld w 0 16 = y := by
  subst h
  simp (disch := decide) only [fld, BitVec.extractLsb'_append_eq_of_le, BitVec.extractLsb'_append_eq_of_add_le, BitVec.extractLsb'_eq_self,
    Nat.reduceSub, and_self]

end

/-! ### Passage words (R352, R355, R358, R360) -/

/-- The one word of `i` reads as `i` in the passage space. -/
def ReadsBackPassage (i : Instr) : Prop :=
  ∀ w, encode i = some [w] → ∃ m, fld w 26 6 = m ∧ m ≠ 3#6 ∧ m ≠ 8#6 ∧ decodePassageWord w = some (i, 1)

theorem readsBackPassage_plain : ∀ i ∈ [Instr.yield_, .ireload, .done], ReadsBackPassage i := by
  simp only [List.forall_mem_cons, List.not_mem_nil, false_implies, implies_true, and_true]
  and_intros <;> (
    intro w h
    obtain ⟨major, hd, ha, hb, function⟩ := fields_R (word_eq h)
    refine ⟨_, major, by decide, by decide, ?_⟩
    simp [decodePassageWord, major, hd, ha, hb, function])

theorem readsBackPassage_target (k : BitVec 16) : ∀ i ∈ [Instr.jmp k, .fault k], ReadsBackPassage i := by
  simp only [List.forall_mem_cons, List.not_mem_nil, false_implies, implies_true, and_true]
  and_intros <;> (
    intro w h
    obtain ⟨major, ha, hz, hk⟩ := fields_B_call (word_eq h)
    refine ⟨_, major, by decide, by decide, ?_⟩
    simp [decodePassageWord, major, ha, hz, hk])

theorem readsBackPassage_enter (k : BitVec 12) : ReadsBackPassage (.enter k) := by
  intro w h
  obtain ⟨major, hd, hb, hz, hk⟩ := fields_M_store (word_eq h)
  refine ⟨_, major, by decide, by decide, ?_⟩
  simp [decodePassageWord, major, hd, hb, hz, hk]

theorem readsBackPassage_lock (t : Bool) (k : BitVec 12) : ReadsBackPassage (.lock t k) := by
  intro w h
  obtain ⟨major, hd, ha, hz, ht, hk⟩ := fields_lock (word_eq h)
  refine ⟨_, major, by decide, by decide, ?_⟩
  simp [decodePassageWord, major, hd, ha, hz, ht, hk]

theorem readsBackPassage_choose (t : Bool) (g : BitVec 3) (k : BitVec 16) : ReadsBackPassage (.choose t g k) := by
  intro w h
  obtain ⟨major, ht, hg, hp, hz, hk⟩ := fields_choose (word_eq h)
  refine ⟨_, major, by decide, by decide, ?_⟩
  simp [decodePassageWord, major, ht, hg, hp, hz, hk]

theorem readsBackPassage_unwatch (p : BitVec 2) : ReadsBackPassage (.unwatch p) := by
  intro w h
  obtain ⟨major, hd, ha, hb, hx, hp⟩ := fields_unwatch (word_eq h)
  refine ⟨_, major, by decide, by decide, ?_⟩
  simp [decodePassageWord, major, hd, ha, hb, hx, hp]

theorem readsBackPassage_wave (k : BitVec 17) : ReadsBackPassage (.wave k) := by
  intro w h
  obtain ⟨major, hd, hg, hk⟩ := fields_wave (word_eq h)
  refine ⟨_, major, by decide, by decide, ?_⟩
  simp [decodePassageWord, major, hd, hg, hk]

theorem readsBackPassage_quiet (t : Bool) : ReadsBackPassage (.quiet t) := by
  intro w h
  obtain ⟨major, hd, ha, hb, hk, ht⟩ := fields_quiet (word_eq h)
  refine ⟨_, major, by decide, by decide, ?_⟩
  simp [decodePassageWord, major, hd, ha, hb, hk, ht]

theorem readsBackPassage_setp (t : Bool) (g : BitVec 3) : ReadsBackPassage (.setp t g) := by
  intro w h
  obtain ⟨major, hd, ha, hb, hz, ht, hg⟩ := fields_R_atomic (word_eq h)
  refine ⟨_, major, by decide, by decide, ?_⟩
  simp [decodePassageWord, major, hd, ha, hb, hz, ht, hg]

theorem readsBackPassage_waitp (g : BitVec 3) : ReadsBackPassage (.waitp g) := by
  intro w h
  obtain ⟨major, hd, ha, hb, hk, hg⟩ := fields_waitp (word_eq h)
  refine ⟨_, major, by decide, by decide, ?_⟩
  simp [decodePassageWord, major, hd, ha, hb, hk, hg]

theorem readsBackPassage_count (p : BitVec 2) (k : BitVec 20) : ReadsBackPassage (.count p k) := by
  intro w h
  obtain ⟨major, hz, hp, hk⟩ := fields_count (word_eq h)
  refine ⟨_, major, by decide, by decide, ?_⟩
  simp [decodePassageWord, major, hz, hp, hk]

theorem readsBackPassage_decJnz (p : BitVec 2) (k : BitVec 16) : ReadsBackPassage (.decJnz p k) := by
  intro w h
  obtain ⟨major, ha, hz, hp, hk⟩ := fields_B (word_eq h)
  refine ⟨_, major, by decide, by decide, ?_⟩
  simp [decodePassageWord, major, ha, hz, hp, hk]

theorem readsBackPassage_settle (k : BitVec 6) : ReadsBackPassage (.settle k) := by
  intro w h
  obtain ⟨major, hd, ha, hb, hz, hk⟩ := fields_settle (word_eq h)
  refine ⟨_, major, by decide, by decide, ?_⟩
  simp [decodePassageWord, major, hd, ha, hb, hz, hk]

theorem ReadsBackPassage.decodePassage {i : Instr} (back : ReadsBackPassage i) (oneWord : ∃ w, encode i = some [w]) {ws : List W32}
    (rest : List W32) (h : encode i = some ws) (formed : i.wf = true) : decodePassage (ws ++ rest) = some (i, ws.length) := by
  obtain ⟨w, hw⟩ := oneWord
  obtain rfl : [w] = ws := Option.some.inj (hw.symm.trans h)
  obtain ⟨m, major, notBind, notWatch, reads⟩ := back w hw
  simp [Sys2Proof.decodePassage, decodePassageRaw, major, notBind, notWatch, reads, formed]

/-- A well-formed `bind`, decoded from its three words. -/
theorem decodePassage_bind {i : Instr} {c : BitVec 24} {k : BitVec 4} {a : BitVec 28} {x : W32} (rest : List W32) (formed : i.wf = true)
    (reads : ∀ w u, fld w 24 2 = 0#2 → fld w 0 24 = c → fld u 28 4 = k → fld u 0 28 = a → decodeBind w u x = some i) :
    decodePassage ([3#6 ++ 0#2 ++ c, k ++ a, x] ++ rest) = some (i, 3) := by
  generalize first : (3#6 ++ 0#2 ++ c : W32) = w
  generalize second : (k ++ a : W32) = u
  obtain ⟨major, hz, hc⟩ := fields_bind first
  obtain ⟨hk, ha⟩ := fields_bindTarget second
  simp [decodePassage, decodePassageRaw, major, reads w u hz hc hk ha, formed]

/-- A well-formed `watch`, decoded from its four words. -/
theorem decodePassage_watch {p : BitVec 2} {rd wr at_ arg : Bool} {base : BitVec 57} {units : BitVec 16} {mask : BitVec 8} (rest : List W32)
    (formed : (Instr.watch p rd wr at_ arg base units mask).wf = true) :
    decodePassage ([8#6 ++ 0#20 ++ BitVec.ofBool arg ++ BitVec.ofBool at_ ++ BitVec.ofBool wr ++ BitVec.ofBool rd ++ p,
      base.extractLsb' 0 32, 0#7 ++ base.extractLsb' 32 25, 0#8 ++ mask ++ units] ++ rest) =
      some (.watch p rd wr at_ arg base units mask, 4) := by
  generalize first : (8#6 ++ 0#20 ++ BitVec.ofBool arg ++ BitVec.ofBool at_ ++ BitVec.ofBool wr ++ BitVec.ofBool rd ++ p : W32) = w
  generalize third : (0#7 ++ base.extractLsb' 32 25 : W32) = x
  generalize fourth : (0#8 ++ mask ++ units : W32) = y
  obtain ⟨major, hz, harg, hat, hwr, hrd, hp⟩ := fields_watch first
  obtain ⟨hx, upper⟩ := fields_watchBase third
  obtain ⟨hy, hmask, hunits⟩ := fields_watchUnits fourth
  have joined : (base.extractLsb' 32 25 ++ base.extractLsb' 0 32 : BitVec 57) = base :=
    BitVec.extractLsb'_append_extractLsb' (w := 25) (len := 32)
  have reads : decodeWatch w (base.extractLsb' 0 32) x y = some (.watch p rd wr at_ arg base units mask) := by
    simp only [decodeWatch, hz, harg, hat, hwr, hrd, hp, hx, upper, hy, hmask, hunits, joined, ofBool_beq_one]
    rfl
  simp [decodePassage, decodePassageRaw, major, reads, formed]

theorem passageWordsRoundTrip_holds : passageWordsRoundTrip := by
  intro i ws rest h formed passage
  cases i with
  | yield_ | ireload | done => exact (readsBackPassage_plain _ (by simp)).decodePassage ⟨_, rfl⟩ rest h formed
  | jmp k | fault k => exact (readsBackPassage_target k _ (by simp)).decodePassage ⟨_, rfl⟩ rest h formed
  | enter k => exact (readsBackPassage_enter k).decodePassage ⟨_, rfl⟩ rest h formed
  | lock t k => exact (readsBackPassage_lock t k).decodePassage ⟨_, rfl⟩ rest h formed
  | choose t g k => exact (readsBackPassage_choose t g k).decodePassage ⟨_, rfl⟩ rest h formed
  | unwatch p => exact (readsBackPassage_unwatch p).decodePassage ⟨_, rfl⟩ rest h formed
  | wave k => exact (readsBackPassage_wave k).decodePassage ⟨_, rfl⟩ rest h formed
  | quiet t => exact (readsBackPassage_quiet t).decodePassage ⟨_, rfl⟩ rest h formed
  | setp t g => exact (readsBackPassage_setp t g).decodePassage ⟨_, rfl⟩ rest h formed
  | waitp g => exact (readsBackPassage_waitp g).decodePassage ⟨_, rfl⟩ rest h formed
  | count p k => exact (readsBackPassage_count p k).decodePassage ⟨_, rfl⟩ rest h formed
  | decJnz p k => exact (readsBackPassage_decJnz p k).decodePassage ⟨_, rfl⟩ rest h formed
  | settle k => exact (readsBackPassage_settle k).decodePassage ⟨_, rfl⟩ rest h formed
  | bindArg c a x | bindAccs c a x | bindVq c a | bindXfer c a | bindPred c a =>
    cases h
    exact decodePassage_bind rest formed (fun w u hz hc kind ha => by simp [decodeBind, hz, hc, kind, ha])
  | bindXf c x a b =>
    cases h
    refine decodePassage_bind rest formed (fun w u hz hc kind hx => ?_)
    obtain ⟨zero, hb, ha⟩ := fields_bindTransform (k := 0#24) (u := b) (z := a) rfl
    simp only [decodeBind, hz, hc, kind, hx, zero, hb, ha]
    rfl
  | watch p rd wr at_ arg base units mask =>
    cases h
    exact decodePassage_watch rest formed
  | _ => cases passage

/-- Settles O4: major by major the fields of a written word are the operands and the function that the decoder tests for; a `bind` and a
`watch` are read from their further words. -/
theorem wordsRoundTrip : Obligations.WordsRoundTrip := ⟨taskWordsRoundTrip_holds, passageWordsRoundTrip_holds⟩

/-! ### What words decode to (R132, R136) -/

/-- A word of an unassigned major opcode is read as illegal (R136). -/
theorem decodeRaw_unassigned {w : W32} (unassigned : (fld w 26 6).toNat ∈ [0x0C, 0x0D, 0x0E, 0x0F, 0x15, 0x16, 0x17, 0x19, 0x1A, 0x1B, 0x1C, 0x1D,
    0x1E, 0x1F, 0x27, 0x2D, 0x2E, 0x2F, 0x37, 0x3A, 0x3B]) : decodeRaw w = .illegalInstruction w := by
  unfold decodeRaw
  generalize (fld w 26 6).toNat = major at unassigned ⊢
  revert major
  simp

@[simp] theorem decodeTaskWord_wf (w : W32) : (decodeTaskWord w).wf = true := by
  unfold decodeTaskWord
  split
  case isTrue formed => exact formed
  case isFalse => rfl

theorem decodeTaskWord_illFormed {w : W32} (illFormed : (decodeRaw w).wf = false) : decodeTaskWord w = .illegalInstruction w := by
  simp [decodeTaskWord, illFormed]

theorem decodePassage_some {ws : List W32} {i : Instr} {n : Nat} (h : decodePassage ws = some (i, n)) :
    decodePassageRaw ws = some (i, n) ∧ i.wf = true := by
  unfold decodePassage at h
  split at h
  case h_2 => cases h
  case h_1 j k raw =>
    split at h
    case isFalse => cases h
    case isTrue formed => cases h; exact ⟨raw, formed⟩

/-- Settles O5: the decoder puts an illegal instruction in the place of whatever is not well formed, and refuses such a passage instruction. -/
theorem decodedInstructionsWellFormed : Obligations.DecodedInstructionsWellFormed := by
  refine ⟨decodeTaskWord_wf, fun _ => decodeTaskWord_illFormed, fun w unassigned => ?_, fun ws i n h => (decodePassage_some h).2⟩
  have raw : decodeRaw w = .illegalInstruction w := decodeRaw_unassigned unassigned
  rw [decodeTaskWord, raw, ite_self]

/-- Settles O6. -/
theorem writtenWordsDecode : Obligations.WrittenWordsDecode := by
  unfold Obligations.WrittenWordsDecode
  decide

end Sys2Proof

/-! PROOFS. What executing an instruction can come to, and that every step comes to a next state (R134, R135, R352). -/

namespace Sys2Proof.Machine

/-! ### The outcomes of an instruction -/

/-- The outcomes of an instruction that a task processor runs: a next state, or a stop where the node does not stand in the fabric. -/
def TaskOutcome (s : State) (o : Host.Outcome State Fault Refusal) : Prop :=
  (∃ s', o = .next s') ∨ (o = .fault .noTask ∧ s.tasks.get? (key2 s.cur.1 s.cur.2) = none)

/-- The outcomes of an instruction that a lockkeeper runs: a next state, or a stop where its tenure does not exist. -/
def PassageOutcome (s : State) (o : Host.Outcome State Fault Refusal) : Prop :=
  (∃ s', o = .next s') ∨ (o = .fault .noLockkeeper ∧ s.tenures.get? s.cur.1 = none)

theorem taskOutcome_runTask (i : Instr) (w : W32) (len : Nat) (body : TM Unit) (s : State) : TaskOutcome s (runTask i w len body s) := by
  obtain ⟨gone, stops⟩ | ⟨_, goesOn⟩ := runTask_cases i w len body s
  · exact .inr ⟨stops, gone⟩
  · exact .inl goesOn

theorem passageOutcome_runPassage (len : Nat) (f : State → Nat → Tenure → PStep) (s : State) : PassageOutcome s (runPassage len f s) := by
  obtain ⟨gone, stops⟩ | ⟨_, goesOn⟩ := runPassage_cases len f s
  · exact .inr ⟨stops, gone⟩
  · exact .inl goesOn

theorem taskOutcome_ite {s : State} {x y : Host.Outcome State Fault Refusal} (c : Prop) [Decidable c] (hx : TaskOutcome s x)
    (hy : TaskOutcome s y) : TaskOutcome s (if c then x else y) := by
  split
  · exact hx
  · exact hy

theorem taskOutcome_prefix (imm third : W32) (s : State) : TaskOutcome s (execLongImmediatePrefix imm third s) := by
  dsimp only [execLongImmediatePrefix]
  split
  case h_25 => exact taskOutcome_runTask _ _ _ _ _
  all_goals exact taskOutcome_ite _ (taskOutcome_runTask _ _ _ _ _) (taskOutcome_runTask _ _ _ _ _)

/-- Each instruction is an event, which always comes to a next state, an instruction of passage programs, or an instruction of tasks. -/
theorem exec_outcome (i : Instr) (s : State) :
    (Instr.isEvent i = true ∧ ∃ s', exec i s = .next s') ∨ (Instr.isEvent i = false ∧ i.isPassage = true ∧ PassageOutcome s (exec i s)) ∨
      (Instr.isEvent i = false ∧ i.isPassage = false ∧ TaskOutcome s (exec i s)) := by
  cases i with
  | launch | push | pull | signalSet | signalAdd | wait | pausePreferred | pauseForced | resume | kill | queryCapabilities | queryTenure
  | queryCounts | queryGovernor | queryVirtualQueue | arithmeticFiring | controlTokenFiring | nullFiring | convert | mxPack | mxUnpack
  | fork | steer | filter | merge | nullMerge | fairMerge | sequenceTag | reorder | tap | combineSend | compareExchange | loopExitDrain
  | constantSource | sink | repeat_ | bankStream | globalStream | globalGather | generatorCompletion | weightColumn | activationRow
  | rowFiring | mmDrain | mmClear | nullRow | matrixControlToken | sort | functionLevelReset | linkDown | undervoltage | readStatus
  | powerCycleRequest | getVersion | getCapabilities | negotiateAlgorithms | getDigests | confirmingReadCompletion => exact .inl ⟨rfl, _, rfl⟩
  | kickTailWrite | cplHeadWrite | completionWrite | waitSatisfied | waitTimeout | mboxDoorWrite | createQueue | destroyQueue
  | registerWrite | pwrBudgetWrite | governorTick | candidateAttempt | loadCommit | codePageResolved | planeGrant | drainComplete
  | drainTimeout | zeroingComplete | reserveSubtree | releaseSubtree | replyExpiry | replyArrival | recordVisible | vqAgentMove
  | vqAgentAppend | activationStart | nullTrigger | loadReply | storePerformed | translationRefill | priResponse | osPageResponse
  | atsInvalidation | transferRequestRecord | lighterRequest | lighterComplete | transformRow | accumulateStreamRecord | accumulateArrival
  | flushDelivery | refusalReply | residualAgeExpiry | acceptanceIntervalEnd | atomicPerform | atomicReply | controllerPermit
  | controllerDone | gateArrival | gatePermit | gateTimeout | contributionArrival | combineTimeout | wavePeriod | wavePass
  | predicateRecord | segmentBoundarySwitch | segmaxExpiry | pauseComplete | faultRecordArrival | holdTimeout | processMigration
  | pcieRetrain | ethernetPortDown | flitReceive | retrainComplete | powerGood | hbmTrainingComplete | selfTestComplete | thermalTrip
  | counterRaise | setBudget | getCertificate | challenge | getMeasurements | accumulateAcknowledgement | virtualQueueAssign
  | regionReclaim | replacementFallback | migrationReceive | ethernetPortUp | bridgedRecordArrival | mctpControlMessage | correctableError =>
    refine .inl ⟨rfl, ?_⟩
    simp only [exec,
      execKickTailWrite, execCplHeadWrite, execCompletionWrite, execWaitSatisfied, execWaitTimeout, execMboxDoorWrite, execCreateQueue,
      execDestroyQueue, execRegisterWrite, execPwrBudgetWrite, execGovernorTick, execCandidateAttempt, execLoadCommit, execCodePageResolved,
      execPlaneGrant, execDrainComplete, execDrainTimeout, execZeroingComplete, execReserveSubtree, execReleaseSubtree, execReplyExpiry,
      execReplyArrival, execRecordVisible, execVqAgentMove, execVqAgentAppend, execActivationStart, execNullTrigger, execLoadReply,
      execStorePerformed, execTranslationRefill, execPriResponse, execOsPageResponse, execAtsInvalidation, execTransferRequestRecord,
      execLighterRequest, execLighterComplete, execTransformRow, execAccumulateStreamRecord, execAccumulateArrival, execFlushDelivery,
      execRefusalReply, execResidualAgeExpiry, execAcceptanceIntervalEnd, execAtomicPerform, execAtomicReply, execControllerPermit,
      execControllerDone, execGateArrival, execGatePermit, execGateTimeout, execContributionArrival, execCombineTimeout, execWavePeriod,
      execWavePass, execPredicateRecord, execSegmentBoundarySwitch, execSegmaxExpiry, execPauseComplete, execFaultRecordArrival, execHoldTimeout,
      execProcessMigration, execPcieRetrain, execEthernetPortDown, execFlitReceive, execRetrainComplete, execPowerGood, execHbmTrainingComplete,
      execSelfTestComplete, execThermalTrip, execCounterRaise, execSetBudget, execGetCertificate, execChallenge, execGetMeasurements,
      execAccumulateAcknowledgement, execVirtualQueueAssign, execRegionReclaim, execReplacementFallback, execMigrationReceive,
      execEthernetPortUp, execBridgedRecordArrival, execMctpControlMessage, execCorrectableError]
    split <;> exact ⟨_, rfl⟩
  | enter | lock | bindArg | bindVq | bindXfer | bindAccs | bindXf | bindPred | choose | jmp | yield_ | ireload | watch | unwatch | fault
  | done | wave | quiet | setp | waitp | count | decJnz | settle =>
    refine .inr (.inl ⟨rfl, rfl, ?_⟩)
    simp only [exec, execEnter, execLock, execBindArg, execBindVq, execBindXfer, execBindAccs, execBindXf, execBindPred, execChoose, execJmp,
      execYield_, execIreload, execWatch, execUnwatch, execFault, execDone, execWave, execQuiet, execSetp, execWaitp, execCount, execDecJnz,
      execSettle]
    exact passageOutcome_runPassage _ _ _
  | longImmediatePrefix imm third => exact .inr (.inr ⟨rfl, rfl, taskOutcome_prefix imm third s⟩)
  | _ => exact .inr (.inr ⟨rfl, rfl, taskOutcome_runTask _ _ _ _ _⟩)

theorem instructionsAnswer_holds : instructionsAnswer := by
  intro i s
  obtain ⟨_, goesOn⟩ | ⟨_, _, goesOn | stops⟩ | ⟨_, _, goesOn | stops⟩ := exec_outcome i s
  · exact .inl goesOn
  · exact .inl goesOn
  · exact .inr (.inr stops)
  · exact .inl goesOn
  · exact .inr (.inl stops)

/-! ### What a passage program holds (R355) -/

theorem decodePassageWord_isPassage {w : W32} {i : Instr} {n : Nat} (h : decodePassageWord w = some (i, n)) : i.isPassage = true := by
  unfold decodePassageWord at h
  split at h
  case h_17 => cases h
  all_goals
    obtain ⟨_, same⟩ := Option.ite_none_right_eq_some.mp h
    cases same
    rfl

theorem decodeBind_isPassage {w u x : W32} {i : Instr} (h : decodeBind w u x = some i) : i.isPassage = true := by
  unfold decodeBind at h
  obtain ⟨_, h⟩ := Option.ite_none_right_eq_some.mp h
  split at h
  case h_1 | h_4 => cases h; rfl
  case h_7 => cases h
  all_goals
    obtain ⟨_, same⟩ := Option.ite_none_right_eq_some.mp h
    cases same
    rfl

theorem decodeWatch_isPassage {w u x y : W32} {i : Instr} (h : decodeWatch w u x y = some i) : i.isPassage = true := by
  obtain ⟨_, same⟩ := Option.ite_none_right_eq_some.mp h
  cases same
  rfl

theorem decodePassageRaw_isPassage {ws : List W32} {i : Instr} {n : Nat} (h : decodePassageRaw ws = some (i, n)) : i.isPassage = true := by
  cases ws with
  | nil => cases h
  | cons w ws =>
    dsimp only [decodePassageRaw] at h
    by_cases bind : fld w 26 6 = 3
    case pos =>
      rw [if_pos bind] at h
      split at h
      case h_2 => cases h
      case h_1 =>
        obtain ⟨j, reads, same⟩ := Option.map_eq_some_iff.mp h
        cases same
        exact decodeBind_isPassage reads
    case neg =>
      rw [if_neg bind] at h
      by_cases watch : fld w 26 6 = 8
      case neg => exact decodePassageWord_isPassage (by rwa [if_neg watch] at h)
      case pos =>
        rw [if_pos watch] at h
        split at h
        case h_2 => cases h
        case h_1 =>
          obtain ⟨j, reads, same⟩ := Option.map_eq_some_iff.mp h
          cases same
          exact decodeWatch_isPassage reads

/-! ### Issuing (R134, R135, R352) -/

section
variable {s : State} {t : Nat}

theorem issueTask_issues {n : Nat} {tk : TaskRt} (node : s.tasks.get? (key2 t n) = some tk) (issues : mayIssue s t tk = true) :
    issueTask t n s = exec (fetchTask tk) { s with cur := (t, n) } := by
  simp only [issueTask, node, issues, if_true]

theorem issueTask_stays {n : Nat} (stays : ∀ tk, s.tasks.get? (key2 t n) = some tk → mayIssue s t tk = false) : issueTask t n s = .next s := by
  unfold issueTask
  split
  case h_1 tk node => rw [stays tk node]; rfl
  case h_2 => rfl

theorem mayIssue_tenure {tk : TaskRt} (issues : mayIssue s t tk = true) : s.tenures.get? t ≠ none := by
  intro gone
  simp [mayIssue, gone] at issues

theorem issuePassage_issues {tn : Tenure} {i : Instr} {len : Nat} (tenure : s.tenures.get? t = some tn) (passes : mayPass s tn = true)
    (fetched : decodePassage (tn.g.passage.drop tn.lk.lpc.toNat) = some (i, len)) : issuePassage t s = exec i { s with cur := (t, 0) } := by
  simp only [issuePassage, tenure, passes, fetched, if_true]

end

/-! ### Every step comes to a next state -/

theorem exec_event {i : Instr} (event : Instr.isEvent i = true) (s : State) : ∃ s', exec i s = .next s' := by
  obtain ⟨_, goesOn⟩ | ⟨noEvent, _⟩ | ⟨noEvent, _⟩ := exec_outcome i s
  · exact goesOn
  · exact absurd event (by simp [noEvent])
  · exact absurd event (by simp [noEvent])

theorem exec_passage {i : Instr} (passage : i.isPassage = true) (s : State) : (∃ s', exec i s = .next s') ∨ s.tenures.get? s.cur.1 = none := by
  obtain ⟨_, goesOn⟩ | ⟨_, _, goesOn | ⟨_, gone⟩⟩ | ⟨_, task, _⟩ := exec_outcome i s
  · exact .inl goesOn
  · exact .inl goesOn
  · exact .inr gone
  · exact absurd passage (by simp [task])

theorem issueTask_next (t n : Nat) (s : State) : ∃ s', issueTask t n s = .next s' := by
  by_cases stays : ∀ tk, s.tasks.get? (key2 t n) = some tk → mayIssue s t tk = false
  case pos => exact ⟨s, issueTask_stays stays⟩
  case neg =>
    push Not at stays
    obtain ⟨tk, node, issues⟩ := stays
    have issues : mayIssue s t tk = true := by simpa using issues
    rw [issueTask_issues node issues]
    obtain goesOn | ⟨_, gone⟩ | ⟨_, gone⟩ := instructionsAnswer_holds (fetchTask tk) { s with cur := (t, n) }
    · exact goesOn
    · exact absurd (node.symm.trans gone) (Option.some_ne_none tk)
    · exact absurd gone (mayIssue_tenure (s := s) issues)

theorem issuePassage_next (t : Nat) (s : State) : ∃ s', issuePassage t s = .next s' := by
  unfold issuePassage
  split
  case h_2 => exact ⟨s, rfl⟩
  case h_1 tn tenure =>
    split
    case isFalse => exact ⟨s, rfl⟩
    case isTrue =>
      split
      case h_2 => exact ⟨_, rfl⟩
      case h_1 i len fetched =>
        have passage : i.isPassage = true := decodePassageRaw_isPassage (decodePassage_some fetched).1
        obtain goesOn | gone := exec_passage passage { s with cur := (t, 0) }
        · exact goesOn
        · exact absurd (tenure.symm.trans gone) (Option.some_ne_none tn)

theorem machineNeverStops_holds : machineNeverStops := by
  intro s
  unfold step
  split
  case h_1 => exact ⟨_, rfl⟩
  case h_2 turn rest _ =>
    cases turn with
    | issue t n => exact issueTask_next t n _
    | passage t => exact issuePassage_next t _
    | event i x =>
      dsimp only
      split
      case isTrue event => exact exec_event event _
      case isFalse => exact ⟨_, rfl⟩
    | _ => exact ⟨_, rfl⟩

/-- Settles O7: what is fetched for a task is never stopped, since a turn that issues has found its node and its tenure, and what is fetched for
a lockkeeper belongs to the passage space, whose instructions stop only without a tenure. -/
theorem instructionsNeverRefused : Obligations.InstructionsNeverRefused := ⟨instructionsAnswer_holds, machineNeverStops_holds⟩

/-! ### What a step runs -/

theorem step_issue {s : State} {t n : Nat} {rest : List Turn} {tk : TaskRt} (turn : s.agenda = .issue t n :: rest)
    (node : s.tasks.get? (key2 t n) = some tk) (issues : mayIssue { s with agenda := rest } t tk = true) :
    step s = exec (fetchTask tk) { s with agenda := rest, cur := (t, n) } := by
  simp only [step, turn]
  exact issueTask_issues node issues

theorem fetchTask_decoded {tk : TaskRt} {i : Instr} {len : Nat} (inside : 0 ≤ tk.pc)
    (decoded : decodeTask (tk.code.drop tk.pc.toNat) = some (i, len)) : fetchTask tk = i := by
  simp only [fetchTask, if_neg (not_lt.mpr inside), decoded]

theorem fetchTask_pastEnd {tk : TaskRt} (inside : 0 ≤ tk.pc) (short : decodeTask (tk.code.drop tk.pc.toNat) = none) :
    fetchTask tk = .codeRangeFetch (tk.pc + (tk.code.drop tk.pc.toNat).length) := by
  simp only [fetchTask, if_neg (not_lt.mpr inside), short]

theorem fetchTask_beforeStart {tk : TaskRt} (before : tk.pc < 0) : fetchTask tk = .codeRangeFetch tk.pc := by
  simp only [fetchTask, if_pos before]

/-- Settles O3: a turn of a task comes to the instruction that is fetched, and the fetch to the words at the PC, or to CODE_RANGE. -/
theorem stepRunsDecodedInstruction : Obligations.StepRunsDecodedInstruction := by
  refine ⟨?decoded, ?pastEnd, ?beforeStart, ?passage, ?event, ?time⟩
  case decoded =>
    intro s t n rest tk i len turn node issues inside decoded
    rw [step_issue turn node issues, fetchTask_decoded inside decoded]
  case pastEnd =>
    intro s t n rest tk turn node issues inside short
    rw [step_issue turn node issues, fetchTask_pastEnd inside short]
  case beforeStart =>
    intro s t n rest tk turn node issues before
    rw [step_issue turn node issues, fetchTask_beforeStart before]
  case passage =>
    intro s t rest tn i len turn tenure passes fetched
    simp only [step, turn]
    exact issuePassage_issues tenure passes fetched
  case event =>
    intro s i x rest turn event
    simp only [step, turn, event, if_true]
  case time =>
    intro s turn
    simp only [step, turn]

end Sys2Proof.Machine

/-! PROOFS. Registers as operands: reading and writing those of classes G, A and V (R133). -/

namespace Sys2Proof.Machine

section
variable {c : TCtx} {o : Opnd}

theorem usable.useReg (h : usable c o) : useReg o c = .ok ((), c) := useReg_ok h.1 h.2

theorem read64_g {r : Fin 16} (h : usable c (.g r)) : read64 (.g r) c = .ok (c.tk.g[r].signExtend 64, c) := by
  dsimp only [read64]
  rw [tm_bind_ok h.useReg]
  rfl

theorem read64_a {r : Fin 8} (h : usable c (.a r)) : read64 (.a r) c = .ok (c.tk.a[r], c) := by
  dsimp only [read64]
  rw [tm_bind_ok h.useReg]
  rfl

theorem read64_v {r : Fin 8} (h : usable c (.v r)) : read64 (.v r) c = .ok (c.tk.v[r], c) := by
  dsimp only [read64]
  rw [tm_bind_ok h.useReg]
  rfl

theorem read32_g {r : Fin 16} (h : usable c (.g r)) : read32 (.g r) c = .ok (c.tk.g[r], c) := by
  dsimp only [read32]
  rw [tm_bind_ok h.useReg]
  rfl

theorem read32_a {r : Fin 8} (h : usable c (.a r)) : read32 (.a r) c = .ok (c.tk.a[r].extractLsb' 0 32, c) := by
  dsimp only [read32]
  rw [tm_bind_ok h.useReg, ← BitVec.setWidth_eq_extractLsb' (by decide)]
  rfl

theorem read32_v {r : Fin 8} (h : usable c (.v r)) : read32 (.v r) c = .ok (c.tk.v[r].extractLsb' 0 32, c) := by
  dsimp only [read32]
  rw [tm_bind_ok h.useReg, ← BitVec.setWidth_eq_extractLsb' (by decide)]
  rfl

theorem registerSourceRead_holds : registerSourceRead := fun _ =>
  ⟨fun _ free => ⟨read32_g free, read64_g free⟩, fun _ free => ⟨read32_a free, read64_a free⟩,
    fun _ free => ⟨read32_v free, read64_v free⟩⟩

theorem write64_g {r : Fin 16} (h : usable c (.g r)) (x : W64) :
    write64 (.g r) x c = .ok ((), { c with tk := { c.tk with g := c.tk.g.set r (x.extractLsb' 0 32) } }) := by
  dsimp only [write64]
  rw [tm_bind_ok h.useReg, ← BitVec.setWidth_eq_extractLsb' (by decide)]
  rfl

theorem write64_a {r : Fin 8} (h : usable c (.a r)) (x : W64) :
    write64 (.a r) x c = .ok ((), { c with tk := { c.tk with a := c.tk.a.set r x } }) := by
  dsimp only [write64]
  rw [tm_bind_ok h.useReg]
  rfl

theorem write64_v {r : Fin 8} (h : usable c (.v r)) (x : W64) :
    write64 (.v r) x c = .ok ((), { c with tk := { c.tk with v := c.tk.v.set r x } }) := by
  dsimp only [write64]
  rw [tm_bind_ok h.useReg]
  rfl

/-- A G register keeps the 32 bits that were extended for it. -/
theorem write32_g {r : Fin 16} (h : usable c (.g r)) (y : W32) :
    write32 (.g r) y c = .ok ((), { c with tk := { c.tk with g := c.tk.g.set r y } }) := by
  have low : (y.signExtend 64).extractLsb' 0 32 = y := by
    ext i hi
    rw [BitVec.getElem_extractLsb', Nat.zero_add, BitVec.getLsbD_signExtend, if_pos hi, BitVec.getLsbD_eq_getElem hi,
      decide_eq_true (hi.trans (by decide)), Bool.true_and]
  unfold write32
  rw [write64_g h, low]

theorem registerResultWrite_holds : registerResultWrite := fun _ x y =>
  ⟨fun _ free => ⟨write64_g free x, write32_g free y⟩, fun _ free => ⟨write64_a free x, write64_a free _⟩,
    fun _ free => ⟨write64_v free x, write64_v free _⟩⟩

end

/-- Settles O9, register class by register class. -/
theorem registerOperands : Obligations.RegisterOperands := ⟨registerSourceRead_holds, registerResultWrite_holds⟩

end Sys2Proof.Machine

/-! PROOFS. Results of the compares and of the predicate instructions, and a predicate destination of 0 (R132, R157, R158, R164, R165, R168). -/

namespace Sys2Proof.Machine

/-! ### Predicates read and written (R157, R158) -/

theorem readPred_ok (p : Fin 4) (c : TCtx) : readPred p c = .ok (predValue c p, c) := by
  unfold readPred predValue
  split
  · rfl
  · rw [tm_bind_ok (getTk_run c)]; rfl

theorem writePred_ok {p : Fin 4} (writable : p ≠ 0) (x : BitVec 4) (c : TCtx) : writePred p x c = .ok ((), withPred c p x) := by
  unfold writePred
  rw [if_neg writable]
  rfl

section
variable {p : Fin 4} {a b : Opnd} {c c1 c2 : TCtx}

theorem compare2_ok {f : W32 → W32 → Bool} {x y : W32} (writable : p ≠ 0) (ha : read32 a c = .ok (x, c1)) (hb : read32 b c1 = .ok (y, c2)) :
    compare2 f p a b c = .ok ((), withPred c2 p (if f x y then 0b1111#4 else 0#4)) := by
  unfold compare2
  rw [tm_bind_ok ha, tm_bind_ok hb]
  exact writePred_ok writable _ c2

theorem compareA_ok {f : W64 → W64 → Bool} {x y : W64} (writable : p ≠ 0) (ha : read64 a c = .ok (x, c1)) (hb : read64 b c1 = .ok (y, c2)) :
    compareA f p a b c = .ok ((), withPred c2 p (if f x y then 0b1111#4 else 0#4)) := by
  unfold compareA
  rw [tm_bind_ok ha, tm_bind_ok hb]
  exact writePred_ok writable _ c2

theorem pred2_ok (f : BitVec 4 → BitVec 4 → BitVec 4) (writable : p ≠ 0) (q r : Fin 4) (c : TCtx) :
    pred2 f p q r c = .ok ((), withPred c p (f (predValue c q) (predValue c r))) := by
  unfold pred2
  rw [tm_bind_ok (readPred_ok q c), tm_bind_ok (readPred_ok r c)]
  exact writePred_ok writable _ c

end

/-! ### Predicate 0 is no destination (R132) -/

theorem compare_zero_wf (a b : Opnd) : ∀ e ∈ compareRules, (e.1 0 a b).wf = false := by
  simp only [compareRules, List.forall_mem_cons, List.not_mem_nil, false_implies, implies_true, and_true]
  and_intros <;> rfl

theorem compareAddress_zero_wf (a b : Opnd) : ∀ e ∈ compareAddressRules, (e.1 0 a b).wf = false := by
  simp only [compareAddressRules, List.forall_mem_cons, List.not_mem_nil, false_implies, implies_true, and_true]
  and_intros <;> rfl

theorem predicates_zero_wf (q r : Fin 4) : ∀ e ∈ predicateRules, (e.1 0 q r).wf = false := by
  simp only [predicateRules, List.forall_mem_cons, List.not_mem_nil, false_implies, implies_true, and_true]
  and_intros <;> rfl

theorem pset_zero_wf (a : Opnd) : (Instr.pset 0 a).wf = false := rfl

theorem cmpr2of4_zero_wf (d a : Opnd) (f : VFmt) : (Instr.cmpr2of4 d a 0 f).wf = false := by
  simp [Instr.wf]

theorem predicateZeroIllegal_holds : predicateZeroIllegal := by
  have illegal {i : Instr} {w : W32} (ill : i.wf = false) : i.wf = false ∧ (decodeRaw w = i → decodeTaskWord w = .illegalInstruction w) :=
    ⟨ill, fun h => decodeTaskWord_illFormed (h ▸ ill)⟩
  exact ⟨fun e he _ a b => illegal (compare_zero_wf a b e he), fun e he _ a b => illegal (compareAddress_zero_wf a b e he),
    fun e he _ q r => illegal (predicates_zero_wf q r e he), fun _ a => illegal (pset_zero_wf a),
    fun _ d a f => illegal (cmpr2of4_zero_wf d a f)⟩

/-! ### Results -/

/-- A formed instruction has another destination than predicate 0. -/
theorem ne_zero_of_formed {p : Fin 4} (form : Fin 4 → Instr) (ill : (form 0).wf = false) (formed : (form p).wf = true) : p ≠ 0 := by
  rintro rfl
  exact Bool.false_ne_true (ill.symm.trans formed)

section
variable {i : Instr} {p : Fin 4} {a b : Opnd} {s : State} {c c1 c2 : TCtx}

theorem compare2_completes {f : W32 → W32 → Bool} {x y : W32} {z : Bool} (runs : exec i s = run1 i (compare2 f p a b) s) (writable : p ≠ 0)
    (start : Starts i 1 s c) (ha : read32 a c = .ok (x, c1)) (hb : read32 b c1 = .ok (y, c2)) (condition : f x y = z) :
    exec i s = .next (completed s (withPred c2 p (if z then 0b1111#4 else 0#4))) := by
  rw [runs, run1, runTask_done start _ (compare2_ok writable ha hb), condition]

theorem compareA_completes {f : W64 → W64 → Bool} {x y : W64} {z : Bool} (runs : exec i s = run1 i (compareA f p a b) s) (writable : p ≠ 0)
    (start : Starts i 1 s c) (ha : read64 a c = .ok (x, c1)) (hb : read64 b c1 = .ok (y, c2)) (condition : f x y = z) :
    exec i s = .next (completed s (withPred c2 p (if z then 0b1111#4 else 0#4))) := by
  rw [runs, run1, runTask_done start _ (compareA_ok writable ha hb), condition]

theorem pred2_completes {f : BitVec 4 → BitVec 4 → BitVec 4} {q r : Fin 4} (runs : exec i s = run1 i (pred2 f p q r) s) (writable : p ≠ 0)
    (start : Starts i 1 s c) : exec i s = .next (completed s (withPred c p (f (predValue c q) (predValue c r)))) := by
  rw [runs, run1, runTask_done start _ (pred2_ok f writable q r c)]

end

theorem not_ult_eq {n : Nat} (x y : BitVec n) : (!x.ult y) = decide (y.toNat ≤ x.toNat) := by
  rw [BitVec.ult_eq_decide, ← decide_not]
  simp only [not_lt]

theorem not_slt_eq {n : Nat} (x y : BitVec n) : (!x.slt y) = decide (y.toInt ≤ x.toInt) := by
  rw [BitVec.slt_eq_decide, ← decide_not]
  simp only [not_lt]

theorem compareResult_holds : compareResult := by
  refine ⟨fun e he p a b s c c1 c2 x y start ha hb => ?words, fun e he p a b s c c1 c2 x y start ha hb => ?addresses⟩
  case words =>
    have writable := ne_zero_of_formed (e.1 · a b) (compare_zero_wf a b e he) start.formed
    revert e
    simp only [compareRules, List.forall_mem_cons, List.not_mem_nil, false_implies, implies_true, and_true]
    refine ⟨?eq, ?ne, ?lts, ?ltz, ?ges, ?gez⟩ <;> intro start
    case eq => exact compare2_completes rfl writable start ha hb (beq_eq_decide x y)
    case ne => exact compare2_completes rfl writable start ha hb (by simp [bne, beq_eq_decide])
    case lts => exact compare2_completes rfl writable start ha hb (BitVec.slt_eq_decide)
    case ltz => exact compare2_completes rfl writable start ha hb (BitVec.ult_eq_decide)
    case ges => exact compare2_completes rfl writable start ha hb (not_slt_eq x y)
    case gez => exact compare2_completes rfl writable start ha hb (not_ult_eq x y)
  case addresses =>
    have writable := ne_zero_of_formed (e.1 · a b) (compareAddress_zero_wf a b e he) start.formed
    revert e
    simp only [compareAddressRules, List.forall_mem_cons, List.not_mem_nil, false_implies, implies_true, and_true]
    refine ⟨?addrEq, ?addrLtz⟩ <;> intro start
    case addrEq => exact compareA_completes rfl writable start ha hb (beq_eq_decide x y)
    case addrLtz => exact compareA_completes rfl writable start ha hb (BitVec.ult_eq_decide)

theorem pset_completes {p : Fin 4} {a : Opnd} {s : State} {c c1 : TCtx} {x : W32} (start : Starts (.pset p a) 1 s c)
    (ha : read32 a c = .ok (x, c1)) : exec (.pset p a) s = .next (completed s (withPred c1 p (x.extractLsb' 0 4))) := by
  have writable := ne_zero_of_formed (.pset · a) (pset_zero_wf a) start.formed
  refine runTask_done start _ ?_
  rw [tm_bind_ok ha, ← BitVec.setWidth_eq_extractLsb' (by decide)]
  exact writePred_ok writable _ c1

theorem pget_completes {d : Opnd} {q : Fin 4} {s : State} {c c1 : TCtx} (start : Starts (.pget d q) 1 s c)
    (hd : write32 d ((predValue c q).setWidth 32) c = .ok ((), c1)) : exec (.pget d q) s = .next (completed s c1) := by
  refine runTask_done start _ ?_
  rw [tm_bind_ok (readPred_ok q c)]
  exact hd

theorem predicateResult_holds : predicateResult := by
  refine ⟨fun e he p q r s c start => ?_, fun _ _ _ _ _ _ start ha => pset_completes start ha, fun _ _ _ _ _ start hd => pget_completes start hd⟩
  have writable := ne_zero_of_formed (e.1 · q r) (predicates_zero_wf q r e he) start.formed
  revert e
  simp only [predicateRules, List.forall_mem_cons, List.not_mem_nil, false_implies, implies_true, and_true]
  refine ⟨?and, ?or, ?xor, ?andn⟩ <;> intro start
  case and => exact pred2_completes (f := (· &&& ·)) rfl writable start
  case or => exact pred2_completes (f := (· ||| ·)) rfl writable start
  case xor => exact pred2_completes (f := (· ^^^ ·)) rfl writable start
  case andn => exact pred2_completes (f := (· &&& ~~~·)) rfl writable start

/-- Settles O13: each instruction's condition or operation is that of its rule, and no form with predicate 0 as its destination is well formed. -/
theorem compareAndPredicateResult : Obligations.CompareAndPredicateResult :=
  ⟨compareResult_holds, predicateResult_holds, predicateZeroIllegal_holds⟩

end Sys2Proof.Machine

/-! PROOFS. Groups of three words with a 32-bit immediate: what their third word does with it (R134). -/

namespace Sys2Proof.Machine

/-! ### What a group runs -/

/-- The forms that take the immediate of a group, the system registers apart, each with its effect (R134). -/
inductive GroupRuns (imm : W32) : Instr → TM Unit → Prop
  | addiW (d a : Opnd) : GroupRuns imm (.addiW d a 0) (bodyAddiW d a imm)
  | andiW (d a : Opnd) : GroupRuns imm (.andiW d a 0) (bodyAndiW d a imm)
  | oriW (d a : Opnd) : GroupRuns imm (.oriW d a 0) (bodyOriW d a imm)
  | xoriW (d a : Opnd) : GroupRuns imm (.xoriW d a 0) (bodyXoriW d a imm)
  | addiA (d a : Opnd) : GroupRuns imm (.addiA d a 0) (bodyAddiA d a (imm.signExtend 64))
  | ldS8 (d b : Opnd) : GroupRuns imm (.ldS8 d b 0) (bodyLd true 1 d b imm.toInt)
  | ldZ8 (d b : Opnd) : GroupRuns imm (.ldZ8 d b 0) (bodyLd false 1 d b imm.toInt)
  | ldS16 (d b : Opnd) : GroupRuns imm (.ldS16 d b 0) (bodyLd true 2 d b imm.toInt)
  | ldZ16 (d b : Opnd) : GroupRuns imm (.ldZ16 d b 0) (bodyLd false 2 d b imm.toInt)
  | ldW (d b : Opnd) : GroupRuns imm (.ldW d b 0) (bodyLd false 4 d b imm.toInt)
  | ldD (d b : Opnd) : GroupRuns imm (.ldD d b 0) (bodyLdD d b imm.toInt)
  | liW (d : Opnd) : GroupRuns imm (.liW d 0) (write32 d imm)
  | luiW (d : Opnd) : GroupRuns imm (.luiW d 0) (write32 d (imm <<< 12))
  | br (p : Fin 4) : GroupRuns imm (.br p 0) (branch true p (pure true) imm.toInt)
  | brz (a : Opnd) (p : Fin 4) : GroupRuns imm (.brz a p 0) (branch true p (condOn condZero a) imm.toInt)
  | brnz (a : Opnd) (p : Fin 4) : GroupRuns imm (.brnz a p 0) (branch true p (condOn condNonzero a) imm.toInt)
  | brneg (a : Opnd) (p : Fin 4) : GroupRuns imm (.brneg a p 0) (branch true p (condOn condNeg a) imm.toInt)
  | brNp (p : Fin 4) : GroupRuns imm (.brNp p 0) (branch false p (pure true) imm.toInt)
  | brzNp (a : Opnd) (p : Fin 4) : GroupRuns imm (.brzNp a p 0) (branch false p (condOn condZero a) imm.toInt)
  | brnzNp (a : Opnd) (p : Fin 4) : GroupRuns imm (.brnzNp a p 0) (branch false p (condOn condNonzero a) imm.toInt)
  | brnegNp (a : Opnd) (p : Fin 4) : GroupRuns imm (.brnegNp a p 0) (branch false p (condOn condNeg a) imm.toInt)
  | call : GroupRuns imm (.call 0) (bodyCall 3 imm.toInt)

section
variable {imm third : W32} {s : State}

theorem GroupRuns.exec_eq {i : Instr} {body : TM Unit} (h : GroupRuns imm i body) (third_eq : decodeTaskWord third = i) :
    exec (.longImmediatePrefix imm third) s = runTask i third 3 body s := by
  change execLongImmediatePrefix imm third s = _
  unfold execLongImmediatePrefix
  cases h <;> rw [third_eq] <;> rfl

theorem GroupRuns.completes {i : Instr} {body : TM Unit} {c c' : TCtx} (h : GroupRuns imm i body) (third_eq : decodeTaskWord third = i)
    (start : Starts i 3 s c) (done : body c = .ok ((), c')) : exec (.longImmediatePrefix imm third) s = .next (completed s c') := by
  rw [h.exec_eq third_eq, runTask_done start third done]

theorem GroupRuns.traps {i : Instr} {body : TM Unit} {c : TCtx} {code : Nat} {arg : W64} (h : GroupRuns imm i body)
    (third_eq : decodeTaskWord third = i) (start : Starts i 3 s c) (fault : body c = .error (.trap code arg)) :
    exec (.longImmediatePrefix imm third) s = .next (takeTrap s s.cur.1 s.cur.2 c.tk code arg c.tk.pc) := by
  rw [h.exec_eq third_eq, runTask_trap start third fault]

theorem group_sysr {d : Opnd} (h : decodeTaskWord third = .sysr d 0) (number : imm.toNat < 2 ^ 20) :
    exec (.longImmediatePrefix imm third) s = runTask (.sysr d (imm.truncate 20)) third 3 (bodySysr d imm.toNat) s := by
  change execLongImmediatePrefix imm third s = _
  unfold execLongImmediatePrefix
  rw [h]
  exact if_pos ⟨rfl, number⟩

theorem group_sysw {d : Opnd} (h : decodeTaskWord third = .sysw d 0) (number : imm.toNat < 2 ^ 20) :
    exec (.longImmediatePrefix imm third) s = runTask (.sysw d (imm.truncate 20)) third 3 (bodySysw d imm.toNat) s := by
  change execLongImmediatePrefix imm third s = _
  unfold execLongImmediatePrefix
  rw [h]
  exact if_pos ⟨rfl, number⟩

/-- A number of more than 20 bits names no system register. -/
theorem group_wideNumber {d : Opnd} (h : decodeTaskWord third = .sysr d 0 ∨ decodeTaskWord third = .sysw d 0) (wide : 2 ^ 20 ≤ imm.toNat) :
    exec (.longImmediatePrefix imm third) s = illegalGroup third s := by
  have refused : ¬ ((0 : BitVec 20) = 0 ∧ imm.toNat < 1048576) := fun own => absurd own.2 (not_lt.mpr wide)
  change execLongImmediatePrefix imm third s = _
  unfold execLongImmediatePrefix
  obtain h | h := h <;> rw [h] <;> exact if_neg refused

/-- Where the third word takes no immediate, or has one of its own, nothing of the group is performed. -/
theorem group_takesNone (h : takesPrefix (decodeTaskWord third) = false) : exec (.longImmediatePrefix imm third) s = illegalGroup third s := by
  change execLongImmediatePrefix imm third s = _
  unfold execLongImmediatePrefix
  generalize decodeTaskWord third = i at h
  dsimp only
  split
  case h_25 => rfl
  case h_14 | h_15 =>
    simp only [takesPrefix, beq_eq_false_iff_ne] at h
    exact if_neg (fun own => h own.1)
  all_goals
    simp only [takesPrefix, beq_eq_false_iff_ne] at h
    exact if_neg h

end

/-! ### Groups that compute, and those that write a constant -/

theorem prefixedResult_holds : prefixedResult := by
  refine ⟨fun e he d a imm third s c c1 c2 x decoded start ha hd => ?compute, fun d a imm third s c c1 c2 x decoded start ha hd => ?address,
    fun d imm third s c c1 decoded start hd => (GroupRuns.liW d).completes decoded start hd,
    fun d imm third s c c1 decoded start hd => (GroupRuns.luiW d).completes decoded start hd⟩
  case compute =>
    have runs : GroupRuns imm (e.1 d a 0) (scalar1 (fun x => e.2 x imm) d a) := by
      clear decoded start hd
      revert e
      simp only [prefixedRules, List.forall_mem_cons, List.not_mem_nil, false_implies, implies_true, and_true]
      exact ⟨.addiW d a, .andiW d a, .oriW d a, .xoriW d a⟩
    exact runs.completes decoded start (scalar1_ok ha hd)
  case address =>
    refine (GroupRuns.addiA d a).completes decoded start ?_
    unfold bodyAddiA
    rw [tm_bind_ok ha, hd]

/-! ### Loads from the bank (R173) -/

section
variable {b : Opnd} {off : Int} {size : Nat} {c c1 : TCtx} {x : W64}

theorem bankAddr_inRange (hb : read64 b c = .ok (x, c1)) (low : 0 ≤ x.toInt + off) (high : x.toInt + off + size ≤ c1.tk.bankBytes)
    (aligned : (x.toInt + off) % size = 0) : bankAddr b off size c = .ok ((x.toInt + off).toNat, c1) := by
  have inside : (decide (x.toInt + off < 0) || decide ((c1.tk.bankBytes : Int) < x.toInt + off + size)) = false := by
    simp only [Bool.or_eq_false_iff, decide_eq_false_iff_not, not_lt]
    exact ⟨low, high⟩
  unfold bankAddr
  rw [tm_bind_ok hb, tm_bind_ok (getTk_run c1), inside, decide_eq_false (not_not.mpr aligned)]
  rfl

theorem bankAddr_outOfRange (hb : read64 b c = .ok (x, c1)) (out : x.toInt + off < 0 ∨ (c1.tk.bankBytes : Int) < x.toInt + off + size) :
    bankAddr b off size c = .error (.trap 0x0203 (BitVec.ofInt 64 (x.toInt + off))) := by
  have outside : (decide (x.toInt + off < 0) || decide ((c1.tk.bankBytes : Int) < x.toInt + off + size)) = true := by
    simpa only [Bool.or_eq_true, decide_eq_true_eq] using out
  unfold bankAddr
  rw [tm_bind_ok hb, tm_bind_ok (getTk_run c1), outside]
  rfl

theorem bankAddr_unaligned (hb : read64 b c = .ok (x, c1)) (low : 0 ≤ x.toInt + off) (high : x.toInt + off + size ≤ c1.tk.bankBytes)
    (unaligned : (x.toInt + off) % size ≠ 0) : bankAddr b off size c = .error (.trap 0x0204 (BitVec.ofInt 64 (x.toInt + off))) := by
  have inside : (decide (x.toInt + off < 0) || decide ((c1.tk.bankBytes : Int) < x.toInt + off + size)) = false := by
    simp only [Bool.or_eq_false_iff, decide_eq_false_iff_not, not_lt]
    exact ⟨low, high⟩
  unfold bankAddr
  rw [tm_bind_ok hb, tm_bind_ok (getTk_run c1), inside, decide_eq_true unaligned]
  rfl

end

theorem groupRuns_bankLoad (imm : W32) (d b : Opnd) : ∀ e ∈ bankLoadRules, GroupRuns imm (e.1 d b 0) (bodyLd e.2.1 e.2.2 d b imm.toInt) := by
  simp only [bankLoadRules, List.forall_mem_cons, List.not_mem_nil, false_implies, implies_true, and_true]
  exact ⟨.ldS8 d b, .ldZ8 d b, .ldS16 d b, .ldZ16 d b, .ldW d b⟩

theorem prefixedLoad_holds : prefixedLoad := by
  refine ⟨fun e he d b imm third s c c1 x decoded start hb => ?_, fun d b imm third s c c1 c2 x decoded start hb low high aligned hd => ?_⟩
  · have runs := groupRuns_bankLoad imm d b e he
    refine ⟨fun c2 low high aligned hd => runs.completes decoded start ?_, fun out => runs.traps decoded start ?_,
      fun low high unaligned => runs.traps decoded start ?_⟩
    · unfold bodyLd
      rw [tm_bind_ok (bankAddr_inRange hb low high aligned)]
      exact hd
    · exact tm_bind_error (bankAddr_outOfRange hb out)
    · exact tm_bind_error (bankAddr_unaligned hb low high unaligned)
  · refine (GroupRuns.ldD d b).completes decoded start ?_
    unfold bodyLdD
    rw [tm_bind_ok (bankAddr_inRange hb low high aligned)]
    exact hd

/-! ### Branches and calls (R169, R170) -/

/-- `m` leaves the PC and the next PC as they are. -/
def KeepsPc {α : Type} (m : TM α) : Prop := ∀ a c c', m c = .ok (a, c') → c'.tk.pc = c.tk.pc ∧ c'.next = c.next

namespace KeepsPc

theorem bind {α β : Type} {m : TM α} {f : α → TM β} (hm : KeepsPc m) (hf : ∀ a, KeepsPc (f a)) : KeepsPc (m >>= f) := by
  intro y c c' h
  obtain ⟨a, c1, first, rest⟩ := tm_bind_eq_ok h
  obtain ⟨pc, next⟩ := hm a c c1 first
  obtain ⟨pc', next'⟩ := hf a y c1 c' rest
  exact ⟨pc'.trans pc, next'.trans next⟩

theorem pure {α : Type} (a : α) : KeepsPc (pure a) := by
  rintro _ _ _ ⟨⟩
  exact ⟨rfl, rfl⟩

theorem stop {α : Type} (e : Stop) : KeepsPc (stop e : TM α) := by
  rintro _ _ _ ⟨⟩

theorem getTk : KeepsPc getTk := by
  rintro _ _ _ ⟨⟩
  exact ⟨rfl, rfl⟩

theorem getT : KeepsPc getT := by
  rintro _ _ _ ⟨⟩
  exact ⟨rfl, rfl⟩

theorem modST (f : State → Nat → Nat → State) : KeepsPc (modST f) := by
  rintro _ _ _ ⟨⟩
  exact ⟨rfl, rfl⟩

theorem modTk {f : TaskRt → TaskRt} (hf : ∀ k, (f k).pc = k.pc) : KeepsPc (modTk f) := by
  rintro _ c _ ⟨⟩
  exact ⟨hf c.tk, rfl⟩

theorem useReg (o : Opnd) : KeepsPc (useReg o) := by
  intro a c c' h
  unfold Machine.useReg at h
  split at h
  · cases h
  · split at h <;> cases h
    exact ⟨rfl, rfl⟩

theorem inChan (p : Fin 16) : KeepsPc (inChan p) := by
  intro a c c' h
  obtain ⟨rfl, -⟩ := inChan_ok h
  exact ⟨rfl, rfl⟩

theorem getChan (k : Nat) : KeepsPc (getChan k) := by
  intro a c c' h
  obtain rfl := getChan_ok h
  exact ⟨rfl, rfl⟩

theorem currentRec (p : Fin 16) : KeepsPc (currentRec p) := by
  refine (inChan p).bind (fun k => getTk.bind (fun tk => getT.bind (fun t => ?_)))
  dsimp only
  split
  case' isTrue => refine (modST _).bind (fun _ => ?_)
  case isTrue | isFalse =>
    refine (getChan k).bind (fun ch => ?_)
    split
    · exact stop _
    · split
      · exact pure _
      · split
        · exact stop _
        · exact (modST _).bind (fun _ => bind (modTk (fun _ => rfl)) (fun _ => pure _))

theorem popUnit (p : Fin 16) : KeepsPc (popUnit p) := by
  refine (currentRec p).bind (fun r => getTk.bind (fun tk => ?_))
  dsimp only
  split
  · refine bind ?_ (fun _ => pure _)
    exact modTk (fun _ => rfl)
  · exact stop _

theorem read32 (o : Opnd) : KeepsPc (read32 o) := by
  cases o with
  | g n => exact (useReg _).bind (fun _ => getTk.bind (fun _ => pure _))
  | a n => exact (useReg _).bind (fun _ => getTk.bind (fun _ => pure _))
  | v n => exact (useReg _).bind (fun _ => getTk.bind (fun _ => pure _))
  | i p => exact (popUnit p).bind (fun _ => pure _)
  | o p => exact stop _

end KeepsPc

theorem Starts.next_eq {i : Instr} {len : Nat} {s : State} {c : TCtx} (start : Starts i len s c) : c.next = c.tk.pc + len := by
  obtain ⟨tk, -, rfl⟩ := start.task
  rfl

/-- A branch reads its predicate and then its condition. -/
theorem branch_ok {sense z : Bool} {p : Fin 4} {cond : TM Bool} {disp : Int} {c c1 : TCtx} (hcond : cond c = .ok (z, c1)) :
    branch sense p cond disp c =
      .ok ((), { c1 with next := if decide (predValue c p ≠ 0) = sense ∧ z = true then c1.tk.pc + disp else c1.next }) := by
  have taken : ((predValue c p != 0) == sense && z) = true ↔ decide (predValue c p ≠ 0) = sense ∧ z = true := by
    simp [bne, beq_eq_decide]
  unfold branch
  rw [tm_bind_ok (readPred_ok p c), tm_bind_ok hcond]
  split
  · rw [if_pos (taken.mp ‹_›)]
    rfl
  · rw [if_neg (fun h => ‹¬ _› (taken.mpr h))]
    rfl

theorem condOn_ok {f : W32 → Bool} {a : Opnd} {c c1 : TCtx} {x : W32} (ha : read32 a c = .ok (x, c1)) : condOn f a c = .ok (f x, c1) := by
  unfold condOn
  rw [tm_bind_ok ha]
  rfl

theorem condNonzero_eq : condNonzero = fun x => decide (x ≠ 0) := by
  funext x
  simp [condNonzero, bne, beq_eq_decide]

theorem condNeg_eq : condNeg = fun x => decide (x.toInt < 0) := by
  funext x
  exact BitVec.msb_eq_toInt

theorem groupRuns_branch (imm : W32) (a : Opnd) (p : Fin 4) :
    ∀ e ∈ branchRules, GroupRuns imm (e.1 a p 0) (branch e.2.1 p (condOn e.2.2 a) imm.toInt) := by
  simp only [branchRules, List.forall_mem_cons, List.not_mem_nil, false_implies, implies_true, and_true, ← condNonzero_eq, ← condNeg_eq]
  exact ⟨.brz a p, .brnz a p, .brneg a p, .brzNp a p, .brnzNp a p, .brnegNp a p⟩

theorem prefixedBranch_holds : prefixedBranch := by
  refine ⟨fun e he a p imm third s c c1 x decoded start ha => ?_, fun p imm third s c decoded start => ?_,
    fun p imm third s c decoded start => ?_, fun imm third s c c1 decoded start link => GroupRuns.call.completes decoded start ?_⟩
  · rw [(groupRuns_branch imm a p e he).completes decoded start (branch_ok (condOn_ok ha))]
    obtain ⟨pc, next⟩ := KeepsPc.read32 a x c c1 ha
    rw [pc, next, start.next_eq]
    rfl
  · rw [(GroupRuns.br p).completes decoded start (branch_ok rfl), start.next_eq]
    simp
  · rw [(GroupRuns.brNp p).completes decoded start (branch_ok rfl), start.next_eq]
    simp
  · unfold bodyCall
    rw [tm_bind_ok (getTk_run c)]
    exact tm_bind_ok link

/-! ### System registers (R159, R377) -/

theorem getTn_ok {c : TCtx} {tn : Tenure} (h : c.s.tenures.get? c.t = some tn) : getTn c = .ok (tn, c) := by
  simp only [getTn, h]

theorem bodySysr_ok {d : Opnd} {r : Nat} {c c1 : TCtx} {tn : Tenure} (tenure : c.s.tenures.get? c.t = some tn)
    (performed : r = 0x400 → faddPending c.s c.t c.n = false) (hd : write64 d (sysRead c.s c.t c.n tn c.tk r) c = .ok ((), c1)) :
    bodySysr d r c = .ok ((), c1) := by
  have last : (do write64 d (sysRead c.s c.t c.n (← getTn) (← getTk) r) : TM Unit) c = .ok ((), c1) := by
    rw [tm_bind_ok (getTn_ok tenure), tm_bind_ok (getTk_run c), hd]
  unfold bodySysr
  rw [tm_bind_ok (getS_run c), tm_bind_ok (getT_run c), tm_bind_ok (getN_run c)]
  split
  · rw [performed ‹_›, Bool.not_false, stallUnless_true]
    exact last
  · exact last

theorem bodySysw_ok {d : Opnd} {r : Nat} {c c1 : TCtx} {x : W32} (own : r ≠ 0x400) (hd : read32 d c = .ok (x, c1)) :
    bodySysw d r c = .ok ((), { c1 with tk := sysWrite c1.tk r x }) := by
  unfold bodySysw
  rw [tm_bind_ok hd, if_neg own]
  rfl

/-- An ill-formed instruction is illegal, whatever it would do (R132, R147). -/
theorem runTask_illFormed {i j : Instr} {len : Nat} {s : State} {c : TCtx} (start : Starts j len s c) (ill : i.wf = false) (w : W32)
    (body : TM Unit) : runTask i w len body s = .next (takeTrap s s.cur.1 s.cur.2 c.tk 0x0200 (w.setWidth 64) c.tk.pc) := by
  obtain ⟨tk, htk, rfl⟩ := start.task
  obtain ⟨tn, htn, -, -⟩ := start.tenure
  have illegal : decodeChecks i w { s := s, t := s.cur.1, n := s.cur.2, tk := { tk with st := .running }, next := tk.pc + len } =
      .error (.trap 0x0200 (w.setWidth 64)) := by
    unfold decodeChecks
    rw [tm_bind_ok (getTk_run _), tm_bind_ok (getTn_ok htn), tm_bind_ok (getN_run _), ill]
    rfl
  simp only [runTask, htk, tm_bind_error illegal]

theorem illegalGroup_traps {third : W32} {s : State} {c : TCtx} (start : Starts (.illegalInstruction third) 3 s c) :
    illegalGroup third s = .next (takeTrap s s.cur.1 s.cur.2 c.tk 0x0200 (third.setWidth 64) c.tk.pc) :=
  runTask_trap start third (raise_run _ _ c)

/-- The 20 bits of a system register's number are the number. -/
theorem toNat_truncate_number {imm : W32} (number : imm.toNat < 2 ^ 20) : (imm.truncate 20).toNat = imm.toNat := by
  rw [BitVec.toNat_setWidth, Nat.mod_eq_of_lt number]

theorem prefixedSystemRegister_holds : prefixedSystemRegister := by
  refine ⟨fun d imm third s c c1 tn decoded number start tenure performed hd => ?read,
    fun d imm third s c c1 x decoded number own start hd => ?write, fun d imm third s c decoded unassigned start => ?unassigned⟩
  case read => rw [group_sysr decoded number, runTask_done start third (bodySysr_ok tenure performed hd)]
  case write => rw [group_sysw decoded number, runTask_done start third (bodySysw_ok own hd)]
  case unassigned =>
    obtain number | wide := lt_or_ge imm.toNat (2 ^ 20)
    · have unknown : sysRegKnown (imm.truncate 20).toNat = false := by
        rw [toNat_truncate_number number]
        exact unassigned.resolve_right (not_le.mpr number)
      obtain decoded | decoded := decoded
      · rw [group_sysr decoded number]
        exact runTask_illFormed start (by simp only [Instr.wf, unknown, Bool.and_false]) third _
      · rw [group_sysw decoded number]
        exact runTask_illFormed start (by simp only [Instr.wf, unknown, Bool.and_false]) third _
    · rw [group_wideNumber decoded wide, illegalGroup_traps start]

/-- Settles O27: a form that takes the immediate runs its effect with it, and every other group takes the trap of an illegal one. -/
theorem prefixGroupResult : Obligations.PrefixGroupResult :=
  ⟨prefixedResult_holds, prefixedLoad_holds, prefixedBranch_holds, prefixedSystemRegister_holds,
    fun _ _ _ _ h start => (group_takesNone h).trans (illegalGroup_traps start)⟩

end Sys2Proof.Machine

/-! PROOFS. Ports as operands: units popped from current records, and units pushed into open ones (R37, R176, R177, R179). -/

namespace Sys2Proof.Machine

/-! ### The channel of a port -/

theorem inChan_bound {c : TCtx} {p : Fin 16} {ch : Nat} (bound : c.tk.inCh[p] = some ch) : inChan p c = .ok (ch, c) := by
  unfold inChan
  rw [tm_bind_ok (getTk_run c), bound]
  rfl

theorem outChan_bound {c : TCtx} {p : Fin 16} {ch : Nat} (bound : c.tk.outCh[p] = some ch) : outChan p c = .ok (ch, c) := by
  unfold outChan
  rw [tm_bind_ok (getTk_run c), bound]
  rfl

theorem getChan_some {c : TCtx} {ch : Nat} {x : ChanRt} (chan : c.s.chan? c.t ch = some x) : getChan ch c = .ok (x, c) := by
  unfold getChan
  rw [chan]

/-! ### Pops (R37, R176, R177) -/

/-- The context in which the head record `r` of a channel has become the current one of port `p`, and one of its firings is used (R37). -/
def headTaken (c : TCtx) (p : Fin 16) (ch : Nat) (r : Rec) : TCtx :=
  { c with
    s := orderRec (c.s.modChan c.t ch ChanRt.access) c.t c.n r
    tk := { c.tk with inp := c.tk.inp.set p { cur := true, idx := 0 } } }

/-- The context in which the next unit of port `p` has been popped. -/
def unitPopped (c : TCtx) (p : Fin 16) : TCtx :=
  { c with tk := { c.tk with inp := c.tk.inp.set p { cur := true, idx := c.tk.inp[p].idx + 1 } } }

theorem headTaken_inp (c : TCtx) (p : Fin 16) (ch : Nat) (r : Rec) : (headTaken c p ch r).tk.inp[p] = { cur := true, idx := 0 } :=
  Vector.getElem_set_self p.isLt

theorem unitPopped_inp (c : TCtx) (p : Fin 16) : (unitPopped c p).tk.inp[p] = { cur := true, idx := c.tk.inp[p].idx + 1 } :=
  Vector.getElem_set_self p.isLt

section
variable {c c1 : TCtx} {p : Fin 16} {ch : Nat} {x : ChanRt} {r : Rec} {rest : List Rec} {u : W64}

/-- A head whose residence is not over stays. -/
theorem settleHead_run (chan : c.s.chan? c.t ch = some x) (stays : x.over = false) :
    modST (fun s t _ => settleHead s t ch) c = .ok ((), c) := by
  rw [modST_run, settleHead_of_not_over chan stays]

theorem currentRec_current (bound : c.tk.inCh[p] = some ch) (chan : c.s.chan? c.t ch = some x) (buf : x.buf = r :: rest)
    (cur : c.tk.inp[p].cur = true) : currentRec p c = .ok (r, c) := by
  unfold currentRec
  rw [tm_bind_ok (inChan_bound bound), tm_bind_ok (getTk_run c), tm_bind_ok (getT_run c), cur]
  simp only [Bool.not_true, Bool.false_eq_true, if_false, if_true]
  rw [tm_bind_ok (getChan_some chan), buf]
  rfl

theorem currentRec_head (bound : c.tk.inCh[p] = some ch) (chan : c.s.chan? c.t ch = some x) (buf : x.buf = r :: rest)
    (stays : x.over = false) (fresh : c.tk.inp[p].cur = false) (accepted : fmtAccepts c.tk.fmt.ins[p] r.hdr = true) :
    currentRec p c = .ok (r, headTaken c p ch r) := by
  unfold currentRec
  rw [tm_bind_ok (inChan_bound bound), tm_bind_ok (getTk_run c), tm_bind_ok (getT_run c), fresh]
  simp only [Bool.not_false, Bool.false_eq_true, if_false, if_true]
  rw [tm_bind_ok (settleHead_run chan stays), tm_bind_ok (getChan_some chan), buf]
  dsimp only
  rw [accepted]
  rfl

theorem currentRec_empty (bound : c.tk.inCh[p] = some ch) (chan : c.s.chan? c.t ch = some x) (buf : x.buf = []) :
    currentRec p c = .error (.wait true) := by
  have stays : x.over = false := by rw [ChanRt.over, buf]
  unfold currentRec
  rw [tm_bind_ok (inChan_bound bound), tm_bind_ok (getTk_run c), tm_bind_ok (getT_run c)]
  dsimp only
  split
  · rw [tm_bind_ok (settleHead_run chan stays), tm_bind_ok (getChan_some chan), buf]
    rfl
  · rw [tm_bind_ok (getChan_some chan), buf]
    rfl

theorem popUnit_end (current : currentRec p c = .ok (r, c1)) (no_more : r.units[c1.tk.inp[p].idx]? = none) :
    popUnit p c = .error (.trap 0x0205 (BitVec.ofNat 64 p.val)) := by
  unfold popUnit
  rw [tm_bind_ok current, tm_bind_ok (getTk_run c1)]
  simp only [no_more]
  rfl

theorem read32_i (popped : popUnit p c = .ok (u, c1)) : read32 (.i p) c = .ok (u.extractLsb' 0 32, c1) := by
  dsimp only [read32]
  rw [tm_bind_ok popped, ← BitVec.setWidth_eq_extractLsb' (by decide)]
  rfl

end

theorem portSourcePop_holds : portSourcePop := by
  intro c p ch x bound chan
  refine ⟨fun r rest buf cur => ⟨fun u unit => ?unit, fun atEnd => ?atEnd⟩, fun r rest u buf stays fresh accepted unit => ?first,
    fun r rest buf stays fresh accepted no_units => ?bare, fun buf => tm_bind_error (currentRec_empty bound chan buf)⟩
  case unit =>
    have popped := popUnit_ok (currentRec_current bound chan buf cur) unit
    exact ⟨popped, read32_i popped⟩
  case atEnd => exact popUnit_end (currentRec_current bound chan buf cur) atEnd
  case first =>
    have idx : (headTaken c p ch r).tk.inp[p].idx = 0 := by rw [headTaken_inp]
    refine ⟨unitPopped (headTaken c p ch r) p, ?_, rfl, ?_⟩
    · exact popUnit_ok (currentRec_head bound chan buf stays fresh accepted) (by rw [idx, unit])
    · rw [unitPopped_inp, idx]
  case bare =>
    have idx : (headTaken c p ch r).tk.inp[p].idx = 0 := by rw [headTaken_inp]
    exact popUnit_end (currentRec_head bound chan buf stays fresh accepted) (by rw [idx, no_units])

/-! ### Pushes (R179) -/

section
variable {c : TCtx} {p : Fin 16} {ch : Nat} {x : ChanRt} {r : Rec}

theorem pushUnit_room (bound : c.tk.outCh[p] = some ch) (chan : c.s.chan? c.t ch = some x) (opn : x.opn = some r)
    (room : r.units.length < hLen r.hdr) (u : W64) : pushUnit p u c =
      .ok ((), { c with s := c.s.modChan c.t ch (fun k => { k with opn := some { r with units := r.units ++ [u] } }) }) := by
  unfold pushUnit
  rw [tm_bind_ok (outChan_bound bound), tm_bind_ok (getChan_some chan), opn]
  dsimp only
  rw [if_neg (not_le.mpr room)]
  rfl

theorem pushUnit_full (bound : c.tk.outCh[p] = some ch) (chan : c.s.chan? c.t ch = some x) (opn : x.opn = some r)
    (full : hLen r.hdr ≤ r.units.length) (u : W64) : pushUnit p u c = .error (.trap 0x0301 r.hdr) := by
  unfold pushUnit
  rw [tm_bind_ok (outChan_bound bound), tm_bind_ok (getChan_some chan), opn]
  dsimp only
  rw [if_pos full]
  rfl

theorem pushUnit_closed (bound : c.tk.outCh[p] = some ch) (chan : c.s.chan? c.t ch = some x) (closed : x.opn = none) (u : W64) :
    pushUnit p u c = .error (.trap 0x0206 (BitVec.ofNat 64 p.val)) := by
  unfold pushUnit
  rw [tm_bind_ok (outChan_bound bound), tm_bind_ok (getChan_some chan), closed]
  rfl

end

theorem portResultPush_holds : portResultPush := fun _ _ _ _ u bound chan =>
  ⟨fun _ opn room => pushUnit_room bound chan opn room u, fun _ opn full => pushUnit_full bound chan opn full u,
    fun closed => pushUnit_closed bound chan closed u⟩

/-- Settles O10: a port's current record, or its head taken as such, gives the unit popped; the open record takes the one pushed. -/
theorem portOperands : Obligations.PortOperands := ⟨portSourcePop_holds, portResultPush_holds⟩

end Sys2Proof.Machine

/-! PROOFS. Results of the 32-bit scalar instructions, the immediate forms and the address instructions (R162, R163, R166 to R168). -/

namespace Sys2Proof.Machine

/-! ### The functions of the model are those of the rules (R162, R163) -/

/-- A shift by 32 places divides by 2^32, whichever type the number of places has. -/
theorem shiftRight_32 (z : Int) : z >>> (32 : Nat) = z / 2 ^ 32 ∧ z >>> (32 : Int) = z / 2 ^ 32 :=
  have places : z >>> (32 : Nat) = z / 2 ^ 32 := Int.shiftRight_eq_div_pow z 32
  ⟨places, (Int.shiftRight_natCast_right z 32).trans places⟩

/-- Of two words with an order on their values, the greater is the second where the values agree. -/
theorem ite_lt_eq_ite_le {α : Type} [LinearOrder α] {f : W32 → α} (injective : Function.Injective f) (x y : W32) :
    (if f x < f y then y else x) = if f x ≤ f y then y else x := by
  rcases lt_trichotomy (f x) (f y) with h | h | h
  · rw [if_pos h, if_pos h.le]
  · rw [if_neg h.not_lt, if_pos h.le, injective h]
  · rw [if_neg h.not_gt, if_neg h.not_ge]

section
variable (x y : W32)

theorem fMulhsW_eq : fMulhsW x y = BitVec.ofInt 32 (x.toInt * y.toInt / 2 ^ 32) := by
  simp only [fMulhsW, shiftRight_32]

theorem fMulhzW_eq : fMulhzW x y = BitVec.ofNat 32 (x.toNat * y.toNat / 2 ^ 32) := by
  unfold fMulhzW
  rw [Nat.shiftRight_eq_div_pow]

/-- The one quotient that does not fit wraps to the dividend, as the case of its own has it (R163). -/
theorem fDivsW_eq : fDivsW x y = if y = 0 then 0xFFFFFFFF#32 else BitVec.ofInt 32 (x.toInt.tdiv y.toInt) := by
  unfold fDivsW divs
  split
  · rfl
  · split
    case isTrue least =>
      obtain ⟨rfl, rfl⟩ := least
      decide
    case isFalse => rfl

theorem fRemsW_eq : fRemsW x y = if y = 0 then x else BitVec.ofInt 32 (x.toInt.tmod y.toInt) := by
  unfold fRemsW rems
  split
  · rfl
  · split
    case isTrue least =>
      obtain ⟨rfl, rfl⟩ := least
      decide
    case isFalse => rw [Int.tmod_def]

theorem fMinsW_eq : fMinsW x y = if x.toInt ≤ y.toInt then x else y := by
  unfold fMinsW
  rw [BitVec.slt_eq_decide, ← ite_not]
  simp only [decide_eq_true_eq, not_lt]

theorem fMaxsW_eq : fMaxsW x y = if x.toInt ≤ y.toInt then y else x := by
  unfold fMaxsW
  rw [BitVec.slt_eq_decide, ← ite_lt_eq_ite_le (fun _ _ => BitVec.eq_of_toInt_eq)]
  simp only [decide_eq_true_eq]

theorem fMinzW_eq : fMinzW x y = if x.toNat ≤ y.toNat then x else y := by
  unfold fMinzW
  rw [BitVec.ult_eq_decide, ← ite_not]
  simp only [decide_eq_true_eq, not_lt]

theorem fMaxzW_eq : fMaxzW x y = if x.toNat ≤ y.toNat then y else x := by
  unfold fMaxzW
  rw [BitVec.ult_eq_decide, ← ite_lt_eq_ite_le (fun _ _ => BitVec.eq_of_toNat_eq)]
  simp only [decide_eq_true_eq]

/-- A sum or difference out of range becomes the bound that it passes (R162). -/
theorem clamp32_eq (z : Int) : clamp32 z = BitVec.ofInt 32 (max (-2 ^ 31) (min (2 ^ 31 - 1) z)) := by
  have least : intMin true 32 = -2147483648 := rfl
  have greatest : intMax true 32 = 2147483647 := rfl
  unfold clamp32 clampInt
  rw [least, greatest]
  congr 1
  split_ifs <;> dsimp only <;> omega

theorem fAddsW_eq : fAddsW x y = BitVec.ofInt 32 (max (-2 ^ 31) (min (2 ^ 31 - 1) (x.toInt + y.toInt))) := clamp32_eq _

theorem fSubsW_eq : fSubsW x y = BitVec.ofInt 32 (max (-2 ^ 31) (min (2 ^ 31 - 1) (x.toInt - y.toInt))) := clamp32_eq _

end

/-! ### The 32-bit instructions (R162, R163) -/

/-- What each rule of two sources says is what its instruction computes. -/
theorem scalarTwo_runs (d a b : Opnd) (s : State) : ∀ e ∈ scalarTwoRules, exec (e.1 d a b) s = run1 (e.1 d a b) (scalar2 e.2 d a b) s := by
  have computes {i : Instr} {f g : W32 → W32 → W32} (runs : exec i s = run1 i (scalar2 f d a b) s) (same : ∀ x y, f x y = g x y) :
      exec i s = run1 i (scalar2 g d a b) s := by
    rw [runs, funext₂ same]
  simp only [scalarTwoRules, List.forall_mem_cons, List.not_mem_nil, false_implies, implies_true, and_true]
  exact ⟨rfl, rfl, rfl, rfl, rfl, rfl, rfl, rfl, rfl, computes rfl fMulhsW_eq, computes rfl fMulhzW_eq, computes rfl fDivsW_eq, rfl,
    computes rfl fRemsW_eq, rfl, computes rfl fMinsW_eq, computes rfl fMaxsW_eq, computes rfl fMinzW_eq, computes rfl fMaxzW_eq,
    computes rfl fAddsW_eq, computes rfl fSubsW_eq⟩

theorem scalarTwoSourceResult_holds : scalarTwoSourceResult := by
  intro e he d a b s c c1 c2 c3 x y start ha hb hd
  rw [scalarTwo_runs d a b s e he]
  exact runTask_done start _ (scalar2_ok ha hb hd)

/-- What each rule of one source says is what its instruction computes. -/
theorem scalarOne_runs (d a : Opnd) (s : State) : ∀ e ∈ scalarOneRules, exec (e.1 d a) s = run1 (e.1 d a) (scalar1 e.2 d a) s := by
  simp only [scalarOneRules, List.forall_mem_cons, List.not_mem_nil, false_implies, implies_true, and_true]
  exact ⟨rfl, rfl, rfl⟩

/-- The immediate forms: what each rule says of the source and the immediate is what its instruction computes. -/
theorem scalarImmediate_runs (d a : Opnd) (i : BitVec 14) (s : State) :
    ∀ e ∈ scalarImmediateRules, exec (e.1 d a i) s = run1 (e.1 d a i) (scalar1 (e.2 · i) d a) s := by
  simp only [scalarImmediateRules, List.forall_mem_cons, List.not_mem_nil, false_implies, implies_true, and_true]
  exact ⟨rfl, rfl, rfl, rfl⟩

theorem shiftImmediate_runs (d a : Opnd) (i : BitVec 5) (s : State) :
    ∀ e ∈ shiftImmediateRules, exec (e.1 d a i) s = run1 (e.1 d a i) (scalar1 (e.2 · i) d a) s := by
  simp only [shiftImmediateRules, List.forall_mem_cons, List.not_mem_nil, false_implies, implies_true, and_true]
  exact ⟨rfl, rfl, rfl⟩

/-- `lui.w` puts its 20 bits above 12 zeros (R167). -/
theorem shiftLeft_setWidth_eq_append (i : BitVec 20) : i.setWidth 32 <<< 12 = i ++ 0#12 := by
  apply BitVec.eq_of_toNat_eq
  have := i.isLt
  rw [BitVec.toNat_append, BitVec.toNat_shiftLeft, BitVec.toNat_setWidth, BitVec.toNat_ofNat, Nat.zero_mod, Nat.or_zero,
    Nat.shiftLeft_eq, Nat.shiftLeft_eq]
  omega

theorem scalarOneSourceResult_holds : scalarOneSourceResult := by
  refine ⟨fun e he d a s c c1 c2 x start ha hd => ?one, fun e he d a i s c c1 c2 x start ha hd => ?immediate,
    fun e he d a i s c c1 c2 x start ha hd => ?shift, fun d i s c c1 start hd => runTask_done start _ hd,
    fun d i s c c1 start hd => ?upper⟩
  case one =>
    rw [scalarOne_runs d a s e he]
    exact runTask_done start _ (scalar1_ok ha hd)
  case immediate =>
    rw [scalarImmediate_runs d a i s e he]
    exact runTask_done start _ (scalar1_ok ha hd)
  case shift =>
    rw [shiftImmediate_runs d a i s e he]
    exact runTask_done start _ (scalar1_ok ha hd)
  case upper =>
    rw [← shiftLeft_setWidth_eq_append] at hd
    exact runTask_done start _ hd

/-- Settles O12: every instruction runs `scalar2` or `scalar1` with the function of its rule. -/
theorem scalarResult : Obligations.ScalarResult := ⟨scalarTwoSourceResult_holds, scalarOneSourceResult_holds⟩

/-! ### The address instructions (R168) -/

section
variable {d a b : Opnd} {c c1 c2 c3 : TCtx}

theorem addr2_ok {f : W64 → W64 → W64} {x y : W64} (ha : read64 a c = .ok (x, c1)) (hb : read64 b c1 = .ok (y, c2))
    (hd : write64 d (f x y) c2 = .ok ((), c3)) : addr2 f d a b c = .ok ((), c3) := by
  unfold addr2
  rw [tm_bind_ok ha, tm_bind_ok hb, hd]

end

/-- `cat.a` puts its first source above its second (R168). -/
theorem append_eq_mul_add (x y : W32) : x ++ y = x.setWidth 64 * 0x100000000#64 + y.setWidth 64 := by
  apply BitVec.eq_of_toNat_eq
  have hx := x.isLt
  have hy := y.isLt
  rw [BitVec.toNat_append, ← Nat.shiftLeft_add_eq_or_of_lt hy, BitVec.toNat_add, BitVec.toNat_mul, BitVec.toNat_setWidth,
    BitVec.toNat_setWidth, BitVec.toNat_ofNat, Nat.shiftLeft_eq]
  omega

/-- Settles O14: sources read in order, and the result of each instruction's rule written. -/
theorem addressResult : Obligations.AddressResult := by
  refine ⟨fun d a b s c c1 c2 c3 x y start ha hb hd => runTask_done start _ (addr2_ok ha hb hd),
    fun d a b s c c1 c2 c3 x y start ha hb hd => ?addz,
    fun d a b s c c1 c2 c3 x y start ha hb hd => runTask_done start _ (addr2_ok ha hb hd),
    fun d a s c c1 c2 x start ha hd => runTask_done start _ ((tm_bind_ok ha).trans hd),
    fun d a s c c1 c2 x start ha hd => runTask_done start _ ((tm_bind_ok ha).trans hd),
    fun d a s c c1 c2 x start ha hd => runTask_done start _ ((tm_bind_ok ha).trans hd),
    fun d a b s c c1 c2 c3 x y start ha hb hd => ?cat,
    fun d a i s c c1 c2 x start ha hd => runTask_done start _ ((tm_bind_ok ha).trans hd)⟩
  case addz => exact runTask_done start _ ((tm_bind_ok ha).trans ((tm_bind_ok hb).trans hd))
  case cat =>
    rw [← append_eq_mul_add] at hd
    exact runTask_done start _ ((tm_bind_ok ha).trans ((tm_bind_ok hb).trans hd))

end Sys2Proof.Machine

/-! PROOFS. Where branches, calls, jumps and loops go (R169 to R172). -/

namespace Sys2Proof.Machine

/-! ### Branches (R169) -/

/-- What each rule says of a branch is what its instruction does. -/
theorem branch_runs (a : Opnd) (p : Fin 4) (i : BitVec 16) (s : State) :
    ∀ e ∈ branchRules, exec (e.1 a p i) s = run1 (e.1 a p i) (branch e.2.1 p (condOn e.2.2 a) i.toInt) s := by
  simp only [branchRules, List.forall_mem_cons, List.not_mem_nil, false_implies, implies_true, and_true, ← condNonzero_eq, ← condNeg_eq]
  exact ⟨rfl, rfl, rfl, rfl, rfl, rfl⟩

theorem branchTarget_holds : branchTarget := by
  refine ⟨fun e he a p i s c c1 x start ha => ?conditional, fun p i s c start => ?br, fun p i s c start => ?brNp⟩
  case conditional =>
    obtain ⟨pc, next⟩ := KeepsPc.read32 a x c c1 ha
    rw [branch_runs a p i s e he, run1, runTask_done start _ (branch_ok (condOn_ok ha)), pc, next, start.next_eq]
    rfl
  case br =>
    refine (runTask_done start _ (branch_ok rfl)).trans ?_
    simp [start.next_eq]
  case brNp =>
    refine (runTask_done start _ (branch_ok rfl)).trans ?_
    simp [start.next_eq]

/-! ### Calls, jumps and loops (R170 to R172) -/

section
variable {s : State} {c c1 c2 : TCtx} {a : Opnd} {x : W32}

theorem call_completes {i : BitVec 16} (start : Starts (.call i) 1 s c)
    (link : write32 (.g 15) (BitVec.ofInt 32 (c.tk.pc + 1)) c = .ok ((), c1)) :
    exec (.call i) s = .next (completed s { c1 with next := c.tk.pc + i.toInt }) := by
  refine runTask_done start _ ?_
  unfold bodyCall
  rw [tm_bind_ok (getTk_run c)]
  exact tm_bind_ok link

theorem callr_completes (start : Starts (.callr a) 1 s c) (ha : read32 a c = .ok (x, c1))
    (link : write32 (.g 15) (BitVec.ofInt 32 (c1.tk.pc + 1)) c1 = .ok ((), c2)) :
    exec (.callr a) s = .next (completed s { c2 with next := (x.toNat : Int) }) := by
  refine runTask_done start _ ?_
  rw [tm_bind_ok ha, tm_bind_ok (getTk_run c1)]
  exact tm_bind_ok link

theorem dbnz_completes {r : Fin 16} {i : BitVec 14} (start : Starts (.dbnz (.g r) i) 1 s c) (free : usable c (.g r)) :
    exec (.dbnz (.g r) i) s = .next (completed s { c with
      tk := { c.tk with g := c.tk.g.set r (c.tk.g[r] - 1) },
      next := if c.tk.g[r] - 1 ≠ 0 then c.tk.pc + i.toInt else c.tk.pc + 1 }) := by
  refine runTask_done start _ ?_
  rw [tm_bind_ok (read32_g free), tm_bind_ok (write32_g free _), tm_bind_ok (getTk_run _)]
  have next : c.next = c.tk.pc + 1 := start.next_eq
  by_cases zero : c.tk.g[r] - 1 = 0
  · rw [if_neg (mt bne_iff_ne.mp (not_not.mpr zero)), if_neg (not_not.mpr zero), ← next]
    rfl
  · rw [if_pos (bne_iff_ne.mpr zero), if_pos zero]
    rfl

end

theorem jumpCallLoopResult_holds : jumpCallLoopResult :=
  ⟨fun _ _ _ _ start link => call_completes start link, fun _ _ _ _ _ start ha => runTask_done start _ (tm_bind_ok ha),
    fun _ _ _ _ _ _ start ha link => callr_completes start ha link, fun _ _ start => runTask_done start _ (tm_pure () _),
    fun _ _ _ _ start free => dbnz_completes start free⟩

/-- Settles O15: the target of each branch by its predicate and condition, and what calls and loops write before they go. -/
theorem controlFlowResult : Obligations.ControlFlowResult := ⟨branchTarget_holds, jumpCallLoopResult_holds⟩

end Sys2Proof.Machine

/-! PROOFS. Bank loads and stores (R173 to R175). -/

namespace Sys2Proof.Machine

/-! ### Loads (R173) -/

section
variable {d b : Opnd} {off : Int} {size : Nat} {c c1 c2 : TCtx} {x : W64}

theorem bodyLd_ok {signed : Bool} (hb : read64 b c = .ok (x, c1)) (low : 0 ≤ x.toInt + off) (high : x.toInt + off + size ≤ c1.tk.bankBytes)
    (aligned : (x.toInt + off) % size = 0)
    (hd : write32 d (extendTo32 signed size (leNat (c1.tk.bank.read (x.toInt + off).toNat size))) c1 = .ok ((), c2)) :
    bodyLd signed size d b off c = .ok ((), c2) := by
  unfold bodyLd
  rw [tm_bind_ok (bankAddr_inRange hb low high aligned)]
  exact hd

theorem bodyLdD_ok (hb : read64 b c = .ok (x, c1)) (low : 0 ≤ x.toInt + off) (high : x.toInt + off + 8 ≤ c1.tk.bankBytes)
    (aligned : (x.toInt + off) % 8 = 0)
    (hd : write64 d (BitVec.ofNat 64 (leNat (c1.tk.bank.read (x.toInt + off).toNat 8))) c1 = .ok ((), c2)) :
    bodyLdD d b off c = .ok ((), c2) := by
  unfold bodyLdD
  rw [tm_bind_ok (bankAddr_inRange hb low high aligned)]
  exact hd

end

theorem bankLoad_runs (d b : Opnd) (off : BitVec 14) (s : State) :
    ∀ e ∈ bankLoadRules, exec (e.1 d b off) s = run1 (e.1 d b off) (bodyLd e.2.1 e.2.2 d b off.toInt) s := by
  simp only [bankLoadRules, List.forall_mem_cons, List.not_mem_nil, false_implies, implies_true, and_true]
  exact ⟨rfl, rfl, rfl, rfl, rfl⟩

theorem bankLoadResult_holds : bankLoadResult := by
  refine ⟨fun e he d b off s c c1 x start hb => ?words, fun d b off s c c1 x start hb => ?doublewords⟩
  case words =>
    rw [bankLoad_runs d b off s e he]
    exact ⟨fun _ low high aligned hd => runTask_done start _ (bodyLd_ok hb low high aligned hd),
      fun out => runTask_trap start _ (tm_bind_error (bankAddr_outOfRange hb out)),
      fun low high unaligned => runTask_trap start _ (tm_bind_error (bankAddr_unaligned hb low high unaligned))⟩
  case doublewords =>
    exact ⟨fun _ low high aligned hd => runTask_done start _ (bodyLdD_ok hb low high aligned hd),
      fun out => runTask_trap start _ (tm_bind_error (bankAddr_outOfRange hb out)),
      fun low high unaligned => runTask_trap start _ (tm_bind_error (bankAddr_unaligned hb low high unaligned))⟩

/-! ### Stores (R174) -/

section
variable {d b : Opnd} {off : BitVec 12} {c c1 c2 : TCtx} {x : W64}

/-- The low bytes of data read at 32 bits are written. -/
theorem bodySt_word {size : Nat} {y : W32} (narrow : size ≠ 8) (hb : read64 b c = .ok (x, c1)) (low : 0 ≤ x.toInt + off.toInt)
    (high : x.toInt + off.toInt + size ≤ c1.tk.bankBytes) (aligned : (x.toInt + off.toInt) % size = 0) (hd : read32 d c1 = .ok (y, c2)) :
    bodySt size d b off c = .ok ((), { c2 with
      tk := { c2.tk with bank := c2.tk.bank.write (x.toInt + off.toInt).toNat (leBytes y.toNat size) } }) := by
  have widened : (y.setWidth 64).toNat = y.toNat := BitVec.toNat_setWidth_of_le (by decide)
  unfold bodySt
  rw [tm_bind_ok (bankAddr_inRange hb low high aligned), ← widened]
  dsimp only
  rw [if_neg narrow]
  exact tm_bind_ok hd

theorem bodySt_doubleword {y : W64} (hb : read64 b c = .ok (x, c1)) (low : 0 ≤ x.toInt + off.toInt)
    (high : x.toInt + off.toInt + 8 ≤ c1.tk.bankBytes) (aligned : (x.toInt + off.toInt) % 8 = 0) (hd : read64 d c1 = .ok (y, c2)) :
    bodySt 8 d b off c = .ok ((), { c2 with
      tk := { c2.tk with bank := c2.tk.bank.write (x.toInt + off.toInt).toNat (leBytes y.toNat 8) } }) := by
  unfold bodySt
  rw [tm_bind_ok (bankAddr_inRange hb low high aligned)]
  dsimp only
  rw [if_pos rfl]
  exact tm_bind_ok hd

end

theorem bankStore_runs (d b : Opnd) (off : BitVec 12) (s : State) :
    ∀ e ∈ bankStoreRules, e.2 ≠ 8 ∧ exec (e.1 d b off) s = run1 (e.1 d b off) (bodySt e.2 d b off) s := by
  simp only [bankStoreRules, List.forall_mem_cons, List.not_mem_nil, false_implies, implies_true, and_true]
  exact ⟨⟨by decide, rfl⟩, ⟨by decide, rfl⟩, ⟨by decide, rfl⟩⟩

theorem bankStoreResult_holds : bankStoreResult := by
  refine ⟨fun e he d b off s c c1 x start hb => ?words, fun d b off s c c1 x start hb => ?doublewords⟩
  case words =>
    obtain ⟨narrow, runs⟩ := bankStore_runs d b off s e he
    rw [runs]
    exact ⟨fun _ _ low high aligned hd => runTask_done start _ (bodySt_word narrow hb low high aligned hd),
      fun out => runTask_trap start _ (tm_bind_error (bankAddr_outOfRange hb out)),
      fun low high unaligned => runTask_trap start _ (tm_bind_error (bankAddr_unaligned hb low high unaligned))⟩
  case doublewords =>
    exact ⟨fun _ _ low high aligned hd => runTask_done start _ (bodySt_doubleword hb low high aligned hd),
      fun out => runTask_trap start _ (tm_bind_error (bankAddr_outOfRange hb out)),
      fun low high unaligned => runTask_trap start _ (tm_bind_error (bankAddr_unaligned hb low high unaligned))⟩

/-- Settles O20: the address is checked first, for range and then for alignment, and the access follows. -/
theorem bankLoadStoreResult : Obligations.BankLoadStoreResult := ⟨bankLoadResult_holds, bankStoreResult_holds⟩

/-! ### Bytes and the numbers that they write (R4) -/

theorem leNat_leBytes {x size : Nat} (fits : x < 256 ^ size) : leNat (leBytes x size) = x := by
  induction size generalizing x with
  | zero => exact (Nat.lt_one_iff.mp fits).symm
  | succ size ih =>
    have above : leNat (leBytes (x / 256) size) = x / 256 := ih (Nat.div_lt_of_lt_mul (by rwa [pow_succ'] at fits))
    simp only [leBytes, leNat, above, BitVec.toNat_ofNat]
    exact Nat.mod_add_div x 256

/-- Settles O21: the bytes read back are those written, and they are the number's. -/
theorem bankStoreThenLoad : Obligations.BankStoreThenLoad := by
  intro m a size x canonical fits
  have read_back : (m.write a (leBytes x size)).read a size = leBytes x size := by
    simpa only [leBytes_length] using Memory.read_write canonical a (leBytes x size)
  refine ⟨by rw [read_back, leNat_leBytes fits], fun b apart => ?_, Memory.write_wf canonical a _⟩
  exact Memory.get_write_outside m a _ b (by rwa [leBytes_length])

end Sys2Proof.Machine

/-! PROOFS. The instructions on current records and on open ones (R176, R178 to R181, R298, R339). -/

namespace Sys2Proof.Machine

/-! ### Checks, and faults that take a free value -/

theorem raiseIf_pass {b : Bool} (passes : b = false) (code : Nat) (arg : W64) (c : TCtx) : raiseIf b code arg c = .ok ((), c) := by
  rw [passes]
  rfl

theorem raiseIf_fail {b : Bool} (fails : b = true) (code : Nat) (arg : W64) (c : TCtx) :
    raiseIf b code arg c = .error (.trap code arg) := by
  rw [fails]
  rfl

/-- A fault that leaves one thing changed takes its trap in the state so changed. -/
theorem runTask_trapAfter {i : Instr} {len : Nat} {s : State} {c : TCtx} (start : Starts i len s c) (w : W32) {body : TM Unit}
    {f : State → State} {code : Nat} {arg : W64} (stops : body c = .error (.trapAfter f code arg)) :
    runTask i w len body s = .next (takeTrap (f s) s.cur.1 s.cur.2 c.tk code arg c.tk.pc) := by
  have course := start.prelude w body
  obtain ⟨tk, task, rfl⟩ := start.task
  simp only [runTask, task, course, stops]

/-! ### Current records (R176, R178) -/

section
variable {p : Fin 16} {d : Opnd} {s : State} {c c1 c2 : TCtx} {r : Rec}

theorem left_completes (start : Starts (.left d (.i p)) 1 s c) (current : currentRec p c = .ok (r, c1))
    (hd : write32 d (BitVec.ofNat 32 (hLen r.hdr - c1.tk.inp[p].idx)) c1 = .ok ((), c2)) :
    exec (.left d (.i p)) s = .next (completed s c2) := by
  refine runTask_done start _ ?_
  exact (tm_bind_ok current).trans ((tm_bind_ok (getTk_run c1)).trans hd)

theorem next_completes {ch : Nat} (start : Starts (.next_ (.i p)) 1 s c) (other : p.val ≠ c.tk.trigp) (current : currentRec p c = .ok (r, c1))
    (bound : c1.tk.inCh[p] = some ch) :
    exec (.next_ (.i p)) s = .next (completed s { c1 with
      s := releaseHead c1.s c1.t ch, tk := { c1.tk with inp := c1.tk.inp.set p { cur := false, idx := 0 } } }) := by
  refine runTask_done start _ ?_
  dsimp only [Opnd.port16]
  rw [tm_bind_ok (getTk_run c), tm_bind_ok (raiseIf_pass (beq_eq_false_iff_ne.mpr other) _ _ c), tm_bind_ok current,
    tm_bind_ok (inChan_bound bound)]
  rfl

theorem next_trigger_traps (start : Starts (.next_ (.i p)) 1 s c) (trigger : p.val = c.tk.trigp) :
    exec (.next_ (.i p)) s = .next (takeTrap s s.cur.1 s.cur.2 c.tk 0x0206 (BitVec.ofNat 64 p.val) c.tk.pc) := by
  refine runTask_trap start _ ?_
  dsimp only [Opnd.port16]
  rw [tm_bind_ok (getTk_run c)]
  exact tm_bind_error (raiseIf_fail (beq_iff_eq.mpr trigger) _ _ c)

end

theorem inputRecordResult_holds : inputRecordResult :=
  ⟨fun _ _ _ _ _ _ _ start current hd => runTask_done start _ ((tm_bind_ok current).trans hd),
    fun _ _ _ _ _ _ _ start current hd => left_completes start current hd,
    fun _ _ _ _ _ _ start other current bound => next_completes start other current bound,
    fun _ _ _ start trigger => next_trigger_traps start trigger⟩

/-! ### Records opened, closed and sent (R179, R180) -/

section
variable {p : Fin 16} {a : Opnd} {s : State} {c c1 c2 c3 : TCtx} {h : W64} {ch : Nat} {x : ChanRt} {r : Rec}

theorem openChecks_ok (bound : c.tk.outCh[p] = some ch) (chan : c.s.chan? c.t ch = some x) (closed : x.opn = none)
    (sound : checkHeader h = none) (fits : hLen h ≤ x.e.width) : openChecks p h c = .ok (ch, c) := by
  have none_open : x.opn.isSome = false := by rw [closed, Option.isSome_none]
  unfold openChecks
  rw [tm_bind_ok (outChan_bound bound), tm_bind_ok (getChan_some chan), tm_bind_ok (raiseIf_pass none_open _ _ c), sound]
  exact tm_bind_ok (raiseIf_pass (decide_eq_false (not_lt.mpr fits)) _ _ c)

theorem openSlot_free (chan : c.s.chan? c.t ch = some x) (room : 0 < x.free) :
    openSlot ch h c = .ok ((), { c with s := c.s.modChan c.t ch (fun k => { k with opn := some { hdr := h, units := [] } }) }) := by
  unfold openSlot
  rw [tm_bind_ok (getChan_some chan), decide_eq_true room, blockUnless_true]
  rfl

theorem openSlot_full (chan : c.s.chan? c.t ch = some x) (full : x.free = 0) : openSlot ch h c = .error (.wait true) := by
  unfold openSlot
  rw [tm_bind_ok (getChan_some chan), full]
  rfl

theorem closePort_complete (bound : c.tk.outCh[p] = some ch) (chan : c.s.chan? c.t ch = some x) (opn : x.opn = some r)
    (complete : r.units.length = hLen r.hdr)
    (flushed : (if rType r = tStern then taskFlush (fun _ => true) c else .ok ((), c)) = .ok ((), c1)) :
    closePort p c = .ok ((), { c1 with
      s := sendRec (c1.s.modChan c1.t ch (fun k => { k with opn := none })) c1.t ch (Rec.follow r (closedOrd c1.s c1.t c1.n)) }) := by
  unfold closePort
  rw [tm_bind_ok (outChan_bound bound), tm_bind_ok (getChan_some chan), opn]
  dsimp only
  rw [complete, tm_bind_ok (raiseIf_pass (bne_self_eq_false _) _ _ c)]
  by_cases stern : rType r = tStern
  · rw [if_pos stern] at flushed
    rw [if_pos (beq_iff_eq.mpr stern), tm_bind_ok flushed]
    rfl
  · rw [if_neg stern] at flushed
    cases flushed
    rw [if_neg (mt beq_iff_eq.mp stern)]
    rfl

theorem closePort_incomplete (bound : c.tk.outCh[p] = some ch) (chan : c.s.chan? c.t ch = some x) (opn : x.opn = some r)
    (incomplete : r.units.length ≠ hLen r.hdr) : closePort p c = .error (.trap 0x0301 r.hdr) := by
  unfold closePort
  rw [tm_bind_ok (outChan_bound bound), tm_bind_ok (getChan_some chan), opn]
  exact tm_bind_error (raiseIf_fail (bne_iff_ne.mpr incomplete) _ _ c)

theorem send_completes (start : Starts (.send (.o p) a) 1 s c) (ha : read64 a c = .ok (h, c1)) (checked : openChecks p h c1 = .ok (ch, c1))
    (bare : hLen h = 0) (opened : openSlot ch h c1 = .ok ((), c2)) (closed : closePort p c2 = .ok ((), c3)) :
    exec (.send (.o p) a) s = .next (completed s c3) := by
  refine runTask_done start _ ?_
  dsimp only [Opnd.port16]
  rw [tm_bind_ok ha, tm_bind_ok checked, tm_bind_ok (raiseIf_pass (bne_eq_false_iff_eq.mpr bare) _ _ c1), tm_bind_ok opened, closed]

end

/-! ### Units copied (R181) -/

section
variable {p q : Fin 16} {b : Opnd} {s : State} {c c1 c2 : TCtx} {r o : Rec} {n : W32} {ch : Nat} {x : ChanRt}
  (start : Starts (.cpy (.o p) (.i q) b) 1 s c) (current : currentRec q c = .ok (r, c1)) (count : read32 b c1 = .ok (n, c2))
  (bound : c2.tk.outCh[p] = some ch) (chan : c2.s.chan? c2.t ch = some x)
include start current count bound chan

theorem cpy_completes (opn : x.opn = some o) (few : n.toNat ≤ 1024) (inside : c2.tk.inp[q].idx + n.toNat ≤ hLen r.hdr)
    (room : o.units.length + n.toNat ≤ hLen o.hdr) :
    exec (.cpy (.o p) (.i q) b) s = .next (completed s { c2 with
      tk := { c2.tk with inp := c2.tk.inp.set q { cur := true, idx := c2.tk.inp[q].idx + n.toNat } },
      s := c2.s.modChan c2.t ch (fun k => { k with
        opn := some { o with units := o.units ++ (r.units.drop c2.tk.inp[q].idx).take n.toNat } }) }) := by
  refine runTask_done start _ ?_
  dsimp only [Opnd.port16]
  rw [tm_bind_ok current, tm_bind_ok count, tm_bind_ok (outChan_bound bound), tm_bind_ok (getChan_some chan), if_neg (not_lt.mpr few),
    tm_bind_ok (getTk_run c2)]
  refine (tm_bind_ok (raiseIf_pass (decide_eq_false (not_lt.mpr inside)) _ _ c2)).trans ?_
  rw [opn]
  exact tm_bind_ok (raiseIf_pass (decide_eq_false (not_lt.mpr room)) _ _ c2)

theorem cpy_many_traps (opn : x.opn = some o) (many : 1024 < n.toNat) :
    exec (.cpy (.o p) (.i q) b) s = .next (takeTrap s s.cur.1 s.cur.2 c.tk 0x0301 o.hdr c.tk.pc) := by
  refine runTask_trap start _ ?_
  dsimp only [Opnd.port16]
  rw [tm_bind_ok current, tm_bind_ok count, tm_bind_ok (outChan_bound bound), tm_bind_ok (getChan_some chan), if_pos many, opn]
  rfl

theorem cpy_many_closed_traps (closed : x.opn = none) (many : 1024 < n.toNat) : exec (.cpy (.o p) (.i q) b) s =
    .next (takeTrap s.tookFree s.cur.1 s.cur.2 c.tk 0x0301 (Config.freeWord c2.s.freeCtr) c.tk.pc) := by
  refine runTask_trapAfter start _ ?_
  dsimp only [Opnd.port16]
  rw [tm_bind_ok current, tm_bind_ok count, tm_bind_ok (outChan_bound bound), tm_bind_ok (getChan_some chan), if_pos many, closed]
  rfl

theorem cpy_closed_traps (closed : x.opn = none) (few : n.toNat ≤ 1024) (inside : c2.tk.inp[q].idx + n.toNat ≤ hLen r.hdr) :
    exec (.cpy (.o p) (.i q) b) s = .next (takeTrap s s.cur.1 s.cur.2 c.tk 0x0206 (BitVec.ofNat 64 p.val) c.tk.pc) := by
  refine runTask_trap start _ ?_
  dsimp only [Opnd.port16]
  rw [tm_bind_ok current, tm_bind_ok count, tm_bind_ok (outChan_bound bound), tm_bind_ok (getChan_some chan), if_neg (not_lt.mpr few),
    tm_bind_ok (getTk_run c2)]
  refine (tm_bind_ok (raiseIf_pass (decide_eq_false (not_lt.mpr inside)) _ _ c2)).trans ?_
  rw [closed]
  rfl

theorem cpy_overrun_traps (few : n.toNat ≤ 1024) (past : hLen r.hdr < c2.tk.inp[q].idx + n.toNat) :
    exec (.cpy (.o p) (.i q) b) s = .next (takeTrap s s.cur.1 s.cur.2 c.tk 0x0205 (BitVec.ofNat 64 q.val) c.tk.pc) := by
  refine runTask_trap start _ ?_
  dsimp only [Opnd.port16]
  rw [tm_bind_ok current, tm_bind_ok count, tm_bind_ok (outChan_bound bound), tm_bind_ok (getChan_some chan), if_neg (not_lt.mpr few),
    tm_bind_ok (getTk_run c2)]
  exact tm_bind_error (raiseIf_fail (decide_eq_true past) _ _ c2)

end

theorem outputRecordResult_holds : outputRecordResult := by
  refine ⟨fun p a s c c1 h ch x start ha bound chan closed sound fits => ?opens, fun p s c ch x r start bound chan opn => ?closes,
    fun p a s c c1 c2 c3 h ch x start ha bound chan closed sound bare _ opened sent => ?sends,
    fun p q b s c c1 c2 r n ch x start current count bound chan => ?copies⟩
  case opens =>
    have checked := openChecks_ok bound chan closed sound fits
    refine ⟨fun room => runTask_done start _ ?_, fun tk task full => runTask_wait start task _ ?_⟩
    · exact (tm_bind_ok ha).trans ((tm_bind_ok checked).trans (openSlot_free chan room))
    · exact (tm_bind_ok ha).trans ((tm_bind_ok checked).trans (openSlot_full chan full))
  case closes =>
    exact ⟨fun _ complete flushed => runTask_done start _ (closePort_complete bound chan opn complete flushed),
      fun incomplete => runTask_trap start _ (closePort_incomplete bound chan opn incomplete)⟩
  case sends => exact send_completes start ha (openChecks_ok bound chan closed sound (bare.trans_le (Nat.zero_le _))) bare opened sent
  case copies =>
    exact ⟨fun _ opn few inside room => cpy_completes start current count bound chan opn few inside room,
      fun _ opn many => cpy_many_traps start current count bound chan opn many,
      fun closed many => cpy_many_closed_traps start current count bound chan closed many,
      fun closed few inside => cpy_closed_traps start current count bound chan closed few inside,
      fun few past => cpy_overrun_traps start current count bound chan few past⟩

/-- Settles O22: the checks of each instruction in their order, and what it does once they pass. -/
theorem recordInstructions : Obligations.RecordInstructions := ⟨inputRecordResult_holds, outputRecordResult_holds⟩

end Sys2Proof.Machine

/-! PROOFS. The retirement of an activation (R154, R171, R176). -/

namespace Sys2Proof.Machine

section
variable {s : State} {c : TCtx}

/-- With no record open and no register that awaits a reply, the input records are released and the node is IDLE. -/
theorem bodyEnd_ok {ch : Nat} (trig : c.tk.trigp < 16) (none_open : openPort c.s c.t c.tk.outCh.toList 0 = none) (unflagged : c.tk.wflags = [])
    (answered : c.tk.pend = []) (bound : c.tk.inCh[c.tk.trigp] = some ch) :
    bodyEnd c = .ok ((), { c with
      s := newActivation (useHead (releasePorts c.s c.t c.tk.trigp c.tk.inp c.tk.inCh.toList 0) c.t ch) c.t c.tk.inCh.toList
      tk := { c.tk with st := .idle, acts := c.tk.acts + 1, tstat := 0, inp := Vector.replicate 16 { cur := false, idx := 0 } }
      next := 0 }) := by
  have trigger : c.tk.inCh[c.tk.trigp]? = some (some ch) := by rw [Vector.getElem?_eq_getElem trig, bound]
  unfold bodyEnd
  rw [tm_bind_ok (getTk_run c), tm_bind_ok (getS_run c), tm_bind_ok (getT_run c), none_open, unflagged, answered, trigger]
  rfl

theorem bodyEnd_open {p : Nat} (some_open : openPort c.s c.t c.tk.outCh.toList 0 = some p) :
    bodyEnd c = .error (.trap 0x0206 (BitVec.ofNat 64 p)) := by
  unfold bodyEnd
  rw [tm_bind_ok (getTk_run c), tm_bind_ok (getS_run c), tm_bind_ok (getT_run c), some_open]
  rfl

theorem bodyEnd_awaits (none_open : openPort c.s c.t c.tk.outCh.toList 0 = none) (unflagged : c.tk.wflags = []) (awaits : c.tk.pend ≠ []) :
    bodyEnd c = .error (.wait false) := by
  have stalls : stallUnless c.tk.pend.isEmpty c = .error (.wait false) := by
    rw [List.isEmpty_eq_false_iff.mpr awaits]
    rfl
  unfold bodyEnd
  rw [tm_bind_ok (getTk_run c), tm_bind_ok (getS_run c), tm_bind_ok (getT_run c), none_open, unflagged]
  exact tm_bind_error stalls

end

/-- Settles O23: `end` looks for an open record, then for a register that awaits a reply, and retires the activation when there is neither. -/
theorem endRetiresActivation : Obligations.EndRetiresActivation :=
  ⟨fun _ _ _ trig start none_open unflagged answered bound => runTask_done start _ (bodyEnd_ok trig none_open unflagged answered bound),
    fun _ _ _ start some_open => runTask_trap start _ (bodyEnd_open some_open),
    fun _ _ _ start task none_open unflagged awaits => runTask_wait start task _ (bodyEnd_awaits none_open unflagged awaits)⟩

end Sys2Proof.Machine

/-! PROOFS. System registers: the waits of `sysr` and `sysw`, the value of each register, and what a write does to it (R7, R9, R126, R159, R270,
R289, R290, R374, R377). -/

namespace Sys2Proof.Machine

/-! ### The instructions (R159, R289, R377) -/

section
variable {d : Opnd} {c c1 : TCtx} {x : W32}

/-- A floating-point atomic of the node that is not yet performed holds back a read of `fflags.home` (R289). -/
theorem bodySysr_home_waits (pending : faddPending c.s c.t c.n = true) : bodySysr d 0x400 c = .error (.wait false) := by
  unfold bodySysr
  rw [tm_bind_ok (getS_run c), tm_bind_ok (getT_run c), tm_bind_ok (getN_run c), pending]
  rfl

theorem bodySysw_home_ok (performed : faddPending c1.s c1.t c1.n = false) (hd : read32 d c = .ok (x, c1)) :
    bodySysw d 0x400 c = .ok ((), { c1 with s := c1.s.modTenure c1.t (fun tn =>
      { tn with homeFlags := tn.homeFlags.map (fun f => f &&& ~~~(x.truncate 5 : BitVec 5)) }) }) := by
  unfold bodySysw
  rw [tm_bind_ok hd, if_pos rfl, tm_bind_ok (getS_run c1), tm_bind_ok (getT_run c1), tm_bind_ok (getN_run c1), performed]
  rfl

theorem bodySysw_home_waits (pending : faddPending c1.s c1.t c1.n = true) (hd : read32 d c = .ok (x, c1)) :
    bodySysw d 0x400 c = .error (.wait false) := by
  unfold bodySysw
  rw [tm_bind_ok hd, if_pos rfl, tm_bind_ok (getS_run c1), tm_bind_ok (getT_run c1), tm_bind_ok (getN_run c1), pending]
  rfl

end

theorem systemRegisterAccess_holds : systemRegisterAccess := by
  refine ⟨fun _ _ _ _ _ _ start tenure performed hd => runTask_done start _ (bodySysr_ok tenure performed hd),
    fun _ _ _ _ _ _ start hd own => runTask_done start _ (bodySysw_ok own hd),
    fun _ _ _ _ _ _ start hd home performed => runTask_done start _ ?writeHome,
    fun _ _ _ _ _ start task home pending => runTask_wait start task _ ?readWaits,
    fun _ _ _ _ _ _ _ start task hd home pending => runTask_wait start task _ ?writeWaits⟩
  case writeHome => rw [home, bodySysw_home_ok performed hd]
  case readWaits => rw [home, bodySysr_home_waits pending]
  case writeWaits => rw [home, bodySysw_home_waits pending hd]

/-! ### Registers that stand one behind another (R159) -/

theorem getElem?_getD_fin {α : Type} {n : Nat} (v : Vector α n) (j : Fin n) (x : α) : v[j.val]?.getD x = v[j] := by
  rw [Vector.getElem?_eq_getElem j.isLt]
  rfl

section
variable (s : State) (t n : Nat) (tn : Tenure) (k : TaskRt)

theorem sysRead_visible (p : Fin 16) : sysRead s t n tn k (0x10 + p.val) = BitVec.ofNat 64 (visible s t k.inCh[p]) := by
  unfold sysRead
  simp (disch := omega) only [if_neg, if_pos, Nat.add_sub_cancel_left, Vector.getElem?_eq_getElem, Option.bind_some]
  rfl

theorem sysRead_freeSlots (p : Fin 16) : sysRead s t n tn k (0x20 + p.val) = BitVec.ofNat 64 (freeSlots s t k.outCh[p]) := by
  unfold sysRead
  simp (disch := omega) only [if_neg, if_pos, Nat.add_sub_cancel_left, Vector.getElem?_eq_getElem, Option.bind_some]
  rfl

theorem sysRead_inFormat (p : Fin 16) : sysRead s t n tn k (0x100 + p.val) = (k.fmt.ins[p]).setWidth 64 := by
  unfold sysRead
  simp (disch := omega) only [if_neg, if_pos, Nat.add_sub_cancel_left, getElem?_getD_fin]

theorem sysRead_outFormat (p : Fin 16) : sysRead s t n tn k (0x110 + p.val) = (k.fmt.outs[p]).setWidth 64 := by
  unfold sysRead
  simp (disch := omega) only [if_neg, if_pos, Nat.add_sub_cancel_left, getElem?_getD_fin]

theorem sysRead_scale (m : Fin 8) : sysRead s t n tn k (0x120 + m.val) = (sclField k.fmt m (k.fmt.scl[m])).setWidth 64 := by
  unfold sysRead
  simp (disch := omega) only [if_neg, if_pos, Nat.add_sub_cancel_left, getElem?_getD_fin]

theorem sysRead_count (j : Fin 8) : sysRead s t n tn k (0x308 + j.val) = (k.sbcnt[j]).setWidth 64 := by
  unfold sysRead
  simp (disch := omega) only [if_neg, if_pos, Nat.add_sub_cancel_left, getElem?_getD_fin]

theorem visible_some {c : Nat} {x : ChanRt} (chan : s.chan? t c = some x) : visible s t (some c) = x.buf.length := by
  simp only [visible, Option.bind_some, chan, Option.map_some, Option.getD_some]

theorem freeSlots_some {c : Nat} {x : ChanRt} (chan : s.chan? t c = some x) : freeSlots s t (some c) = x.free := by
  simp only [freeSlots, Option.bind_some, chan, Option.map_some, Option.getD_some]

/-- The cycles of a node's die since its pound was entered. -/
theorem cyclesOnDie {d : Fin 4} (die : tn.dieOf n = d.val) :
    s.nowOn (tn.dieOf n) - tn.enteredAt[tn.dieOf n]?.getD 0 = s.clk[d] - tn.enteredAt[d] := by
  unfold State.nowOn
  rw [die, getElem?_getD_fin, getElem?_getD_fin]

end

theorem coreRegisterValues_holds : coreRegisterValues := by
  intro s t n tn k
  refine ⟨rfl, rfl, rfl, rfl, rfl, rfl, rfl, fun d die => ?cycles, fun p => ⟨fun none_bound => ?noInput, fun none_bound => ?noOutput,
    fun c x chan => ⟨fun bound => ?input, fun bound => ?output⟩⟩⟩
  case cycles =>
    rw [← cyclesOnDie s n tn die]
    exact ⟨rfl, rfl⟩
  case noInput => rw [sysRead_visible, none_bound]; rfl
  case noOutput => rw [sysRead_freeSlots, none_bound]; rfl
  case input => rw [sysRead_visible, bound, visible_some s t chan]
  case output => rw [sysRead_freeSlots, bound, freeSlots_some s t chan]

/-! ### Scale registers (R9, R126) -/

section
variable {f : Fmt} {m : Nat} (x : W32)

theorem sclField_wide (wide : f.sclkind.getLsbD m = false) : sclField f m x = x :=
  if_neg (Bool.eq_false_iff.mp wide)

/-- A byte read through 32 bits is the byte. -/
theorem setWidth_setWidth_byte (b : BitVec 8) : (b.setWidth 32).setWidth 64 = b.setWidth 64 := by
  apply BitVec.eq_of_toNat_eq
  rw [BitVec.toNat_setWidth_of_le (by decide), BitVec.toNat_setWidth_of_le (by decide), BitVec.toNat_setWidth_of_le (by decide)]

/-- An E8M0 scale register holds bits [7:0]. -/
theorem sclField_e8m0 (narrow : f.sclkind.getLsbD m = true) : sclField f m x = (x.extractLsb' 0 8).setWidth 32 := by
  have low : x &&& 0xFF = (x.extractLsb' 0 8).setWidth 32 := by
    apply BitVec.eq_of_toNat_eq
    rw [← BitVec.setWidth_eq_extractLsb' (by decide), BitVec.toNat_and, BitVec.toNat_setWidth_of_le (by decide), BitVec.toNat_setWidth]
    exact Nat.and_two_pow_sub_one_eq_mod x.toNat 8
  rw [← low]
  exact if_pos narrow

end

/-! ### Bits gathered from counts and from flags (R270, R289) -/

/-- The bits below `n` whose places satisfy `f`. -/
def bitsWhere (f : Nat → Bool) (n : Nat) : Nat := (List.range n).foldl (fun x i => if f i then x + 2 ^ i else x) 0

theorem bitsWhere_succ (f : Nat → Bool) (n : Nat) :
    bitsWhere f (n + 1) = if f n then bitsWhere f n + 2 ^ n else bitsWhere f n := by
  simp only [bitsWhere, List.range_succ, List.foldl_append, List.foldl_cons, List.foldl_nil]

theorem bitsWhere_lt (f : Nat → Bool) (n : Nat) : bitsWhere f n < 2 ^ n := by
  induction n with
  | zero => exact Nat.zero_lt_one
  | succ n ih =>
    rw [bitsWhere_succ, pow_succ]
    split <;> omega

theorem testBit_bitsWhere (f : Nat → Bool) {n j : Nat} (below : j < n) : (bitsWhere f n).testBit j = f j := by
  induction n with
  | zero => exact absurd below (Nat.not_lt_zero j)
  | succ n ih =>
    have above : (bitsWhere f n).testBit n = false := Nat.testBit_lt_two_pow (bitsWhere_lt f n)
    rw [bitsWhere_succ]
    obtain lower | rfl := Nat.lt_succ_iff_lt_or_eq.mp below
    · split
      · rw [Nat.add_comm, Nat.testBit_two_pow_add_gt lower, ih lower]
      · exact ih lower
    · cases f j with
      | true => rw [if_pos rfl, Nat.add_comm, Nat.testBit_two_pow_add_eq, above, Bool.not_false]
      | false => exact above

theorem busyBits_eq (k : TaskRt) : busyBits k = bitsWhere (fun j => (k.sbcnt[j]?.getD 0) != 0) 8 := rfl

theorem busyBits_lt (k : TaskRt) : busyBits k < 256 := bitsWhere_lt _ 8

theorem testBit_busyBits (k : TaskRt) (j : Fin 8) : (busyBits k).testBit j.val = (k.sbcnt[j] != 0) := by
  rw [busyBits_eq, testBit_bitsWhere _ j.isLt, getElem?_getD_fin]

theorem getLsbD_foldl_or (fs : List (BitVec 5)) (x : BitVec 5) (j : Nat) :
    (fs.foldl (fun x y => x ||| y) x).getLsbD j = (x.getLsbD j || fs.any (fun f => f.getLsbD j)) := by
  induction fs generalizing x with
  | nil => exact (Bool.or_false _).symm
  | cons f fs ih => rw [List.foldl_cons, ih, BitVec.getLsbD_or, List.any_cons, Bool.or_assoc]

/-- A bit is set in the OR of the home flags where a slice holds it (R289). -/
theorem getLsbD_homeOr (tn : Tenure) (j : Nat) : tn.homeOr.getLsbD j = tn.homeFlags.toList.any (fun f => f.getLsbD j) := by
  rw [Tenure.homeOr, getLsbD_foldl_or, BitVec.ofNat_eq_ofNat, BitVec.getLsbD_zero, Bool.false_or]

theorem unitRegisterValues_holds : unitRegisterValues := by
  intro s t n tn k
  have busy : sysRead s t n tn k 0x300 = BitVec.ofNat 64 (busyBits k) := rfl
  have home : sysRead s t n tn k 0x400 = tn.homeOr.setWidth 64 := rfl
  refine ⟨fun p => ⟨sysRead_inFormat s t n tn k p, sysRead_outFormat s t n tn k p⟩, fun m => ⟨fun wide => ?wide, fun narrow => ?narrow⟩,
    rfl, rfl, rfl, rfl, rfl, rfl, rfl, rfl, rfl, fun j => ⟨sysRead_count s t n tn k j, ?busyBit⟩, ?busyRange, fun j => ?homeBit, ?homeRange,
    rfl, rfl⟩
  case wide => rw [sysRead_scale, sclField_wide _ wide]
  case narrow => rw [sysRead_scale, sclField_e8m0 _ narrow, setWidth_setWidth_byte]
  case busyBit => rw [busy, BitVec.getLsbD_ofNat, testBit_busyBits, decide_eq_true (j.isLt.trans (by decide)), Bool.true_and]
  case busyRange =>
    rw [busy, BitVec.toNat_ofNat]
    exact (Nat.mod_le _ _).trans_lt (busyBits_lt k)
  case homeBit => rw [home, BitVec.getLsbD_setWidth, getLsbD_homeOr, decide_eq_true (j.isLt.trans (by decide)), Bool.true_and]
  case homeRange =>
    rw [home, BitVec.toNat_setWidth_of_le (by decide)]
    exact tn.homeOr.isLt

/-! ### Writes (R7, R159, R374) -/

theorem sysWrite_scale (k : TaskRt) (m : Fin 8) (x : W32) :
    sysWrite k (0x120 + m.val) x = { k with fmt := { k.fmt with scl := k.fmt.scl.set m (sclField k.fmt m x) } } := by
  unfold sysWrite
  simp (disch := omega) only [if_neg, dif_pos, Nat.add_sub_cancel_left]

theorem systemRegisterWrites_holds : systemRegisterWrites := by
  intro k x
  have low5 : x.truncate 5 = x.extractLsb' 0 5 := BitVec.setWidth_eq_extractLsb' (by decide)
  have low8 : x.truncate 8 = x.extractLsb' 0 8 := BitVec.setWidth_eq_extractLsb' (by decide)
  have low16 : x.truncate 16 = x.extractLsb' 0 16 := BitVec.setWidth_eq_extractLsb' (by decide)
  rw [← low5, ← low8, ← low16]
  refine ⟨rfl, rfl, rfl, fun m => ⟨fun wide => ?wide, fun narrow => ?narrow⟩, rfl, rfl, rfl, rfl, ?readOnly⟩
  case wide => rw [sysWrite_scale, sclField_wide _ wide]
  case narrow => rw [sysWrite_scale, sclField_e8m0 _ narrow, low8]
  case readOnly =>
    simp only [List.forall_mem_cons, List.not_mem_nil, false_implies, implies_true, and_true]
    and_intros <;> rfl

/-- Settles O26: the waits at `fflags.home`, and each register's value and write by its number. -/
theorem systemRegisters : Obligations.SystemRegisters :=
  ⟨systemRegisterAccess_holds, ⟨coreRegisterValues_holds, unitRegisterValues_holds⟩, systemRegisterWrites_holds⟩

end Sys2Proof.Machine

/-! PROOFS. Results of the lanewise, fused and compared vector instructions, and of `dot` and `sel` (R187, R189, R191 to R194). -/

namespace Sys2Proof.Machine

/-! ### Lanewise instructions (R189) -/

/-- What each rule of two sources says of a lane is what its instruction computes there. -/
theorem lanesTwo_runs (d a b : Opnd) (f : VFmt) (s : State) :
    ∀ e ∈ laneRules, exec (e.1 d a b f) s = run1 (e.1 d a b f) (vec2 e.2 d a b f) s := by
  simp only [laneRules, List.forall_mem_cons, List.not_mem_nil, false_implies, implies_true, and_true]
  exact ⟨rfl, rfl, rfl, rfl, rfl, rfl, rfl, rfl, rfl, rfl, rfl, rfl, rfl⟩

theorem lanesOne_runs (d a : Opnd) (f : VFmt) (s : State) :
    ∀ e ∈ [(Instr.vAbs, Arith.abs), (Instr.vNeg, Arith.neg)], exec (e.1 d a f) s = run1 (e.1 d a f) (vec1 e.2 d a f) s := by
  simp only [List.forall_mem_cons, List.not_mem_nil, false_implies, implies_true, and_true]
  exact ⟨rfl, rfl⟩

theorem vectorLanewiseResult_holds : vectorLanewiseResult := by
  refine ⟨fun e he d a b f s c c1 c2 c3 x y start ha hb hd => ?two, fun e he d a f s c c1 c2 x start ha hd => ?one⟩
  case two =>
    rw [lanesTwo_runs d a b f s e he]
    exact runTask_done start _ (vec2_ok ha hb hd)
  case one =>
    rw [lanesOne_runs d a f s e he]
    exact runTask_done start _ (vec1_ok ha hd)

/-! ### The arithmetic of integer lanes (R189) -/

/-- The value of an integer lane, signed or unsigned, is congruent to its bits. -/
theorem intVal_modEq (signed : Bool) (n x : Nat) : intVal signed n x ≡ x [ZMOD (2 ^ n : Nat)] := by
  have unsigned : ((x % 2 ^ n : Nat) : Int) ≡ x [ZMOD (2 ^ n : Nat)] := by
    rw [Int.natCast_mod]
    exact Int.mod_modEq _ _
  unfold intVal sextInt
  dsimp only
  split_ifs
  · exact unsigned
  · exact Int.sub_modulus_modEq_iff.mpr unsigned
  · exact unsigned

/-- A value is wrapped to the bits of any number congruent to it. -/
theorem wrapInt_of_modEq {z : Int} {m n : Nat} (h : z ≡ m [ZMOD (2 ^ n : Nat)]) : wrapInt z n = m % 2 ^ n := by
  rw [wrapInt, h.eq, ← Int.natCast_mod, Int.toNat_natCast]

theorem wrapInt_natCast {m n : Nat} (h : m < 2 ^ n) : wrapInt m n = m :=
  (wrapInt_of_modEq rfl).trans (Nat.mod_eq_of_lt h)

/-- A value out of range becomes the bound that it passes. -/
theorem clampInt_fst {signed : Bool} {n : Nat} (ordered : intMin signed n ≤ intMax signed n) (z : Int) :
    (clampInt signed n z).1 = max (intMin signed n) (min (intMax signed n) z) := by
  unfold clampInt
  split_ifs <;> dsimp only <;> omega

section
variable (signed : Bool) (n x : Nat) {y : Nat}

theorem arithInt_add (y : Nat) : arithInt .add signed n x y = (x + y) % 2 ^ n :=
  wrapInt_of_modEq ((intVal_modEq signed n x).add (intVal_modEq signed n y))

theorem arithInt_mul (y : Nat) : arithInt .mul signed n x y = x * y % 2 ^ n :=
  wrapInt_of_modEq ((intVal_modEq signed n x).mul (intVal_modEq signed n y))

theorem arithInt_sub (hy : y < 2 ^ n) : arithInt .sub signed n x y = (x + 2 ^ n - y) % 2 ^ n := by
  refine wrapInt_of_modEq ?_
  rw [Nat.cast_sub (hy.le.trans (Nat.le_add_left _ _)), Nat.cast_add, add_sub_right_comm]
  exact Int.modEq_add_modulus_iff.mpr ((intVal_modEq signed n x).sub (intVal_modEq signed n y))

end

section
variable {n x y : Nat}

theorem intVal_unsigned (h : x < 2 ^ n) : intVal false n x = x := congrArg Nat.cast (Nat.mod_eq_of_lt h)

/-- Unsigned lanes that saturate: a sum stops at the greatest lane, a difference at 0. -/
theorem clampInt_unsigned (n : Nat) (z : Int) : (clampInt false n z).1 = max 0 (min ((2 ^ n - 1 : Nat) : Int) z) := by
  have greatest : intMax false n = ((2 ^ n - 1 : Nat) : Int) := (Nat.cast_pred (Nat.two_pow_pos n)).symm
  have least : intMin false n = 0 := rfl
  rw [clampInt_fst (by rw [greatest, least]; exact Int.natCast_nonneg _), greatest, least]

theorem arithInt_adds_unsigned (hx : x < 2 ^ n) (hy : y < 2 ^ n) : arithInt .adds false n x y = min (x + y) (2 ^ n - 1) := by
  have sum : (clampInt false n (intVal false n x + intVal false n y)).1 = ((min (x + y) (2 ^ n - 1) : Nat) : Int) := by
    rw [clampInt_unsigned, intVal_unsigned hx, intVal_unsigned hy]
    omega
  exact (congrArg (wrapInt · n) sum).trans (wrapInt_natCast (by omega))

theorem arithInt_subs_unsigned (hx : x < 2 ^ n) (hy : y < 2 ^ n) : arithInt .subs false n x y = x - y := by
  have difference : (clampInt false n (intVal false n x - intVal false n y)).1 = ((x - y : Nat) : Int) := by
    rw [clampInt_unsigned, intVal_unsigned hx, intVal_unsigned hy]
    omega
  exact (congrArg (wrapInt · n) difference).trans (wrapInt_natCast (by omega))

end

theorem wrapInt_clampInt_signed (n : Nat) (z : Int) : wrapInt (clampInt true n z).1 n = signedClamp n z := by
  have bound : (0 : Int) < 2 ^ (n - 1) := by positivity
  have least : intMin true n = -2 ^ (n - 1) := by simp [intMin]
  have greatest : intMax true n = 2 ^ (n - 1) - 1 := by simp [intMax]
  rw [clampInt_fst (by omega), least, greatest, signedClamp]

/-- The element format of an integer vector format. -/
theorem vElem_int : ∀ f ∈ [VFmt.s8, .z8, .s16, .z16, .s32, .z32], vElem f = .int (f.idx % 2 == 0) f.width := by decide

theorem integerLaneArithmetic_holds : integerLaneArithmetic := by
  intro f hf x y hx hy
  rw [vElem_int f hf]
  refine ⟨congrArg (·, 0) (arithInt_add ..), congrArg (·, 0) (arithInt_sub _ _ _ hy), congrArg (·, 0) (arithInt_mul ..), fun odd => ?unsigned,
    fun even => ?signed⟩
  case unsigned =>
    rw [odd]
    exact ⟨congrArg (·, 0) (arithInt_adds_unsigned hx hy), congrArg (·, 0) (arithInt_subs_unsigned hx hy)⟩
  case signed =>
    rw [even]
    exact ⟨congrArg (·, 0) (wrapInt_clampInt_signed ..), congrArg (·, 0) (wrapInt_clampInt_signed ..)⟩

/-- Settles O16: each instruction runs `vec2` or `vec1` with its operation, and integer lanes compute modulo 2^w or clamp. -/
theorem vectorLanewise : Obligations.VectorLanewise := ⟨vectorLanewiseResult_holds, integerLaneArithmetic_holds⟩

/-! ### Fused forms and `dot` (R191, R192) -/

/-- Each fused form negates what its rule says, and `fmab` takes lane 0 of its second source everywhere. -/
theorem fused_runs (d a b : Opnd) (f : VFmt) (s : State) :
    ∀ e ∈ fusedRules, exec (e.1 d a b f) s = run1 (e.1 d a b f) (vecFused e.2.1 e.2.2.1 e.2.2.2 d a b f) s := by
  simp only [fusedRules, List.forall_mem_cons, List.not_mem_nil, false_implies, implies_true, and_true]
  exact ⟨rfl, rfl, rfl, rfl⟩

theorem vectorFusedResult_holds : vectorFusedResult := by
  refine ⟨fun e he d a b f s c c1 c2 c3 c4 x y z start ha hb hz hd => ?fused, fun d a b f s c c1 c2 c3 c4 x y z start ha hb hz hd => ?dot⟩
  case fused =>
    rw [fused_runs d a b f s e he]
    exact runTask_done start _ ((tm_bind_ok (read2_ok ha hb)).trans ((tm_bind_ok hz).trans (writeLanes_ok hd)))
  case dot =>
    -- the model tests the format as a truth value
    simp only [← beq_iff_eq (a := f)] at hd ⊢
    exact runTask_done start _ ((tm_bind_ok (read2_ok ha hb)).trans ((tm_bind_ok hz).trans (tm_bind_ok hd)))

/-! ### Compares and `sel` (R193, R194) -/

theorem vectorCompare_runs (d a b : Opnd) (f : VFmt) (s : State) :
    ∀ e ∈ vectorCompareRules, exec (e.1 d a b f) s = run1 (e.1 d a b f) (vecCmp e.2 d a b f) s := by
  simp only [vectorCompareRules, List.forall_mem_cons, List.not_mem_nil, false_implies, implies_true, and_true]
  exact ⟨rfl, rfl, rfl, rfl⟩

/-- Lanes made from a list, with the flags of each. -/
theorem writeLanes_map_ok {α : Type} {d : Opnd} {f : VFmt} {l : List α} {g : α → Nat × Flags} {c c1 : TCtx}
    (hd : write64 d (VFmt.pack f (l.map (fun r => (g r).1))) c = .ok ((), c1)) :
    writeLanes d f (l.map g) c = .ok ((), withFlags c1 (orFlags (l.map (fun r => (g r).2)))) := by
  have lanes : (l.map g).map Prod.fst = l.map (fun r => (g r).1) := List.map_map
  have flags : (l.map g).map Prod.snd = l.map (fun r => (g r).2) := List.map_map
  rw [← lanes] at hd
  rw [← flags]
  exact writeLanes_ok hd

theorem vectorCompareSelectResult_holds : vectorCompareSelectResult := by
  refine ⟨fun e he d a b f s c c1 c2 c3 x y start ha hb hd => ?compare, fun d a b f s c c1 c2 c3 c4 x y z start ha hb hz hd => ?select⟩
  case compare =>
    rw [vectorCompare_runs d a b f s e he]
    exact runTask_done start _ ((tm_bind_ok (read2_ok ha hb)).trans (writeLanes_map_ok hd))
  case select => exact runTask_done start _ ((tm_bind_ok (read2_ok ha hb)).trans ((tm_bind_ok hz).trans hd))

/-- Settles O17: sources and the accumulating operand or mask read in order, lanes written, flags raised. -/
theorem vectorFusedCompareSelect : Obligations.VectorFusedCompareSelect := ⟨vectorFusedResult_holds, vectorCompareSelectResult_holds⟩

end Sys2Proof.Machine

/-! PROOFS. Results of the permutes and of `cmpr.2of4`, and the lanes that it keeps (R195, R196). -/

namespace Sys2Proof.Machine

/-! ### Permutes (R195) -/

theorem permute_runs (d a b : Opnd) (f : VFmt) (s : State) :
    ∀ e ∈ permuteRules, exec (e.1 d a b f) s = run1 (e.1 d a b f) (perm2 d a b f (e.2 f)) s := by
  simp only [permuteRules, List.forall_mem_cons, List.not_mem_nil, false_implies, implies_true, and_true]
  exact ⟨rfl, rfl, rfl⟩

/-- `ext` extends the sign of the signed formats. -/
theorem ext_completes {d a : Opnd} {m : BitVec 6} {f : VFmt} {s : State} {c c1 c2 : TCtx} {x : W64} (start : Starts (.vExt d a m f) 1 s c)
    (ha : read64 a c = .ok (x, c1))
    (hd : write64 d (if f = .s8 ∨ f = .s16 ∨ f = .s32 then BitVec.ofInt 64 (sextInt (lane f.width x m.toNat) f.width)
      else BitVec.ofNat 64 (lane f.width x m.toNat)) c1 = .ok ((), c2)) :
    exec (.vExt d a m f) s = .next (completed s c2) := by
  have signed : (f = .s8 ∨ f = .s16 ∨ f = .s32) = ((f == .s8 || f == .s16 || f == .s32) = true) := by
    simp only [Bool.or_eq_true, beq_iff_eq, or_assoc]
  simp only [signed] at hd
  exact runTask_done start _ ((tm_bind_ok ha).trans hd)

theorem compress_completes {d a : Opnd} {p : Fin 4} {f : VFmt} {s : State} {c c1 c2 : TCtx} {x : W64}
    (start : Starts (.cmpr2of4 d a p f) 1 s c) (ha : read64 a c = .ok (x, c1)) {k : Nat × Nat}
    (kept : cmprKeep ((VFmt.lanesOf f x).map (cmprRank f)) = k)
    (hd : write64 d (packLanes 16 [(VFmt.lanesOf f x)[k.1]?.getD 0, (VFmt.lanesOf f x)[k.2]?.getD 0]) c1 = .ok ((), c2)) :
    exec (.cmpr2of4 d a p f) s = .next (completed s (withPred c2 p (BitVec.ofNat 4 (2 ^ k.1 + 2 ^ k.2)))) := by
  have writable := ne_zero_of_formed (.cmpr2of4 d a · f) (cmpr2of4_zero_wf d a f) start.formed
  subst kept
  exact runTask_done start _ ((tm_bind_ok ha).trans ((tm_bind_ok hd).trans (writePred_ok writable _ c2)))

theorem vectorPermuteResult_holds : vectorPermuteResult := by
  refine ⟨fun e he d a b f s c c1 c2 c3 x y start ha hb hd => ?permute,
    fun d a m f s c c1 c2 x start ha hd => runTask_done start _ ((tm_bind_ok ha).trans hd),
    fun d a m f s c c1 c2 x start ha hd => runTask_done start _ ((tm_bind_ok ha).trans hd),
    fun d a m f s c c1 c2 c3 x z start ha hz hd => runTask_done start _ ((tm_bind_ok ha).trans ((tm_bind_ok hz).trans hd)),
    fun d a m f s c c1 c2 x start ha hd => ext_completes start ha hd,
    fun d a p f s c c1 c2 x start ha hd => compress_completes start ha rfl hd⟩
  case permute =>
    rw [permute_runs d a b f s e he]
    exact runTask_done start _ ((tm_bind_ok (read2_ok ha hb)).trans hd)

/-! ### The lanes that `cmpr.2of4` keeps (R196) -/

theorem cmprBetter_iff {r : List Nat} {j k : Nat} :
    cmprBetter r j k = true ↔ r[k]?.getD 0 < r[j]?.getD 0 ∨ r[j]?.getD 0 = r[k]?.getD 0 ∧ j < k := by
  simp only [cmprBetter, Bool.or_eq_true, Bool.and_eq_true, decide_eq_true_eq, beq_iff_eq]

theorem cmprBest_mem (r : List Nat) {ks : List Nat} (nonempty : ks ≠ []) : cmprBest r ks ∈ ks := by
  fun_induction cmprBest r ks with
  | case1 => exact absurd rfl nonempty
  | case2 k => exact List.mem_singleton_self k
  | case3 k ks => exact List.mem_cons_self
  | case4 k ks more b worse ih => exact List.mem_cons_of_mem k (ih more)

/-- No lane of a list outranks the best of it. -/
theorem le_cmprBest (r : List Nat) (ks : List Nat) : ∀ j ∈ ks, r[j]?.getD 0 ≤ r[cmprBest r ks]?.getD 0 := by
  fun_induction cmprBest r ks with
  | case1 => simp only [List.not_mem_nil, false_implies, implies_true]
  | case2 k => simp only [List.mem_singleton, forall_eq, le_refl]
  | case3 k ks more best better ih =>
    have outranks : r[best]?.getD 0 ≤ r[k]?.getD 0 := (cmprBetter_iff.mp better).elim le_of_lt (fun same => same.1.ge)
    exact List.forall_mem_cons.mpr ⟨le_rfl, fun j hj => (ih j hj).trans outranks⟩
  | case4 k ks more best worse ih =>
    have outranked : r[k]?.getD 0 ≤ r[best]?.getD 0 := not_lt.mp (fun greater => worse (cmprBetter_iff.mpr (.inl greater)))
    exact List.forall_mem_cons.mpr ⟨outranked, ih⟩

theorem mem_lanes {j : Nat} : j ∈ [0, 1, 2, 3] ↔ j < 4 := List.mem_range (n := 4)

theorem mem_lanes_ne {j k : Nat} : j ∈ [0, 1, 2, 3].filter (fun j => j != k) ↔ j < 4 ∧ j ≠ k := by
  rw [List.mem_filter, mem_lanes, bne_iff_ne]

theorem other_lanes_ne_nil (k : Nat) : [0, 1, 2, 3].filter (fun j => j != k) ≠ [] := by
  cases k with
  | zero => exact List.ne_nil_of_mem (mem_lanes_ne.mpr ⟨by decide, Nat.one_ne_zero⟩)
  | succ k => exact List.ne_nil_of_mem (mem_lanes_ne.mpr ⟨by decide, (Nat.succ_ne_zero k).symm⟩)

/-- The lanes kept are the best of all and the best of the others, in rising order. -/
theorem cmprKeep_eq (r : List Nat) : ∃ p q, p < 4 ∧ q < 4 ∧ q ≠ p ∧ cmprKeep r = (min p q, max p q) ∧
    (∀ j < 4, r[j]?.getD 0 ≤ r[p]?.getD 0) ∧ ∀ j < 4, j ≠ p → r[j]?.getD 0 ≤ r[q]?.getD 0 := by
  have first := mem_lanes.mp (cmprBest_mem r (List.cons_ne_nil 0 [1, 2, 3]))
  obtain ⟨second, differ⟩ := mem_lanes_ne.mp (cmprBest_mem r (other_lanes_ne_nil (cmprBest r [0, 1, 2, 3])))
  exact ⟨_, _, first, second, differ, rfl, fun j hj => le_cmprBest r _ j (mem_lanes.mpr hj),
    fun j hj other => le_cmprBest r _ j (mem_lanes_ne.mpr ⟨hj, other⟩)⟩

theorem compressKeepsTheLargest_holds : compressKeepsTheLargest := by
  intro a b c d r k
  obtain ⟨p, q, first, second, differ, kept, best, best_other⟩ := cmprKeep_eq r
  rw [show k = (min p q, max p q) from kept]
  rcases differ.lt_or_gt with rises | rises
  · rw [min_eq_right rises.le, max_eq_left rises.le]
    exact ⟨rises, first, fun j hj hq hp => ⟨best_other j hj hp, best j hj⟩⟩
  · rw [min_eq_left rises.le, max_eq_right rises.le]
    exact ⟨rises, second, fun j hj hp hq => ⟨best j hj, best_other j hj hp⟩⟩

/-- Settles O18: each permute writes the lanes that its rule names, and `cmpr.2of4` the best lane and the best of the others. -/
theorem vectorPermute : Obligations.VectorPermute := ⟨vectorPermuteResult_holds, compressKeepsTheLargest_holds⟩

end Sys2Proof.Machine

/-! PROOFS. Results of the conversions, reductions and scaling of vectors (R197 to R202). -/

namespace Sys2Proof.Machine

/-! ### Conversions (R197, R198) -/

theorem cvt_completes {d a : Opnd} {mode : Mode} {sat : Bool} {f g : VFmt} {s : State} {c c1 c2 : TCtx} {x : W64} {rs : List (Nat × Flags)}
    (start : Starts (.vCvt d a mode sat f g) 1 s c) (ha : read64 a c = .ok (x, c1))
    (lanes : ((VFmt.lanesOf f x).take (min f.lanes g.lanes)).zipIdx.map (fun e => cvtElem mode sat f g (cvtRho c1.tk e.2) e.1) = rs)
    (hd : write64 d (packed g rs) c1 = .ok ((), c2)) {c3 : TCtx} (raised : withFlags c2 (orFlags (rs.map Prod.snd)) = c3) :
    exec (.vCvt d a mode sat f g) s = .next (completed s (if mode = .sr then
      { c3 with tk := { c3.tk with srCount := (c3.tk.srCount + 1) % 536870912 } } else c3)) := by
  subst lanes raised
  refine runTask_done start _ ((tm_bind_ok ha).trans ((tm_bind_ok (getTk_run c1)).trans ((tm_bind_ok (writeLanes_ok hd)).trans ?_)))
  by_cases stochastic : mode = .sr
  · rw [if_pos stochastic, if_pos (beq_iff_eq.mpr stochastic)]
    rfl
  · rw [if_neg stochastic, if_neg (mt beq_iff_eq.mp stochastic)]
    rfl

/-! ### Reductions (R199) -/

theorem isInt_iff {f : VFmt} : VFmt.isInt f = true ↔ f.idx ≤ 5 := decide_eq_true_iff

section
variable {d a b : Opnd} {f : VFmt} {s : State} {c c1 c2 c3 : TCtx} {x y : W64}

theorem rsum_int_ok (int : f.idx ≤ 5) (ha : read64 a c = .ok (x, c1))
    (hd : write32 d (BitVec.ofNat 32 (((VFmt.lanesOf f x).map (lane32 f)).foldl (fun p q => p + q) 0)) c1 = .ok ((), c2)) :
    vecRsum d a f c = .ok ((), c2) := by
  unfold vecRsum
  rw [tm_bind_ok ha, if_pos (isInt_iff.mpr int)]
  exact hd

theorem rsum_flt_ok (flt : ¬ f.idx ≤ 5) (ha : read64 a c = .ok (x, c1))
    (hd : write32 d (BitVec.ofNat 32 (redSum ((VFmt.lanesOf f x).map (redTerm f))).1) c1 = .ok ((), c2)) :
    vecRsum d a f c = .ok ((), withFlags c2 (redSum ((VFmt.lanesOf f x).map (redTerm f))).2) := by
  unfold vecRsum
  rw [tm_bind_ok ha, if_neg (mt isInt_iff.mp flt)]
  exact tm_bind_ok hd

theorem rdot_int_ok (int : f.idx ≤ 5) (ha : read64 a c = .ok (x, c1)) (hb : read64 b c1 = .ok (y, c2))
    (hd : write32 d (BitVec.ofNat 32 ((List.zipWith (fun p q => lane32 f p * lane32 f q) (VFmt.lanesOf f x) (VFmt.lanesOf f y)).foldl
      (fun p q => p + q) 0)) c2 = .ok ((), c3)) :
    vecRdot d a b f c = .ok ((), c3) := by
  unfold vecRdot
  refine (tm_bind_ok (read2_ok ha hb)).trans ?_
  dsimp only
  rw [if_pos (isInt_iff.mpr int)]
  exact hd

theorem rdot_flt_ok (flt : ¬ f.idx ≤ 5) (ha : read64 a c = .ok (x, c1)) (hb : read64 b c1 = .ok (y, c2)) {r : Nat × Flags}
    (sum : redSum (List.zipWith (fun p q => FFmt.fp32.rnd (((vElem f).decode p).mul ((vElem f).decode q)))
      (VFmt.lanesOf f x) (VFmt.lanesOf f y)) = r)
    (hd : write32 d (BitVec.ofNat 32 r.1) c2 = .ok ((), c3)) :
    vecRdot d a b f c = .ok ((), withFlags c3 r.2) := by
  subst sum
  unfold vecRdot
  refine (tm_bind_ok (read2_ok ha hb)).trans ?_
  dsimp only
  rw [if_neg (mt isInt_iff.mp flt)]
  exact tm_bind_ok hd

variable {isMax : Bool}

theorem rext_int_ok (int : f.idx ≤ 5) (ha : read64 a c = .ok (x, c1))
    (hd : write32 d (BitVec.ofInt 32 (pickInt isMax ((VFmt.lanesOf f x).map (intVal (f.idx % 2 == 0) f.width)))) c1 = .ok ((), c2)) :
    vecRext isMax d a f c = .ok ((), c2) := by
  unfold vecRext
  rw [tm_bind_ok ha, if_pos (isInt_iff.mpr int)]
  exact hd

theorem rext_nan_ok (flt : ¬ f.idx ≤ 5) (ha : read64 a c = .ok (x, c1))
    (nan : ((VFmt.lanesOf f x).map (vElem f).decode).any XReal.isNaN = true) (hd : write32 d 0x7FC00000#32 c1 = .ok ((), c2)) :
    vecRext isMax d a f c = .ok ((), if ((VFmt.lanesOf f x).map (vElem f).decode).any XReal.isSig then withFlags c2 fNV else c2) := by
  unfold vecRext
  rw [tm_bind_ok ha, if_neg (mt isInt_iff.mp flt), if_pos nan]
  refine (tm_bind_ok hd).trans ?_
  split <;> rfl

theorem rext_num_ok (flt : ¬ f.idx ≤ 5) (ha : read64 a c = .ok (x, c1))
    (number : ((VFmt.lanesOf f x).map (vElem f).decode).any XReal.isNaN = false)
    (hd : write32 d (BitVec.ofNat 32 (FFmt.fp32.rnd (pickReal isMax ((VFmt.lanesOf f x).map (vElem f).decode))).1) c1 = .ok ((), c2)) :
    vecRext isMax d a f c = .ok ((), c2) := by
  unfold vecRext
  rw [tm_bind_ok ha, if_neg (mt isInt_iff.mp flt), if_neg (ne_true_of_eq_false number)]
  exact hd

theorem extremes_run (d a : Opnd) (f : VFmt) (s : State) :
    ∀ e ∈ [(Instr.vRmax, true), (Instr.vRmin, false)], exec (e.1 d a f) s = run1 (e.1 d a f) (vecRext e.2 d a f) s := by
  simp only [List.forall_mem_cons, List.not_mem_nil, false_implies, implies_true, and_true]
  exact ⟨rfl, rfl⟩

end

theorem vectorConvertReduceResult_holds : vectorConvertReduceResult := by
  refine ⟨fun d a mode sat f g s c c1 c2 x start ha hd => cvt_completes start ha rfl hd rfl,
    fun d a f s c c1 c2 x start ha => ⟨fun int hd => runTask_done start _ (rsum_int_ok int ha hd),
      fun flt hd => runTask_done start _ (rsum_flt_ok flt ha hd)⟩,
    fun d a b f s c c1 c2 c3 x y start ha hb => ⟨fun int hd => runTask_done start _ (rdot_int_ok int ha hb hd),
      fun flt hd => runTask_done start _ (rdot_flt_ok flt ha hb rfl hd)⟩,
    fun e he d a f s c c1 c2 x start ha => ?extreme⟩
  rw [extremes_run d a f s e he]
  exact ⟨fun int hd => runTask_done start _ (rext_int_ok int ha hd), fun flt nan hd => runTask_done start _ (rext_nan_ok flt ha nan hd),
    fun flt number hd => runTask_done start _ (rext_num_ok flt ha number hd)⟩

/-! ### Scaling (R200 to R202) -/

theorem vectorScaleResult_holds : vectorScaleResult := by
  refine ⟨fun d a m f s c c1 c2 x start ha hd => ?scl, fun d a b f s c c1 c2 c3 x y start ha hb hd => ?ldexp,
    fun d a b f s c c1 c2 c3 x y start ha hb hd => ?pack, fun d a b f s c c1 c2 c3 x y start ha hb hd => ?unpack,
    fun d a b f s c c1 c2 c3 x y z start ha hb hz number c4 hd => ?sclx⟩
  case scl => exact runTask_done start _ ((tm_bind_ok ha).trans ((tm_bind_ok (getTk_run c1)).trans (writeLanes_ok hd)))
  case ldexp => exact runTask_done start _ ((tm_bind_ok (read2_ok ha hb)).trans (writeLanes_ok hd))
  case pack => exact runTask_done start _ ((tm_bind_ok (read2_ok ha hb)).trans (tm_bind_ok hd))
  case unpack => exact runTask_done start _ ((tm_bind_ok (read2_ok ha hb)).trans (writeLanes_ok hd))
  case sclx =>
    refine runTask_done start _ ((tm_bind_ok (read2_ok ha hb)).trans ((tm_bind_ok hz).trans ?_))
    -- no NaN stands in the amax, so nothing of the free value is left
    rw [number]
    exact hd

/-- Settles O19: lanes converted, reduced or scaled from the sources read in order, the result written, flags raised. -/
theorem vectorConvertReduceScale : Obligations.VectorConvertReduceScale := ⟨vectorConvertReduceResult_holds, vectorScaleResult_holds⟩

end Sys2Proof.Machine

/-! PROOFS. Firings of the operators that compute, and what their heads make of them: results, control tokens, Nulls, and a halt (R205 to R212,
R221, R222). -/

namespace Sys2Proof.Machine

/-! ### A firing that has room for records that can be formed (R35, R38, R50) -/

theorem commit_fires {s : State} {t : Nat} {outCh : Vector (Option Nat) 16} {outs : List (Nat × Rec)} (ins : List FireIn) (tag : Instr)
    (takes : List Nat) (f : State → State) (room : hasRoom s t outCh (outs.map Prod.fst) = true) (formed : firstFormFault s t outCh outs = none) :
    Firing.commit s t outCh ins tag takes outs f =
      .fire tag (f (sendOuts (takeHeads s t ins takes) t outCh (outs.map (fun e => (e.1, Rec.follow e.2 (takenOrd ins takes)))))) := by
  simp only [Firing.commit, room, formed, Bool.not_true, Bool.false_eq_true, if_false]

/-! ### The events of an operator node -/

/-- `e` is an event of operator nodes: what the node of its subject does next, if `e` is that. -/
def IsOperEvent (e : Instr) : Prop := ∀ s, exec e s = .next (operEventOf e s)

theorem IsOperEvent.ite {c : Prop} [Decidable c] {a b : Instr} (ha : IsOperEvent a) (hb : IsOperEvent b) : IsOperEvent (if c then a else b) := by
  split
  · exact ha
  · exact hb

theorem isOperEvent_operTag (code : Nat) : IsOperEvent (operTag code) := by
  unfold operTag
  repeat' refine .ite ?_ ?_
  all_goals exact fun _ => rfl

/-- Neither an arithmetic operator nor a conversion has an input for control alone (R215, R216, R222). -/
theorem controlPorts_of_le {code : Nat} (hc : code ≤ 0x22) : controlPorts code = [] := by
  unfold controlPorts
  rw [if_neg (by omega), if_neg (by omega)]

theorem fireIns_eq_insOf (s : State) (t : Nat) (o : OperRt) : fireIns s t o.inCh.toList 0 = insOf s t o := rfl

section
variable {s : State} {t n code : Nat} {o : OperRt} (h : operAt s t n o code)
include h

/-- The event that the next firing is takes place. -/
theorem operEventOf_fires {ev : Instr} {s' : State} (fires : operFiring s t n o = .fire ev s') : operEventOf ev s = s' := by
  obtain ⟨subject, node, running, moves, -, clear, -⟩ := h
  simp only [operEventOf, operEvent, subject, node, running, moves, clear, fires, Bool.not_true, Bool.or_self, Bool.false_eq_true, if_false,
    beq_self_eq_true, if_true]

/-- Where the next firing is committed and its records have room and can be formed, its event leaves the state of that firing. -/
theorem exec_of_commit {ev : Instr} (event : IsOperEvent ev) {takes : List Nat} {outs : List (Nat × Rec)}
    (next : operFiring s t n o = Firing.commit s t o.outCh (insOf s t o) ev takes outs id) (can : canSend s t o outs) :
    exec ev s = .next (fired s t o takes outs) := by
  rw [event, operEventOf_fires h (next.trans (commit_fires _ _ _ _ can.1 can.2))]
  rfl

theorem clearInputs_of_noControl (plain : controlPorts code = []) : clearInputs s t [] (insOf s t o) = s := by
  obtain ⟨-, -, -, -, rfl, clear, -⟩ := h
  rwa [operClear, plain] at clear

theorem foreignHead_of_operAt : foreignHead (insOf s t o) = none := by
  obtain ⟨-, -, -, -, -, -, own⟩ := h
  exact own

theorem operFiring_arith (arith : code ≤ 0x0F) : operFiring s t n o = arithFiring s t o := by
  obtain ⟨-, -, -, -, rfl, -, own⟩ := h
  simp only [operFiring, fireIns_eq_insOf, own, ite_self, if_pos arith]

theorem operFiring_convert (lo : 0x0F < code) (hi : code ≤ 0x22) : operFiring s t n o = convertFiring s t o := by
  obtain ⟨-, -, -, -, rfl, -, own⟩ := h
  simp only [operFiring, fireIns_eq_insOf, own, ite_self, if_neg (Nat.not_le.mpr lo), if_pos hi]

end

theorem operFiring_exchange {s : State} {t n : Nat} {o : OperRt} (h : operAt s t n o 0x39) : operFiring s t n o = exchangeFiring s t o := by
  obtain ⟨-, -, -, -, kind, -, own⟩ := h
  simp only [operFiring, fireIns_eq_insOf, own, ite_self, kind, Nat.reduceLeDiff, Nat.reduceEqDiff, if_false, if_true]

/-- A record of a foreign type halts an operator that does not pass such records (R206, R418). -/
theorem operEventOf_foreign {s : State} {t n : Nat} {o : OperRt} {r : Rec} (subject : s.subj = .node t n)
    (node : s.opers.get? (key2 t n) = some o) (running : o.halted = false) (moves : partsMove s t = true) (clear : operClear s t o = s)
    (foreign : foreignHead (insOf s t o) = some r) (own : passesForeign (wOp o.word) = false) :
    operEventOf (operTag (wOp o.word)) s = nodeFault s t n cOperand (seqArg r) := by
  have halts : operFiring s t n o = .fault cOperand (seqArg r) := by
    simp only [operFiring, fireIns_eq_insOf, own, foreign, Bool.false_eq_true, if_false]
  simp only [operEventOf, operEvent, subject, node, running, moves, clear, halts, Bool.not_true, Bool.or_self, Bool.false_eq_true, if_false,
    beq_self_eq_true, if_true]

/-! ### Types of records (R36, R207) -/

theorem isToken_of_data {r : Rec} (hr : rType r = tData) : isToken r = false := by
  simp [isToken, hr, tData, tBow, tStern, tDimEnd, tPermit, tDone]

theorem type_of_isToken {r : Rec} (hr : isToken r = true) : rType r ≠ tData ∧ rType r ≠ tNull := by
  constructor <;> intro e <;> simp [isToken, e, tData, tNull, tBow, tStern, tDimEnd, tPermit, tDone] at hr

/-! ### The general rule of firing (R206, R207, R222) -/

theorem streamHeads_eq (s : State) (t : Nat) (o : OperRt) :
    ((insOf s t o).filter (fun i => !i.resident)).filterMap FireIn.head = streamHeads s t o := rfl

theorem any_isNone_of_full {ins : List FireIn} (full : ∀ i ∈ ins, i.head.isSome = true) : ins.any (fun i => i.head.isNone) = false :=
  List.any_eq_false.mpr fun i hi => by simp [Option.isSome_iff_ne_none.mp (full i hi)]

section
variable {s : State} {t : Nat} {o : OperRt} (clear : clearInputs s t [] (insOf s t o) = s) (own : foreignHead (insOf s t o) = none)
  {tag : Instr} {data : State → List FireIn → Except (Nat × W64) (List (Nat × Rec))} {after : State → State}
include clear own

/-- Data at every input that is not resident, and no permission refused: the operator's own function gives what is sent. -/
theorem genericFiring_data (due : dataDue s t o) {rs : List (Nat × Rec)} (result : data s (insOf s t o) = .ok rs) :
    genericFiring true s t o.inCh o.outCh tag data after =
      Firing.commit s t o.outCh (insOf s t o) tag ((insOf s t o).map FireIn.port) rs after := by
  obtain ⟨full, allData, granted, room⟩ := due
  have noneDenied : ((insOf s t o).filter (fun i => !i.resident)).any (deniesFiring s t) = false :=
    List.any_eq_false.mpr fun i hi => by simp [granted i (List.mem_of_mem_filter hi)]
  have data' : (streamHeads s t o).all (fun r => rType r == tData) = true := by simpa using allData
  simp only [genericFiring, fireIns_eq_insOf, clear, own, streamHeads_eq, any_isNone_of_full full, noneDenied, room, result, Bool.not_true,
    Bool.and_false, Bool.false_and, Bool.false_eq_true, if_false]
  cases hs : streamHeads s t o with
  | nil => rfl
  | cons lead rest =>
    rw [hs] at data'
    simp only [data', if_true]

variable (full : ∀ i ∈ insOf s t o, i.head.isSome = true) {lead : Rec} {rest : List Rec} (heads : streamHeads s t o = lead :: rest)
include full heads

/-- The same control token at every input that is not resident goes to every output. -/
theorem genericFiring_token (token : isToken lead = true) (same : ∀ r ∈ rest, sameToken lead r = true) :
    genericFiring true s t o.inCh o.outCh tag data after = Firing.commit s t o.outCh (insOf s t o) .controlTokenFiring
      (((insOf s t o).filter (fun i => !i.resident)).map FireIn.port) (copies (boundPorts o.outCh) lead) id := by
  obtain ⟨notData, notNull⟩ := type_of_isToken token
  have same' : rest.all (sameToken lead) = true := by simpa using same
  simp only [genericFiring, fireIns_eq_insOf, clear, own, streamHeads_eq, heads, any_isNone_of_full full, List.all_cons, token, same',
    beq_eq_false_iff_ne.mpr notData, beq_eq_false_iff_ne.mpr notNull, Bool.not_true, Bool.and_false, Bool.false_and, Bool.and_self,
    Bool.false_eq_true, if_false, if_true]

/-- Nulls at every input that is not resident make a Null on every output. -/
theorem genericFiring_nulls (nulls : ∀ r ∈ lead :: rest, rType r = tNull) :
    genericFiring true s t o.inCh o.outCh tag data after = Firing.commit s t o.outCh (insOf s t o) .nullFiring
      ((insOf s t o).map FireIn.port) (copies (boundPorts o.outCh) (madeNull lead.hdr)) id := by
  have nulls' : (lead :: rest).all (fun r => rType r == tNull) = true := by simpa using nulls
  have notData : (lead :: rest).all (fun r => rType r == tData) = false := by
    rw [List.all_cons, nulls lead List.mem_cons_self]
    rfl
  simp only [genericFiring, fireIns_eq_insOf, clear, own, streamHeads_eq, heads, any_isNone_of_full full, nulls', notData, Bool.false_eq_true,
    if_false, if_true, ite_self]

/-- Data of which one is a permission with carg 0 makes a Null on every output. -/
theorem genericFiring_denied (allData : ∀ r ∈ lead :: rest, rType r = tData)
    (refused : ∃ i ∈ insOf s t o, i.resident = false ∧ deniesFiring s t i = true) :
    genericFiring true s t o.inCh o.outCh tag data after = Firing.commit s t o.outCh (insOf s t o) .nullFiring
      ((insOf s t o).map FireIn.port) (copies (boundPorts o.outCh) (madeNull lead.hdr)) id := by
  obtain ⟨i, mem, stream, denies⟩ := refused
  have oneDenied : ((insOf s t o).filter (fun i => !i.resident)).any (deniesFiring s t) = true :=
    List.any_eq_true.mpr ⟨i, List.mem_filter.mpr ⟨mem, by simp [stream]⟩, denies⟩
  have noToken : (lead :: rest).all (fun r => !isToken r) = true :=
    List.all_eq_true.mpr fun r hr => by simp [isToken_of_data (allData r hr)]
  simp only [genericFiring, fireIns_eq_insOf, clear, own, streamHeads_eq, heads, any_isNone_of_full full, oneDenied, noToken, Bool.and_self,
    Bool.false_eq_true, if_false, if_true]

end

/-- Arithmetic operators and conversions fire by the general rule. -/
theorem operFiring_generic {s : State} {t n code : Nat} {o : OperRt} (h : operAt s t n o code) (hc : code ≤ 0x22) :
    ∃ tag data, operFiring s t n o = genericFiring true s t o.inCh o.outCh tag data id := by
  rcases Nat.lt_or_ge 0x0F code with conv | arith
  · rw [operFiring_convert h conv hc]
    unfold convertFiring
    exact ⟨_, _, rfl⟩
  · rw [operFiring_arith h arith]
    exact ⟨_, _, rfl⟩

/-! ### Results (R210, R212, R221) -/

/-- The operator fires by the general rule, and its Data heads give the records `rs` by the event `tag`. -/
def Computes (s : State) (t n : Nat) (o : OperRt) (tag : Instr) (rs : List (Nat × Rec)) : Prop :=
  ∃ data, operFiring s t n o = genericFiring true s t o.inCh o.outCh tag data id ∧ data s (insOf s t o) = .ok rs

theorem exec_of_computes {s : State} {t n code : Nat} {o : OperRt} {tag : Instr} {rs : List (Nat × Rec)} (h : operAt s t n o code)
    (plain : controlPorts code = []) (event : IsOperEvent tag) (computes : Computes s t n o tag rs) (due : dataDue s t o)
    (can : canSend s t o rs) : exec tag s = .next (fired s t o ((insOf s t o).map FireIn.port) rs) := by
  obtain ⟨data, general, result⟩ := computes
  have clear := clearInputs_of_noControl h plain
  have own := foreignHead_of_operAt h
  exact exec_of_commit h event (general.trans (genericFiring_data clear own due result)) can

section
variable {s : State} {t n : Nat} {o : OperRt} {x : Rec} (hx : headAt (insOf s t o) 0 = some x)
include hx

theorem computes_arith {code : Nat} (h : operAt s t n o code) (arith : code ≤ 0x0F) {r : Rec}
    (result : arithRec o.word o.fmt x (headAt (insOf s t o) 1) (headAt (insOf s t o) 2) = .ok r) :
    Computes s t n o .arithmeticFiring [(0, r)] := by
  refine ⟨_, operFiring_arith h arith, ?_⟩
  simp only [hx, result, Except.map]

theorem computes_convert (h : operAt s t n o 0x20) : Computes s t n o .convert [(0, convertRec o.word o.fmt x)] := by
  have conv := operFiring_convert h (by decide) (by decide)
  obtain ⟨-, -, -, -, kind, -, -⟩ := h
  simp only [convertFiring, kind, if_true] at conv
  refine ⟨_, conv, ?_⟩
  simp only [hx]

theorem computes_mxPack (h : operAt s t n o 0x21) {r : Rec} (result : mxPackRec o.word o.fmt x = .ok r) : Computes s t n o .mxPack [(0, r)] := by
  have conv := operFiring_convert h (by decide) (by decide)
  obtain ⟨-, -, -, -, kind, -, -⟩ := h
  simp only [convertFiring, kind, Nat.reduceEqDiff, if_false, if_true] at conv
  refine ⟨_, conv, ?_⟩
  simp only [hx, result, Except.map]

theorem computes_mxUnpack (h : operAt s t n o 0x22) : Computes s t n o .mxUnpack [(0, mxUnpackRec o.word o.fmt x)] := by
  have conv := operFiring_convert h (by decide) (by decide)
  obtain ⟨-, -, -, -, kind, -, -⟩ := h
  simp only [convertFiring, kind, Nat.reduceEqDiff, if_false] at conv
  refine ⟨_, conv, ?_⟩
  simp only [hx]

theorem computes_exchange (h : operAt s t n o 0x39) {y a b : Rec} (hy : headAt (insOf s t o) 1 = some y)
    (result : exchangeRecs (wFmt o.word) (bitOf o.word 96) x y = .ok (a, b)) : Computes s t n o .compareExchange [(0, a), (1, b)] := by
  refine ⟨_, operFiring_exchange h, ?_⟩
  simp only [hx, hy, result, Except.map]

end

/-! ### Tokens and Nulls (R207, R222) -/

theorem structureFirings {s : State} {t n code : Nat} {o : OperRt} {lead : Rec} {rest : List Rec} (h : operAt s t n o code) (hc : code ≤ 0x22)
    (full : ∀ i ∈ insOf s t o, i.head.isSome = true) (heads : streamHeads s t o = lead :: rest) :
    (isToken lead = true → (∀ r ∈ rest, sameToken lead r = true) → canSend s t o (copies (boundPorts o.outCh) lead) →
      exec .controlTokenFiring s = .next (fired s t o (((insOf s t o).filter (fun i => !i.resident)).map FireIn.port)
        (copies (boundPorts o.outCh) lead))) ∧
    ((∀ r ∈ lead :: rest, rType r = tNull) ∨
        (∀ r ∈ lead :: rest, rType r = tData) ∧ (∃ i ∈ insOf s t o, i.resident = false ∧ deniesFiring s t i = true) →
      canSend s t o (copies (boundPorts o.outCh) (madeNull lead.hdr)) → exec .nullFiring s =
        .next (fired s t o ((insOf s t o).map FireIn.port) (copies (boundPorts o.outCh) (madeNull lead.hdr)))) := by
  obtain ⟨tag, data, general⟩ := operFiring_generic h hc
  have clear := clearInputs_of_noControl h (controlPorts_of_le hc)
  have own := foreignHead_of_operAt h
  refine ⟨fun token same can => ?_, fun why can => ?_⟩
  · exact exec_of_commit h (fun _ => rfl) (general.trans (genericFiring_token clear own full heads token same)) can
  · rcases why with nulls | ⟨allData, refused⟩
    · exact exec_of_commit h (fun _ => rfl) (general.trans (genericFiring_nulls clear own full heads nulls)) can
    · exact exec_of_commit h (fun _ => rfl) (general.trans (genericFiring_denied clear own full heads allData refused)) can

/-- Settles O52: results by what each kind of operator computes, tokens and Nulls by the general rule, and the halt at a foreign record. -/
theorem operatorFirings : Obligations.OperatorFirings := by
  refine ⟨fun s t n code o x r h _ hi due hx result can => ?_,
    fun s t n o x due hx => ⟨fun h can => ?_, fun r h result can => ?_, fun h can => ?_, fun y a b h hy result can => ?_⟩, fun s t n code o lead rest h hc full heads => ?_,
    fun s t n o r subject node running moves clear foreign own => ?_⟩
  · exact exec_of_computes h (controlPorts_of_le (by omega)) (fun _ => rfl) (computes_arith hx h hi result) due can
  · exact exec_of_computes h rfl (fun _ => rfl) (computes_convert hx h) due can
  · exact exec_of_computes h rfl (fun _ => rfl) (computes_mxPack hx h result) due can
  · exact exec_of_computes h rfl (fun _ => rfl) (computes_mxUnpack hx h) due can
  · exact exec_of_computes h rfl (fun _ => rfl) (computes_exchange hx h hy result) due can
  · obtain ⟨tokens, nulls⟩ := structureFirings h hc full heads
    exact ⟨tokens, fun all => nulls (.inl all), fun all refused => nulls (.inr ⟨all, refused⟩)⟩
  · rw [isOperEvent_operTag, operEventOf_foreign subject node running moves clear foreign own]

end Sys2Proof.Machine

/-! PROOFS. A permission with carg 0 at a null merge: the operator emits a Null, and not the record beside it (R216, R222). -/

namespace Sys2Proof.Machine

/-! ### A null merge behind a loop-exit drain -/

/-- A channel from output `oport` of node `src` to input `iport` of node `dst`, with room for four records. -/
def plainChan (src oport dst iport : Nat) : ChanE :=
  { src := src, oport := oport, dst := dst, iport := iport, trig := false, depth := 4, width := 8, ratelo := 0, ratehi := 0, sticky := 0, level := 0 }

/-- The null merge of node 2: inputs 0 and 1 from channels 0 and 1, and output 0 to channel 8. -/
def nullMergeNode : OperRt :=
  { OperRt.entry (bareTenure 0 []).g 2 (0x33 * 2 ^ 120) Fmt.zero with
    inCh := ((Vector.replicate 16 none).set 0 (some 0)).set 1 (some 1), outCh := (Vector.replicate 16 none).set 0 (some 8) }

/-- A permission with carg 0 (R222). -/
def refusedPermission : Rec := dataRec 0 5 0 []
/-- The record beside it. -/
def besideRefused : Rec := dataRec 6 5 7 [2]

/-- Node 2 merges the permissions of the loop-exit drain of node 4 with the records of node 3, and one of each stands at its inputs. -/
def refusedMerge : State :=
  { State.reset with
    dawn := { State.reset.dawn with power := .on }, tenures := [(1, bareTenure 0 [])], nextTenure := 2, subj := .node 1 2
    chans := [(key2 1 0, { ChanRt.entry (plainChan 4 2 2 0) with buf := [refusedPermission] }),
      (key2 1 1, { ChanRt.entry (plainChan 3 0 2 1) with buf := [besideRefused] }), (key2 1 8, ChanRt.entry (plainChan 2 0 5 0))]
    opers := [(key2 1 2, nullMergeNode), (key2 1 4, OperRt.entry (bareTenure 0 []).g 4 (0x3A * 2 ^ 120) Fmt.zero)] }

/-- The records that node 2 has sent. -/
def mergeSent (s : State) : List Rec := (s.chan? 1 8).elim [] ChanRt.transit

theorem refusedMerge_operAt : operAt refusedMerge 1 2 nullMergeNode 0x33 :=
  ⟨rfl, rfl, rfl, by decide +kernel, by decide +kernel, rfl, by decide +kernel⟩

/-- The null merge takes both records of the position and emits a Null (R222). -/
theorem refusedMerge_sendsNull : mergeSent (operEventOf .nullMerge refusedMerge) = [madeNull refusedPermission.hdr] := by decide +kernel

theorem mergeSent_fired : mergeSent (fired refusedMerge 1 nullMergeNode [0, 1] [(0, besideRefused)]) = [besideRefused] := by decide +kernel

/-- Refutes O53: the statement counts a permission with carg 0 at a null merge as one Null of the two records, and has the record beside it
sent; the model has both consumed and a Null emitted, as R222 says. (The clause on fair merges fails at such a record too: it has it sent
unchanged, where the model has a Null in its place.) -/
theorem not_streamOperators : ¬ Obligations.StreamOperators := by
  intro h
  obtain ⟨-, -, -, bothHeads, -, -⟩ := h
  obtain ⟨-, nullBeside, -⟩ := bothHeads refusedMerge 1 2 nullMergeNode (madeNull refusedPermission.hdr) besideRefused
    (by decide +kernel) (by decide +kernel)
  have passes : exec .nullMerge refusedMerge = .next (fired refusedMerge 1 nullMergeNode [0, 1] [(0, besideRefused)]) :=
    nullBeside refusedMerge_operAt (by decide +kernel) (by decide +kernel) (by decide +kernel) ⟨by decide +kernel, by decide +kernel⟩
  have same : operEventOf .nullMerge refusedMerge = fired refusedMerge 1 nullMergeNode [0, 1] [(0, besideRefused)] := Host.Outcome.next.inj passes
  have sent := refusedMerge_sendsNull
  rw [same, mergeSent_fired] at sent
  exact absurd sent (by decide +kernel)

end Sys2Proof.Machine

/-! PROOFS. A gather whose index record names no element: its record is sent, and no access is put behind the host writes that the index record
follows on (R225, R339). -/

namespace Sys2Proof.Machine

/-! ### A gather with nothing to read -/

/-- The start record of the nest in progress. -/
def gatherStart : Rec := dataRec 0 5 0 [0]

/-- An index record of len 0, which follows on write 7 of the host port (R339). -/
def emptyIndex : Rec := { dataRec 0 6 0 [] with ord := [7] }

/-- The nest of the start record, of whose run nothing has been read. -/
def gatherNest : Nest :=
  { base := 0, seq := 5, run := 0, phase := 1, asked := 0, got := [], held := none, ended := false, ord := [] }

/-- The gather of node 2: inputs 0 and 1 from channels 0 and 1, and output 0 to channel 8. -/
def gatherNode : GenRt :=
  { words := [0x42 * 2 ^ 120 + 2 * 2 ^ 112], fmt := Fmt.zero, halted := false, bankBytes := 0, bank := [],
    inCh := ((Vector.replicate 16 none).set 0 (some 0)).set 1 (some 1), outCh := (Vector.replicate 16 none).set 0 (some 8),
    nest := some gatherNest, made := 0, last := 0 }

/-- A write of node 3 that the host port has issued and not performed. -/
def openWrite : PortWrite :=
  { id := 7, t := 1, node := 3, lighter := none, strict := false, pa := 0, segs := [(0, [1])], req := none, tok := none, arrs := [], gates := [],
    fenced := none, after := [], ahead := [] }

/-- The gather has its start record and the index record at its inputs, and the write is on its way. -/
def emptyGather : State :=
  { State.reset with
    dawn := { State.reset.dawn with power := .on }, tenures := [(1, bareTenure 0 [])], nextTenure := 2, subj := .node 1 2, nextMsg := 8
    chans := [(key2 1 0, { ChanRt.entry (plainChan 4 0 2 0) with buf := [gatherStart] }),
      (key2 1 1, { ChanRt.entry (plainChan 3 0 2 1) with buf := [emptyIndex] }), (key2 1 8, ChanRt.entry (plainChan 2 0 5 0))]
    gens := [(key2 1 2, gatherNode)], hostPort := [openWrite] }

theorem emptyGather_genAt : genAt emptyGather 1 2 gatherNode :=
  ⟨rfl, rfl, rfl, by decide +kernel, rfl, by decide +kernel⟩

/-- Which accesses come after each write in the host port, by node and number (R339). -/
def portAfter (s : State) : List (List (Nat × Nat)) := s.hostPort.map PortWrite.after

/-- The record that the gather sends: no elements, following on the write. -/
def gathered : Rec := { dataRec 2 5 0 [] with ord := [7] }

/-- The state that the statement gives after the firing: what node 2 issues from now on comes after the write. -/
def gatherSent : State :=
  genSent (fireIns emptyGather 1 gatherNode.inCh.toList 0) (orderRec emptyGather 1 2 emptyIndex) 1 2 { gatherNode with last := 0 } gatherNest true
    gathered none

/-- The firing sends the record and uses the index record, and puts no access of node 2 after the write. -/
theorem emptyGather_fires : ((genEventOf .globalGather emptyGather).chan? 1 8).map ChanRt.transit = some [gathered] ∧
    ((genEventOf .globalGather emptyGather).chan? 1 1).map ChanRt.buf = some [] ∧ portAfter (genEventOf .globalGather emptyGather) = [[]] := by
  decide +kernel

theorem portAfter_gatherSent : portAfter gatherSent = [[(2, 8)]] := by decide +kernel

/-- Refutes O54, by the clause on the record that a gather sends: the statement has the firing put the later accesses of the generator after
what the index record follows on; in the model the issue of the reads does that, and the firing that sends starts from the state before it. The
two differ where no element had to be read. -/
theorem not_generatorsAndControllers : ¬ Obligations.GeneratorsAndControllers := by
  intro h
  obtain ⟨⟨⟨-, -, -, -, -, -, gathers, -⟩, -, -⟩, -⟩ := h
  obtain ⟨-, sends⟩ := gathers emptyGather emptyGather 1 2 gatherNode gatherNest emptyIndex emptyGather_genAt (.inl ⟨rfl, rfl⟩)
    (by decide +kernel) (by decide +kernel) rfl rfl (by decide +kernel) (by decide +kernel) (by decide +kernel)
  have stated : exec .globalGather emptyGather = .next gatherSent := sends (by decide +kernel) ⟨by decide +kernel, by decide +kernel⟩
  have same : genEventOf .globalGather emptyGather = gatherSent := Host.Outcome.next.inj stated
  obtain ⟨-, -, unordered⟩ := emptyGather_fires
  rw [same, portAfter_gatherSent] at unordered
  exact absurd unordered (by decide)

end Sys2Proof.Machine

/-! PROOFS. The multiply forms of a matrix node: columns, rows, drains, commands and tokens, and the accumulators that a row leaves (R37, R242 to
R249, R253). -/

namespace Sys2Proof.Machine

/-! ### The events of a matrix node -/

/-- An event of matrix nodes does its own work where the node of its subject may act. -/
theorem exec_of_matAt {s : State} {t n : Nat} {m : MatRt} {sorts : Bool} (h : matAt s t n m sorts) {e : Instr}
    {f : State → Nat → Nat → MatRt → State} (event : exec e s = .next (matEvent sorts f s)) : exec e s = .next (f s t n m) := by
  obtain ⟨subject, node, running, kind, moves⟩ := h
  rw [event]
  simp only [matEvent, subject, node, running, kind, moves, bne_self_eq_false, Bool.not_true, Bool.or_self, Bool.false_eq_true, if_false]

theorem matUse_of_portChan {m : MatRt} {p c : Nat} (bound : portChan m.inCh p = some c) (s : State) (t : Nat) :
    matUse s t m p = useHead s t c := by
  simp only [matUse, bound]

@[simp] theorem State.setMat_chan? (s : State) (t n u c : Nat) (m : MatRt) : (s.setMat t n m).chan? u c = s.chan? u c := rfl

/-! ### Columns (R242) -/

/-- A column for a buffer that still fills is added to it, and a full buffer makes the next one fill. -/
theorem weightColumn_fills {s : State} {t c : Nat} {m : MatRt} {x : Rec} {b : WBuf} (n : Nat) (bound : portChan m.inCh 1 = some c)
    (head : matHead s t m 1 = some x) (column : rType x = tData) (fills : m.wbufs[m.wfill]? = some b) (filling : b.full = false)
    (kept : m.wkeep = true → ∀ w ∈ m.wbufs, w.full = false) (len : x.units.length = matUnits m.wfmt m.K) :
    let full := decide (m.N ≤ b.cols.length + 1)
    weightColumn s t n m = useHead (s.setMat t n { m with
      wbufs := m.wbufs.set m.wfill { cols := b.cols ++ [x.units], full := full },
      wfill := if full then (m.wfill + 1) % m.wdepth else m.wfill }) t c := by
  have keeps : (m.wkeep && m.wbufs.any WBuf.full) = false := by
    cases hk : m.wkeep with
    | false => rfl
    | true => simpa using kept hk
  have low : ¬ 7 ≤ tData := by decide
  simp only [weightColumn, bound, head, column, low, fills, filling, keeps, len, matUse_of_portChan bound, Option.getD_some, Bool.or_self,
    Bool.false_eq_true, ne_eq, not_true_eq_false, if_false, List.length_append, List.length_cons, List.length_nil, Nat.zero_add]

/-! ### Records of `i0` that have a place there (R248, R249, R418) -/

theorem settled_iff {m : MatRt} : m.settled = true ↔ m.rows = [] ∧ m.drain = none := by
  simp [MatRt.settled]

theorem matOffence_none {m : MatRt} {x : Rec} (low : rType x < 7)
    (own : rType x = tData → hFmt x.hdr = m.afmt ∨ (matCommand x).isSome = true) : matOffence m x = none := by
  have place : (rType x == tData && hFmt x.hdr != m.afmt && (matCommand x).isNone) = false := by
    by_cases data : rType x = tData
    · rcases own data with fmt | command
      · simp [fmt]
      · simp [Option.isNone_eq_false_iff.mpr command]
    · simp [data]
  simp only [matOffence, place, Nat.not_le.mpr low, Bool.false_eq_true, if_false, ite_self]

theorem matOffence_row {m : MatRt} {x : Rec} (row : rType x = tData) (fmt : hFmt x.hdr = m.afmt) : matOffence m x = none :=
  matOffence_none (by simp [row, tData]) fun _ => .inl fmt

theorem matOffence_command {m : MatRt} {x : Rec} {cmd : Option Bool} (data : rType x = tData) (command : matCommand x = some cmd) :
    matOffence m x = none :=
  matOffence_none (by simp [data, tData]) fun _ => .inr (by rw [command]; rfl)

theorem lt_seven_of_isToken {x : Rec} (token : isToken x = true) : rType x < 7 := by
  simp only [isToken, Bool.or_eq_true, beq_iff_eq, tBow, tStern, tDimEnd, tPermit, tDone] at token
  omega

theorem matOffence_token {m : MatRt} {x : Rec} (token : isToken x = true) : matOffence m x = none :=
  matOffence_none (lt_seven_of_isToken token) fun data => absurd data (type_of_isToken token).1

/-! ### Rows enter and fire (R37, R243, R253) -/

section
variable {s : State} {t c : Nat} {m : MatRt} {x : Rec} {ch : ChanRt} (n : Nat) (bound : portChan m.inCh 0 = some c) (chan : s.chan? t c = some ch)
include bound chan

section
variable (head : matHead s t m 0 = some x) (row : rType x = tData) (fmt : hFmt x.hdr = m.afmt) (free : m.rows.length < m.adepth)
  (len : x.units.length = matUnits m.afmt m.K)
include head row fmt free len

theorem activationRow_enters (passing : ch.resident = false) :
    activationRow s t n m = (s.setMat t n { m with rows := m.rows ++ [x] }).modChan t c ChanRt.pop := by
  simp only [activationRow, bound, head, matOffence_row row fmt, row, fmt, Nat.not_le.mpr free, len, chan, passing, ne_eq, not_true_eq_false,
    or_self, if_false, Option.map_some, Option.getD_some, Bool.false_eq_true]

/-- A resident row moves again only when the firing before is over. -/
theorem activationRow_resident (stays : ch.resident = true) :
    activationRow s t n m = if m.rows.isEmpty then s.setMat t n { m with rows := m.rows ++ [x] } else s := by
  simp only [activationRow, bound, head, matOffence_row row fmt, row, fmt, Nat.not_le.mpr free, len, chan, stays, ne_eq, not_true_eq_false,
    or_self, if_false, Option.map_some, Option.getD_some, if_true]

end

/-- The oldest row fires; a resident one is used, and another consumed. -/
theorem rowFiring_fires {rest : List Rec} (rows : m.rows = x :: rest) (still : m.drain = none) (full : m.weights.full = true) :
    rowFiring s t n m =
      if ch.resident then useHead (s.setMat t n (MatRt.fireRow { m with rows := rest } x)) t c
      else (s.setMat t n (MatRt.fireRow { m with rows := rest } x)).modTenure t (fun tn => tn.conP n 1) := by
  simp only [rowFiring, rows, still, full, bound, chan, matUse_of_portChan bound, State.setMat_chan?, Option.bind_some, Option.isSome_none,
    Bool.not_true, Bool.or_self, Bool.false_eq_true, if_false]

end

theorem nullRow_fires {s : State} {t c : Nat} {m : MatRt} {x : Rec} (n : Nat) (bound : portChan m.inCh 0 = some c)
    (head : matHead s t m 0 = some x) (null : rType x = tNull) (settled : m.settled = true) (full : m.weights.full = true) :
    nullRow s t n m = useHead (s.setMat t n (m.fireNull x)) t c := by
  simp only [nullRow, head, null, settled, full, matUse_of_portChan bound, ne_eq, not_true_eq_false, Bool.not_true, Bool.false_eq_true,
    or_self, if_false]

/-! ### The accumulators after a firing (R243 to R245, R249) -/

theorem MatRt.advance_of_lt {m : MatRt} (x : Rec) (more : m.r + 1 < m.M) : m.advance x = { m with fired := true, r := m.r + 1 } :=
  if_pos more

@[simp] theorem MatRt.release_acc (m : MatRt) : m.release.acc = m.acc := rfl

/-- Whatever the counters come to, the accumulators stay. -/
@[simp] theorem MatRt.advance_acc (m : MatRt) (x : Rec) : (m.advance x).acc = m.acc := by
  simp only [MatRt.advance, apply_ite MatRt.acc, MatRt.release_acc, ite_self]

@[simp] theorem MatRt.fireRow_acc (m : MatRt) (x : Rec) : (m.fireRow x).acc =
    fireCols m (matVals m.afmt m.K (if m.afmt = 1 ∨ m.afmt = 2 then none else m.scale 0) x.units) (m.r * m.N) m.weights.cols m.acc :=
  MatRt.advance_acc _ x

theorem MatRt.fireRow_of_lt {m : MatRt} (x : Rec) (more : m.r + 1 < m.M) : m.fireRow x =
    { m with acc := (m.fireRow x).acc, live := m.live.set m.r true, seqreg := m.seqreg.set m.r (hSeq x.hdr), fired := true, r := m.r + 1 } := by
  rw [MatRt.fireRow_acc]
  exact MatRt.advance_of_lt x more

theorem MatRt.fireNull_of_lt {m : MatRt} (x : Rec) (more : m.r + 1 < m.M) : m.fireNull x =
    { m with seqreg := m.seqreg.set m.r (hSeq x.hdr), fired := true, r := m.r + 1 } :=
  MatRt.advance_of_lt x more

theorem Map.getD_set_self {α : Type} (a : Map α) (k : Nat) (x d : α) : (a.set k x).getD k d = x := by
  rw [Map.getD, Map.get?_set_self, Option.getD_some]

theorem Map.getD_set_ne {α : Type} (a : Map α) {k j : Nat} (x d : α) (h : j ≠ k) : (a.set k x).getD j d = a.getD j d := by
  rw [Map.getD, Map.get?_set_ne a k j x h, Map.getD]

theorem fireCols_outside (m : MatRt) (row : List XReal) {cols : List (List W64)} {k j : Nat} (acc : Map W32)
    (out : j < k ∨ k + cols.length ≤ j) : (fireCols m row k cols acc).getD j 0 = acc.getD j 0 := by
  induction cols generalizing k acc with
  | nil => rfl
  | cons col cols ih =>
    rw [List.length_cons] at out
    rw [fireCols, ih _ (by omega), Map.getD_set_ne acc _ 0 (by omega)]

theorem fireCols_column (m : MatRt) (row : List XReal) {cols : List (List W64)} {k i : Nat} {col : List W64} (acc : Map W32)
    (place : cols[i]? = some col) : (fireCols m row k cols acc).getD (k + i) 0 =
      dotStep (wOp m.word == 8) (acc.getD (k + i) 0) (matProducts m row col) := by
  induction cols generalizing k i acc with
  | nil => simp at place
  | cons first cols ih =>
    rw [fireCols]
    cases i with
    | zero =>
      obtain rfl : first = col := by simpa using place
      rw [fireCols_outside m row _ (.inl (by omega)), Nat.add_zero, Map.getD_set_self]
    | succ i =>
      rw [show k + (i + 1) = k + 1 + i by omega, ih _ (by simpa using place), Map.getD_set_ne acc _ 0 (by omega)]

/-! ### Products (R119, R244) -/

section
variable {m : MatRt} {row : List XReal} {col : List W64} {k : Nat} {a : XReal} (left : row[k]? = some a)
include left

theorem matProducts_exact {b : XReal} (fmt : m.wfmt ≠ 0x20) (right : (matVals m.wfmt m.K (m.scale 1) col)[k]? = some b) :
    (matProducts m row col)[k]? = some (a.mul b) := by
  rw [matProducts, if_neg fmt, List.getElem?_zipWith, left, right]

theorem matProducts_twoTerm {b : Nat} (fmt : m.wfmt = 0x20) (right : (elemsOf 8 col)[k]? = some b) :
    (matProducts m row col)[k]? = some (twMul a b) := by
  rw [matProducts, if_pos fmt, List.getElem?_zipWith, left, right]

end

/-! ### Drains, commands and tokens (R247 to R249) -/

theorem mmDrain_goesOn {m : MatRt} {d : MatDrain} (draining : m.drain = some d) (s : State) (t n : Nat) :
    mmDrain s t n m = drainStep s t n m d := by
  simp only [mmDrain, draining]

/-- A drain with rows after this one sends the record of its row, and goes on. -/
theorem drainStep_sends {s : State} {t : Nat} {m : MatRt} {d : MatDrain} (n : Nat) (room : hasRoom s t m.outCh [0] = true)
    (formed : formFault s t m.outCh 0 (drainRec m d.row) = none) (more : d.row + 1 < m.M) :
    drainStep s t n m d =
      (sendOuts s t m.outCh [(0, Rec.follow (drainRec m d.row) d.ord)]).setMat t n { m with drain := some { d with row := d.row + 1 } } := by
  simp only [drainStep, room, formed, more, Bool.not_true, Bool.false_eq_true, if_false, if_true]

section
variable {x : Rec} (raw : hFmt x.hdr = 0) (two : x.units.length = 2)
include raw two

theorem matCommand_clear (word : unitsNat x.units = 0x0C * 2 ^ 120) : matCommand x = some none := by
  simp [matCommand, raw, two, word]

theorem matCommand_drain {keep : Bool} (word : unitsNat x.units = 0x0B * 2 ^ 120 + (if keep then 2 ^ 96 else 0)) :
    matCommand x = some (some keep) := by
  cases keep <;> simp [matCommand, raw, two, word]

end

section
variable {s : State} {t : Nat} {m : MatRt} {x : Rec} (n : Nat) (head : matHead s t m 0 = some x) (settled : m.settled = true)
include head settled

theorem mmClear_clears {c : Nat} (bound : portChan m.inCh 0 = some c) (data : rType x = tData) (command : matCommand x = some none) :
    mmClear s t n m = useHead (s.setMat t n m.clearAcc.afterCommand) t c := by
  simp only [mmClear, head, matOffence_command data command, settled, data, command, matUse_of_portChan bound, beq_self_eq_true,
    Bool.and_self, if_true]

theorem mmDrain_starts {keep : Bool} (data : rType x = tData) (command : matCommand x = some (some keep)) :
    mmDrain s t n m =
      s.setMat t n { m with drain := some { row := 0, clear := !keep, cmd := true, gone := false, ord := x.ord } } := by
  obtain ⟨-, still⟩ := settled_iff.mp settled
  simp only [mmDrain, still, head, matOffence_command data command, settled, data, command, beq_self_eq_true, Bool.and_self, if_true]

theorem matToken_passes (token : isToken x = true) (room : hasRoom s t m.outCh [0] = true) :
    matToken s t n m = matUse (sendOuts s t m.outCh [(0, x)]) t m 0 := by
  simp only [matToken, head, matOffence_token token, token, settled, room, Bool.not_true, Bool.or_self, Bool.false_eq_true, if_false]

end

end Sys2Proof.Machine

/-! PROOFS. Sorts: their firing, the records that they send, and the order of their pairs (R207, R221, R252). -/

namespace Sys2Proof.Machine

/-! ### The order of keys (R221) -/

/-- The rational number `± m · 2^e`. -/
def finVal (neg : Bool) (m : Nat) (e : Int) : ℚ := (if neg then -(m : ℚ) else m) * 2 ^ e

/-- The place of a value among all values: numbers between the infinities by value, and every NaN above them. -/
def XReal.rank : XReal → ℤ ×ₗ ℚ
  | .nan _ => toLex (2, 0)
  | .inf neg => toLex (if neg then -1 else 1, 0)
  | .fin neg m e => toLex (0, finVal neg m e)

theorem finInt_mul_zpow {q e : Int} (h : q ≤ e) (neg : Bool) (m : Nat) : (finInt neg m e q : ℚ) * 2 ^ q = finVal neg m e := by
  have shift : (2 : ℚ) ^ (e - q).toNat * 2 ^ q = 2 ^ e := by
    rw [← zpow_natCast, Int.toNat_of_nonneg (by omega), ← zpow_add₀ two_ne_zero, Int.sub_add_cancel]
  cases neg <;> simp [finInt, finVal, Nat.shiftLeft_eq, mul_assoc, shift]

theorem XReal.lt_fin (a b : Bool) (m n : Nat) (e d : Int) : (XReal.fin a m e).lt (.fin b n d) = decide (finVal a m e < finVal b n d) := by
  have scaled : ∀ q : Int, q ≤ e → q ≤ d → (finInt a m e q < finInt b n d q ↔ finVal a m e < finVal b n d) := fun q he hd => by
    rw [← finInt_mul_zpow he, ← finInt_mul_zpow hd, mul_lt_mul_iff_left₀ (zpow_pos two_pos q), Int.cast_lt]
  exact decide_eq_decide.mpr (scaled _ (by split <;> omega) (by split <;> omega))

theorem XReal.rank_of_isNaN {x : XReal} (h : x.isNaN = true) : x.rank = toLex (2, 0) := by
  cases x with
  | nan => rfl
  | inf | fin => simp [XReal.isNaN] at h

theorem XReal.rank_lt_of_number {x : XReal} (h : x.isNaN = false) : x.rank < toLex (2, 0) := by
  cases x with
  | nan => simp [XReal.isNaN] at h
  | inf neg => cases neg <;> simp [XReal.rank, Prod.Lex.toLex_lt_toLex]
  | fin => simp [XReal.rank, Prod.Lex.toLex_lt_toLex]

theorem XReal.lt_eq_rank_lt {x y : XReal} (hx : x.isNaN = false) (hy : y.isNaN = false) : x.lt y = decide (x.rank < y.rank) := by
  cases x with
  | nan => simp [XReal.isNaN] at hx
  | inf p => cases y with
    | nan => simp [XReal.isNaN] at hy
    | inf q => cases p <;> cases q <;> simp [XReal.rank, XReal.lt, Prod.Lex.toLex_lt_toLex]
    | fin => cases p <;> simp [XReal.rank, XReal.lt, Prod.Lex.toLex_lt_toLex]
  | fin => cases y with
    | nan => simp [XReal.isNaN] at hy
    | inf q => cases q <;> simp [XReal.rank, XReal.lt, Prod.Lex.toLex_lt_toLex]
    | fin => simp [XReal.rank, XReal.lt_fin, Prod.Lex.toLex_lt_toLex]

/-- Ranking above is a comparison of places, so it is a strict order of classes of equal keys. -/
theorem ranksAbove_eq (fmt x y : Nat) : ranksAbove fmt x y = decide ((srcVal fmt x).rank < (srcVal fmt y).rank) := by
  unfold ranksAbove
  generalize srcVal fmt x = a
  generalize srcVal fmt y = b
  cases ha : a.isNaN with
  | true => cases hb : b.isNaN with
    | true => simp [ha, hb, XReal.rank_of_isNaN]
    | false => simp [ha, XReal.rank_of_isNaN ha, (XReal.rank_lt_of_number hb).le]
  | false => cases hb : b.isNaN with
    | true => simp [ha, hb, XReal.rank_of_isNaN hb, XReal.rank_lt_of_number ha]
    | false => simp [ha, hb, XReal.lt_eq_rank_lt ha hb]

/-! ### A stable sort (R252) -/

/-- `a` may stand before `b`: `b` does not stand strictly before it. -/
abbrev MayPrecede (before : Nat × Nat → Nat × Nat → Bool) (a b : Nat × Nat) : Prop := before b a = false

theorem sortInsert_eq_orderedInsert (before : Nat × Nat → Nat × Nat → Bool) (x : Nat × Nat) (ys : List (Nat × Nat)) :
    sortInsert before x ys = ys.orderedInsert (MayPrecede before) x := by
  induction ys with
  | nil => rfl
  | cons y ys ih => cases h : before y x <;> simp [sortInsert, MayPrecede, h, ih]

theorem sortPairs_eq_insertionSort (before : Nat × Nat → Nat × Nat → Bool) (xs : List (Nat × Nat)) :
    sortPairs before xs = xs.insertionSort (MayPrecede before) := by
  induction xs with
  | nil => rfl
  | cons x xs ih => rw [sortPairs, ih, sortInsert_eq_orderedInsert, List.insertionSort_cons]

/-- Pairs in ascending order stand by the ranks of their keys, and in descending order against them. -/
theorem mayPrecede_iff {fmt : Nat} {up : Bool} {a b : Nat × Nat} : MayPrecede (sortsBefore fmt up) a b ↔
    if up then (srcVal fmt a.1).rank ≤ (srcVal fmt b.1).rank else (srcVal fmt b.1).rank ≤ (srcVal fmt a.1).rank := by
  cases up <;> simp [MayPrecede, sortsBefore, ranksAbove_eq]

section
variable (fmt : Nat) (up : Bool)

theorem mayPrecede_total : Std.Total (MayPrecede (sortsBefore fmt up)) :=
  ⟨fun a b => by simp only [mayPrecede_iff]; cases up <;> exact le_total _ _⟩

theorem mayPrecede_trans : IsTrans _ (MayPrecede (sortsBefore fmt up)) :=
  ⟨fun a b c => by
    simp only [mayPrecede_iff]
    cases up with
    | true => exact le_trans
    | false => exact fun ab bc => le_trans bc ab⟩

theorem sortPairs_perm (xs : List (Nat × Nat)) : (sortPairs (sortsBefore fmt up) xs).Perm xs :=
  sortPairs_eq_insertionSort _ xs ▸ List.perm_insertionSort _ xs

theorem sortPairs_sorted (xs : List (Nat × Nat)) :
    (sortPairs (sortsBefore fmt up) xs).Pairwise (MayPrecede (sortsBefore fmt up)) := by
  have total := mayPrecede_total fmt up
  have trans := mayPrecede_trans fmt up
  rw [sortPairs_eq_insertionSort]
  exact List.pairwise_insertionSort _ xs

/-- Pairs that rank with `k` keep the order in which they came: they form a sorted sublist of `xs`, so an insertion sort leaves them a sublist, and
it neither adds pairs nor drops any. -/
theorem sortPairs_filter_same (xs : List (Nat × Nat)) (k : Nat × Nat) {same : Nat × Nat → Bool}
    (alike : ∀ p, same p = true ↔ MayPrecede (sortsBefore fmt up) k p ∧ MayPrecede (sortsBefore fmt up) p k) :
    (sortPairs (sortsBefore fmt up) xs).filter same = xs.filter same := by
  have trans := mayPrecede_trans fmt up
  have sorted : (xs.filter same).Pairwise (MayPrecede (sortsBefore fmt up)) :=
    List.pairwise_of_forall_mem_list fun a ha b hb =>
      trans.trans a k b ((alike a).mp (List.of_mem_filter ha)).2 ((alike b).mp (List.of_mem_filter hb)).1
  have sub : (xs.filter same).Sublist (sortPairs (sortsBefore fmt up) xs) :=
    sortPairs_eq_insertionSort _ xs ▸ List.sublist_insertionSort sorted List.filter_sublist
  have within : (xs.filter same).Sublist ((sortPairs (sortsBefore fmt up) xs).filter same) := by
    simpa using sub.filter same
  exact (within.eq_of_length ((sortPairs_perm fmt up xs).filter same).length_eq.symm).symm

end

/-! ### A firing of a sort (R207, R252) -/

section
variable {s : State} {t : Nat} {inCh outCh : Vector (Option Nat) 16} (clear : clearInputs s t [] (fireIns s t inCh.toList 0) = s)
  (own : foreignHead (fireIns s t inCh.toList 0) = none)
  (heads : ∀ i ∈ fireIns s t inCh.toList 0, ∃ r, i.head = some r ∧ (i.resident = false → rType r = tData))
  (room : hasRoom s t outCh (boundPorts outCh) = true) (tag : Instr) (data : State → List FireIn → Except (Nat × W64) (List (Nat × Rec)))
  (after : State → State)
include clear own heads room

/-- Data at every input that is not resident: where no permission is heeded, the node's own function gives what is sent, or its fault. -/
theorem genericFiring_allData :
    (∀ outs, data s (fireIns s t inCh.toList 0) = .ok outs → genericFiring false s t inCh outCh tag data after =
      Firing.commit s t outCh (fireIns s t inCh.toList 0) tag ((fireIns s t inCh.toList 0).map FireIn.port) outs after) ∧
    (∀ code arg, data s (fireIns s t inCh.toList 0) = .error (code, arg) →
      genericFiring false s t inCh outCh tag data after = .fault code arg) := by
  have full : (fireIns s t inCh.toList 0).any (fun i => i.head.isNone) = false :=
    any_isNone_of_full fun i hi => by
      obtain ⟨r, hr, -⟩ := heads i hi
      rw [hr]
      rfl
  have allData : (((fireIns s t inCh.toList 0).filter (fun i => !i.resident)).filterMap FireIn.head).all (fun r => rType r == tData) = true := by
    simp only [List.all_eq_true, List.mem_filterMap, List.mem_filter, beq_iff_eq]
    rintro r ⟨i, ⟨mem, stream⟩, hr⟩
    obtain ⟨r', hr', isData⟩ := heads i mem
    rw [hr] at hr'
    cases hr'
    exact isData (by simpa using stream)
  refine ⟨fun outs result => ?_, fun code arg result => ?_⟩
  all_goals
    simp only [genericFiring, clear, own, full, room, Bool.not_true, Bool.false_and, Bool.false_eq_true, if_false]
    cases hs : ((fireIns s t inCh.toList 0).filter (fun i => !i.resident)).filterMap FireIn.head with
    | nil => simp only [result]
    | cons lead rest =>
      rw [hs] at allData
      simp only [allData, result, if_true]

end

section
variable {s : State} {t : Nat} {m : MatRt} (clear : clearInputs s t [] (fireIns s t m.inCh.toList 0) = s)
include clear

theorem sortEvent_fires {tag : Instr} {s' : State} (n : Nat) (fires : sortFiring s t m = .fire tag s') : sortEvent s t n m = s' := by
  simp only [sortEvent, clear, fires]

theorem sortEvent_faults {code : Nat} {arg : W64} (n : Nat) (halts : sortFiring s t m = .fault code arg) :
    sortEvent s t n m = nodeFault s t n code arg := by
  simp only [sortEvent, clear, halts]

end

/-- What a sort makes of the heads of its inputs. -/
def sortData (m : MatRt) (_ : State) (ins : List FireIn) : Except (Nat × W64) (List (Nat × Rec)) :=
  match headAt ins 0 with
  | some x => sortRecs m x (headAt ins 1)
  | none => .ok []

theorem sortData_eq {m : MatRt} {s : State} {ins : List FireIn} {x : Rec} (first : headAt ins 0 = some x) :
    sortData m s ins = sortRecs m x (headAt ins 1) := by
  simp only [sortData, first]

/-- A sort fires by the general rule, with no permission heeded: its Data heads give the sorted records, or a fault. -/
theorem sortFiring_allData {s : State} {t : Nat} {m : MatRt} (clear : clearInputs s t [] (fireIns s t m.inCh.toList 0) = s)
    (own : foreignHead (fireIns s t m.inCh.toList 0) = none)
    (heads : ∀ i ∈ fireIns s t m.inCh.toList 0, ∃ r, i.head = some r ∧ (i.resident = false → rType r = tData))
    (room : hasRoom s t m.outCh (boundPorts m.outCh) = true) {x : Rec} (first : headAt (fireIns s t m.inCh.toList 0) 0 = some x) :
    let ins := fireIns s t m.inCh.toList 0
    (∀ outs, sortRecs m x (headAt ins 1) = .ok outs →
      sortFiring s t m = Firing.commit s t m.outCh ins .sort (ins.map FireIn.port) outs id) ∧
    (∀ code arg, sortRecs m x (headAt ins 1) = .error (code, arg) → sortFiring s t m = .fault code arg) := by
  obtain ⟨sends, halts⟩ := genericFiring_allData clear own heads room .sort (sortData m) id
  exact ⟨fun outs result => sends outs (by rw [sortData_eq first, result]),
    fun code arg result => halts code arg (by rw [sortData_eq first, result])⟩

/-! ### The records that a sort sends (R252) -/

/-- The keys of a sort's record. -/
def MatRt.sortKeys (m : MatRt) (x : Rec) : List Nat := elemsOf (fmtBits m.afmt) x.units

/-- Their tokens: the elements of the second record, or the keys' own places where there is none. -/
def MatRt.sortTokens (m : MatRt) (x : Rec) (y : Option Rec) : List Nat :=
  y.elim (List.range (m.sortKeys x).length) (fun r => elemsOf (fmtBits m.wfmt) r.units)

/-- How many pairs a sort sends. -/
def MatRt.sortTop (m : MatRt) (x : Rec) : Nat := min (bitsOf m.word 97 6) (m.sortKeys x).length

/-- The pairs that a sort sends, in order. -/
def MatRt.sortOrder (m : MatRt) (x : Rec) (y : Option Rec) : List (Nat × Nat) :=
  (sortPairs (sortsBefore m.afmt (bitOf m.word 103)) ((m.sortKeys x).zip (m.sortTokens x y))).take (m.sortTop x)

/-- The record of one half of those pairs. -/
def MatRt.sortOut (m : MatRt) (x : Rec) (fmt : Nat) (xs : List Nat) : Rec :=
  dataRec fmt (hSeq x.hdr) (m.sortTop x) (packElems (fmtBits fmt) (ceilDiv (m.sortTop x * fmtBits fmt) 64) xs)

theorem sortRecs_eq (m : MatRt) (x : Rec) (y : Option Rec) : sortRecs m x y =
    if (m.sortKeys x).length = 0 ∨ 32 < (m.sortKeys x).length then .error (cRecordLength, x.hdr)
    else if (m.sortTokens x y).length ≠ (m.sortKeys x).length then .error (cOperand, (y.map seqArg).getD 0)
    else .ok ((0, m.sortOut x m.afmt ((m.sortOrder x y).map Prod.fst)) ::
      (if wOp m.word = 0x0A then [(1, m.sortOut x m.wfmt ((m.sortOrder x y).map Prod.snd))] else [])) := by
  cases y <;> rfl

section
variable {m : MatRt} {x : Rec} {y : Option Rec} (nonempty : 0 < (m.sortKeys x).length) (fits : (m.sortKeys x).length ≤ 32)
include nonempty fits

theorem sortRecs_unpaired (unpaired : (m.sortTokens x y).length ≠ (m.sortKeys x).length) :
    sortRecs m x y = .error (cOperand, (y.map seqArg).getD 0) := by
  rw [sortRecs_eq, if_neg (by omega), if_pos unpaired]

theorem sortRecs_paired (paired : (m.sortTokens x y).length = (m.sortKeys x).length) :
    sortRecs m x y = .ok ((0, m.sortOut x m.afmt ((m.sortOrder x y).map Prod.fst)) ::
      (if wOp m.word = 0x0A then [(1, m.sortOut x m.wfmt ((m.sortOrder x y).map Prod.snd))] else [])) := by
  rw [sortRecs_eq, if_neg (by omega), if_neg (not_not.mpr paired)]

end

end Sys2Proof.Machine

/-! PROOFS. The firings of matrix nodes, of multiply forms and of sorts (R242 to R249, R252). -/

namespace Sys2Proof.Machine

/-- Settles O55: an equation for each event of a multiply form, the accumulators that a row leaves, the firing of a sort, and the stability of its
insertion sort, which comes from the ranks of the keys. -/
theorem matrixFirings : Obligations.MatrixFirings := by
  refine ⟨?columns, ?records, ?residents, ?rows, ?counters, ?accumulators, ?rounding, ?products, ?drains, ?sorts, ?sortRecords, ?order⟩
  case columns =>
    intro s t n c m x b h bound head column fills notFull kept len
    exact (exec_of_matAt h rfl).trans (congrArg _ (weightColumn_fills n bound head column fills notFull kept len))
  case records =>
    intro s t n c m x ch h bound head chan passing
    refine ⟨fun row fmt free len => ?_, fun null settled full => ?_, fun token settled room => ?_,
      fun data settled raw two => ⟨fun word => ?_, fun keep word => ?_⟩⟩
    · exact (exec_of_matAt h rfl).trans (congrArg _ (activationRow_enters n bound chan head row fmt free len passing))
    · exact (exec_of_matAt h rfl).trans (congrArg _ (nullRow_fires n bound head null settled full))
    · exact (exec_of_matAt h rfl).trans (congrArg _ (matToken_passes n head settled token room))
    · exact (exec_of_matAt h rfl).trans (congrArg _ (mmClear_clears n head settled bound data (matCommand_clear raw two word)))
    · exact (exec_of_matAt h rfl).trans (congrArg _ (mmDrain_starts n head settled data (matCommand_drain raw two word)))
  case residents =>
    intro s t n c m x ch h bound head chan stays row fmt free len
    have moves : exec .activationRow s = .next (if m.rows.isEmpty then s.setMat t n { m with rows := m.rows ++ [x] } else s) :=
      (exec_of_matAt h rfl).trans (congrArg _ (activationRow_resident n bound chan head row fmt free len stays))
    refine ⟨fun empty => ?_, fun held => ?_⟩
    · simpa only [empty, List.isEmpty_nil, if_true, List.nil_append] using moves
    · simpa only [List.isEmpty_eq_false_iff.mpr held, Bool.false_eq_true, if_false] using moves
  case rows =>
    intro s t n c m x rest ch h rows still full bound chan
    have fires : exec .rowFiring s = _ := (exec_of_matAt h rfl).trans (congrArg _ (rowFiring_fires n bound chan rows still full))
    refine ⟨fun passing => ?_, fun stays => ?_⟩
    · simpa only [passing, Bool.false_eq_true, if_false] using fires
    · simpa only [stays, if_true] using fires
  case counters =>
    intro m x more
    rw [MatRt.fireRow_of_lt x more, MatRt.fireNull_of_lt x more]
    exact ⟨rfl, Map.get?_set_self .., Map.get?_set_self .., rfl, rfl, rfl, rfl⟩
  case accumulators =>
    intro m x
    refine ⟨fun k col place => ?_, fun j out => ?_⟩
    · rw [MatRt.fireRow_acc]
      exact fireCols_column m _ m.acc place
    · rw [MatRt.fireRow_acc]
      exact fireCols_outside m _ m.acc out
  case rounding => exact fun c p ps => ⟨rfl, rfl, rfl⟩
  case products =>
    exact fun m row col k a left => ⟨fun fmt b right => matProducts_exact left fmt right, fun fmt b right => matProducts_twoTerm left fmt right⟩
  case drains =>
    intro s t n m d h draining room formed more
    refine (exec_of_matAt h rfl).trans (congrArg _ ?_)
    rw [mmDrain_goesOn draining, drainStep_sends n room formed more]
  case sorts =>
    intro s t n m h clear ins own heads room x hx
    obtain ⟨sends, halts⟩ := sortFiring_allData clear own heads room hx
    exact ⟨fun outs result room' formed => (exec_of_matAt h rfl).trans (congrArg _ (sortEvent_fires clear n
        ((sends outs result).trans (commit_fires _ _ _ _ room' formed)))),
      fun code arg result => (exec_of_matAt h rfl).trans (congrArg _ (sortEvent_faults clear n (halts code arg result)))⟩
  case sortRecords =>
    exact fun m x y => ⟨fun bad => (sortRecs_eq m x y).trans (if_pos bad),
      fun nonempty fits unpaired => ⟨_, sortRecs_unpaired nonempty fits unpaired⟩,
      fun nonempty fits paired => sortRecs_paired nonempty fits paired⟩
  case order =>
    exact fun fmt up xs => ⟨sortPairs_perm fmt up xs, sortPairs_sorted fmt up xs, fun k =>
      sortPairs_filter_same fmt up xs k fun p => by simp only [MayPrecede, Bool.and_eq_true, Bool.not_eq_true']⟩

end Sys2Proof.Machine

/-! PROOFS. Both memories stay in canonical form (R258): after reset, and through every step. One lemma for each function of the state says that it
keeps the form; those for firings, generators, passage instructions and task instructions say it of what these come to. -/

namespace Sys2Proof.Machine

/-! ### Reset -/

/-- Settles O1. -/
theorem resetMemoryCanonical : Obligations.ResetMemoryCanonical := ⟨rfl, rfl⟩

/-! ### The form, of a state and of what functions of the state come to -/

/-- The canonical form of both memories, in a form that sees through updates of the other parts of the state. -/
@[reducible] def State.Canonical (s : State) : Prop := s.hostMem.wf = true ∧ s.devMem.wf = true

/-- The state that a firing leaves is canonical. -/
def Firing.Canonical : Firing → Prop
  | .fire _ s => s.Canonical
  | _ => True

/-- The state that the accesses of a generator leave is canonical. -/
def GenStep.Canonical : GenStep → Prop
  | .all s | .part s _ _ => s.Canonical
  | .stop _ _ _ => True

/-- The state that a passage instruction leaves is canonical. -/
def PStep.Canonical : PStep → Prop
  | .stay s | .next s | .retired s | .jump s _ => s.Canonical

theorem Firing.Canonical.ite {a b : Firing} {p : Prop} [Decidable p] (ha : a.Canonical) (hb : b.Canonical) : (if p then a else b).Canonical := by
  split
  · exact ha
  · exact hb

theorem PStep.Canonical.ite {a b : PStep} {p : Prop} [Decidable p] (ha : a.Canonical) (hb : b.Canonical) : (if p then a else b).Canonical := by
  split
  · exact ha
  · exact hb

theorem Firing.Canonical.fire {tag : Instr} {s : State} (h : s.Canonical) : (Firing.fire tag s).Canonical := h

theorem GenStep.Canonical.all {s : State} (h : s.Canonical) : (GenStep.all s).Canonical := h
theorem GenStep.Canonical.part {s : State} {asked : Nat} {ask : Option Nat} (h : s.Canonical) : (GenStep.part s asked ask).Canonical := h

theorem PStep.Canonical.stay {s : State} (h : s.Canonical) : (PStep.stay s).Canonical := h
theorem PStep.Canonical.next {s : State} (h : s.Canonical) : (PStep.next s).Canonical := h
theorem PStep.Canonical.retired {s : State} (h : s.Canonical) : (PStep.retired s).Canonical := h
theorem PStep.Canonical.jump {s : State} {pc : Nat} (h : s.Canonical) : (PStep.jump s pc).Canonical := h

namespace State.Canonical
variable {s : State} {t n c k m q v lt src dst : Nat}

theorem ite {a b : State} {p : Prop} [Decidable p] (ha : a.Canonical) (hb : b.Canonical) : (if p then a else b).Canonical := by
  split
  · exact ha
  · exact hb

theorem of_fire {x : Firing} {tag : Instr} (h : x.Canonical) (fires : x = .fire tag s) : s.Canonical := by
  subst fires
  exact h

theorem foldl {α : Type} {f : State → α → State} {l : List α} (hf : ∀ {s x}, s.Canonical → (f s x).Canonical) (h : s.Canonical) :
    (l.foldl f s).Canonical := by
  induction l generalizing s with
  | nil => exact h
  | cons x l ih => exact ih (hf h)

/-! ### Ops -/

theorem orderRec {r : Rec} (h : s.Canonical) : (orderRec s t n r).Canonical := .ite h h

theorem dropOpen {l : List (Option Nat)} (h : s.Canonical) : (dropOpen s t l).Canonical := by
  induction l generalizing s with
  | nil => exact h
  | cons o l ih =>
    cases o with
    | none => exact ih h
    | some c => exact ih h

theorem haltNode (h : s.Canonical) : (haltNode s t n).Canonical := by
  have opened : State.Canonical (match s.tasks.get? (key2 t n) with
      | some tk => Machine.dropOpen { s with tasks := s.tasks.set (key2 t n) { tk with st := .halted } } t tk.outCh.toList
      | none => s) := by
    split
    · exact .dropOpen h
    · exact h
  exact opened

theorem nodeFault {code : Nat} {arg : W64} (h : s.Canonical) : (nodeFault s t n code arg).Canonical := .haltNode h

theorem takeTrap {tk : TaskRt} {code : Nat} {arg : W64} {src : Int} (h : s.Canonical) : (takeTrap s t n tk code arg src).Canonical :=
  .ite (.haltNode h) h

/-! ### Window -/

theorem accPerform {wid va : Nat} {pa : Option Nat} {x : Aw} (h : s.Canonical) : (accPerform s t wid va pa x).Canonical := by
  dsimp only [Machine.accPerform]
  split
  · exact ⟨h.1, Memory.put_wf (Memory.write_wf h.2 _ _) _ _⟩
  split
  · exact h
  split
  · exact h
  split <;> exact h

theorem putView {va : Nat} {bs : List Byte} (h : s.Canonical) : (putView s t va bs).Canonical := by
  induction bs generalizing s va with
  | nil => exact h
  | cons b bs ih =>
    refine ih ?_
    split <;> exact h

theorem dropMsg {m : Nat} (h : s.Canonical) : (s.dropMsg m).Canonical := h

/-! ### Links -/

theorem lossEffect {x : Msg} (h : s.Canonical) : (lossEffect s x).Canonical := by
  dsimp only [Machine.lossEffect]
  split
  · exact h
  · exact .accPerform h
  · exact .accPerform h
  · exact .accPerform h
  · exact h

theorem loseAccess {a b : Nat} (h : s.Canonical) : (loseAccess s t a b).Canonical := .ite h h

theorem writeOff {p : Packet} (h : s.Canonical) : (writeOff src dst s p).Canonical := by
  dsimp only [Machine.writeOff]
  split
  · exact h
  refine .ite (.lossEffect h) (.dropMsg ?_)
  split
  · exact .lossEffect h
  · exact h

theorem writeOffAll {ps : List Packet} (h : s.Canonical) : (writeOffAll src dst ps s).Canonical := by
  induction ps generalizing s with
  | nil => exact h
  | cons p ps ih => exact ih (.writeOff h)

theorem pumpQueue {ps : List Packet} (h : s.Canonical) : (pumpQueue src dst ps s).Canonical := by
  induction ps generalizing s with
  | nil => exact h
  | cons p ps ih =>
    dsimp only [Machine.pumpQueue]
    split
    · exact .ite (ih h) h
    · exact h

theorem pumpLink (h : s.Canonical) : (pumpLink s src dst).Canonical := .ite (.writeOffAll h) (.pumpQueue h)

theorem sendMsg {node : Nat} {lighter : Option Nat} {srcDie dstDie home : Nat} {k : MsgKind} (h : s.Canonical) :
    (sendMsg s t node lighter srcDie dstDie home k).Canonical := .ite h (.pumpLink h)

theorem crossed (h : s.Canonical) : (crossed s m).Canonical := by
  dsimp only [Machine.crossed]
  split
  · split <;> exact h
  · exact h

theorem handOn {fuel : Nat} {l : LinkRt} (h : s.Canonical) : (handOn fuel l s).2.Canonical := by
  induction fuel generalizing s l with
  | zero => exact h
  | succ fuel ih =>
    dsimp only [Machine.handOn]
    split
    · exact ih (.crossed h)
    · exact h

theorem packetArrives {l l' : LinkRt} {p : Packet} {s' : State} (h : s.Canonical) (arrives : packetArrives l s p = (l', s')) : s'.Canonical := by
  have arrived : (Machine.packetArrives l s p).2.Canonical := by
    dsimp only [Machine.packetArrives]
    split
    · exact h
    · exact .handOn h
  rwa [arrives] at arrived

theorem retireWay (h : s.Canonical) : (retireWay s src dst k).Canonical := by
  dsimp only [Machine.retireWay]
  split <;> exact h

theorem pumpPair {a b : Nat} (h : s.Canonical) : (pumpPair s a b).Canonical := .pumpLink (.pumpLink h)
theorem retireModule (h : s.Canonical) : (retireModule s src dst k).Canonical := .pumpPair (.retireWay (.retireWay h))

theorem crcFailure (h : s.Canonical) : (crcFailure s src dst k).Canonical := by
  dsimp only [Machine.crcFailure]
  split
  · exact h
  · exact .ite h (.ite (.retireModule h) h)

theorem flitReceive {noise : BitVec 576} (h : s.Canonical) : (flitReceive src dst k noise s).Canonical := by
  fun_cases Machine.flitReceive src dst k noise s
  case case4 => exact .pumpLink (.crcFailure h)
  case case5 arrives =>
    have arrived := packetArrives (by exact h) arrives
    exact .pumpLink arrived
  case case6 | case7 | case8 => exact .pumpLink h
  all_goals exact h

theorem retrainComplete {ok : Bool} (h : s.Canonical) : (retrainComplete src dst k ok s).Canonical := by
  dsimp only [Machine.retrainComplete]
  split
  · exact h
  · exact .ite h (.ite (.pumpPair h) (.retireModule h))

/-! ### Chan -/

theorem headLost {r : Rec} (h : s.Canonical) : (headLost s t c r).Canonical := by
  dsimp only [Machine.headLost]
  split <;> exact h

theorem settleHead (h : s.Canonical) : (settleHead s t c).Canonical := by
  dsimp only [Machine.settleHead]
  split
  · split
    · exact .ite (.headLost h) h
    · exact h
  · exact h

theorem popHead (h : s.Canonical) : (popHead s t c).Canonical := .settleHead h

theorem useHead (h : s.Canonical) : (useHead s t c).Canonical := by
  dsimp only [Machine.useHead]
  split
  · exact h
  · exact .ite h (.ite (.popHead h) h)

theorem releaseHead (h : s.Canonical) : (releaseHead s t c).Canonical := by
  dsimp only [Machine.releaseHead]
  split
  · exact h
  · exact .ite (.popHead h) h

theorem sendRec {r : Rec} (h : s.Canonical) : (sendRec s t c r).Canonical := by
  dsimp only [Machine.sendRec]
  split
  · exact .ite h (.sendMsg h)
  · exact h

theorem recordVisible (h : s.Canonical) : (recordVisible t c s).Canonical := by
  dsimp only [Machine.recordVisible]
  split
  · split
    · exact h
    · exact .ite h (.ite (.nodeFault h) (.ite (.ite h (.nodeFault h)) (.ite h (.settleHead h))))
  · exact h

/-! ### Control -/

theorem releasePorts {trigp : Nat} {inp : Vector InPort 16} {l : List (Option Nat)} (h : s.Canonical) :
    (releasePorts s t trigp inp l k).Canonical := by
  induction l generalizing s k with
  | nil => exact h
  | cons o l ih =>
    cases o with
    | none => exact ih h
    | some c => exact ih (.ite (.releaseHead h) h)

theorem newActivation {l : List (Option Nat)} (h : s.Canonical) : (newActivation s t l).Canonical := by
  induction l generalizing s with
  | nil => exact h
  | cons o l ih =>
    cases o with
    | none => exact ih h
    | some c => exact ih h

/-! ### Home -/

theorem askPage {l : Layer} {pasid va : Nat} (h : s.Canonical) : (askPage s l pasid va).Canonical := .ite h h

theorem physWrite {p : Phys} {bs : List Byte} (h : s.Canonical) : (physWrite s p bs).Canonical := by
  cases p with
  | dev a => exact ⟨h.1, Memory.write_wf h.2 _ _⟩
  | host a => exact ⟨Memory.write_wf h.1 _ _, h.2⟩

theorem memWrite {va : Nat} {p : Phys} {bs : List Byte} (h : s.Canonical) : (memWrite s t va p bs).Canonical := .putView (.physWrite h)

theorem flushOne {lighter : Option Nat} {srcDie : Nat} {r : Residual} (h : s.Canonical) : (flushOne s t n lighter srcDie r).Canonical := by
  dsimp only [Machine.flushOne]
  split
  · exact h
  split
  · exact h
  · exact .sendMsg h

theorem flushList {lighter : Option Nat} {srcDie : Nat} {rs : List Residual} (h : s.Canonical) : (flushList s t n lighter srcDie rs).Canonical := by
  induction rs generalizing s with
  | nil => exact h
  | cons r rs ih => exact ih (.flushOne h)

/-! ### Ports -/

theorem trigMismatch (h : s.Canonical) : (trigMismatch s t n c).Canonical := .nodeFault (.popHead h)

theorem activationStart (h : s.Canonical) : (activationStart t n s).Canonical := by
  dsimp only [Machine.activationStart]
  split
  · split
    · exact h
    split
    · exact h
    · exact .ite (.trigMismatch h) (.ite h (.orderRec h))
  · exact h

theorem forwardNulls {tk : TaskRt} {r : Rec} {ps : List Nat} (h : s.Canonical) : (forwardNulls s t tk r ps).1.Canonical := by
  induction ps generalizing s with
  | nil => exact h
  | cons p ps ih =>
    dsimp only [Machine.forwardNulls]
    split
    · exact ih h
    split
    · exact ih h
    split
    · exact ih (.sendRec h)
    · exact ih h

theorem nullTrigger (h : s.Canonical) : (nullTrigger t n s).Canonical := by
  dsimp only [Machine.nullTrigger]
  split
  · split
    · exact h
    split
    · exact h
    · exact .ite (.trigMismatch h) (.ite h (.ite (.useHead (.forwardNulls h)) (.forwardNulls h)))
  · exact h

/-! ### Global -/

theorem perform {p : Phys} {bs : List Byte} (h : s.Canonical) : (perform s p bs).Canonical := .physWrite h
theorem performAt {va : Nat} {p : Phys} {bs : List Byte} (h : s.Canonical) : (performAt s t va p bs).Canonical := .memWrite h
theorem reply {x : Msg} {k : MsgKind} (h : s.Canonical) : (reply s x k).Canonical := .ite (.sendMsg h) h

theorem loadArrives {x : Msg} {va size : Nat} {bs : List Byte} {ue signed : Bool} {dst : Opnd} {tok : Option Nat} {pc : Nat} (h : s.Canonical) :
    (loadArrives s x va size bs ue signed dst tok pc).Canonical := .ite (.haltNode h) h

theorem genArrives {x : Msg} {idx va : Nat} {bs : List Byte} {ue : Bool} (h : s.Canonical) : (genArrives s x idx va bs ue).Canonical :=
  .ite (.nodeFault h) h

theorem answerRead {x : Msg} {k : MsgKind} {here : State → State} (h : s.Canonical) (hhere : ∀ {s}, s.Canonical → (here s).Canonical) :
    (answerRead s x k here).Canonical := .ite (hhere h) (.reply h)

theorem loadReply {ue : Bool} (h : s.Canonical) : (loadReply m ue s).Canonical := by
  dsimp only [Machine.loadReply]
  split
  · exact h
  split
  · exact h
  split
  · exact h
  split
  · exact .ite h (.answerRead h (fun h' => .loadArrives h'))
  · exact .ite h (.answerRead h (fun h' => .genArrives h'))
  · exact .loadArrives h
  · exact .genArrives h
  · exact h

theorem writeSegs_wf {mem : Memory} (hm : mem.wf = true) (a : Nat) (segs : List (Nat × List Byte)) : (writeSegs mem a segs).wf = true := by
  induction segs generalizing mem with
  | nil => exact hm
  | cons g gs ih => exact ih (Memory.write_wf hm _ _)

theorem portPerform (h : s.Canonical) : (portPerform m s).Canonical := by
  dsimp only [Machine.portPerform]
  split
  · exact h
  · exact .ite h ⟨writeSegs_wf h.1 _ _, h.2⟩

theorem storeOut {x : Msg} {va : Nat} {bs : List Byte} {tok : Option Nat} {pa : Phys} (h : s.Canonical) :
    (storeOut s x va bs tok pa).Canonical := by
  dsimp only [Machine.storeOut]
  split
  · exact h
  · exact .performAt h

theorem dropInFlight {mine : Msg → Bool} (h : s.Canonical) : (dropInFlight s mine).Canonical := .foldl id h

theorem genStorePerformed {x : Msg} {va : Nat} {pa : Phys} {bs : List Byte} (h : s.Canonical) : (genStorePerformed s x va pa bs).Canonical := by
  dsimp only [Machine.genStorePerformed]
  split
  · exact .nodeFault h
  split
  · exact .storeOut h
  · exact .nodeFault (.dropInFlight (.storeOut h))

theorem homeFault {x : Msg} {code : Nat} {arg : W64} (h : s.Canonical) : (homeFault s x code arg).Canonical := .haltNode h

theorem taskStorePerformed {x : Msg} {va : Nat} {pa : Phys} {bs : List Byte} {tok : Option Nat} (h : s.Canonical) :
    (taskStorePerformed s x va pa bs tok).Canonical := .ite (.homeFault h) (.storeOut h)

theorem performAround {va : Nat} {pa : Phys} {bs : List Byte} (h : s.Canonical) : (performAround s t va pa bs).1.Canonical := by
  induction bs generalizing s va pa with
  | nil => exact h
  | cons b bs ih =>
    dsimp only [Machine.performAround]
    split
    · exact ih h
    · exact ih (.memWrite h)

theorem segsAround {va : Nat} {pa : Phys} {segs : List (Nat × List Byte)} (h : s.Canonical) : (segsAround s t va pa segs).1.Canonical := by
  induction segs generalizing s with
  | nil => exact h
  | cons g gs ih => exact ih (.performAround h)

theorem stopReq {code : Nat} {arg : W64} (h : s.Canonical) : (stopReq s lt k code arg).Canonical := by
  dsimp only [Machine.stopReq]
  split
  · exact .ite h h
  · exact h

theorem wakeWaiters (h : s.Canonical) : (wakeWaiters s).Canonical := h
theorem modReq {f : LReq → LReq} (h : s.Canonical) : (modReq s lt k f).Canonical := h
theorem engineFault {code src node engine : Nat} {arg : W64} (h : s.Canonical) : (engineFault s t code src node engine arg).Canonical := h

theorem blockPerformed {x : Msg} {blk va : Nat} {pa : Phys} {segs : List (Nat × List Byte)} (h : s.Canonical) :
    (blockPerformed s x lt k blk va pa segs).Canonical := by
  cases pa with
  | host a =>
    dsimp only [Machine.blockPerformed]
    split
    · exact h
    · exact .stopReq h
  | dev a =>
    have placed : (Machine.segsAround s x.t va (.dev a) segs).1.Canonical := .segsAround h
    dsimp only [Machine.blockPerformed]
    generalize Machine.segsAround s x.t va (.dev a) segs = r at placed ⊢
    split
    case' h_2 => refine .stopReq ?_
    all_goals
      split
      · exact .ite (.modReq (.wakeWaiters placed)) (.engineFault (.modReq (.modReq (.wakeWaiters placed))))
      · exact .modReq (.wakeWaiters placed)

theorem storePerformed (h : s.Canonical) : (storePerformed m s).Canonical := by
  dsimp only [Machine.storePerformed]
  split
  · exact .portPerform h
  split
  · exact h
  split
  · exact .ite h (.ite h (.ite (.genStorePerformed h) (.taskStorePerformed h)))
  · split
    · exact h
    split
    · exact .ite h (.blockPerformed h)
    · exact h
  · exact h

theorem replyExpiry (h : s.Canonical) : (replyExpiry m s).Canonical := by
  dsimp only [Machine.replyExpiry]
  split
  · exact .ite h h
  · exact h

/-! ### Accumulate -/

theorem partialFault {x : Msg} {wid code : Nat} {arg : W64} {skid0 : Bool} (h : s.Canonical) :
    (partialFault s x wid code src arg skid0).Canonical := by
  dsimp only [Machine.partialFault]
  split
  · exact .ite (.dropInFlight h) h
  · exact .haltNode (.ite (.dropInFlight h) h)

theorem accWatch {x : Msg} {wid va : Nat} (h : s.Canonical) : (accWatch s x wid va).Canonical := by
  dsimp only [Machine.accWatch]
  split
  · exact h
  · exact .partialFault h

theorem accRefusedAtWord {x : Msg} {wid va : Nat} {pa : Option Nat} {ue : Bool} {s' : State} (h : s.Canonical)
    (refused : accRefusedAtWord s x wid va pa ue = some s') : s'.Canonical := by
  unfold Machine.accRefusedAtWord at refused
  split at refused
  · exact Option.some.inj refused ▸ .partialFault h
  · obtain ⟨_, refused⟩ := Option.ite_none_right_eq_some.mp refused
    exact Option.some.inj refused ▸ .partialFault h

theorem accumulateArrival {ue : Bool} (h : s.Canonical) : (accumulateArrival m ue s).Canonical := by
  fun_cases Machine.accumulateArrival m ue s
  case case5 => exact .reply h
  case case6 refused => exact .reply (.accRefusedAtWord (by exact h) refused)
  case case7 => exact .accWatch (.reply (.wakeWaiters (.accPerform h)))
  all_goals exact h

theorem flushDelivery {ue : Bool} (h : s.Canonical) : (flushDelivery m ue s).Canonical := by
  fun_cases Machine.flushDelivery m ue s
  case case5 refused => exact .reply (.accRefusedAtWord (by exact h) refused)
  case case6 => exact .accWatch (.reply (.wakeWaiters (.accPerform h)))
  all_goals exact h

theorem cellRefusal {x : Msg} {r : Residual} (h : s.Canonical) : (cellRefusal s x r).Canonical := by
  dsimp only [Machine.cellRefusal]
  split
  · split
    · exact h
    · exact .flushOne h
  · exact h

theorem lighterRefusal {x : Msg} {r : Residual} (h : s.Canonical) : (lighterRefusal s x lt r).Canonical := by
  dsimp only [Machine.lighterRefusal]
  split
  · exact h
  split
  · exact .flushOne h
  · exact h

theorem refusalReply (h : s.Canonical) : (refusalReply m s).Canonical := by
  dsimp only [Machine.refusalReply]
  split
  · exact h
  split
  · exact h
  split
  · split
    · exact h
    split
    · exact h
    split
    · exact .cellRefusal h
    · exact .lighterRefusal h
  · exact h

theorem accumulateAcknowledgement (h : s.Canonical) : (accumulateAcknowledgement m s).Canonical := by
  dsimp only [Machine.accumulateAcknowledgement]
  split
  · exact h
  split
  · exact h
  split
  · split
    · exact h
    · split <;> exact h
  · exact h

theorem residualAgeExpiry {tile : TileRef} {addr : Nat} (h : s.Canonical) : (residualAgeExpiry tile addr s).Canonical := by
  dsimp only [Machine.residualAgeExpiry]
  split
  · split
    · split
      · exact h
      · exact .ite h (.flushOne h)
    · exact h
  · split
    · exact h
    · exact .flushOne h

/-! ### Atomic -/

theorem atomicPerform {ue : Bool} (h : s.Canonical) : (atomicPerform m ue s).Canonical := by
  dsimp only [Machine.atomicPerform]
  split
  · exact h
  split
  · exact h
  split
  · exact .ite h (.ite h (.ite (.homeFault h) (.ite (.homeFault h) (.reply (.performAt h)))))
  · exact h

theorem atomicReply (h : s.Canonical) : (atomicReply m s).Canonical := by
  dsimp only [Machine.atomicReply]
  split
  · exact h
  split
  · exact h
  split
  · exact .ite h (.ite h h)
  · exact h

theorem replyArrival (h : s.Canonical) : (replyArrival m s).Canonical := by
  dsimp only [Machine.replyArrival]
  split
  · exact h
  split
  · exact h
  split
  · exact h
  split
  · exact .loadReply h
  · exact .loadReply h
  · exact .atomicReply h
  · exact .accumulateAcknowledgement h
  · exact .refusalReply h
  · exact h

/-! ### Sync -/

theorem confirmingReadCompletion {x : Subject} (h : s.Canonical) : (confirmingReadCompletion x s).Canonical := by
  dsimp only [Machine.confirmingReadCompletion]
  split
  · split
    · exact .ite h h
    · exact h
  · split
    · exact .ite h h
    · exact h
  · exact h

/-! ### Operators -/

theorem discardWhile {p : Rec → Bool} {fuel : Nat} (h : s.Canonical) : (discardWhile p t c fuel s).Canonical := by
  induction fuel generalizing s with
  | zero => exact h
  | succ fuel ih =>
    dsimp only [Machine.discardWhile]
    split
    · exact .ite (ih (.popHead h)) h
    · exact h

theorem discardStructure (h : s.Canonical) : (discardStructure s t c).Canonical := .discardWhile h

theorem clearInputs {ctl : List Nat} {ins : List FireIn} (h : s.Canonical) : (clearInputs s t ctl ins).Canonical := by
  induction ins generalizing s with
  | nil => exact h
  | cons i ins ih => exact ih (.ite (.discardStructure h) h)

theorem sendOuts {outCh : Vector (Option Nat) 16} {outs : List (Nat × Rec)} (h : s.Canonical) : (sendOuts s t outCh outs).Canonical := by
  induction outs generalizing s with
  | nil => exact h
  | cons o outs ih =>
    dsimp only [Machine.sendOuts]
    split
    · exact ih (.sendRec h)
    · exact ih h

theorem takeHeads {ins : List FireIn} {ports : List Nat} (h : s.Canonical) : (takeHeads s t ins ports).Canonical := by
  induction ports generalizing s with
  | nil => exact h
  | cons p ports ih =>
    dsimp only [Machine.takeHeads]
    split
    · exact ih (.useHead h)
    · exact ih h

end State.Canonical

namespace Firing.Canonical
variable {s : State} {t n c k m q v lt src dst : Nat}

theorem commit {outCh : Vector (Option Nat) 16} {ins : List FireIn} {tag : Instr} {takes : List Nat} {outs : List (Nat × Rec)}
    {f : State → State} (h : s.Canonical) (hf : ∀ {s}, s.Canonical → (f s).Canonical) :
    (Firing.commit s t outCh ins tag takes outs f).Canonical := by
  dsimp only [Machine.Firing.commit]
  split
  · exact trivial
  split
  · exact trivial
  · exact .fire (hf (.sendOuts (.takeHeads h)))

theorem genericFiring {perm : Bool} {inCh outCh : Vector (Option Nat) 16} {tag : Instr}
    {data : State → List FireIn → Except (Nat × W64) (List (Nat × Rec))} {after : State → State} (h : s.Canonical)
    (hafter : ∀ {s}, s.Canonical → (after s).Canonical) :
    (genericFiring perm s t inCh outCh tag data after).Canonical := by
  dsimp only [Machine.genericFiring]
  split
  · exact trivial
  split
  · exact trivial
  split
  · split
    · exact trivial
    split
    · exact .commit (.clearInputs h) hafter
    · exact trivial
  · split
    · exact .commit (.clearInputs h) id
    split
    · split
      · exact trivial
      split
      · exact .commit (.clearInputs h) hafter
      · exact trivial
    · split
      · exact .commit (.clearInputs h) id
      split
      · exact .commit (.clearInputs h) id
      · split <;> exact trivial

theorem arithFiring {o : OperRt} (h : s.Canonical) : (arithFiring s t o).Canonical := .genericFiring h id

theorem convertFiring {o : OperRt} (h : s.Canonical) : (convertFiring s t o).Canonical := by
  unfold Machine.convertFiring
  exact .genericFiring h id

theorem exchangeFiring {o : OperRt} (h : s.Canonical) : (exchangeFiring s t o).Canonical := .genericFiring h id

end Firing.Canonical

namespace State.Canonical
variable {s : State} {t n c k m q v lt src dst : Nat}

/-! ### Stream -/

end State.Canonical

namespace Firing.Canonical
variable {s : State} {t n c k m q v lt src dst : Nat}

theorem forkFiring {o : OperRt} {ins : List FireIn} (h : s.Canonical) : (forkFiring s t o ins).Canonical := by
  dsimp only [Machine.forkFiring]
  split
  · exact trivial
  · exact .commit h id

theorem steerFiring {o : OperRt} {ins : List FireIn} {tag : Instr} {out0 out1 : Option Nat} (h : s.Canonical) :
    (steerFiring s t o ins tag out0 out1).Canonical := by
  dsimp only [Machine.steerFiring]
  split
  · exact trivial
  split
  · exact .commit h id
  split
  · exact trivial
  split
  · exact trivial
  · exact .commit h id

theorem mergeByControl {o : OperRt} {ins : List FireIn} {c : Rec} (h : s.Canonical) : (mergeByControl s t o ins c).Canonical := by
  dsimp only [Machine.mergeByControl]
  split
  · exact trivial
  split
  · exact trivial
  · exact .ite trivial (.commit h id)

theorem mergeFiring {o : OperRt} {ins : List FireIn} (h : s.Canonical) : (mergeFiring s t o ins).Canonical := by
  have steered : Firing.Canonical (((headAt ins 2).map (Machine.mergeByControl s t o ins)).getD (.idle (heldAndWaits ins))) := by
    cases headAt ins 2 with
    | none => exact trivial
    | some c => exact .mergeByControl h
  dsimp only [Machine.mergeFiring]
  split
  · exact .ite (.commit h id) (.ite trivial steered)
  · exact steered

theorem nullMergeFiring {o : OperRt} {ins : List FireIn} (h : s.Canonical) : (nullMergeFiring s t o ins).Canonical := by
  dsimp only [Machine.nullMergeFiring]
  split
  · exact .ite (.commit h id) (.ite (.ite (.commit h id) trivial) (.ite (.commit h id) (.ite (.commit h id) trivial)))
  · exact trivial

theorem fairFiring {o : OperRt} {ins : List FireIn} (h : s.Canonical) : (fairFiring s t n o ins).Canonical := by
  dsimp only [Machine.fairFiring]
  split
  · exact trivial
  split
  · exact trivial
  · exact .commit h id

theorem seqTagFiring {o : OperRt} {ins : List FireIn} (h : s.Canonical) : (seqTagFiring s t n o ins).Canonical := by
  dsimp only [Machine.seqTagFiring]
  split
  · exact trivial
  · exact .ite (.commit h id) (.commit h id)

theorem reorderFiring {o : OperRt} {ins : List FireIn} (h : s.Canonical) : (reorderFiring s t n o ins).Canonical := by
  dsimp only [Machine.reorderFiring]
  split
  · exact .commit h id
  split
  · exact trivial
  · exact .ite (.ite trivial (.commit h id)) (.ite trivial (.commit h id))

theorem tapFiring {o : OperRt} {ins : List FireIn} (h : s.Canonical) : (tapFiring s t n o ins).Canonical := by
  dsimp only [Machine.tapFiring]
  split
  · exact trivial
  refine .commit h (fun h' => .ite h' ?_)
  split
  · exact .sendMsg h'
  · exact h'

theorem combineSendFiring {o : OperRt} {ins : List FireIn} (h : s.Canonical) : (combineSendFiring s t n o ins).Canonical := by
  dsimp only [Machine.combineSendFiring]
  split
  · split
    · exact .commit h id
    split
    · exact trivial
    · exact .ite trivial (.ite trivial (.commit h (fun h' => .sendMsg h')))
  · exact trivial

theorem drainRecord {o : OperRt} {ins : List FireIn} {r : Rec} (h : s.Canonical) : (drainRecord s t n o ins r).Canonical :=
  .ite (.ite (.commit h id) (.commit h id)) (.commit h id)

theorem drainPredicate {o : OperRt} {ins : List FireIn} {c : Rec} (h : s.Canonical) : (drainPredicate s t n o ins c).Canonical := by
  dsimp only [Machine.drainPredicate]
  split
  · exact trivial
  · exact .commit h id

theorem drainPass {o : OperRt} {ins : List FireIn} {r c : Rec} (h : s.Canonical) : (drainPass s t n o ins r c).Canonical := by
  dsimp only [Machine.drainPass]
  split
  · exact trivial
  · exact .ite trivial (.commit h id)

theorem loopDrainFiring {o : OperRt} {ins : List FireIn} (h : s.Canonical) : (loopDrainFiring s t n o ins).Canonical := by
  dsimp only [Machine.loopDrainFiring]
  split
  · exact trivial
  · exact .ite (.drainRecord h) trivial
  · split
    · exact .drainPredicate h
    · split <;> exact trivial
  · exact .ite (.ite (.drainPredicate h) (.drainRecord h)) (.ite (.drainRecord h) (.drainPass h))

theorem constantFiring {o : OperRt} {ins : List FireIn} (h : s.Canonical) : (constantFiring s t o ins).Canonical := by
  dsimp only [Machine.constantFiring]
  split
  · exact trivial
  · exact .commit h id

theorem sinkFiring {o : OperRt} {ins : List FireIn} (h : s.Canonical) : (sinkFiring s t o ins).Canonical := .ite (.commit h id) trivial

theorem repeatFiring {o : OperRt} {ins : List FireIn} (h : s.Canonical) : (repeatFiring s t n o ins).Canonical := by
  dsimp only [Machine.repeatFiring]
  split
  · exact trivial
  · exact .ite (.commit h id) (.ite (.commit h id) (.commit h id))

theorem operFiring {o : OperRt} (h : s.Canonical) : (operFiring s t n o).Canonical := by
  dsimp only [Machine.operFiring]
  split
  · exact trivial
  · exact .ite (.arithFiring h) (.ite (.convertFiring h) (.ite (.forkFiring h) (.ite (.steerFiring h) (.ite (.mergeFiring h)
      (.ite (.nullMergeFiring h) (.ite (.fairFiring h) (.ite (.seqTagFiring h) (.ite (.reorderFiring h) (.ite (.tapFiring h)
      (.ite (.combineSendFiring h) (.ite (.exchangeFiring h) (.ite (.loopDrainFiring h)
      (.ite (.steerFiring h) (.ite (.constantFiring h) (.ite (.sinkFiring h) (.repeatFiring h))))))))))))))))

end Firing.Canonical

namespace State.Canonical
variable {s : State} {t n c k m q v lt src dst : Nat}

theorem operClear {o : OperRt} (h : s.Canonical) : (operClear s t o).Canonical := .clearInputs h

theorem operEvent {ev : Instr} (h : s.Canonical) : (operEvent ev t n s).Canonical := by
  dsimp only [Machine.operEvent]
  split
  · exact h
  split
  · exact h
  split
  · exact .operClear h
  · exact .ite (.nodeFault (.operClear h)) (.operClear h)
  · rename_i fires
    exact .ite (.of_fire (.operFiring (.operClear h)) fires) (.operClear h)

theorem operEventOf {ev : Instr} (h : s.Canonical) : (operEventOf ev s).Canonical := by
  dsimp only [Machine.operEventOf]
  split
  · exact .operEvent h
  · exact h

/-! ### Generators -/

end State.Canonical

namespace GenStep.Canonical
variable {s : State} {t n c k m q v lt src dst : Nat}

/-- What stands in the way of an access leaves no state. -/
theorem genXlate {va : Int} {write : Bool} {st : GenStep} (e : genXlate s t n va write = .error (.inl st)) : st.Canonical := by
  have stopped {code : Nat} {arg : W64} {used : Option Nat} {x : Except (GenStep ⊕ Option Nat) Phys}
      (hx : x = .error (.inl (.stop code arg used))) (e : x = .error (.inl st)) : st.Canonical := by
    cases hx.symm.trans e
    exact trivial
  unfold Machine.genXlate at e
  split at e
  · cases e
  split at e
  · exact stopped rfl e
  dsimp only at e
  split at e
  · generalize (if write = true then _ else _) = allowed at e
    cases allowed
    · exact stopped rfl e
    · cases e
  · exact stopped rfl e
  · cases e
  · cases e

end GenStep.Canonical

namespace State.Canonical
variable {s : State} {t n c k m q v lt src dst : Nat}

theorem genSend {pa : Phys} {k : MsgKind} (h : s.Canonical) : (genSend s t n pa k).Canonical := .sendMsg h

end State.Canonical

namespace GenStep.Canonical
variable {s : State} {t n c k m q v lt src dst : Nat}

theorem genRead {g : GenRt} {l : List Int} (h : s.Canonical) : (genRead t n g l k s).Canonical := by
  induction l generalizing s k with
  | nil => exact h
  | cons x l ih =>
    dsimp only [Machine.genRead]
    split
    · rename_i e
      exact .genXlate e
    · exact .part h
    split
    · exact trivial
    · exact ih (.genSend h)

theorem genWrite {g : GenRt} {l : List (Int × Nat)} (h : s.Canonical) : (genWrite t n g l k s).Canonical := by
  induction l generalizing s k with
  | nil => exact h
  | cons x l ih =>
    dsimp only [Machine.genWrite]
    split
    · rename_i e
      exact .genXlate e
    · exact .part h
    · exact ih (.genSend h)

end GenStep.Canonical

namespace Firing.Canonical
variable {s : State} {t n c k m q v lt src dst : Nat}

theorem genPart {g : GenRt} {x : Nest} {st : GenStep} {f : State → Firing} (h : s.Canonical) (hst : st.Canonical)
    (hf : ∀ {s}, s.Canonical → (f s).Canonical) : (genPart s t n g x st f).Canonical := by
  cases st with
  | all s' => exact hf hst
  | part s' asked ask =>
    dsimp only [Machine.genPart]
    split
    · exact .fire (.askPage hst)
    · exact .ite trivial (.fire hst)
  | stop code arg used =>
    dsimp only [Machine.genPart]
    split
    · exact .fire (.nodeFault h)
    · exact trivial

theorem genStream {g : GenRt} {x : Nest} (h : s.Canonical) : (genStream s t n g x).Canonical := by
  dsimp only [Machine.genStream]
  split
  · exact trivial
  split
  · exact .ite (.genPart h trivial (fun h' => .fire h')) trivial
  · exact .genPart h (.genRead h) (fun h' => .fire h')

theorem genRecord {g : GenRt} {ins : List FireIn} {x : Nest} (h : s.Canonical) : (genRecord s t n g ins x).Canonical := by
  have ordered (index : Option Rec) : (index.elim s (Machine.orderRec s t n)).Canonical := by
    cases index with
    | none => exact h
    | some r => exact .orderRec h
  unfold Machine.genRecord
  refine .ite trivial ?_
  split
  · exact trivial
  refine .ite ?_ (.ite trivial (.ite (.commit h id) (.ite (.commit h id) (.ite (.genStream (ordered _))
    (.ite (.genPart (ordered _) (.genRead (ordered _)) (fun h' => .fire h')) trivial)))))
  split
  · exact trivial
  · exact .ite trivial (.ite (.commit (ordered _) id) (.genPart (ordered _) (.genWrite (ordered _)) (fun h' => .commit h' id)))

end Firing.Canonical

namespace State.Canonical
variable {s : State} {t n c k m q v lt src dst : Nat}

theorem orderNest {r : Rec} (h : s.Canonical) : (orderNest s t n r).Canonical := .orderRec h

end State.Canonical

namespace Firing.Canonical
variable {s : State} {t n c k m q v lt src dst : Nat}

theorem nestFiring {g : GenRt} {ins : List FireIn} {x : Nest} (h : s.Canonical) : (nestFiring s t n g ins x).Canonical := by
  dsimp only [Machine.nestFiring]
  split
  · exact .commit h id
  · exact .genRecord h
  · exact .commit h id
  · exact .ite trivial (.commit h id)
  · exact .commit h id

theorem genFiring {g : GenRt} (h : s.Canonical) : (genFiring s t n g).Canonical := by
  dsimp only [Machine.genFiring]
  split
  · exact trivial
  split
  · exact .commit h id
  split
  · exact .nestFiring h
  split
  · exact trivial
  split
  · exact .commit h id
  split
  · exact .ite trivial (.ite trivial (.nestFiring (.orderNest h)))
  · exact trivial

end Firing.Canonical

namespace State.Canonical
variable {s : State} {t n c k m q v lt src dst : Nat}

theorem genEvent {ev : Instr} (h : s.Canonical) : (genEvent ev t n s).Canonical := by
  dsimp only [Machine.genEvent]
  split
  · exact h
  split
  · exact h
  split
  · exact .clearInputs h
  · exact .ite (.nodeFault (.clearInputs h)) (.clearInputs h)
  · rename_i fires
    exact .ite (.of_fire (.genFiring (.clearInputs h)) fires) (.clearInputs h)

theorem genEventOf {ev : Instr} (h : s.Canonical) : (genEventOf ev s).Canonical := by
  dsimp only [Machine.genEventOf]
  split
  · exact .genEvent h
  · exact h

/-! ### Controllers -/

theorem ctrlGrants {ks : List Nat} {x : CtrlRt} (h : s.Canonical) : (ctrlGrants t n ks x s).2.Canonical := by
  induction ks generalizing s x with
  | nil => exact h
  | cons k ks ih =>
    dsimp only [Machine.ctrlGrants]
    split
    · exact ih h
    · exact ih (.sendOuts h)

theorem ctrlReport {c : CtrlRt} (h : s.Canonical) : (ctrlReport s t n c).Canonical := .ite h (.ite h (.ite h (.sendOuts h)))
theorem ctrlAdvance {x : CtrlRt} (h : s.Canonical) : (ctrlAdvance s t n x).Canonical := .ctrlReport (.ctrlGrants h)

theorem ctrlEvent {take : CtrlRt → List FireIn → CtrlRt × Option Nat} (h : s.Canonical) : (ctrlEvent take t n s).Canonical := by
  dsimp only [Machine.ctrlEvent]
  split
  · exact h
  split
  · exact h
  split
  · exact .nodeFault h
  split
  · exact .ctrlAdvance (.popHead h)
  · exact .ctrlAdvance h

/-! ### Matrix -/

theorem matUse {m : MatRt} {p : Nat} (h : s.Canonical) : (matUse s t m p).Canonical := by
  dsimp only [Machine.matUse]
  split
  · exact .useHead h
  · exact h

theorem drainStep {m : MatRt} {d : MatDrain} (h : s.Canonical) : (drainStep s t n m d).Canonical := by
  dsimp only [Machine.drainStep]
  split
  · exact h
  split
  · exact .nodeFault h
  · exact .ite (.sendOuts h) (.ite (.ite (.sendOuts h) (.matUse (.sendOuts h))) (.sendOuts h))

theorem weightColumn {m : MatRt} (h : s.Canonical) : (weightColumn s t n m).Canonical := by
  dsimp only [Machine.weightColumn]
  split
  · exact .ite (.nodeFault h) (.ite (.popHead h) (.ite h (.ite (.nodeFault h) (.matUse h))))
  · exact h

theorem activationRow {m : MatRt} (h : s.Canonical) : (activationRow s t n m).Canonical := by
  dsimp only [Machine.activationRow]
  split
  · split
    · exact .nodeFault h
    · exact .ite h (.ite (.ite (.nodeFault h) h) (.ite (.ite h h) h))
  · exact h

theorem rowFiring {m : MatRt} (h : s.Canonical) : (rowFiring s t n m).Canonical := by
  dsimp only [Machine.rowFiring]
  split
  · exact h
  split
  · exact h
  split
  · exact .ite (.matUse h) h
  · exact h

theorem nullRow {m : MatRt} (h : s.Canonical) : (nullRow s t n m).Canonical := by
  dsimp only [Machine.nullRow]
  split
  · exact .ite h (.matUse h)
  · exact h

theorem mmDrain {m : MatRt} (h : s.Canonical) : (mmDrain s t n m).Canonical := by
  dsimp only [Machine.mmDrain]
  split
  · exact .drainStep h
  split
  · exact h
  split
  · exact .nodeFault h
  · split <;> exact h

theorem mmClear {m : MatRt} (h : s.Canonical) : (mmClear s t n m).Canonical := by
  dsimp only [Machine.mmClear]
  split
  · exact h
  split
  · exact .nodeFault h
  split
  · exact .matUse h
  · exact h

theorem matToken {m : MatRt} (h : s.Canonical) : (matToken s t n m).Canonical := by
  dsimp only [Machine.matToken]
  split
  · exact h
  split
  · exact .nodeFault h
  · exact .ite h (.matUse (.sendOuts h))

end State.Canonical

namespace Firing.Canonical
variable {s : State} {t n c k m q v lt src dst : Nat}

theorem sortFiring {m : MatRt} (h : s.Canonical) : (sortFiring s t m).Canonical := .genericFiring h id

end Firing.Canonical

namespace State.Canonical
variable {s : State} {t n c k m q v lt src dst : Nat}

theorem sortEvent {x : MatRt} (h : s.Canonical) : (sortEvent s t n x).Canonical := by
  dsimp only [Machine.sortEvent]
  split
  · exact .clearInputs h
  · exact .nodeFault (.clearInputs h)
  · rename_i fires
    exact .of_fire (.sortFiring (.clearInputs h)) fires

theorem matEvent {sort : Bool} {f : State → Nat → Nat → MatRt → State} (h : s.Canonical)
    (hf : ∀ {s x1 x2 x3}, s.Canonical → (f s x1 x2 x3).Canonical) :
    (matEvent sort f s).Canonical := by
  dsimp only [Machine.matEvent]
  split
  · split
    · exact .ite h (hf h)
    · exact h
  · exact h

/-! ### Lighter -/

theorem recAhead {ks : List Nat} {r : Rec} (h : s.Canonical) : (recAhead s t ks r).Canonical := .ite h h

theorem transferRequestRecord (h : s.Canonical) : (transferRequestRecord t c s).Canonical := by
  dsimp only [Machine.transferRequestRecord]
  split
  · split
    · exact .ite h (.ite (.popHead h) (.ite (.popHead h) (.ite h (.popHead h))))
    · exact h
  · exact h

theorem startReq (h : s.Canonical) : (startReq s lt k).Canonical := by
  dsimp only [Machine.startReq]
  split
  · exact .ite h h
  · exact h

theorem loseRead {key home : Nat} (h : s.Canonical) : (loseRead s t lt k key home).Canonical := .loseAccess h

theorem gather {tn : Tenure} {key : Nat} {rows : List (Int × Nat)} {ue : Bool} {fuel : Nat} (h : s.Canonical) :
    (gather tn lt k key rows ue fuel s).Canonical := by
  induction fuel generalizing s with
  | zero => exact h
  | succ fuel ih =>
    dsimp only [Machine.gather]
    split
    · exact h
    split
    · exact h
    split
    · exact h
    · exact .askPage h
    · exact .stopReq h
    refine .ite (.loseRead h) (.ite (.stopReq h) ?_)
    split
    · exact .stopReq h
    · exact ih h

theorem gatherAll {tn : Tenure} {key : Nat} {src : List (Int × Nat)} {ue : Bool} (h : s.Canonical) : (gatherAll s tn lt k key src ue).Canonical :=
  .gather h

theorem sendBlock {q : LReq} {blk va : Nat} {segs : List (Nat × List Byte)} {pa : Phys} (h : s.Canonical) :
    (sendBlock s q lt blk va segs pa).Canonical := .sendMsg h

theorem burstOut {tn : Tenure} {q : LReq} {blk : Nat} {ps : List Piece} {pa : Phys} {ue : Bool} (h : s.Canonical) :
    (burstOut s tn q lt blk ps pa ue).Canonical := by
  dsimp only [Machine.burstOut]
  split
  · exact .ite (.sendBlock h) h
  split
  · exact .ite (.gatherAll h) (.sendBlock (.gatherAll h))
  · exact .gatherAll h

theorem lighterBurst {blk : Nat} {ue : Bool} (h : s.Canonical) : (lighterBurst lt k blk ue s).Canonical := by
  dsimp only [Machine.lighterBurst]
  split
  · exact .startReq h
  split
  · exact .startReq h
  split
  · exact .startReq h
  split
  · exact .startReq h
  split
  · exact .burstOut (.startReq h)
  · exact .startReq h
  · exact .askPage (.startReq h)
  · exact .stopReq (.startReq h)

theorem badRatio {q : LReq} (h : s.Canonical) : (badRatio s lt q).Canonical := .stopReq h

theorem takeOutput {tn : Tenure} {q : LReq} {o : Nat} {x : Rec} (h : s.Canonical) : (takeOutput s tn q lt o x).Canonical :=
  .ite (.recAhead (.popHead h)) (.ite (.badRatio (.recAhead (.popHead h))) (.recAhead (.popHead h)))

theorem sendInput {tn : Tenure} {q : LReq} {i : Nat} {ue : Bool} (h : s.Canonical) : (sendInput s tn q lt i ue).Canonical := by
  dsimp only [Machine.sendInput]
  split
  · exact h
  split
  · exact h
  split
  · exact .ite (.gatherAll h) (.sendRec (.gatherAll h))
  · exact .gatherAll h

theorem transformRow {ue : Bool} (h : s.Canonical) : (transformRow lt k ue s).Canonical := by
  dsimp only [Machine.transformRow]
  split
  · exact .startReq h
  split
  · exact .startReq h
  split
  · exact .startReq h
  split
  · exact .startReq h
  split
  · exact .startReq h
  split
  · exact .takeOutput (.startReq h)
  · exact .ite (.startReq h) (.ite (.sendInput (.startReq h)) (.ite (.startReq h) (.ite (.startReq h) (.badRatio (.startReq h)))))

theorem finishReq {q : LReq} (h : s.Canonical) : (finishReq s lt q).Canonical := .ite h h

theorem sendCompletion {tn : Tenure} {q : LReq} (h : s.Canonical) : (sendCompletion s tn q lt).Canonical := by
  dsimp only [Machine.sendCompletion]
  split
  · exact h
  · exact .askPage h
  · exact .stopReq h
  · exact .sendBlock h

theorem lighterComplete (h : s.Canonical) : (lighterComplete lt k s).Canonical := by
  dsimp only [Machine.lighterComplete]
  split
  · exact h
  split
  · exact h
  · exact .ite h (.ite (.finishReq h) (.ite h (.ite (.ite h (.sendCompletion h)) (.ite h (.finishReq h)))))

theorem lighterAcc {node : Nat} {tn : Tenure} {w : WinE} {va : Nat} {pa : Option Nat} {part : Aw} (h : s.Canonical) :
    (lighterAcc s t node lt tn w va pa part).Canonical := .sendMsg h

theorem streamElems {node : Nat} {tn : Tenure} {w : WinE} {f : EFmt} {i : Nat} {xs : List Nat} {s' : State} (h : s.Canonical)
    (done : streamElems s t c node lt tn w f i xs = .ok s') : s'.Canonical := by
  induction xs generalizing s i with
  | nil => cases done; exact h
  | cons x xs ih =>
    unfold Machine.streamElems at done
    split at done
    · cases done
    · cases done
    · rename_i used _
      cases used <;> exact Except.ok.inj done ▸ h
    · exact ih (.lighterAcc h) done

theorem flushLighter (h : s.Canonical) : (flushLighter s t lt).Canonical := .foldl (fun h' => .flushOne h') h

theorem accumulateStreamRecord (h : s.Canonical) : (accumulateStreamRecord t c s).Canonical := by
  have popped : (Machine.popHead s t c).Canonical := .popHead h
  unfold Machine.accumulateStreamRecord
  split
  case h_2 => exact h
  split
  case h_2 => exact h
  refine .ite h (.ite (.flushLighter popped) (.ite popped ?_))
  dsimp only
  split
  case h_2 => exact popped
  refine .ite popped (.ite popped (.ite popped ?_))
  split
  · exact popped
  split
  · rename_i done
    exact .recAhead (.streamElems popped done)
  · exact h
  · exact .askPage h

/-! ### Gates -/

theorem gateExpire {g : Nat} (h : s.Canonical) : (gateExpire t g s).Canonical := by
  dsimp only [Machine.gateExpire]
  split
  · exact h
  split
  · exact .ite h (.nodeFault h)
  · exact h

theorem gateTimeout {g : Nat} (h : s.Canonical) : (gateTimeout t g s).Canonical := .ite (.gateExpire h) h

theorem gateCount {g : Nat} {r : GateRt} {now : Nat} {par : Bool} (h : s.Canonical) : (gateCount s t g m r now n par).Canonical :=
  .ite (.nodeFault h) h

theorem gateArrival (h : s.Canonical) : (gateArrival m s).Canonical := by
  dsimp only [Machine.gateArrival]
  split
  · exact h
  split
  · exact h
  split
  · exact h
  split
  · split
    · exact h
    split
    · exact .gateExpire h
    · exact .ite (.gateExpire h) (.ite (.gateExpire h) (.gateCount (.gateExpire h)))
  · exact h

theorem gatePermit {g port : Nat} (h : s.Canonical) : (gatePermit t g port s).Canonical := by
  dsimp only [Machine.gatePermit]
  split
  · exact h
  split
  · exact h
  split
  · exact h
  · exact .ite h (.sendRec h)

/-! ### Combine -/

theorem sendResult {tn : Tenure} {x : TreeE} {r : Rec} (h : s.Canonical) : (sendResult s t tn x r).Canonical := by
  dsimp only [Machine.sendResult]
  split
  · exact h
  · exact .ite h (.sendMsg h)

theorem deliverRoot {tn : Tenure} {x : TreeE} {fuel : Nat} (h : s.Canonical) : (deliverRoot t tn x fuel s).Canonical := by
  induction fuel generalizing s with
  | zero => exact h
  | succ fuel ih =>
    dsimp only [Machine.deliverRoot]
    split
    · exact h
    split
    · exact h
    refine .ite h (ih ?_)
    split
    · exact .sendResult h
    · exact .sendResult h

theorem forwardRound {tn : Tenure} {x : TreeE} {round : Nat} {us : List W64} {miss : Option Missing} (h : s.Canonical) :
    (forwardRound s t tn x k round us miss).Canonical := by
  dsimp only [Machine.forwardRound]
  split
  · exact h
  · exact .ite (.deliverRoot h) (.sendMsg h)

theorem closeRound {tn : Tenure} {x : TreeE} {r : Round} (h : s.Canonical) : (closeRound s t tn x k r).Canonical := .forwardRound h

theorem enterRound {tn : Tenure} {x : TreeE} {slot round : Nat} {us : List W64} {miss : Option Missing} (h : s.Canonical) :
    (enterRound s t tn x k slot round us miss).Canonical := .ite h (.ite (.closeRound h) h)

theorem combineExpire {tree : Nat} (h : s.Canonical) : (combineExpire t tree k s).Canonical := by
  dsimp only [Machine.combineExpire]
  split
  · split
    · exact h
    split
    · exact h
    · exact .ite h (.forwardRound h)
  · exact h

theorem combineTimeout {tree : Nat} (h : s.Canonical) : (combineTimeout t tree k s).Canonical := .ite (.combineExpire h) h

theorem contributionArrival (h : s.Canonical) : (contributionArrival m s).Canonical := by
  dsimp only [Machine.contributionArrival]
  split
  · exact h
  split
  · exact h
  split
  · exact h
  split
  · split
    · exact h
    split
    · split
      · exact .enterRound (.combineExpire (.combineExpire h))
      · exact .combineExpire (.combineExpire h)
    · exact .combineExpire (.combineExpire h)
  · exact h

theorem rootDelivery {tree : Nat} (h : s.Canonical) : (rootDelivery t tree s).Canonical := by
  dsimp only [Machine.rootDelivery]
  split
  · split
    · exact .ite (.deliverRoot h) h
    · exact h
  · exact h

/-! ### Wave -/

theorem nextWave {last : Bool} (h : s.Canonical) : (nextWave s t last).Canonical := .ite h (.ite h h)

theorem declareQuiet {graph : Bool} (h : s.Canonical) : (declareQuiet s t graph).Canonical := by
  have ordered (ns : List Nat) : State.Canonical (if graph then ns.foldl (fun s n => orderNode s t n (fun _ => true)) s else s) :=
    .ite (.foldl id h) h
  exact ordered _

theorem flushTasks {tn : Tenure} {l : List (Nat × TaskRt)} (h : s.Canonical) : (flushTasks t tn l s).Canonical := by
  induction l generalizing s with
  | nil => exact h
  | cons x l ih => exact ih (.flushList h)

theorem flushTiles (h : s.Canonical) : (flushTiles s t).Canonical := by
  dsimp only [Machine.flushTiles]
  split
  · exact .foldl (fun h' => .flushLighter h') (.flushTasks h)
  · exact h

theorem waveVerdict {graph : Bool} {v : Verdict} {x : Sums} (h : s.Canonical) : (waveVerdict s t graph v x).Canonical := by
  dsimp only [Machine.waveVerdict]
  split
  · exact h
  · exact h
  · exact .nextWave (.declareQuiet h)
  · exact .flushTiles h
  · exact .nextWave h

theorem wavePass (h : s.Canonical) : (wavePass t s).Canonical := by
  dsimp only [Machine.wavePass]
  split
  · exact h
  split
  · exact h
  split
  · exact .ite h (.ite h h)
  split
  · exact h
  · exact .waveVerdict h

theorem waveVisit {p : Nat} (h : s.Canonical) : (waveVisit t p s).Canonical := .ite h h

theorem wavePeriod (h : s.Canonical) : (wavePeriod t s).Canonical := by
  dsimp only [Machine.wavePeriod]
  split
  · exact h
  · exact .ite h h

/-! ### Host -/

theorem writeParts {parts : List (Phys × Nat)} {bs : List Byte} (h : s.Canonical) : (writeParts s parts bs).Canonical := by
  induction parts generalizing s bs with
  | nil => exact h
  | cons p parts ih => exact ih (.physWrite h)

theorem readRing {fuel : Nat} (h : s.Canonical) : (readRing q fuel s).Canonical := by
  induction fuel generalizing s with
  | zero => exact h
  | succ fuel ih =>
    dsimp only [Machine.readRing]
    split
    · exact h
    split
    · exact h
    split
    · exact h
    · exact .askPage h
    · exact h
    · exact ih h

theorem fetchRing (h : s.Canonical) : (fetchRing s q).Canonical := by
  dsimp only [Machine.fetchRing]
  split
  · exact .readRing h
  · exact h

theorem kickTailWrite {v : W32} (h : s.Canonical) : (kickTailWrite q v s).Canonical := by
  dsimp only [Machine.kickTailWrite]
  split
  · exact h
  · exact .ite h (.ite h (.fetchRing h))

theorem addCpl {idx status : Nat} {result detail : W64} {w3hi : Nat} {fin joined : Bool} (h : s.Canonical) :
    (addCpl s q idx status result detail w3hi fin joined).Canonical := .ite h h

theorem complete {idx status : Nat} {result detail : W64} (h : s.Canonical) : (complete s q idx status result detail).Canonical := .addCpl h
theorem modTenure {f : Tenure → Tenure} (h : s.Canonical) : (s.modTenure t f).Canonical := h
theorem modQueue {f : QueueRt → QueueRt} (h : s.Canonical) : (s.modQueue q f).Canonical := h
theorem releaseBinds (h : s.Canonical) : (releaseBinds s t).Canonical := h
theorem removeTenure (h : s.Canonical) : (removeTenure s t).Canonical := h
theorem dropBlocks (h : s.Canonical) : (dropBlocks s t).Canonical := h

theorem raiseIrq {vector : Nat} (h : s.Canonical) : (raiseIrq s vector).Canonical := .ite h h

theorem completionWrite (h : s.Canonical) : (completionWrite q k s).Canonical := by
  dsimp only [Machine.completionWrite]
  split
  · exact h
  split
  · exact h
  split
  · exact h
  split
  · exact h
  · exact .askPage h
  · exact h
  · exact .ite (.raiseIrq (.writeParts h)) (.writeParts h)

theorem commandEvent {mine : Cmd → Bool} {run : State → Nat → QueueRt → Cmd → State} (h : s.Canonical)
    (hrun : ∀ {s x1 x2 x3}, s.Canonical → (run s x1 x2 x3).Canonical) :
    (commandEvent mine run s).Canonical := by
  dsimp only [Machine.commandEvent]
  split
  · split
    · exact h
    split
    · exact .fetchRing h
    split
    · exact hrun (.fetchRing h)
    split
    · split
      · exact hrun (.fetchRing h)
      · exact .fetchRing h
    · split
      · split
        · exact hrun (.fetchRing h)
        · exact .fetchRing h
      · split
        · exact .complete (.fetchRing h)
        split
        · exact hrun (.fetchRing h)
        split
        · exact hrun (.fetchRing h)
        · exact .fetchRing h
  · exact h

theorem withRange {x : QueueRt} {cmd : Cmd} {va len : Nat} {write : Bool} {f : List (Phys × Nat) → State} (h : s.Canonical)
    (hf : ∀ parts, (f parts).Canonical) : (withRange s q x cmd va len write f).Canonical := by
  dsimp only [Machine.withRange]
  split
  · exact h
  · exact .askPage h
  · exact .complete h
  · exact hf _

theorem withAligned {x : QueueRt} {cmd : Cmd} {va len : Nat} {write : Bool} {f : List (Phys × Nat) → State} (h : s.Canonical)
    (hf : ∀ parts, (f parts).Canonical) : (withAligned s q x cmd va len write f).Canonical := .ite (.complete h) (.withRange h hf)

theorem createQueue {desc die : Nat} (h : s.Canonical) : (createQueue desc die s).Canonical := by
  unfold Machine.createQueue
  split
  · exact .ite h h
  · exact h

theorem registerWrite {r : RegAddr} {v : W64} (h : s.Canonical) : (registerWrite r v s).Canonical := by
  dsimp only [Machine.registerWrite]
  split
  · split
    · exact .ite (.kickTailWrite h) (.ite h h)
    · exact h
  · exact .ite h (.ite h (.ite (.ite h h) h))
  · exact h
  · split
    · exact .ite h h
    · exact h

theorem runSignal {x : QueueRt} {c : Cmd} (h : s.Canonical) : (runSignal s q x c).Canonical := .withAligned h (fun _ => .complete (.writeParts h))

theorem runWait {x : QueueRt} {c : Cmd} (h : s.Canonical) : (runWait s q x c).Canonical := by
  dsimp only [Machine.runWait]
  split
  · exact .complete h
  split
  · exact h
  · exact .askPage h
  · exact .complete h
  · exact .ite (.complete h) h

theorem waitSatisfied (h : s.Canonical) : (waitSatisfied q s).Canonical := by
  dsimp only [Machine.waitSatisfied]
  split
  · exact h
  split
  · exact h
  split
  · exact h
  split
  · exact .ite (.complete h) h
  · exact .askPage h
  · exact h
  · exact .complete h

theorem waitTimeout (h : s.Canonical) : (waitTimeout q s).Canonical := by
  dsimp only [Machine.waitTimeout]
  split
  · exact h
  split
  · exact h
  split
  · exact h
  · exact .ite h (.complete h)

/-! ### Load -/

theorem modSubs {f : SubRt → SubRt} {ks : List Nat} (h : s.Canonical) : (modSubs f ks s).Canonical := by
  induction ks generalizing s with
  | nil => exact h
  | cons k ks ih => exact ih h

theorem grantRegion {r : Region} (h : s.Canonical) : (grantRegion s t r).Canonical := .modSubs h

theorem leaveSubs {ks : List Nat} (h : s.Canonical) : (leaveSubs t ks s).Canonical := by
  induction ks generalizing s with
  | nil => exact h
  | cons k ks ih => exact ih h

theorem leaveRegion (h : s.Canonical) : (leaveRegion s t).Canonical := by
  dsimp only [Machine.leaveRegion]
  split
  · exact h
  split
  · exact h
  split <;> exact .leaveSubs h

theorem startZeroing {x : DrainRef} (h : s.Canonical) : (startZeroing s x).Canonical := by
  dsimp only [Machine.startZeroing]
  split
  · exact .modSubs h
  · exact h

theorem launchFirst (h : s.Canonical) : (launchFirst s t).Canonical := by
  dsimp only [Machine.launchFirst]
  split
  · exact .ite h (.modTenure (.addCpl h))
  · exact h

theorem launchLast {status : Nat} {result detail : W64} (h : s.Canonical) : (launchLast s t status result detail).Canonical := by
  dsimp only [Machine.launchLast]
  split
  · exact .addCpl (.launchFirst h)
  · exact h

theorem completeAll {status : Nat} {detail : W64} {l : List (Nat × Nat)} (h : s.Canonical) : (completeAll status detail l s).Canonical := by
  induction l generalizing s with
  | nil => exact h
  | cons x l ih => exact ih (.complete h)

theorem completeResumes {status : Nat} {detail : W64} (h : s.Canonical) : (completeResumes s t status detail).Canonical := by
  dsimp only [Machine.completeResumes]
  split
  · exact .completeAll h
  · exact h

theorem completePauses {status : Nat} {detail : W64} (h : s.Canonical) : (completePauses s t status detail).Canonical := by
  dsimp only [Machine.completePauses]
  split
  · exact .completeAll h
  · exact h

theorem admissionFail {code : Nat} {arg detail : W64} (h : s.Canonical) : (admissionFail s t code arg detail).Canonical := by
  dsimp only [Machine.admissionFail]
  split
  · exact h
  · exact .leaveRegion (.releaseBinds (.complete (.completePauses (.completeResumes h))))

theorem replaceFault {pound code arg : Nat} (h : s.Canonical) : (replaceFault s t pound code arg).Canonical := .completeResumes h

theorem loadTrouble {code arg : Nat} (h : s.Canonical) : (loadTrouble s t code arg).Canonical := by
  dsimp only [Machine.loadTrouble]
  split
  · exact h
  · exact .ite (.replaceFault h) (.ite (.ite (.admissionFail h) h) h)

theorem readLoad {pound fails : Nat} (h : s.Canonical) : (readLoad s t pound fails).Canonical := by
  dsimp only [Machine.readLoad]
  split
  · exact h
  split
  · exact h
  split
  · exact h
  · exact .loadTrouble h

theorem readNext (h : s.Canonical) : (readNext s t).Canonical := by
  dsimp only [Machine.readNext]
  split
  · exact h
  split
  · split
    · exact h
    split
    · exact h
    split
    · exact h
    · exact h
    · exact .askPage h
    · exact .loadTrouble (.ite h h)
  · exact h

theorem takeTurn (h : s.Canonical) : (takeTurn s t).Canonical := by
  dsimp only [Machine.takeTurn]
  split
  · exact h
  · split <;> exact h

theorem runAgain (h : s.Canonical) : (runAgain s t).Canonical := by
  dsimp only [Machine.runAgain]
  split
  · exact h
  refine .completeResumes ?_
  split
  · exact .ite (.ite h h) (.takeTurn (.ite h h))
  · exact .ite h h

theorem replaced {l : Load} (h : s.Canonical) : (replaced s t l).Canonical := by
  dsimp only [Machine.replaced]
  split
  · exact h
  · exact .runAgain h

theorem loadCommit {noise : List (Nat × Nat)} {ue : Bool} (h : s.Canonical) : (loadCommit t noise ue s).Canonical := by
  dsimp only [Machine.loadCommit]
  split
  · exact h
  split
  · exact h
  split
  · exact h
  split
  · exact .ite (.replaced h) h
  · exact .ite (.loadTrouble h) (.readLoad h)

theorem loadGoesOn (h : s.Canonical) : (loadGoesOn s t).Canonical := .ite (.readNext h) h
theorem loadReads (h : s.Canonical) : (loadReads s t).Canonical := .ite h (.readNext h)

/-! ### Admission -/

theorem launchWith {x : QueueRt} {c : Cmd} {args : List Byte} (h : s.Canonical) : (launchWith s q x c args).Canonical := by
  dsimp only [Machine.launchWith]
  split
  · exact h
  · exact h
  · exact .askPage h
  · exact .complete h

theorem runLaunch {x : QueueRt} {c : Cmd} (h : s.Canonical) : (runLaunch s q x c).Canonical := by
  dsimp only [Machine.runLaunch]
  split
  · exact .launchWith h
  · exact .withAligned h (fun _ => .launchWith h)

theorem launchGoesOn (h : s.Canonical) : (launchGoesOn s q).Canonical := by
  dsimp only [Machine.launchGoesOn]
  split
  · exact h
  split
  · exact .runLaunch h
  · exact h

theorem takeGrantToken {d : Nat} (h : s.Canonical) : (takeGrantToken s t d).Canonical := by
  dsimp only [Machine.takeGrantToken]
  split
  · exact .ite h h
  · exact h

theorem regionGranted {tn : Tenure} (h : s.Canonical) : (regionGranted s t tn).Canonical :=
  .ite (.ite (.readLoad h) (.runAgain h)) (.completeResumes h)

theorem searchFailed {tn : Tenure} {code arg detail : Nat} (h : s.Canonical) : (searchFailed s t tn code arg detail).Canonical :=
  .ite (.completeResumes h) (.admissionFail h)

theorem candidateFailed {tn : Tenure} {r : Region} {f : Failure} (h : s.Canonical) : (candidateFailed s t tn r f).Canonical :=
  .ite (.searchFailed h) h

theorem attempt {tn : Tenure} {r : Region} (h : s.Canonical) : (attempt s t tn r).Canonical := by
  dsimp only [Machine.attempt]
  split
  · exact .candidateFailed h
  · exact .regionGranted (.grantRegion h)

theorem candidateAttempt (h : s.Canonical) : (candidateAttempt t s).Canonical := by
  dsimp only [Machine.candidateAttempt]
  split
  · exact h
  split
  · exact h
  split
  · exact .searchFailed h
  split
  · exact h
  split
  · exact h
  split
  · exact .ite (.takeGrantToken h) h
  · exact .attempt h

theorem grantPlane {resident : Nat} {r : Region} (h : s.Canonical) : (grantPlane s t resident r).Canonical := .modSubs h

theorem planeGrant {resident : Nat} (h : s.Canonical) : (planeGrant t resident s).Canonical := by
  dsimp only [Machine.planeGrant]
  split
  · split
    · exact h
    split
    · exact h
    split
    · exact h
    · exact .regionGranted (.grantPlane h)
  · exact h

/-! ### Passage -/

end State.Canonical

namespace PStep.Canonical
variable {s : State} {t n c k m q v lt src dst : Nat}

theorem badPassage {tn : Tenure} (h : s.Canonical) : (badPassage s t tn).Canonical := .stay h

end PStep.Canonical

namespace State.Canonical
variable {s : State} {t n c k m q v lt src dst : Nat}

theorem passTo {pc : Nat} (h : s.Canonical) : (passTo s t pc).Canonical := .ite h h

theorem writeVa {pasid va : Nat} {bs : List Byte} (h : s.Canonical) : (writeVa s t pasid va bs).Canonical := by
  dsimp only [Machine.writeVa]
  split
  · exact .writeParts h
  · exact h

end State.Canonical

namespace PStep.Canonical
variable {s : State} {t n c k m q v lt src dst : Nat}

theorem withRanges {tn : Tenure} {rs : List MemRange} {k : PStep} (h : s.Canonical) (h2 : k.Canonical) : (withRanges s t tn rs k).Canonical := by
  dsimp only [Machine.withRanges]
  split
  · exact .ite (.stay h) h2
  · exact .stay h
  · exact .stay (.askPage h)
  · exact .stay h

end PStep.Canonical

namespace State.Canonical
variable {s : State} {t n c k m q v lt src dst : Nat}

theorem publish {tn : Tenure} {back : Bool} {ws : List WinE} (h : s.Canonical) : (publish t tn back ws s).Canonical := by
  induction ws generalizing s with
  | nil => exact h
  | cons w ws ih =>
    have wroteBack : State.Canonical (if w.isLocal && back then
        Machine.writeVa s t tn.pasid (tn.wbaseOf w) (winImage (readVa s t tn.pasid (tn.wbaseOf w) w.bytes) w.count (winWords s t tn w))
      else s) := .ite (.writeVa h) h
    exact ih (.ite wroteBack (.writeVa wroteBack))

theorem writeGates {pasid : Nat} {gs : List GateRt} (h : s.Canonical) : (writeGates t pasid gs s).Canonical := by
  induction gs generalizing s with
  | nil => exact h
  | cons g gs ih => exact ih (.writeVa h)

end State.Canonical

namespace PStep.Canonical
variable {s : State} {t n c k m q v lt src dst : Nat}

theorem writeBacks {tn : Tenure} {k : State → PStep} (h : s.Canonical) (hk : ∀ {s}, s.Canonical → (k s).Canonical) :
    (writeBacks s t tn k).Canonical :=
  .withRanges h (hk (.writeGates (.publish h)))

end PStep.Canonical

namespace State.Canonical
variable {s : State} {t n c k m q v lt src dst : Nat}

theorem buildNode {tn : Tenure} {l : Load} {x : NodeE} (h : s.Canonical) : (buildNode s t tn l x n).Canonical := by
  dsimp only [Machine.buildNode]
  split
  · exact h
  · exact h
  · exact h
  · exact h
  · exact h
  split
  · split <;> exact h
  · exact .ite h h

theorem buildNodes {tn : Tenure} {l : Load} {xs : List (NodeE × Nat)} (h : s.Canonical) : (buildNodes t tn l xs s).Canonical := by
  induction xs generalizing s with
  | nil => exact h
  | cons x xs ih => exact ih (.ite (.buildNode h) h)

theorem zeroWins {tn : Tenure} {pound : Nat} {ws : List WinE} (h : s.Canonical) : (zeroWins t tn pound ws s).Canonical := by
  induction ws generalizing s with
  | nil => exact h
  | cons w ws ih => exact ih (.ite (.writeVa h) h)

theorem countQueue {id : Nat} (h : s.Canonical) : (countQueue s t id).Canonical := by
  dsimp only [Machine.countQueue]
  split
  · exact .ite h h
  · exact h

theorem buildChans {tn : Tenure} {pound : Nat} {es : List (ChanE × Nat)} (h : s.Canonical) : (buildChans t tn pound es s).Canonical := by
  induction es generalizing s with
  | nil => exact h
  | cons x es ih =>
    dsimp only [Machine.buildChans]
    refine .ite (ih h) (ih ?_)
    split
    · split <;> exact h
    · exact .countQueue h
    · exact h

theorem switchPound {tn : Tenure} {l : Load} (h : s.Canonical) : (switchPound s t tn l).Canonical :=
  .launchFirst (.buildChans (.buildNodes (.zeroWins h)))

end State.Canonical

namespace PStep.Canonical
variable {s : State} {t n c k m q v lt src dst : Nat}

theorem doEnter {tn : Tenure} (h : s.Canonical) : (doEnter k s t tn).Canonical := by
  dsimp only [Machine.doEnter]
  split
  · exact .badPassage h
  split
  · exact .stay (.readLoad h)
  · exact .ite (.stay (.readLoad h)) (.ite (.stay h) (.withRanges h (.next (.switchPound h))))

theorem awaitQuiet {graph : Bool} {before : State → State} {tn : Tenure} {k : PStep} (h : s.Canonical) (h2 : k.Canonical)
    (hbefore : ∀ {s}, s.Canonical → (before s).Canonical) :
    (awaitQuiet graph before s t tn k).Canonical := by
  dsimp only [Machine.awaitQuiet]
  split
  · exact h2
  · exact .stay h
  · exact .stay (hbefore h)

theorem drainPound {tn : Tenure} {k : PStep} (h : s.Canonical) (h2 : k.Canonical) : (drainPound s t tn k).Canonical := by
  dsimp only [Machine.drainPound]
  split
  · exact .awaitQuiet h h2 id
  · exact .ite (.awaitQuiet h h2 (fun h' => .flushTiles h')) (.stay h)

end PStep.Canonical

namespace State.Canonical
variable {s : State} {t n c k m q v lt src dst : Nat}

theorem uncountQueues {l : List (Nat × VqRt)} (h : s.Canonical) : (uncountQueues t l s).Canonical := by
  induction l generalizing s with
  | nil => exact h
  | cons x l ih =>
    refine ih ?_
    split
    · exact .ite h h
    · exact h

theorem leavePound (h : s.Canonical) : (leavePound s t).Canonical := .uncountQueues h

end State.Canonical

namespace PStep.Canonical
variable {s : State} {t n c k m q v lt src dst : Nat}

theorem doLock {hv : Bool} {tn : Tenure} (h : s.Canonical) : (doLock hv k s t tn).Canonical := by
  dsimp only [Machine.doLock]
  split
  · exact .badPassage h
  split
  · exact .ite (.stay (.ite h (.readLoad h))) (.drainPound h (.stay h))
  · exact .drainPound h (.writeBacks h (fun h' => .next (.leavePound h')))

theorem doSettle {w : Nat} {tn : Tenure} (h : s.Canonical) : (doSettle w s t tn).Canonical := by
  dsimp only [Machine.doSettle]
  split
  · exact .badPassage h
  · exact .ite (.badPassage h) (.awaitQuiet h (.withRanges h (.next (.publish h))) (fun h' => .flushTiles h'))

end PStep.Canonical

namespace State.Canonical
variable {s : State} {t n c k m q v lt src dst : Nat}

theorem retire {status : Nat} {result detail : W64} (h : s.Canonical) : (retire s t status result detail).Canonical :=
  .removeTenure (.leaveRegion (.launchLast (.releaseBinds h)))

end State.Canonical

namespace PStep.Canonical
variable {s : State} {t n c k m q v lt src dst : Nat}

theorem doRetire {status : Nat} {result detail : Tenure → W64} {tn : Tenure} (h : s.Canonical) :
    (doRetire status result detail s t tn).Canonical := by
  dsimp only [Machine.doRetire]
  split
  · exact .retired (.retire h)
  · exact .stay h
  · exact .ite (.writeBacks h (fun h' => .stay h')) (.drainPound h (.writeBacks h (fun h' => .stay h')))

theorem doBind {b : Binding} {tn : Tenure} (h : s.Canonical) : (doBind c b s t tn).Canonical := by
  dsimp only [Machine.doBind]
  split
  · exact .badPassage h
  · exact .ite (.badPassage h) (.next h)

theorem doBindVq {off : Nat} {tn : Tenure} (h : s.Canonical) : (doBindVq c off s t tn).Canonical := by
  dsimp only [Machine.doBindVq]
  split
  · rename_i bound
    have stays : (Machine.doBind c (.vq (tn.argWord off % 4294967296)) s t tn).Canonical := .doBind h
    rw [bound] at stays
    split
    · exact .stay h
    refine .ite (.stay h) ?_
    split
    · exact .ite (.next h) (.stay h)
    · exact .next stays
  · exact .doBind h

theorem waitBlocked (h : s.Canonical) : (waitBlocked s t).Canonical := .stay h

end PStep.Canonical

namespace State.Canonical
variable {s : State} {t n c k m q v lt src dst : Nat}

theorem predicateRecord (h : s.Canonical) : (predicateRecord t c s).Canonical := by
  dsimp only [Machine.predicateRecord]
  split
  · split
    · split
      · exact h
      · split <;> exact .orderRec (.popHead h)
    · exact h
  · exact h

theorem segmentSwitch (h : s.Canonical) : (segmentSwitch t s).Canonical := by
  dsimp only [Machine.segmentSwitch]
  split
  · exact h
  split
  · exact h
  · exact .ite h (.ite (.ite (.takeTurn (.flushTiles h)) (.flushTiles h)) h)

/-! ### Pause -/

theorem runPause {x : QueueRt} {c : Cmd} (h : s.Canonical) : (runPause s q x c).Canonical := by
  dsimp only [Machine.runPause]
  split
  · exact .complete h
  split
  · exact .complete h
  split
  · exact .complete h
  · exact h
  · exact h
  · exact .complete h

theorem segmaxExpiry (h : s.Canonical) : (segmaxExpiry t s).Canonical := by
  dsimp only [Machine.segmaxExpiry]
  split
  · exact h
  split
  · exact .ite h h
  · exact h

theorem saveImage {tn : Tenure} {p : PauseSt} (h : s.Canonical) : (saveImage s t tn p).Canonical := by
  dsimp only [Machine.saveImage]
  split
  · exact .ite (.takeTurn h) h
  · exact h

theorem hold {tn : Tenure} (h : s.Canonical) : (hold s t tn).Canonical := by
  dsimp only [Machine.hold]
  split
  · exact .launchLast h
  · exact h

theorem finishPause {tn : Tenure} {p : PauseSt} (h : s.Canonical) : (finishPause s t tn p).Canonical := by
  dsimp only [Machine.finishPause]
  refine .completeAll ?_
  split
  · exact .complete (.ite (.hold (.saveImage h)) (.saveImage h))
  · exact .ite (.hold (.saveImage h)) (.saveImage h)

theorem pauseComplete (h : s.Canonical) : (pauseComplete t s).Canonical := by
  dsimp only [Machine.pauseComplete]
  split
  · exact h
  split
  · split
    · exact h
    split
    · exact .ite (.finishPause (.flushTiles h)) (.flushTiles h)
    · exact .flushTiles h
  · exact h

theorem faultArrival (h : s.Canonical) : (faultArrival t k s).Canonical := by
  dsimp only [Machine.faultArrival]
  split
  · exact h
  split
  · exact h
  · split <;> exact h

theorem endTenure (h : s.Canonical) : (endTenure s t).Canonical := .removeTenure (.leaveRegion (.releaseBinds (.dropBlocks h)))

theorem holdTimeout (h : s.Canonical) : (holdTimeout t s).Canonical := by
  dsimp only [Machine.holdTimeout]
  split
  · exact .ite (.endTenure h) h
  · exact h

theorem completeAfter {after : Nat × Nat} {idx : Nat} (h : s.Canonical) : (completeAfter s after q idx).Canonical := .modQueue (.complete h)

theorem killWaiting {after : Nat × Nat} {l : List (Nat × Nat)} (h : s.Canonical) : (killWaiting after l s).Canonical := by
  induction l generalizing s with
  | nil => exact h
  | cons x l ih => exact ih (.completeAfter h)

theorem runKill {x : QueueRt} {c : Cmd} (h : s.Canonical) : (runKill s q x c).Canonical := by
  dsimp only [Machine.runKill]
  split
  · exact .complete h
  refine .killWaiting ?_
  refine .complete ?_
  refine .endTenure ?_
  split
  · exact .complete h
  · exact .complete h
  · exact h
  · exact .launchLast h

theorem runResume {x : QueueRt} {c : Cmd} (h : s.Canonical) : (runResume s q x c).Canonical := by
  dsimp only [Machine.runResume]
  split
  · exact .complete h
  split
  · exact h
  · exact .ite (.complete h) (.ite (.runAgain h) h)
  · exact .complete h

theorem regionReclaim (h : s.Canonical) : (regionReclaim t s).Canonical := by
  dsimp only [Machine.regionReclaim]
  split
  · exact .ite (.leaveRegion h) h
  · exact h

theorem replacementFallback (h : s.Canonical) : (replacementFallback t s).Canonical := by
  dsimp only [Machine.replacementFallback]
  split
  · exact .ite (.leaveRegion h) h
  · exact h

theorem endAll {l : List (Nat × Tenure)} (h : s.Canonical) : (endAll l s).Canonical := by
  induction l generalizing s with
  | nil => exact h
  | cons x l ih => exact ih (.endTenure h)

theorem pauseAll {l : List (Nat × Tenure)} (h : s.Canonical) : (pauseAll l s).Canonical := by
  induction l generalizing s with
  | nil => exact h
  | cons x l ih =>
    refine ih ?_
    split <;> exact h

theorem processMigration {pasid : Nat} (h : s.Canonical) : (processMigration pasid s).Canonical := .ite h (.ite (.endAll h) (.pauseAll h))

theorem writePages {pasid : Nat} {l : List (Nat × Byte)} (h : s.Canonical) : (writePages pasid l s).Canonical := by
  induction l generalizing s with
  | nil => exact h
  | cons x l ih =>
    refine ih ?_
    split
    · exact .physWrite h
    · exact h

theorem migrationReceive {pasid : Nat} (h : s.Canonical) : (migrationReceive k pasid s).Canonical := by
  dsimp only [Machine.migrationReceive]
  split
  · exact h
  · exact .ite h (.writePages h)

/-! ### Commands -/

theorem appendRecs {q : VqRt} {rs : List Rec} (h : s.Canonical) : (appendRecs s v q rs).Canonical := by
  dsimp only [Machine.appendRecs]
  split
  · exact .ite h h
  · exact h

theorem runPush {x : QueueRt} {cmd : Cmd} (h : s.Canonical) : (runPush s q x cmd).Canonical := by
  dsimp only [Machine.runPush]
  split
  · exact .complete h
  refine .withAligned h (fun _ => ?_)
  split
  · exact .complete h
  · exact .ite (.complete h) (.complete (.appendRecs h))

theorem runPull {x : QueueRt} {c : Cmd} (h : s.Canonical) : (runPull s q x c).Canonical := by
  dsimp only [Machine.runPull]
  split
  · exact .complete h
  · exact .withAligned h (fun _ => .complete (.writeParts h))

theorem noteRead {die : Nat} (h : s.Canonical) : (noteRead die s).Canonical := by
  dsimp only [Machine.noteRead]
  split <;> exact h

theorem runQuery {x : QueueRt} {c : Cmd} (h : s.Canonical) : (runQuery s q x c).Canonical := by
  dsimp only [Machine.runQuery]
  split
  · exact .complete h
  · exact .withAligned h (fun _ => .ite (.noteRead (.complete (.writeParts h))) (.complete (.writeParts h)))

theorem queryEvent {sel : Nat} (h : s.Canonical) : (queryEvent sel s).Canonical := .commandEvent h (fun h' => .runQuery h')

/-! ### VirtualQueues -/

theorem vqAgentMove (h : s.Canonical) : (vqAgentMove v s).Canonical := by
  dsimp only [Machine.vqAgentMove]
  split
  · exact h
  split
  · split
    · exact .ite h (.ite (.nodeFault h) (.sendRec h))
    · exact h
  · exact h

theorem pumpBridge (h : s.Canonical) : (pumpBridge s v).Canonical := by
  dsimp only [Machine.pumpBridge]
  split
  · split
    · exact .ite h h
    · exact h
  · exact h

theorem vqAgentAppend (h : s.Canonical) : (vqAgentAppend v s).Canonical := by
  dsimp only [Machine.vqAgentAppend]
  split
  · exact h
  split
  · exact h
  split
  · exact h
  · exact .ite h (.pumpBridge (.popHead h))

theorem bridgedArrival {r : Rec} (h : s.Canonical) : (bridgedArrival v r s).Canonical := by
  dsimp only [Machine.bridgedArrival]
  split
  · exact h
  · exact .ite h (.appendRecs h)

theorem pumpAll {vs : List Nat} (h : s.Canonical) : (pumpAll vs s).Canonical := by
  induction vs generalizing s with
  | nil => exact h
  | cons v vs ih => exact ih (.pumpBridge h)

/-! ### Translation -/

theorem translationRefill {l : Layer} {pasid va : Nat} (h : s.Canonical) : (translationRefill l pasid va s).Canonical := by
  dsimp only [Machine.translationRefill]
  split
  · exact h
  · split <;> exact h

theorem priResponse {pasid va : Nat} {page : Option (Nat × Nat × Nat × Bool × Bool)} (h : s.Canonical) :
    (priResponse pasid va page s).Canonical := by
  dsimp only [Machine.priResponse]
  split
  · exact h
  split
  · exact h
  · exact .ite h h

theorem writeEntries {es : List (Nat × W64)} (h : s.Canonical) : (writeEntries es s).Canonical := by
  induction es generalizing s with
  | nil => exact h
  | cons e es ih => exact ih (.perform h)

theorem osPageResponse {pasid va root : Nat} {writes : List (Nat × W64)} {ok : Bool} (h : s.Canonical) :
    (osPageResponse pasid va root writes ok s).Canonical := .ite h (.ite h (.writeEntries h))

theorem atsInvalidation {pasid va bytes : Nat} (h : s.Canonical) : (atsInvalidation pasid va bytes s).Canonical := .ite h h
theorem osInvalidate {pasid va bytes : Nat} (h : s.Canonical) : (osInvalidate pasid va bytes s).Canonical := .ite h h

/-! ### Governor -/

theorem setBudget {die : Nat} {w : W32} (h : s.Canonical) : (setBudget die w s).Canonical := by
  dsimp only [Machine.setBudget]
  split
  · exact .ite h h
  · exact h

theorem answer {type code : Nat} {body : List Nat} (h : s.Canonical) : (answer s type code body).Canonical := .ite h h

theorem governorTick {die : Nat} {w : W32} (h : s.Canonical) : (governorTick die w s).Canonical := by
  dsimp only [Machine.governorTick]
  split
  · exact .ite h (.ite h h)
  · exact h

/-! ### Dawn -/

theorem powerReset {p : Power} (h : s.Canonical) : (powerReset s p).Canonical := ⟨h.1, rfl⟩

theorem thermalTrip {die : Nat} (h : s.Canonical) : (thermalTrip die s).Canonical := by
  dsimp only [Machine.thermalTrip]
  split
  · exact .ite (.powerReset h) h
  · exact h

theorem stopDawn {stage cause : Nat} (h : s.Canonical) : (stopDawn s stage cause).Canonical := h
theorem withDawn {d : DawnRt} (h : s.Canonical) : State.Canonical { s with dawn := d } := h
theorem withBoot {d : DawnRt} {up : Vector Bool 8} (h : s.Canonical) : State.Canonical { s with dawn := d, ethUp := up } := h

theorem powerGood {sram : BitVec 256} (h : s.Canonical) : (powerGood sram s).Canonical := by
  have reset : (Machine.powerReset s .on).Canonical := .powerReset h
  unfold Machine.powerGood
  generalize Machine.powerReset s .on = s0 at reset ⊢
  dsimp only
  split
  · exact .stopDawn (.withDawn reset)
  · exact .ite (.withBoot reset) (.stopDawn (.withDawn reset))

theorem hbmTrained {failed : List Nat} (h : s.Canonical) : (hbmTrained failed s).Canonical :=
  .ite h (.ite (.stopDawn h) (.withDawn h))

theorem selfTested {map : RepairMap} (h : s.Canonical) : (selfTested map s).Canonical := by
  fun_cases Machine.selfTested map s
  · exact h
  · exact .stopDawn h
  · exact h

theorem counterRaise {v : W32} (h : s.Canonical) : (counterRaise v s).Canonical := by
  dsimp only [Machine.counterRaise]
  refine .answer ?_
  split
  · exact .ite h h
  · exact h

/-! ### Management -/

theorem takeNat {f : Nat → State → State} (h : s.Canonical) (hf : ∀ {x s}, s.Canonical → (f x s).Canonical) :
    (takeNat s f).Canonical := hf h
theorem spdm {code : Nat} {body : List Nat} (h : s.Canonical) : (spdm s code body).Canonical := .answer h
theorem functionReset (h : s.Canonical) : (functionReset s).Canonical := .endAll h

theorem registerRead {r : RegAddr} (h : s.Canonical) : (registerRead r s).2.Canonical := by
  dsimp only [Machine.registerRead]
  split
  · exact .noteRead h
  · exact h

/-! ### Cores -/

theorem coreStore {pa : Nat} {bs : List Byte} (h : s.Canonical) : (coreStore s n pa bs).Canonical := by
  dsimp only [Machine.coreStore]
  split
  · exact h
  · split <;> exact .perform h

theorem coreEffect {x : CoreRt} {b : CoreOp} (h : s.Canonical) : (coreEffect s n x b).1.Canonical := by
  dsimp only [Machine.coreEffect]
  split
  · exact h
  · exact h
  · exact .coreStore h
  · split
    · exact .coreStore h
    · exact h
  · exact .coreStore h
  · exact h

theorem coreIssue {kind : CoreKind} {aq rl : Bool} {deps adr : List Nat} (h : s.Canonical) : (coreIssue n kind aq rl deps adr s).Canonical :=
  .ite h h

theorem corePerform (h : s.Canonical) : (corePerform n k s).Canonical := by
  dsimp only [Machine.corePerform]
  split
  · exact h
  split
  · exact h
  split
  · exact h
  · exact .coreEffect h

/-! ### Step -/

theorem turnEffect {turn : Turn} (h : s.Canonical) : (turnEffect turn s).Canonical := by
  dsimp only [Machine.turnEffect]
  split
  · exact .loadReads h
  · exact .ite (.coreIssue h) h
  · exact .ite (.corePerform h) h
  · exact h
  · exact h
  · exact .osInvalidate h
  · exact .registerRead h
  · exact h

end State.Canonical

/-! ### Task instructions -/

/-- What a stop leaves of a canonical state is canonical. -/
def Stop.Canonical : Stop → Prop
  | .hold _ c => c.s.Canonical
  | .ask f | .trapAfter f _ _ => ∀ s : State, s.Canonical → (f s).Canonical
  | .wait _ | .trap _ _ | .watch _ => True

/-- What a run of a task instruction comes to is canonical. -/
def RunCanonical {α : Type} : Except Stop (α × TCtx) → Prop
  | .ok r => r.2.s.Canonical
  | .error e => e.Canonical

/-- `m` keeps the memories canonical, whether it completes or stops. -/
def KeepsMem {α : Type} (m : TM α) : Prop := ∀ c : TCtx, c.s.Canonical → RunCanonical (m c)

theorem OutsideFrame.canonical {t n : Nat} {ins outs : Vector (Option Nat) 16} {s s' : State} (frame : OutsideFrame t n ins outs s s')
    (h : s.Canonical) : s'.Canonical := by
  have host : s'.hostMem = s.hostMem := (congrArg State.hostMem frame.beyond : s'.beyond.hostMem = s.beyond.hostMem)
  have dev : s'.devMem = s.devMem := (congrArg State.devMem frame.beyond : s'.beyond.devMem = s.beyond.devMem)
  exact ⟨host ▸ h.1, dev ▸ h.2⟩

theorem StopFrame.canonical {c : TCtx} {e : Stop} (frame : StopFrame c e) : e.Canonical := by
  cases e with
  | wait _ | trap _ _ | watch _ => trivial
  | hold _ _ | ask _ => exact frame.elim
  | trapAfter f _ _ => exact fun s h => (frame s).canonical h

/-- What is confined to the node and its channels keeps both memories as they are. -/
theorem Confined.keepsMem {α : Type} {w : Writes} {m : TM α} (confined : Confined w m) : KeepsMem m := by
  intro c h
  cases run : m c with
  | ok r => exact ((confined c).ok run).outside.canonical h
  | error e => exact ((confined c).error run).canonical

namespace KeepsMem
variable {α β : Type}

theorem bind {m : TM α} {f : α → TM β} (hm : KeepsMem m) (hf : ∀ {a}, KeepsMem (f a)) : KeepsMem (m >>= f) := by
  intro c h
  have first := hm c h
  cases run : m c with
  | ok r =>
    rw [run] at first
    rw [tm_bind_ok (a := r.1) (c' := r.2) run]
    exact hf r.2 first
  | error e =>
    rw [run] at first
    rw [tm_bind_error run]
    exact first

theorem ite {p : Prop} [Decidable p] {m m' : TM α} (hm : KeepsMem m) (hm' : KeepsMem m') : KeepsMem (if p then m else m') := by
  split
  · exact hm
  · exact hm'

theorem pure {a : α} : KeepsMem (pure a : TM α) := fun _ h => h
theorem getTk : KeepsMem getTk := fun _ h => h
theorem getT : KeepsMem getT := fun _ h => h
theorem getN : KeepsMem getN := fun _ h => h
theorem getS : KeepsMem getS := fun _ h => h
theorem setNext {pc : Int} : KeepsMem (setNext pc) := fun _ h => h
theorem modTk {f : TaskRt → TaskRt} : KeepsMem (modTk f) := fun _ h => h
theorem modS {f : State → State} (hf : ∀ {s}, s.Canonical → (f s).Canonical) : KeepsMem (modS f) := fun _ h => hf h
theorem modST {f : State → Nat → Nat → State} (hf : ∀ {s t n}, s.Canonical → (f s t n).Canonical) : KeepsMem (modST f) := fun _ h => hf h
theorem wait {b : Bool} : KeepsMem (stop (.wait b) : TM α) := fun _ _ => trivial
theorem watch {f : WFlag} : KeepsMem (stop (.watch f) : TM α) := fun _ _ => trivial
theorem ask {f : State → State} (hf : ∀ {s}, s.Canonical → (f s).Canonical) : KeepsMem (stop (.ask f) : TM α) := fun _ _ _ h => hf h
theorem trapAfter {f : State → State} {code : Nat} {arg : W64} (hf : ∀ {s}, s.Canonical → (f s).Canonical) :
    KeepsMem (stop (.trapAfter f code arg) : TM α) := fun _ _ _ h => hf h
theorem holdHere {b : Bool} : KeepsMem (holdHere b : TM α) := fun _ h => h
theorem raise {code : Nat} {arg : W64} : KeepsMem (raise code arg : TM α) := fun _ _ => trivial
theorem raiseIf {b : Bool} {code : Nat} {arg : W64} : KeepsMem (raiseIf b code arg) := .ite raise pure
theorem stallUnless {b : Bool} : KeepsMem (stallUnless b) := .ite pure wait
theorem blockUnless {b : Bool} : KeepsMem (blockUnless b) := .ite pure wait

theorem getTn : KeepsMem getTn := (Confined.getTn (w := toNothing)).keepsMem
theorem getChan {c : Nat} : KeepsMem (getChan c) := (Confined.getChan (w := toNothing) c).keepsMem
theorem useReg {o : Opnd} : KeepsMem (useReg o) := (Confined.useReg (w := toNothing) o).keepsMem
theorem inChan {p : Fin 16} : KeepsMem (inChan p) := (Confined.inChan (w := toNothing) p).keepsMem
theorem outChan {p : Fin 16} : KeepsMem (outChan p) := (Confined.outChan (w := toNothing) p).keepsMem
theorem currentRec {p : Fin 16} : KeepsMem (currentRec p) := (Confined.currentRec (w := toNothing) p).keepsMem
theorem pushUnit {p : Fin 16} {u : W64} : KeepsMem (pushUnit p u) := (Confined.pushUnit (w := toNothing) p u).keepsMem
theorem popUnit {p : Fin 16} : KeepsMem (popUnit p) := (Confined.popUnit (w := toNothing) p).keepsMem
theorem read64 {o : Opnd} : KeepsMem (read64 o) := (Confined.read64 (w := toNothing) o).keepsMem
theorem read32 {o : Opnd} : KeepsMem (read32 o) := (Confined.read32 (w := toNothing) o).keepsMem
theorem write64 {d : Opnd} {x : W64} : KeepsMem (write64 d x) := (Confined.write64 (w := toReg d) rfl x).keepsMem
theorem write32 {d : Opnd} {x : W32} : KeepsMem (write32 d x) := (Confined.write32 (w := toReg d) rfl x).keepsMem
theorem readPred {p : Fin 4} : KeepsMem (readPred p) := (Confined.readPred (w := toNothing) p).keepsMem
theorem writePred {p : Fin 4} {x : BitVec 4} : KeepsMem (writePred p x) := (Confined.writePred (w := toPred p) rfl x).keepsMem
theorem setFlags {f : Flags} : KeepsMem (setFlags f) := (Confined.setFlags (w := ⟨none, none, true, false⟩) rfl f).keepsMem
theorem bankAddr {b : Opnd} {off : Int} {size : Nat} : KeepsMem (bankAddr b off size) := (Confined.bankAddr (w := toNothing) b off size).keepsMem
theorem decodeChecks {i : Instr} {w : W32} : KeepsMem (decodeChecks i w) := (Confined.decodeChecks (w := toNothing) i w).keepsMem
theorem atomicStall : KeepsMem atomicStall := (Confined.atomicStall (w := toNothing)).keepsMem

theorem scalar2 {f : W32 → W32 → W32} {d a b : Opnd} : KeepsMem (scalar2 f d a b) := (Confined.scalar2 (w := toReg d) rfl f).keepsMem
theorem scalar1 {f : W32 → W32} {d a : Opnd} : KeepsMem (scalar1 f d a) := (Confined.scalar1 (w := toReg d) rfl f).keepsMem
theorem addr2 {f : W64 → W64 → W64} {d a b : Opnd} : KeepsMem (addr2 f d a b) := (Confined.addr2 (w := toReg d) rfl f).keepsMem
theorem compare2 {f : W32 → W32 → Bool} {p : Fin 4} {a b : Opnd} : KeepsMem (compare2 f p a b) :=
  (Confined.compare2 (w := toPred p) rfl f a b).keepsMem
theorem compareA {f : W64 → W64 → Bool} {p : Fin 4} {a b : Opnd} : KeepsMem (compareA f p a b) :=
  (Confined.compareA (w := toPred p) rfl f a b).keepsMem
theorem pred2 {f : BitVec 4 → BitVec 4 → BitVec 4} {p q r : Fin 4} : KeepsMem (pred2 f p q r) :=
  (Confined.pred2 (w := toPred p) rfl f q r).keepsMem
theorem bodyLd {signed : Bool} {size : Nat} {d b : Opnd} {off : Int} : KeepsMem (bodyLd signed size d b off) :=
  (Confined.bodyLd (w := toReg d) rfl signed size b off).keepsMem
theorem bodyLdD {d b : Opnd} {off : Int} : KeepsMem (bodyLdD d b off) := (Confined.bodyLdD (w := toReg d) rfl b off).keepsMem
theorem bodySt {size : Nat} {d b : Opnd} {off : BitVec 12} : KeepsMem (bodySt size d b off) :=
  (Confined.bodySt (w := toBank) rfl size d b off).keepsMem
theorem read2 {a b : Opnd} : KeepsMem (read2 a b) := (Confined.read2 (w := toNothing) a b).keepsMem
theorem writeLanes {d : Opnd} {f : VFmt} {rs : List (Nat × Flags)} : KeepsMem (writeLanes d f rs) :=
  (Confined.writeLanes (w := toLanes d) rfl rfl f rs).keepsMem
theorem vec1 {op : Arith} {d a : Opnd} {f : VFmt} : KeepsMem (vec1 op d a f) := (Confined.vec1 (w := toLanes d) rfl rfl op f).keepsMem
theorem vec2 {op : Arith} {d a b : Opnd} {f : VFmt} : KeepsMem (vec2 op d a b f) := (Confined.vec2 (w := toLanes d) rfl rfl op f).keepsMem
theorem vecFused {negProd negAdd lane0 : Bool} {d a b : Opnd} {f : VFmt} : KeepsMem (vecFused negProd negAdd lane0 d a b f) :=
  (Confined.vecFused (w := toLanes d) rfl rfl negProd negAdd lane0 f).keepsMem
theorem perm2 {d a b : Opnd} {f : VFmt} {g : List Nat → List Nat → List Nat} : KeepsMem (perm2 d a b f g) :=
  (Confined.perm2 (w := toLanes d) rfl f g).keepsMem

theorem bodyAddiW {d a : Opnd} {imm : W32} : KeepsMem (bodyAddiW d a imm) := .scalar1
theorem bodyAndiW {d a : Opnd} {imm : W32} : KeepsMem (bodyAndiW d a imm) := .scalar1
theorem bodyOriW {d a : Opnd} {imm : W32} : KeepsMem (bodyOriW d a imm) := .scalar1
theorem bodyXoriW {d a : Opnd} {imm : W32} : KeepsMem (bodyXoriW d a imm) := .scalar1
theorem bodyAddiA {d a : Opnd} {imm : W64} : KeepsMem (bodyAddiA d a imm) := .bind .read64 .write64

theorem branch {sense : Bool} {p : Fin 4} {cond : TM Bool} {disp : Int} (hcond : KeepsMem cond) : KeepsMem (branch sense p cond disp) :=
  .bind .readPred (.bind hcond (.ite (.bind .getTk .setNext) .pure))

theorem condOn {f : W32 → Bool} {a : Opnd} : KeepsMem (condOn f a) := .bind .read32 .pure
theorem bodyCall {len : Nat} {disp : Int} : KeepsMem (bodyCall len disp) := .bind .getTk (.bind .write32 .setNext)

theorem bodyEnd : KeepsMem bodyEnd := by
  refine .bind .getTk (.bind .getS (.bind .getT @fun _ => ?_))
  dsimp only
  split
  case' h_1 => refine .bind .raise @fun _ => ?_
  all_goals
    split
    case' h_1 => refine .bind .watch @fun _ => ?_
    all_goals
      refine .bind .stallUnless (.bind (.modS (fun h => .releasePorts h)) @fun _ => ?_)
      split
      case' h_1 => refine .bind (.modS (fun h => .useHead h)) @fun _ => ?_
      all_goals exact .bind (.modS (fun h => .newActivation h)) (.bind .modTk .setNext)

theorem checkAddr {va : W64} {align : Nat} : KeepsMem (checkAddr va align) := .bind .raiseIf .raiseIf

theorem taskXlate {va : Nat} {needR needW home : Bool} : KeepsMem (taskXlate va needR needW home) := by
  refine .bind .getTn (.bind .getS (.bind .getT (.bind .getN @fun _ => ?_)))
  dsimp only
  split
  · exact .bind .raiseIf (.bind .raiseIf .pure)
  · exact .ite (.trapAfter id) .raise
  · exact .wait
  · exact .ask (fun h => .askPage h)

theorem taskWatch {kind va len : Nat} : KeepsMem (taskWatch kind va len) := by
  refine .bind .getTn @fun _ => ?_
  split
  · exact .raise
  · exact .pure

theorem taskSend {unit : Nat} {k : MsgKind} : KeepsMem (taskSend unit k) :=
  .bind .getTn (.bind .getS (.bind (.modST (fun h => .sendMsg h)) .pure))

theorem takeToken {tok : BitVec 3} : KeepsMem (takeToken tok) := .bind .getTk (.bind .stallUnless .modTk)
theorem takeUpd : KeepsMem takeUpd := .bind .getTk (.bind .stallUnless .modTk)

theorem taskFlush {p : Residual → Bool} : KeepsMem (taskFlush p) :=
  .bind .getTk (.bind .getTn (.bind .stallUnless (.bind (.modST (fun h => .flushList h)) .modTk)))

theorem openChecks {p : Fin 16} {h : W64} : KeepsMem (openChecks p h) := by
  refine .bind .outChan (.bind .getChan (.bind .raiseIf @fun _ => ?_))
  split
  · exact .bind .raise (.bind .raiseIf .pure)
  · exact .bind .raiseIf .pure

theorem openSlot {c : Nat} {h : W64} : KeepsMem (openSlot c h) := .bind .getChan (.bind .blockUnless (.modST id))

theorem closePort {p : Fin 16} : KeepsMem (closePort p) := by
  refine .bind .outChan (.bind .getChan @fun _ => ?_)
  split
  · exact .raise
  · exact .bind .raiseIf (.ite (.bind .taskFlush (.modST (fun h => .sendRec h))) (.modST (fun h => .sendRec h)))

theorem raiseFree {code : Nat} : KeepsMem (raiseFree code : TM α) := .bind .getS (.trapAfter id)

theorem bodySysr {d : Opnd} {r : Nat} : KeepsMem (bodySysr d r) :=
  .bind .getS (.bind .getT (.bind .getN (.ite (.bind .stallUnless (.bind .getTn (.bind .getTk .write64))) (.bind .getTn
    (.bind .getTk .write64)))))

theorem bodySysw {d : Opnd} {r : Nat} : KeepsMem (bodySysw d r) :=
  .bind .read32 (.ite (.bind .getS (.bind .getT (.bind .getN (.bind .stallUnless (.modST id))))) .modTk)

theorem bodyGld {signed : Bool} {size : Nat} {d a : Opnd} {tk : Bool} {tok : BitVec 3} : KeepsMem (bodyGld signed size d a tk tok) :=
  .bind .read64 (.bind .checkAddr (.bind .taskXlate (.bind .taskWatch (.bind .useReg (.ite (.bind .takeToken (.bind .getTk
    (.bind .taskSend .modTk))) (.bind .getTk (.bind .taskSend .modTk)))))))

theorem bodyGst {size : Nat} {d a : Opnd} {tk : Bool} {tok : BitVec 3} : KeepsMem (bodyGst size d a tk tok) :=
  .bind .read64 (.bind .checkAddr (.ite (.bind .read64 (.bind .taskXlate (.bind .getS (.bind .raiseIf (.bind .taskWatch (.ite (.bind .takeToken
    (.bind .taskSend (.ite .modTk .pure))) (.bind .taskSend (.ite .modTk .pure)))))))) (.bind .read32 (.bind .pure (.bind .taskXlate
    (.bind .getS (.bind .raiseIf (.bind .taskWatch (.ite (.bind .takeToken (.bind .taskSend (.ite .modTk .pure))) (.bind .taskSend
    (.ite .modTk .pure)))))))))))

theorem waitLost {src dst : Nat} : KeepsMem (waitLost src dst) := .bind (.modST (fun h => .loseAccess h)) (.bind .modTk .holdHere)

theorem waitaLookup {va : W64} {least : Nat} : KeepsMem (waitaLookup va least) :=
  .bind .checkAddr (.bind .taskXlate (.bind .taskWatch (.bind .getS (.bind .getT (.bind .getN (.bind .stallUnless (.bind .getTn (.ite .waitLost
    (.bind (.modS id) (.ite (.bind .modTk .holdHere) (.bind (.modS id) .modTk)))))))))))

theorem waitaNotice {pa : Nat} : KeepsMem (waitaNotice pa) :=
  .bind .getS (.bind .getT (.bind .getN (.bind .getTn (.ite .waitLost (.bind (.modS id) .modTk)))))

theorem bodyWaita {a b : Opnd} : KeepsMem (bodyWaita a b) := by
  refine .bind .getTk @fun _ => ?_
  split
  · exact .waitaNotice
  · exact .wait
  · exact .wait
  · exact .waitaLookup
  · exact .bind .read64 (.bind .read32 .waitaLookup)

theorem accTarget {wid : Nat} {va : W64} : KeepsMem (accTarget wid va) := by
  refine .bind .getTn @fun _ => ?_
  split
  · exact .raise
  refine .bind .checkAddr @fun _ => ?_
  split
  · exact .raise
  · exact .ite .pure (.bind .taskXlate (.bind .getS (.bind .raiseIf .pure)))

theorem bodyAcc {f : EFmt} {wid : BitVec 6} {a b : Opnd} : KeepsMem (bodyAcc f wid a b) := by
  refine .bind .read64 (.ite (.bind .read64 (.bind .accTarget @fun _ => ?_)) (.bind .read32 (.bind .pure (.bind .accTarget @fun _ => ?_))))
  · split
    · exact .bind .getTk (.bind .getS (.bind .getTn (.bind .getN (.bind .modTk (.bind .takeUpd (.bind .getTn (.bind .taskSend .pure)))))))
  · split
    · exact .bind .getTk (.bind .getS (.bind .getTn (.bind .getN (.bind .modTk (.bind .takeUpd (.bind .getTn (.bind .taskSend .pure)))))))

theorem sendAtomic {op : AtomOp} {size : Nat} {dst : Option Opnd} {ord : Bool} {va : W64} {x e : Nat} : KeepsMem
    (sendAtomic op size dst ord va x e) := by
  refine .bind .checkAddr (.bind .taskXlate (.bind .getS (.bind .raiseIf @fun _ => ?_)))
  split
  · exact .bind .useReg (.bind .getTk (.bind .taskSend .modTk))
  · exact .bind .takeUpd (.bind .getTk (.bind .taskSend .modTk))

theorem atomOperand {b : Opnd} {dbl : Bool} : KeepsMem (atomOperand b dbl) := .ite (.bind .read64 .pure) (.bind .read32 .pure)

theorem bodyAtom {op : AtomOp} {dst : Option Opnd} {a b : Opnd} {ord dbl : Bool} : KeepsMem (bodyAtom op dst a b ord dbl) :=
  .bind .read64 (.bind .atomOperand .sendAtomic)

theorem bodyCas {d a b : Opnd} {ord dbl : Bool} : KeepsMem (bodyCas d a b ord dbl) :=
  .bind .read64 (.bind .atomOperand (.bind .atomOperand .sendAtomic))

theorem bodyFadd {op : AtomOp} {size : Nat} {dst : Option Opnd} {a b : Opnd} : KeepsMem (bodyFadd op size dst a b) :=
  .bind .read64 (.bind .read32 .sendAtomic)

theorem fenceGlobal : KeepsMem fenceGlobal := by
  refine .bind .getTk @fun _ => ?_
  split
  · exact .bind .watch (.bind .getS (.bind .getT (.bind .getN .stallUnless)))
  · exact .bind .getS (.bind .getT (.bind .getN .stallUnless))

theorem bodyGateArr {gid : Nat} {a : Opnd} : KeepsMem (bodyGateArr gid a) := by
  refine .bind .read32 (.bind .getS (.bind .getT @fun _ => ?_))
  split
  · exact .raise
  · exact .bind .raiseIf (.bind .fenceGlobal (.bind (.modST id) (.bind .getTn (.bind .taskSend .pure))))

theorem bodyGateWait {gid : Nat} {a : Opnd} : KeepsMem (bodyGateWait gid a) := by
  refine .bind .getT (.bind .getN (.bind .getTn (.bind .getTk @fun _ => ?_)))
  split
  · exact .wait
  · refine .bind .getS @fun _ => ?_
    dsimp only
    split
    · exact .wait
    · exact .bind .getS (.ite .waitLost (.bind (.modST id) .modTk))
  · refine .bind .read32 (.bind .getS @fun _ => ?_)
    split
    · exact .raise
    · exact .bind .getS (.ite .waitLost (.ite (.bind .getS (.bind (.modS id) (.bind .modTk .holdHere))) (.modST id)))

theorem bodyQuiet {graph : Bool} : KeepsMem (bodyQuiet graph) := by
  refine .bind .getTk @fun _ => ?_
  split
  · exact .modTk
  · exact .wait
  · exact .bind .modTk .holdHere

theorem bodyCombSend {a b : Opnd} : KeepsMem (bodyCombSend a b) := by
  refine .bind .read32 (.bind .read64 (.bind .getTn (.bind .getN @fun _ => ?_)))
  dsimp only
  split
  · exact .raise
  · exact .bind .raiseIf (.bind .getTk (.bind .raiseIf (.bind .raiseIf (.bind .getS (.bind .getT (.bind .blockUnless
      (.bind .taskSend .modTk)))))))

theorem xferUnits {a : Opnd} : KeepsMem (xferUnits a) := by
  unfold Machine.xferUnits
  split
  · exact .bind .read64 (.bind .read64 (.bind .read64 (.bind .read64 .pure)))
  · exact .bind .read64 (.bind .read64 (.bind .read64 (.bind .read64 .pure)))

theorem bodyXfer {a : Opnd} {port : Nat} : KeepsMem (bodyXfer a port) := by
  refine .bind .xferUnits @fun _ => ?_
  split
  · exact .bind .getTn (.bind .getN (.bind .raiseIf (.bind .getS (.bind .stallUnless (.ite (.bind .takeToken (.modST id)) (.modST id))))))

theorem vecDot {d a b : Opnd} {f : VFmt} : KeepsMem (vecDot d a b f) := by
  refine .bind .read2 @fun _ => ?_
  split
  · exact .bind .read64 (.bind .write64 .setFlags)

theorem vecCmp {c : VCmp} {d a b : Opnd} {f : VFmt} : KeepsMem (vecCmp c d a b f) := by
  refine .bind .read2 @fun _ => ?_
  split
  · exact .writeLanes

theorem vecSel {d a b : Opnd} : KeepsMem (vecSel d a b) := by
  refine .bind .read2 @fun _ => ?_
  split
  · exact .bind .read64 .write64

theorem perm1 {d a : Opnd} {f : VFmt} {g : List Nat → List Nat} : KeepsMem (perm1 d a f g) := .bind .read64 .write64
theorem vecIns {d a : Opnd} {m : Nat} {f : VFmt} : KeepsMem (vecIns d a m f) := .bind .read64 (.bind .read64 .write64)
theorem vecExt {d a : Opnd} {m : Nat} {f : VFmt} : KeepsMem (vecExt d a m f) := .bind .read64 .write64
theorem vecCmpr {d a : Opnd} {p : Fin 4} {f : VFmt} : KeepsMem (vecCmpr d a p f) := .bind .read64 (.bind .write64 .writePred)

theorem vecCvt {d a : Opnd} {mode : Mode} {sat : Bool} {src dst : VFmt} : KeepsMem (vecCvt d a mode sat src dst) :=
  .bind .read64 (.bind .getTk (.bind .writeLanes (.ite .modTk .pure)))

theorem vecRsum {d a : Opnd} {f : VFmt} : KeepsMem (vecRsum d a f) := .bind .read64 (.ite .write32 (.bind .write32 .setFlags))

theorem vecRdot {d a b : Opnd} {f : VFmt} : KeepsMem (vecRdot d a b f) := by
  refine .bind .read2 @fun _ => ?_
  split
  · exact .ite .write32 (.bind .write32 .setFlags)

theorem vecRext {isMax : Bool} {d a : Opnd} {f : VFmt} : KeepsMem (vecRext isMax d a f) :=
  .bind .read64 (.ite .write32 (.ite (.bind .write32 (.ite .setFlags .pure)) .write32))

theorem vecScl {d a : Opnd} {m : Nat} {f : VFmt} : KeepsMem (vecScl d a m f) := .bind .read64 (.bind .getTk .writeLanes)

theorem vecLdexp {d a b : Opnd} {f : VFmt} : KeepsMem (vecLdexp d a b f) := by
  refine .bind .read2 @fun _ => ?_
  split
  · exact .writeLanes

theorem vecSclx {d a b : Opnd} {f : VFmt} : KeepsMem (vecSclx d a b f) := by
  refine .bind .read2 @fun _ => ?_
  split
  · exact .bind .read64 .write64

theorem vecMxpack {d a b : Opnd} {f : VFmt} : KeepsMem (vecMxpack d a b f) := by
  refine .bind .read2 @fun _ => ?_
  split
  · exact .bind .write64 .setFlags

theorem vecMxunpack {d a b : Opnd} {f : VFmt} : KeepsMem (vecMxunpack d a b f) := by
  refine .bind .read2 @fun _ => ?_
  split
  · exact .writeLanes

end KeepsMem

/-! ### Instructions and events -/

/-- Where `o` is a next state, it is canonical. -/
def NextCanonical (o : Host.Outcome State Fault Refusal) : Prop := ∀ s', o = .next s' → s'.Canonical

namespace NextCanonical
variable {s : State}

theorem next (h : s.Canonical) : NextCanonical (.next s) := by
  rintro _ ⟨⟩
  exact h

theorem fault {f : Fault} : NextCanonical (.fault f) := by
  rintro _ ⟨⟩

theorem ite {p : Prop} [Decidable p] {a b : Host.Outcome State Fault Refusal} (ha : NextCanonical a) (hb : NextCanonical b) :
    NextCanonical (if p then a else b) := by
  split
  · exact ha
  · exact hb

theorem runTask {i : Instr} {w : W32} {len : Nat} {body : TM Unit} (hm : KeepsMem body) (h : s.Canonical) :
    NextCanonical (runTask i w len body s) := by
  have course : KeepsMem (do Machine.decodeChecks i w; Machine.atomicStall; body) := .bind .decodeChecks (.bind .atomicStall hm)
  unfold Machine.runTask
  dsimp only
  split
  case h_1 => exact .fault
  case h_2 tk _ =>
    have result := course { s := s, t := s.cur.1, n := s.cur.2, tk := { tk with st := .running }, next := tk.pc + len } h
    split
    all_goals
      rename_i run
      rw [run] at result
    · exact .next result
    · exact .next h
    · exact .next (result s h)
    · exact .next result
    · exact .next (.takeTrap h)
    · exact .next (.takeTrap (result s h))
    · exact .next (.takeTrap h)

theorem run1 {i : Instr} {body : TM Unit} (hm : KeepsMem body) (h : s.Canonical) : NextCanonical (run1 i body s) := .runTask hm h

theorem runPassage {len : Nat} {f : State → Nat → Tenure → PStep} (hf : ∀ {s t tn}, s.Canonical → (f s t tn).Canonical)
    (h : s.Canonical) : NextCanonical (runPassage len f s) := by
  unfold Machine.runPassage
  dsimp only
  split
  case h_1 => exact .fault
  case h_2 tn _ =>
    have result := hf (t := s.cur.1) (tn := tn) h
    split
    all_goals
      rename_i run
      rw [run] at result
    · exact .next result
    · exact .next (.passTo result)
    · exact .next (.passTo result)
    · exact .next result

theorem longImmediatePrefix {imm third : W32} (h : s.Canonical) : NextCanonical (execLongImmediatePrefix imm third s) := by
  have illegal : NextCanonical (illegalGroup third s) := .runTask .raise h
  unfold execLongImmediatePrefix
  dsimp only
  split
  case h_25 => exact illegal
  all_goals refine .ite (.runTask ?_ h) illegal
  · exact .bodyAddiW
  · exact .bodyAndiW
  · exact .bodyOriW
  · exact .bodyXoriW
  · exact .bodyAddiA
  · exact .bodyLd
  · exact .bodyLd
  · exact .bodyLd
  · exact .bodyLd
  · exact .bodyLd
  · exact .bodyLdD
  · exact .write32
  · exact .write32
  · exact .bodySysr
  · exact .bodySysw
  · exact .branch .pure
  · exact .branch .condOn
  · exact .branch .condOn
  · exact .branch .condOn
  · exact .branch .pure
  · exact .branch .condOn
  · exact .branch .condOn
  · exact .branch .condOn
  · exact .bodyCall

theorem exec {i : Instr} (h : s.Canonical) : NextCanonical (exec i s) := by
  cases i with
  | addW | subW | andW | orW | xorW | sllW | srlW | sraW | mulW | mulhsW | mulhzW | divsW | divzW | remsW | remzW | minsW | maxsW | minzW
  | maxzW | addsW | subsW =>
    exact .run1 .scalar2 h
  | clzW | cntW | movW | slliW | srliW | sraiW => exact .run1 .scalar1 h
  | cmpEqW | cmpNeW | cmpLtsW | cmpLtzW | cmpGesW | cmpGezW => exact .run1 .compare2 h
  | pand | por | pxor | pandn => exact .run1 .pred2 h
  | pset => exact .run1 (.bind .read32 .writePred) h
  | pget => exact .run1 (.bind .readPred .write32) h
  | addiW => exact .run1 .bodyAddiW h
  | andiW => exact .run1 .bodyAndiW h
  | oriW => exact .run1 .bodyOriW h
  | xoriW => exact .run1 .bodyXoriW h
  | liW | luiW => exact .run1 .write32 h
  | addA | subA => exact .run1 .addr2 h
  | addzA => exact .run1 (.bind .read64 (.bind .read32 .write64)) h
  | movA => exact .run1 (.bind .read64 .write64) h
  | loA | hiA => exact .run1 (.bind .read64 .write32) h
  | catA => exact .run1 (.bind .read32 (.bind .read32 .write64)) h
  | cmpEqA | cmpLtzA => exact .run1 .compareA h
  | addiA => exact .run1 .bodyAddiA h
  | br | brNp => exact .run1 (.branch .pure) h
  | brz | brnz | brneg | brzNp | brnzNp | brnegNp => exact .run1 (.branch .condOn) h
  | call => exact .run1 .bodyCall h
  | jr => exact .run1 (.bind .read32 .setNext) h
  | callr => exact .run1 (.bind .read32 (.bind .getTk (.bind .write32 .setNext))) h
  | dbnz => exact .run1 (.bind .read32 (.bind .write32 (.bind .getTk (.ite .setNext .pure)))) h
  | open_ => exact .run1 (.bind .read64 (.bind .openChecks .openSlot)) h
  | close => exact .run1 .closePort h
  | next_ => exact .run1 (.bind .getTk (.bind .raiseIf (.bind .currentRec (.bind .inChan (.bind (.modST (fun h => .releaseHead h)) .modTk))))) h
  | hdr => exact .run1 (.bind .currentRec .write64) h
  | send => exact .run1 (.bind .read64 (.bind .openChecks (.bind .raiseIf (.bind .openSlot .closePort)))) h
  | left => exact .run1 (.bind .currentRec (.bind .getTk .write32)) h
  | ldS8 | ldZ8 | ldS16 | ldZ16 | ldW => exact .run1 .bodyLd h
  | ldD => exact .run1 .bodyLdD h
  | stB | stH | stW | stD => exact .run1 .bodySt h
  | gldS8 | gldZ8 | gldS16 | gldZ16 | gldW | gldD => exact .run1 .bodyGld h
  | gstB | gstH | gstW | gstD => exact .run1 .bodyGst h
  | xfer => exact .run1 .bodyXfer h
  | accFp32 | accBf16 | accFp16 | accS8 | accZ8 | accS16 | accZ16 | accS32 | accZ32 | accS64 => exact .run1 .bodyAcc h
  | flushr => exact .run1 (.bind .getTn (.bind .raiseIf .taskFlush)) h
  | atomAdd | atomMin | atomMax | atomMinz | atomMaxz | atomAnd | atomOr | atomXor | atomAddF | atomMinF | atomMaxF | atomMinzF | atomMaxzF
  | atomAndF | atomOrF | atomXorF | atomSwap =>
    exact .run1 .bodyAtom h
  | atomCas => exact .run1 .bodyCas h
  | atomFaddFp32 | atomFaddBf16 | atomFaddFp32F | atomFaddBf16F => exact .run1 .bodyFadd h
  | vAdd | vSub | vMul | vMin | vMax | vAdds | vSubs | vAnd | vOr | vXor | vSll | vSrl | vSra => exact .run1 .vec2 h
  | vAbs | vNeg => exact .run1 .vec1 h
  | vFma | vFms | vFnma | vFmab => exact .run1 .vecFused h
  | vDot => exact .run1 .vecDot h
  | vCmpEq | vCmpLt | vCmpLe | vCmpUn => exact .run1 .vecCmp h
  | vSel => exact .run1 .vecSel h
  | vShuf | vZip | vUnzip => exact .run1 .perm2 h
  | vBcast | vRot => exact .run1 .perm1 h
  | vIns => exact .run1 .vecIns h
  | vExt => exact .run1 .vecExt h
  | cmpr2of4 => exact .run1 .vecCmpr h
  | vCvt => exact .run1 .vecCvt h
  | vRsum => exact .run1 .vecRsum h
  | vRmax | vRmin => exact .run1 .vecRext h
  | vRdot => exact .run1 .vecRdot h
  | vScl => exact .run1 .vecScl h
  | vSclx => exact .run1 .vecSclx h
  | vMxpack => exact .run1 .vecMxpack h
  | vMxunpack => exact .run1 .vecMxunpack h
  | vLdexp => exact .run1 .vecLdexp h
  | wsb => exact .run1 (.bind .getTk (.bind .stallUnless (.modST id))) h
  | gateArr => exact .run1 .bodyGateArr h
  | gateWait => exact .run1 .bodyGateWait h
  | combSend => exact .run1 .bodyCombSend h
  | waita => exact .run1 .bodyWaita h
  | sysr => exact .run1 .bodySysr h
  | sysw => exact .run1 .bodySysw h
  | trap => exact .run1 (.bind .read32 .raise) h
  | enter => exact .runPassage (fun h => .doEnter h) h
  | lock => exact .runPassage (fun h => .doLock h) h
  | bindArg | bindXfer | bindAccs | bindXf | bindPred => exact .runPassage (fun h => .doBind h) h
  | bindVq => exact .runPassage (fun h => .doBindVq h) h
  | choose =>
    dsimp only [Machine.exec, execChoose]
    exact .runPassage (fun h => .ite (.stay h) (.ite (.waitBlocked h) (.ite (.jump h) (.next h)))) h
  | jmp =>
    dsimp only [Machine.exec, execJmp]
    exact .runPassage (fun h => .jump h) h
  | watch | unwatch | wave | setp | count =>
    dsimp only [Machine.exec, execWatch, execUnwatch, execWave, execSetp, execCount]
    exact .runPassage (fun h => .next h) h
  | fault | done => exact .runPassage (fun h => .doRetire h) h
  | quiet =>
    dsimp only [Machine.exec, execQuiet]
    exact .runPassage (fun h => .ite (.badPassage h) (.awaitQuiet h (.next h) id)) h
  | waitp =>
    dsimp only [Machine.exec, execWaitp]
    exact .runPassage (fun h => .ite (.next h) (.waitBlocked h)) h
  | decJnz =>
    dsimp only [Machine.exec, execDecJnz]
    exact .runPassage (fun h => .ite (.jump h) (.next h)) h
  | settle => exact .runPassage (fun h => .doSettle h) h
  | illegalInstruction | codeRangeFetch => exact .runTask .raise h
  | launch => exact .next (.commandEvent h (fun h => .runLaunch h))
  | push => exact .next (.commandEvent h (fun h => .runPush h))
  | pull => exact .next (.commandEvent h (fun h => .runPull h))
  | signalSet | signalAdd => exact .next (.commandEvent h (fun h => .runSignal h))
  | wait => exact .next (.commandEvent h (fun h => .runWait h))
  | pausePreferred | pauseForced => exact .next (.commandEvent h (fun h => .runPause h))
  | resume => exact .next (.commandEvent h (fun h => .runResume h))
  | kill => exact .next (.commandEvent h (fun h => .runKill h))
  | queryCapabilities | queryTenure | queryCounts | queryGovernor | queryVirtualQueue => exact .next (.queryEvent h)
  | end_ => exact .run1 .bodyEnd h
  | nop => exact .run1 .pure h
  | flushrAll => exact .run1 .taskFlush h
  | quietP | quietG => exact .run1 .bodyQuiet h
  | fenceG => exact .run1 .fenceGlobal h
  | fenceS => exact .run1 (.bind .fenceGlobal (.bind .getTk (.ite (.bind .modTk .holdHere) .pure))) h
  | rte => exact .run1 (.bind .getTk (.bind .raiseIf (.bind .modTk .setNext))) h
  | halt | brk => exact .run1 .raise h
  | arithmeticFiring | controlTokenFiring | nullFiring | convert | mxPack | mxUnpack | fork | steer | filter | merge | nullMerge | fairMerge
  | sequenceTag | reorder | tap | combineSend | compareExchange | loopExitDrain | constantSource | sink | repeat_ =>
    exact .next (.operEventOf h)
  | bankStream | globalStream | globalGather | generatorCompletion => exact .next (.genEventOf h)
  | weightColumn => exact .next (.matEvent h (fun h => .weightColumn h))
  | activationRow => exact .next (.matEvent h (fun h => .activationRow h))
  | rowFiring => exact .next (.matEvent h (fun h => .rowFiring h))
  | mmDrain => exact .next (.matEvent h (fun h => .mmDrain h))
  | mmClear => exact .next (.matEvent h (fun h => .mmClear h))
  | nullRow => exact .next (.matEvent h (fun h => .nullRow h))
  | matrixControlToken => exact .next (.matEvent h (fun h => .matToken h))
  | sort => exact .next (.matEvent h (fun h => .sortEvent h))
  | ireload =>
    dsimp only [Machine.exec, execIreload]
    exact .runPassage (fun h => .ite (.badPassage h) (.next h)) h
  | functionLevelReset | linkDown => exact .next (.ite (.functionReset h) h)
  | undervoltage => exact .next (.ite (.powerReset h) h)
  | readStatus => exact .next (.takeNat h (fun h => .answer h))
  | powerCycleRequest => exact .next (.ite (.powerReset (.answer h)) h)
  | getVersion | negotiateAlgorithms | getDigests => exact .next (.spdm h)
  | getCapabilities => exact .next (.takeNat h (fun h => .spdm h))
  | confirmingReadCompletion => exact .next (.confirmingReadCompletion h)
  | longImmediatePrefix => exact .longImmediatePrefix h
  | cpy =>
    refine .run1 (.bind .currentRec (.bind .read32 (.bind .outChan (.bind .getChan @fun _ => ?_)))) h
    dsimp only
    split
    case' isTrue =>
      split
      case' h_1 => refine .bind .raise @fun _ => ?_
      case' h_2 => refine .bind .raiseFree @fun _ => ?_
    all_goals
      refine .bind .getTk (.bind .raiseIf @fun _ => ?_)
      split
      · exact .raise
      · exact .bind .raiseIf (.bind .modTk (.modST id))
  | kickTailWrite => dsimp only [Machine.exec, execKickTailWrite]; split; exacts [.next (.ite (.kickTailWrite h) h), .next h]
  | cplHeadWrite => dsimp only [Machine.exec, execCplHeadWrite]; split; exacts [.next (.ite (.modQueue h) h), .next h]
  | completionWrite => dsimp only [Machine.exec, execCompletionWrite]; split; exacts [.next (.ite (.completionWrite h) h), .next h]
  | waitSatisfied => dsimp only [Machine.exec, execWaitSatisfied]; split; exacts [.next (.ite (.waitSatisfied h) h), .next h]
  | waitTimeout => dsimp only [Machine.exec, execWaitTimeout]; split; exacts [.next (.ite (.waitTimeout h) h), .next h]
  | mboxDoorWrite => dsimp only [Machine.exec, execMboxDoorWrite]; split; exacts [.next (.ite h h), .next h]
  | createQueue => dsimp only [Machine.exec, execCreateQueue]; split; exacts [.next (.ite h (.ite h (.createQueue h))), .next h]
  | destroyQueue => dsimp only [Machine.exec, execDestroyQueue]; split; exacts [.next (.ite h h), .next h]
  | registerWrite => dsimp only [Machine.exec, execRegisterWrite]; split; exacts [.next (.ite (.registerWrite h) h), .next h]
  | pwrBudgetWrite => dsimp only [Machine.exec, execPwrBudgetWrite]; split; exacts [.next (.ite (.setBudget h) h), .next h]
  | governorTick => dsimp only [Machine.exec, execGovernorTick]; split; exacts [.next (.ite (.governorTick h) h), .next h]
  | candidateAttempt => dsimp only [Machine.exec, execCandidateAttempt]; split; exacts [.next (.ite (.candidateAttempt h) h), .next h]
  | loadCommit => dsimp only [Machine.exec, execLoadCommit]; split; exacts [.next (.ite (.loadCommit h) h), .next h]
  | codePageResolved =>
    dsimp only [Machine.exec, execCodePageResolved]; split; exacts [.next (.ite (.launchGoesOn h) h), .next (.ite (.loadGoesOn h) h), .next h]
  | planeGrant => dsimp only [Machine.exec, execPlaneGrant]; split; exacts [.next (.ite (.planeGrant h) h), .next h]
  | drainComplete =>
    dsimp only [Machine.exec, execDrainComplete]
    split
    · refine .next ?_
      split
      · exact .ite (.startZeroing h) h
      · exact h
    · exact .next h
  | drainTimeout =>
    dsimp only [Machine.exec, execDrainTimeout]
    split
    · refine .next ?_
      split
      · exact .ite (.startZeroing h) h
      · exact h
    · exact .next h
  | zeroingComplete =>
    dsimp only [Machine.exec, execZeroingComplete]
    split
    · exact .next (.ite (.modSubs h) h)
    · refine .next ?_
      split
      · exact .ite h h
      · exact h
    · exact .next h
  | reserveSubtree => dsimp only [Machine.exec, execReserveSubtree]; split; exacts [.next (.ite (.modSubs h) h), .next h]
  | releaseSubtree => dsimp only [Machine.exec, execReleaseSubtree]; split; exacts [.next (.ite (.modSubs h) h), .next h]
  | replyExpiry => dsimp only [Machine.exec, execReplyExpiry]; split; exacts [.next (.replyExpiry h), .next h]
  | replyArrival => dsimp only [Machine.exec, execReplyArrival]; split; exacts [.next (.replyArrival h), .next h]
  | recordVisible => dsimp only [Machine.exec, execRecordVisible]; split; exacts [.next (.recordVisible h), .next h]
  | vqAgentMove => dsimp only [Machine.exec, execVqAgentMove]; split; exacts [.next (.vqAgentMove h), .next h]
  | vqAgentAppend => dsimp only [Machine.exec, execVqAgentAppend]; split; exacts [.next (.vqAgentAppend h), .next h]
  | activationStart => dsimp only [Machine.exec, execActivationStart]; split; exacts [.next (.activationStart h), .next h]
  | nullTrigger => dsimp only [Machine.exec, execNullTrigger]; split; exacts [.next (.nullTrigger h), .next h]
  | loadReply => dsimp only [Machine.exec, execLoadReply]; split; exacts [.next (.loadReply h), .next (.loadReply h), .next h]
  | storePerformed => dsimp only [Machine.exec, execStorePerformed]; split; exacts [.next (.storePerformed h), .next h]
  | translationRefill => dsimp only [Machine.exec, execTranslationRefill]; split; exacts [.next (.ite (.translationRefill h) h), .next h]
  | priResponse => dsimp only [Machine.exec, execPriResponse]; split; exacts [.next (.ite (.priResponse h) h), .next h]
  | osPageResponse => dsimp only [Machine.exec, execOsPageResponse]; split; exacts [.next (.ite (.osPageResponse h) h), .next h]
  | atsInvalidation => dsimp only [Machine.exec, execAtsInvalidation]; split; exacts [.next (.ite (.atsInvalidation h) h), .next h]
  | transferRequestRecord => dsimp only [Machine.exec, execTransferRequestRecord]; split; exacts [.next (.transferRequestRecord h), .next h]
  | lighterRequest => dsimp only [Machine.exec, execLighterRequest]; split; exacts [.next (.lighterBurst h), .next (.startReq h), .next h]
  | lighterComplete => dsimp only [Machine.exec, execLighterComplete]; split; exacts [.next (.lighterComplete h), .next h]
  | transformRow => dsimp only [Machine.exec, execTransformRow]; split; exacts [.next (.transformRow h), .next (.transformRow h), .next h]
  | accumulateStreamRecord => dsimp only [Machine.exec, execAccumulateStreamRecord]; split; exacts [.next (.accumulateStreamRecord h), .next h]
  | accumulateArrival =>
    dsimp only [Machine.exec, execAccumulateArrival]; split; exacts [.next (.accumulateArrival h), .next (.accumulateArrival h), .next h]
  | flushDelivery => dsimp only [Machine.exec, execFlushDelivery]; split; exacts [.next (.flushDelivery h), .next (.flushDelivery h), .next h]
  | refusalReply => dsimp only [Machine.exec, execRefusalReply]; split; exacts [.next (.refusalReply h), .next h]
  | residualAgeExpiry => dsimp only [Machine.exec, execResidualAgeExpiry]; split; exacts [.next (.residualAgeExpiry h), .next h]
  | acceptanceIntervalEnd => dsimp only [Machine.exec, execAcceptanceIntervalEnd]; split; exacts [.next h, .next h]
  | atomicPerform => dsimp only [Machine.exec, execAtomicPerform]; split; exacts [.next (.atomicPerform h), .next (.atomicPerform h), .next h]
  | atomicReply => dsimp only [Machine.exec, execAtomicReply]; split; exacts [.next (.atomicReply h), .next h]
  | controllerPermit => dsimp only [Machine.exec, execControllerPermit]; split; exacts [.next (.ctrlEvent h), .next h]
  | controllerDone => dsimp only [Machine.exec, execControllerDone]; split; exacts [.next (.ctrlEvent h), .next h]
  | gateArrival => dsimp only [Machine.exec, execGateArrival]; split; exacts [.next (.gateArrival h), .next h]
  | gatePermit => dsimp only [Machine.exec, execGatePermit]; split; exacts [.next (.gatePermit h), .next h]
  | gateTimeout => dsimp only [Machine.exec, execGateTimeout]; split; exacts [.next (.gateTimeout h), .next (.gateTimeout h), .next h]
  | contributionArrival =>
    dsimp only [Machine.exec, execContributionArrival]; split; exacts [.next (.contributionArrival h), .next (.rootDelivery h), .next h]
  | combineTimeout => dsimp only [Machine.exec, execCombineTimeout]; split; exacts [.next (.combineTimeout h), .next h]
  | wavePeriod => dsimp only [Machine.exec, execWavePeriod]; split; exacts [.next (.wavePeriod h), .next h]
  | wavePass => dsimp only [Machine.exec, execWavePass]; split; exacts [.next (.wavePass h), .next (.waveVisit h), .next h]
  | yield_ =>
    dsimp only [Machine.exec, execYield_]
    refine .runPassage (fun h => .next ?_) h
    split
    · exact .ite h h
    · exact h
  | predicateRecord => dsimp only [Machine.exec, execPredicateRecord]; split; exacts [.next (.predicateRecord h), .next h]
  | segmentBoundarySwitch => dsimp only [Machine.exec, execSegmentBoundarySwitch]; split; exacts [.next (.ite (.segmentSwitch h) h), .next h]
  | segmaxExpiry => dsimp only [Machine.exec, execSegmaxExpiry]; split; exacts [.next (.ite (.segmaxExpiry h) h), .next h]
  | pauseComplete => dsimp only [Machine.exec, execPauseComplete]; split; exacts [.next (.ite (.pauseComplete h) h), .next h]
  | faultRecordArrival => dsimp only [Machine.exec, execFaultRecordArrival]; split; exacts [.next (.ite (.faultArrival h) h), .next h]
  | holdTimeout => dsimp only [Machine.exec, execHoldTimeout]; split; exacts [.next (.ite (.holdTimeout h) h), .next h]
  | processMigration => dsimp only [Machine.exec, execProcessMigration]; split; exacts [.next (.ite (.processMigration h) h), .next h]
  | pcieRetrain => dsimp only [Machine.exec, execPcieRetrain]; split; exacts [.next h, .next h]
  | ethernetPortDown =>
    dsimp only [Machine.exec, execEthernetPortDown]
    split
    · refine .next ?_
      split
      · exact h
      · exact h
    · exact .next h
  | flitReceive => dsimp only [Machine.exec, execFlitReceive]; split; exacts [.next (.flitReceive h), .next h]
  | retrainComplete => dsimp only [Machine.exec, execRetrainComplete]; split; exacts [.next (.retrainComplete h), .next h]
  | powerGood => dsimp only [Machine.exec, execPowerGood]; split; exacts [.next (.ite h (.powerGood h)), .next h]
  | hbmTrainingComplete => dsimp only [Machine.exec, execHbmTrainingComplete]; split; exacts [.next (.hbmTrained h), .next h]
  | selfTestComplete => dsimp only [Machine.exec, execSelfTestComplete]; split; exacts [.next (.selfTested h), .next h]
  | thermalTrip => dsimp only [Machine.exec, execThermalTrip]; split; exacts [.next (.thermalTrip h), .next h]
  | counterRaise => dsimp only [Machine.exec, execCounterRaise]; split; exacts [.next (.counterRaise h), .next h]
  | setBudget => dsimp only [Machine.exec, execSetBudget]; split; exacts [.next (.answer (.ite (.setBudget h) h)), .next h]
  | getCertificate => dsimp only [Machine.exec, execGetCertificate]; split; exacts [.next (.ite (.spdm h) (.spdm h)), .next h]
  | challenge =>
    dsimp only [Machine.exec, execChallenge]
    split
    · refine .next ?_
      split
      · exact .ite (.spdm h) (.spdm h)
      · exact .spdm h
    · exact .next h
  | getMeasurements =>
    dsimp only [Machine.exec, execGetMeasurements]
    split
    · refine .next (.ite (.spdm h) (.ite (.spdm h) ?_))
      split
      · exact .spdm h
      · exact .spdm h
    · exact .next h
  | accumulateAcknowledgement =>
    dsimp only [Machine.exec, execAccumulateAcknowledgement]; split; exacts [.next (.accumulateAcknowledgement h), .next h]
  | virtualQueueAssign => dsimp only [Machine.exec, execVirtualQueueAssign]; split; exacts [.next (.ite h (.ite h h)), .next h]
  | regionReclaim => dsimp only [Machine.exec, execRegionReclaim]; split; exacts [.next (.ite (.regionReclaim h) h), .next h]
  | replacementFallback => dsimp only [Machine.exec, execReplacementFallback]; split; exacts [.next (.ite (.replacementFallback h) h), .next h]
  | migrationReceive => dsimp only [Machine.exec, execMigrationReceive]; split; exacts [.next (.ite (.migrationReceive h) h), .next h]
  | ethernetPortUp =>
    dsimp only [Machine.exec, execEthernetPortUp]
    split
    · refine .next ?_
      split
      · exact .ite (.pumpAll h) h
      · exact h
    · exact .next h
  | bridgedRecordArrival => dsimp only [Machine.exec, execBridgedRecordArrival]; split; exacts [.next (.ite (.bridgedArrival h) h), .next h]
  | mctpControlMessage => dsimp only [Machine.exec, execMctpControlMessage]; split; exacts [.next (.takeNat h (fun h => .answer h)), .next h]
  | correctableError => dsimp only [Machine.exec, execCorrectableError]; split; exacts [.next (.ite h h), .next h]

theorem issueTask {t n : Nat} (h : s.Canonical) : NextCanonical (issueTask t n s) := by
  dsimp only [Machine.issueTask]
  split
  · exact .ite (.exec h) (.next h)
  · exact .next h

theorem issuePassage {t : Nat} (h : s.Canonical) : NextCanonical (issuePassage t s) := by
  dsimp only [Machine.issuePassage]
  split
  · refine .ite ?_ (.next h)
    split
    · exact .exec h
    · exact .next h
  · exact .next h

theorem step (h : s.Canonical) : NextCanonical (step s) := by
  unfold Machine.step
  split
  · exact .next h
  dsimp only
  split
  · exact .issueTask h
  · exact .issuePassage h
  · exact .ite (.exec h) (.next h)
  · exact .next h
  · exact .next h
  · exact .next (.ite (.turnEffect h) h)

end NextCanonical

/-- Settles O8: memory is written by a few functions, each through `Memory.write` or `Memory.put`, which keep the form, and every other function
of the model hands its memories on. -/
theorem stepKeepsMemoryCanonical : Obligations.StepKeepsMemoryCanonical := fun _ s' h done => NextCanonical.step h s' done

end Sys2Proof.Machine

/-! PROOFS. Registers that await a reply (R272, R380). -/

namespace Sys2Proof.Machine

/-- Settles O11: the watch flag is looked for first, then the reply that the register awaits. -/
theorem pendingRegisterHoldsBack : Obligations.PendingRegisterHoldsBack := by
  refine fun c o => ⟨fun unflagged awaits => ?_, fun f flagged => ?_⟩
  · simp only [useReg, unflagged, awaits]
    rfl
  · simp only [useReg, flagged]

end Sys2Proof.Machine

/-! PROOFS. What an access of a task meets on its way to memory (R68, R259, R265, R267, R272, R387). -/

namespace Sys2Proof.Machine

/-! ### The check of an address (R259, R272) -/

section
variable {c : TCtx} {va : W64} {align : Nat}

theorem checkAddr_ok (within : va.toNat < 2 ^ 57) (aligned : va.toNat % align = 0) : checkAddr va align c = .ok ((), c) := by
  have canonical : (!canonical va.toNat) = false := by simp only [Machine.canonical, within, decide_true, Bool.not_true]
  have even : (va.toNat % align != 0) = false := by simp only [aligned, bne_self_eq_false]
  unfold checkAddr
  rw [tm_bind_ok (raiseIf_pass canonical _ _ c), raiseIf_pass even]

theorem checkAddr_beyond (beyond : 2 ^ 57 ≤ va.toNat) :
    checkAddr va align c = .error (.trap 0x0400 (BitVec.ofNat 64 (va.toNat % 2 ^ 57))) := by
  have outside : (!canonical va.toNat) = true := by simp only [canonical, not_lt.mpr beyond, decide_false, Bool.not_false]
  unfold checkAddr
  rw [tm_bind_error (raiseIf_fail outside _ _ c)]
  rfl

theorem checkAddr_unaligned (within : va.toNat < 2 ^ 57) (unaligned : va.toNat % align ≠ 0) :
    checkAddr va align c = .error (.trap 0x0401 va) := by
  have canonical : (!canonical va.toNat) = false := by simp only [Machine.canonical, within, decide_true, Bool.not_true]
  unfold checkAddr
  rw [tm_bind_ok (raiseIf_pass canonical _ _ c), raiseIf_fail (bne_iff_ne.mpr unaligned)]
  rfl

end

/-! ### What a translation gives (R265, R267) -/

section
variable {s : State} {l : Layer} {pasid va : Nat}

theorem noHost_iff : s.noHost pasid = true ↔ pasid ∈ s.pasidOff ∨ s.dawn.caps.getLsbD 0 = false := by
  have shared : bitOf s.dawn.caps.toNat 0 = s.dawn.caps.getLsbD 0 := rfl
  rw [State.noHost, shared, Bool.or_eq_true, Bool.not_eq_true', List.contains_iff_mem, or_comm]

theorem translate_unserved (host : isDevice va = false) (unserved : s.noHost pasid = true) : translate s l pasid va = .fail 1 false := by
  simp only [translate, host, unserved, Bool.not_false, Bool.and_self, if_true]

theorem not_unserved (served : isDevice va = false → s.noHost pasid = false) : (!isDevice va && s.noHost pasid) = false := by
  rw [Bool.and_eq_false_imp, Bool.not_eq_true']
  exact served

section
variable (served : isDevice va = false → s.noHost pasid = false)
include served

theorem translate_hit {e : Tlb} (held : s.tlb? l pasid va = some e) : translate s l pasid va = .hit e := by
  simp only [translate, not_unserved served, held, Bool.false_eq_true, if_false]

theorem translate_mapped {e : Tlb} (unheld : s.tlb? l pasid va = none) (mapped : walk s pasid va = .ok e) : translate s l pasid va = .miss := by
  simp only [translate, not_unserved served, unheld, mapped, Bool.false_eq_true, if_false]

theorem translate_unmapped (unheld : s.tlb? l pasid va = none) (unmapped : walk s pasid va = .invalid) : translate s l pasid va =
    if (l, pasid, pageOf va) ∈ s.pageFails then .fail 1 true else if (l, pasid, pageOf va) ∈ s.pageReqs then .miss else .ask := by
  simp only [translate, not_unserved served, unheld, unmapped, List.contains_iff_mem, Bool.false_eq_true, if_false]

end
end

/-- What a task's access makes of its translation (R261, R265, R267). -/
def Xlate.meets (l : Layer) (pasid va : Nat) (r w home : Bool) : Xlate → TM Phys
  | .hit e => do
    raiseIf (home && !isDevice va) cPageFault (pageArg va 3)
    raiseIf ((r && !e.r) || (w && !e.w)) cPageFault (pageArg va 2)
    pure (e.phys va)
  | .fail cause true => stop (.trapAfter (dropPageFail l pasid va) cPageFault (pageArg va cause))
  | .fail cause false => raise cPageFault (pageArg va cause)
  | .miss => stop (.wait false)
  | .ask => stop (.ask (fun s => askPage s l pasid va))

section
variable {c : TCtx} {tn : Tenure} {va : Nat} {r w home : Bool}

theorem taskXlate_eq (tenure : c.s.tenures.get? c.t = some tn) :
    taskXlate va r w home c = (translate c.s (.cell c.t c.n) tn.pasid va).meets (.cell c.t c.n) tn.pasid va r w home c := by
  unfold taskXlate
  rw [tm_bind_ok (getTn_ok tenure), tm_bind_ok (getS_run c), tm_bind_ok (getT_run c), tm_bind_ok (getN_run c)]
  generalize translate c.s (.cell c.t c.n) tn.pasid va = x
  cases x with
  | hit e => rfl
  | fail cause final => cases final <;> rfl
  | miss => rfl
  | ask => rfl

theorem atHome_of (homed : home = true → isDevice va = true) : (home && !isDevice va) = false := by
  cases home with
  | false => rfl
  | true => rw [homed rfl]; rfl

theorem Xlate.meets_hit {l : Layer} {pasid : Nat} {e : Tlb} (homed : home = true → isDevice va = true) (readable : r = true → e.r = true)
    (writable : w = true → e.w = true) : (Xlate.hit e).meets l pasid va r w home c = .ok (e.phys va, c) := by
  have permitted : ((r && !e.r) || (w && !e.w)) = false := by
    simp only [Bool.or_eq_false_iff, Bool.and_eq_false_imp, Bool.not_eq_false']
    exact ⟨readable, writable⟩
  unfold Xlate.meets
  dsimp only
  rw [tm_bind_ok (raiseIf_pass (atHome_of homed) _ _ c), tm_bind_ok (raiseIf_pass permitted _ _ c)]
  rfl

theorem Xlate.meets_away {l : Layer} {pasid : Nat} {e : Tlb} (homed : home = true) (host : isDevice va = false) :
    (Xlate.hit e).meets l pasid va r w home c = .error (.trap 0x0400 (pageArg va 3)) := by
  have away : (home && !isDevice va) = true := by
    rw [homed, host]
    rfl
  exact tm_bind_error (raiseIf_fail away _ _ c)

theorem Xlate.meets_denied {l : Layer} {pasid : Nat} {e : Tlb} (homed : home = true → isDevice va = true)
    (denied : r = true ∧ e.r = false ∨ w = true ∧ e.w = false) :
    (Xlate.hit e).meets l pasid va r w home c = .error (.trap 0x0400 (pageArg va 2)) := by
  have refused : ((r && !e.r) || (w && !e.w)) = true := by
    simpa only [Bool.or_eq_true, Bool.and_eq_true, Bool.not_eq_true'] using denied
  unfold Xlate.meets
  dsimp only
  rw [tm_bind_ok (raiseIf_pass (atHome_of homed) _ _ c)]
  exact tm_bind_error (raiseIf_fail refused _ _ c)

end

/-! ### Page requests (R267, R387) -/

section
variable {s : State} {l : Layer} {pasid va : Nat}

/-- Whether the host port holds as many page requests as it takes. -/
theorem askPage_full_iff : (!isDevice va && decide (512 ≤ (s.pageReqs.filter (fun r => !isDevice r.2.2)).length)) = true ↔
    isDevice va = false ∧ 512 ≤ (s.pageReqs.filter (fun r => !isDevice r.2.2)).length := by
  rw [Bool.and_eq_true, Bool.not_eq_true', decide_eq_true_eq]

theorem askPage_sent (room : isDevice va = true ∨ (s.pageReqs.filter (fun r => !isDevice r.2.2)).length < 512) :
    askPage s l pasid va = { s with pageReqs := s.pageReqs ++ [(l, pasid, pageOf va)] } := by
  refine if_neg fun full => ?_
  obtain ⟨host, many⟩ := askPage_full_iff.mp full
  obtain device | few := room
  · exact Bool.false_ne_true (host.symm.trans device)
  · exact absurd many (not_le.mpr few)

theorem askPage_kept (host : isDevice va = false) (full : 512 ≤ (s.pageReqs.filter (fun r => !isDevice r.2.2)).length) :
    askPage s l pasid va = s := if_pos (askPage_full_iff.mpr ⟨host, full⟩)

theorem mem_dropPageFail {e : Layer × Nat × Nat} :
    e ∈ (dropPageFail l pasid va s).pageFails ↔ e ∈ s.pageFails ∧ e ≠ (l, pasid, va / 4096 * 4096) := by
  simp only [dropPageFail, pageOf, List.mem_filter, bne_iff_ne]

end

/-- Settles O28. -/
theorem accessTranslation : Obligations.AccessTranslation := by
  refine ⟨fun c va n => ⟨checkAddr_ok, checkAddr_beyond, checkAddr_unaligned⟩, fun c tn va r w home e tenure served held => ?held,
    fun c tn va r w home e tenure served unheld mapped => ?mapped, fun c tn va r w home tenure served unheld unmapped => ?unmapped,
    fun s l pasid va => askPage_sent, fun s l pasid va => askPage_kept, fun s l pasid va e => mem_dropPageFail,
    fun c tn va r w home tenure host unserved => ?unserved, fun s pasid on shared => ?served⟩
  case held =>
    rw [taskXlate_eq tenure, translate_hit served held]
    exact ⟨Xlate.meets_hit, Xlate.meets_away, Xlate.meets_denied⟩
  case mapped =>
    rw [taskXlate_eq tenure, translate_mapped served unheld mapped]
    rfl
  case unmapped =>
    dsimp only
    rw [taskXlate_eq tenure, translate_unmapped served unheld unmapped, pageOf]
    refine ⟨fun failed => ?_, fun unfailed asked => ?_, fun unfailed unasked => ?_⟩
    · rw [if_pos failed]
      rfl
    · rw [if_neg unfailed, if_pos asked]
      rfl
    · rw [if_neg unfailed, if_neg unasked]
      rfl
  case unserved =>
    rw [taskXlate_eq tenure, translate_unserved host (noHost_iff.mpr unserved)]
    rfl
  case served =>
    refine Bool.eq_false_iff.mpr fun gone => ?_
    obtain off | apart := noHost_iff.mp gone
    · exact on off
    · exact Bool.false_ne_true (apart.symm.trans shared)

end Sys2Proof.Machine

/-! PROOFS. Global loads and stores leave the cell, their tokens counted and their destinations held back (R269, R272, R305). -/

namespace Sys2Proof.Machine

/-! ### The watch, the token and the message of an access (R269, R272, R380) -/

section
variable {c : TCtx} {tn : Tenure} {tk : Bool} {tok : BitVec 3}

theorem taskWatch_ok {kind va len : Nat} (tenure : c.s.tenures.get? c.t = some tn) (unwatched : tn.watchHit kind va len = none) :
    taskWatch kind va len c = .ok ((), c) := by
  unfold taskWatch
  rw [tm_bind_ok (getTn_ok tenure), unwatched]
  rfl

theorem takeToken_ok (room : c.tk.sbcnt[tok.toFin] ≠ 255) : takeToken tok c = .ok ((), { c with tk := tokenTaken c.tk true tok }) := by
  unfold takeToken
  rw [tm_bind_ok (getTk_run c), bne_iff_ne.mpr room]
  rfl

/-- An instruction that counts its token, where it names one, goes on with the token counted. -/
theorem takeToken_then {α : Type} (room : tk = true → c.tk.sbcnt[tok.toFin] ≠ 255) (k : Unit → TM α) :
    (if tk then takeToken tok >>= k else k ()) c = k () { c with tk := tokenTaken c.tk tk tok } := by
  cases tk with
  | false => rfl
  | true => exact tm_bind_ok (takeToken_ok (room rfl))

theorem taskSend_ok {unit : Nat} {k : MsgKind} (tenure : c.s.tenures.get? c.t = some tn) :
    taskSend unit k c = .ok (c.s.nextMsg, { c with s := sent c tn unit k }) := by
  unfold taskSend
  rw [tm_bind_ok (getTn_ok tenure)]
  rfl

end

/-! ### Loads (R272) -/

theorem bodyGld_ok {signed : Bool} {size : Nat} {d a : Opnd} {tk : Bool} {tok : BitVec 3} {c c1 : TCtx} {va : W64} {pa : Phys} {tn : Tenure}
    (ha : read64 a c = .ok (va, c1)) (tenure : c1.s.tenures.get? c1.t = some tn) (within : va.toNat < 2 ^ 57)
    (aligned : va.toNat % size = 0) (translated : taskXlate va.toNat true false false c1 = .ok (pa, c1))
    (unwatched : tn.watchHit 0 va.toNat size = none) (free : usable c1 d) (room : tk = true → c1.tk.sbcnt[tok.toFin] ≠ 255) :
    bodyGld signed size d a tk tok c = .ok ((), { c1 with
      s := sent c1 tn (physUnit pa) (.load va.toNat size pa signed d (tokenOf tk tok) (c1.tk.pc % 65536).toNat),
      tk := { tokenTaken c1.tk tk tok with pend := c1.tk.pend ++ [d] } }) := by
  unfold bodyGld
  rw [tm_bind_ok ha, tm_bind_ok (checkAddr_ok within aligned), tm_bind_ok translated, tm_bind_ok (taskWatch_ok tenure unwatched),
    tm_bind_ok free.useReg]
  refine (takeToken_then room _).trans ?_
  dsimp only
  rw [tm_bind_ok (getTk_run _), tm_bind_ok (taskSend_ok (c := { c1 with tk := tokenTaken c1.tk tk tok }) tenure)]
  cases tk <;> rfl

theorem globalLoadIssues_holds : globalLoadIssues := by
  simp only [globalLoadIssues, globalLoadRules, List.forall_mem_cons, List.not_mem_nil, false_implies, implies_true, and_true]
  refine ⟨?_, ?_, ?_, ?_, ?_, ?_⟩ <;>
    exact fun _ _ _ _ _ _ _ _ _ _ start ha tenure within aligned translated unwatched free room =>
      runTask_done start _ (bodyGld_ok ha tenure within aligned translated unwatched free room)

/-! ### Stores (R272, R305) -/

section
variable {size : Nat} {d a : Opnd} {tk : Bool} {tok : BitVec 3} {c c1 c2 : TCtx} {va x : W64} {pa : Phys} {tn : Tenure}

/-- What a store writes, of 64 bits or of at most 32 (R272). -/
def storeOperand (size : Nat) (d : Opnd) : TM W64 := if size = 8 then read64 d else do pure ((← read32 d).setWidth 64)

theorem storeOperand_double (hd : read64 d c = .ok (x, c1)) : storeOperand 8 d c = .ok (x, c1) := hd

theorem storeOperand_word {y : W32} (narrow : size ≠ 8) (hd : read32 d c = .ok (y, c1)) :
    storeOperand size d c = .ok (y.setWidth 64, c1) := by
  rw [storeOperand, if_neg narrow, tm_bind_ok hd]
  rfl

/-- A store goes on with what it writes. -/
theorem storeOperand_then {α : Type} (hd : storeOperand size d c = .ok (x, c1)) (k : W64 → TM α) :
    (if size = 8 then read64 d >>= k else read32 d >>= fun y => pure (y.setWidth 64) >>= k) c = k x c1 := by
  by_cases double : size = 8
  · rw [storeOperand, if_pos double] at hd
    rw [if_pos double, tm_bind_ok hd]
  · rw [storeOperand, if_neg double] at hd
    obtain ⟨y, c', read, wide⟩ := tm_bind_eq_ok hd
    rw [if_neg double, tm_bind_ok read]
    exact tm_bind_ok wide

theorem bodyGst_ok (ha : read64 a c = .ok (va, c1)) (within : va.toNat < 2 ^ 57) (aligned : va.toNat % size = 0)
    (hd : storeOperand size d c1 = .ok (x, c2)) (tenure : c2.s.tenures.get? c2.t = some tn)
    (translated : taskXlate va.toNat false true false c2 = .ok (pa, c2)) (apart : clobbers c2.s pa size = false)
    (unwatched : tn.watchHit 1 va.toNat size = none) (room : tk = true → c2.tk.sbcnt[tok.toFin] ≠ 255) :
    bodyGst size d a tk tok c = .ok ((), { c2 with
      s := sent c2 tn (physUnit pa) (.store va.toNat (leBytes x.toNat size) pa (tokenOf tk tok)),
      tk := if isDevice va.toNat then tokenTaken c2.tk tk tok else { tokenTaken c2.tk tk tok with hostDirty := true } }) := by
  unfold bodyGst
  rw [tm_bind_ok ha, tm_bind_ok (checkAddr_ok within aligned)]
  refine (storeOperand_then hd _).trans ?_
  dsimp only
  rw [tm_bind_ok translated, tm_bind_ok (getS_run c2), tm_bind_ok (raiseIf_pass apart _ _ c2),
    tm_bind_ok (taskWatch_ok tenure unwatched)]
  refine (takeToken_then room _).trans ?_
  rw [tm_bind_ok (taskSend_ok (c := { c2 with tk := tokenTaken c2.tk tk tok }) tenure)]
  cases isDevice va.toNat <;> rfl

end

theorem globalStoreIssues_holds : globalStoreIssues := by
  refine ⟨?_, fun _ _ _ _ _ _ _ _ _ _ _ _ start ha within aligned hd tenure translated apart unwatched room =>
    runTask_done start _ (bodyGst_ok ha within aligned (storeOperand_double hd) tenure translated apart unwatched room)⟩
  simp only [globalStoreRules, List.forall_mem_cons, List.not_mem_nil, false_implies, implies_true, and_true]
  refine ⟨?_, ?_, ?_⟩ <;>
  · intro d a tk tok s c c1 c2 va x pa tn start ha within aligned hd tenure translated apart unwatched room
    have stored := bodyGst_ok ha within aligned (storeOperand_word (by decide) hd) tenure translated apart unwatched room
    rw [BitVec.toNat_setWidth_of_le (by decide)] at stored
    exact runTask_done start _ stored

/-- Settles O29. -/
theorem globalAccessIssues : Obligations.GlobalAccessIssues := ⟨globalLoadIssues_holds, globalStoreIssues_holds⟩

end Sys2Proof.Machine

/-! PROOFS. Transfers requested, words waited for, scoreboard tokens and fences (R271, R273, R276, R280, R319, R326, R396). -/

namespace Sys2Proof.Machine

/-- An instruction that waits with what it has asked for keeps that. -/
theorem runTask_hold {i : Instr} {len : Nat} {s : State} {c c' : TCtx} {counted : Bool} (start : Starts i len s c) (w : W32)
    {body : TM Unit} (holds : body c = .error (.hold counted c')) :
    runTask i w len body s = .next { c'.s with
      tasks := c'.s.tasks.set (key2 s.cur.1 s.cur.2) { c'.tk with st := if counted then .blocked else .running } } := by
  have course := start.prelude w body
  obtain ⟨tk, task, rfl⟩ := start.task
  simp only [runTask, task, course, holds]

theorem stallUnless_pass {b : Bool} (passes : b = true) (c : TCtx) : Machine.stallUnless b c = .ok ((), c) := by
  rw [passes]
  rfl

theorem stallUnless_stall {b : Bool} (stalls : b = false) (c : TCtx) : Machine.stallUnless b c = .error (.wait false) := by
  rw [stalls]
  rfl

/-! ### `xfer` (R276) -/

theorem bodyXfer_ok {a : Opnd} {port : Nat} {c c1 : TCtx} {u0 u1 u2 u3 : W64} {tn : Tenure}
    (units : xferUnits a c = .ok ((u0, u1, u2, u3), c1)) (tenure : c1.s.tenures.get? c1.t = some tn)
    (sound : (LReq.ofUnits 0 0 c1.n u0 u1 u2 u3).malformed tn = false) (held : lighterRoom c1.s (c1.s.lighterOf tn c1.n port) = true)
    (room : (LReq.ofUnits 0 0 c1.n u0 u1 u2 u3).tk = true →
      c1.tk.sbcnt[(BitVec.ofNat 3 (LReq.ofUnits 0 0 c1.n u0 u1 u2 u3).sbn).toFin] ≠ 255) :
    bodyXfer a port c = .ok ((), { c1 with
      s := injectReq c1.s c1.t c1.n (c1.s.lighterOf tn c1.n port) u0 u1 u2 u3,
      tk := tokenTaken c1.tk (LReq.ofUnits 0 0 c1.n u0 u1 u2 u3).tk (BitVec.ofNat 3 (LReq.ofUnits 0 0 c1.n u0 u1 u2 u3).sbn) }) := by
  unfold bodyXfer
  rw [tm_bind_ok units]
  dsimp only
  rw [tm_bind_ok (getTn_ok tenure), tm_bind_ok (getN_run c1), tm_bind_ok (raiseIf_pass sound _ _ c1), tm_bind_ok (getS_run c1),
    tm_bind_ok (stallUnless_pass held c1)]
  exact takeToken_then room _

/-! ### `waita` (R273, R280, R319, R396) -/

section
variable {a b : Opnd} {c c1 c2 : TCtx} {tn : Tenure} {va : W64} {least : Nat} {pa : Phys}

theorem bodyWaita_first {y : W32} (first : c.tk.wait = .none) (ha : read64 a c = .ok (va, c1)) (hb : read32 b c1 = .ok (y, c2)) :
    bodyWaita a b c = waitaLookup va y.toNat c2 := by
  unfold bodyWaita
  rw [tm_bind_ok (getTk_run c), first]
  dsimp only
  rw [tm_bind_ok ha, tm_bind_ok hb]

theorem bodyWaita_met {va pa least : Nat} (met : c.tk.wait = .word va pa least true) : bodyWaita a b c = waitaNotice pa c := by
  unfold bodyWaita
  rw [tm_bind_ok (getTk_run c), met]

theorem bodyWaita_blocks {va pa least : Nat} (unmet : c.tk.wait = .word va pa least false ∨ c.tk.wait = .lost) :
    bodyWaita a b c = .error (.wait true) := by
  unfold bodyWaita
  rw [tm_bind_ok (getTk_run c)]
  obtain wait | wait := unmet
  · rw [wait]
    rfl
  · rw [wait]
    rfl

theorem waitLost_run (src dst : Nat) : waitLost src dst c =
    .error (.hold true { c with s := loseAccess c.s c.t src dst, tk := { c.tk with wait := .lost } }) := rfl

theorem waitaNotice_lost {pa : Nat} (tenure : c.s.tenures.get? c.t = some tn)
    (lost : pairLost c.s (unitDie (homeUnit pa)) (tn.dieOf c.n) = true) :
    waitaNotice pa c = waitLost (unitDie (homeUnit pa)) (tn.dieOf c.n) c := by
  unfold waitaNotice
  rw [tm_bind_ok (getS_run c), tm_bind_ok (getT_run c), tm_bind_ok (getN_run c), tm_bind_ok (getTn_ok tenure)]
  simp only [lost, if_true]

theorem waitaNotice_comes {pa : Nat} (tenure : c.s.tenures.get? c.t = some tn)
    (live : pairLost c.s (unitDie (homeUnit pa)) (tn.dieOf c.n) = false) :
    waitaNotice pa c = .ok ((), { c with s := countBoth c.s c.t c.n, tk := { c.tk with wait := .none } }) := by
  unfold waitaNotice
  rw [tm_bind_ok (getS_run c), tm_bind_ok (getT_run c), tm_bind_ok (getN_run c), tm_bind_ok (getTn_ok tenure)]
  simp only [live, Bool.false_eq_true, if_false]
  rfl

/-- Nothing that comes before a `waita`'s look at its word is outstanding (R273, R340). -/
def TCtx.waitaClear (c : TCtx) (pa : Phys) : Prop :=
  earlierIn c.s c.t c.n c.s.nextMsg (pa, 8) = false ∧ fencedOut c.s c.t (some c.n) c.s.nextMsg = false

theorem waitaClear_iff : c.waitaClear pa ↔
    (!earlierIn c.s c.t c.n c.s.nextMsg (pa, 8) && !fencedOut c.s c.t (some c.n) c.s.nextMsg) = true := by
  simp only [TCtx.waitaClear, Bool.and_eq_true, Bool.not_eq_true']

/-- A `waita` looks at its word, from die `here`, once nothing comes before it (R280, R319, R396). -/
def waitaLook (c : TCtx) (va : W64) (least : Nat) (pa : Phys) (here : Nat) : TM Unit :=
  if pairLost c.s here (unitDie (physUnit pa)) then waitLost here (unitDie (physUnit pa))
  else do
    modS (fun s => countBoth s c.t c.n)
    if leNat (memRead c.s c.t va.toNat pa 8) < least then
      modTk (fun k => { k with wait := .word va.toNat ((pa.dev?).getD 0) least false })
      holdHere true
    else do
      modS (fun s => countBoth s c.t c.n)
      modTk (fun k => { k with wait := .none })

section
variable (tenure : c.s.tenures.get? c.t = some tn) (within : va.toNat < 2 ^ 57) (aligned : va.toNat % 8 = 0)
  (translated : taskXlate va.toNat true false true c = .ok (pa, c)) (unwatched : tn.watchHit 0 va.toNat 8 = none)
include tenure within aligned translated unwatched

theorem waitaLookup_behind (outstanding : ¬ c.waitaClear pa) : waitaLookup va least c = .error (.wait false) := by
  unfold waitaLookup
  rw [tm_bind_ok (checkAddr_ok within aligned), tm_bind_ok translated, tm_bind_ok (taskWatch_ok tenure unwatched),
    tm_bind_ok (getS_run c), tm_bind_ok (getT_run c), tm_bind_ok (getN_run c)]
  rw [waitaClear_iff, Bool.not_eq_true] at outstanding
  exact tm_bind_error (stallUnless_stall outstanding c)

variable (clear : c.waitaClear pa)
include clear

theorem waitaLookup_looks : waitaLookup va least c = waitaLook c va least pa (tn.dieOf c.n) c := by
  unfold waitaLookup
  rw [tm_bind_ok (checkAddr_ok within aligned), tm_bind_ok translated, tm_bind_ok (taskWatch_ok tenure unwatched),
    tm_bind_ok (getS_run c), tm_bind_ok (getT_run c), tm_bind_ok (getN_run c), tm_bind_ok (stallUnless_pass (waitaClear_iff.mp clear) c),
    tm_bind_ok (getTn_ok tenure)]
  rfl

theorem waitaLookup_lost (lost : pairLost c.s (tn.dieOf c.n) (unitDie (physUnit pa)) = true) :
    waitaLookup va least c = waitLost (tn.dieOf c.n) (unitDie (physUnit pa)) c := by
  rw [waitaLookup_looks tenure within aligned translated unwatched clear, waitaLook]
  simp only [lost, if_true]

variable (live : pairLost c.s (tn.dieOf c.n) (unitDie (physUnit pa)) = false)
include live

theorem waitaLookup_met (met : least ≤ leNat (memRead c.s c.t va.toNat pa 8)) : waitaLookup va least c =
    .ok ((), { c with s := countBoth (countBoth c.s c.t c.n) c.t c.n, tk := { c.tk with wait := .none } }) := by
  rw [waitaLookup_looks tenure within aligned translated unwatched clear, waitaLook]
  simp only [live, Bool.false_eq_true, if_false, not_lt.mpr met]
  rfl

theorem waitaLookup_waits (unmet : leNat (memRead c.s c.t va.toNat pa 8) < least) : waitaLookup va least c =
    .error (.hold true { c with
      s := countBoth c.s c.t c.n, tk := { c.tk with wait := .word va.toNat ((pa.dev?).getD 0) least false } }) := by
  rw [waitaLookup_looks tenure within aligned translated unwatched clear, waitaLook]
  simp only [live, Bool.false_eq_true, if_false, unmet, if_true]
  rfl

end
end

theorem transferAndWaitResult_holds : transferAndWaitResult := by
  refine ⟨?xfer, ?first, ?met, ?unmet⟩
  case xfer =>
    intro a port s c c1 u0 u1 u2 u3 tn start units tenure q sound held room
    exact runTask_done start _ (bodyXfer_ok units tenure sound held room)
  case first =>
    intro a b s c c1 c2 va y pa tn tk start task first ha hb tenure within aligned translated unwatched here home clear
    have looksUp := bodyWaita_first first ha hb
    refine ⟨fun behind => ?_, fun clear live met => ?_, fun clear live unmet => ?_, fun clear lost => ?_⟩
    · exact runTask_wait start task _ (looksUp.trans (waitaLookup_behind tenure within aligned translated unwatched behind))
    · exact runTask_done start _ (looksUp.trans (waitaLookup_met tenure within aligned translated unwatched clear live met))
    · exact runTask_hold start _ (looksUp.trans (waitaLookup_waits tenure within aligned translated unwatched clear live unmet))
    · exact runTask_hold start _ (looksUp.trans (waitaLookup_lost tenure within aligned translated unwatched clear lost))
  case met =>
    intro a b s c va pa least tn start met tenure
    refine ⟨fun live => ?_, fun lost => ?_⟩
    · exact runTask_done start _ ((bodyWaita_met met).trans (waitaNotice_comes tenure live))
    · exact runTask_hold start _ ((bodyWaita_met met).trans (waitaNotice_lost tenure lost))
  case unmet =>
    intro a b s c va pa least tk start unmet task
    exact runTask_wait start task _ (bodyWaita_blocks unmet)

/-! ### `wsb` (R271) -/

theorem tokensClear_iff {k : TaskRt} {m : BitVec 8} : tokensClear k m = true ↔ ∀ n : Fin 8, m.getLsbD n = true → k.sbcnt[n] = 0 := by
  simp only [tokensClear, List.all_eq_true, List.mem_range, Bool.or_eq_true, Bool.not_eq_true', beq_iff_eq]
  constructor
  · intro clear n named
    obtain unnamed | zero := clear n n.isLt
    · exact absurd (unnamed.symm.trans named) Bool.false_ne_true
    · simpa using zero
  · intro clear n within
    cases named : bitOf m.toNat n with
    | false => exact .inl rfl
    | true =>
      refine .inr ?_
      have zero := clear ⟨n, within⟩ named
      simpa [within] using zero

theorem wsb_completes {m : BitVec 8} {s : State} {c : TCtx} (start : Starts (.wsb m) 1 s c)
    (clear : ∀ n : Fin 8, m.getLsbD n = true → c.tk.sbcnt[n] = 0) :
    exec (.wsb m) s = .next (completed s { c with s := fenceTokens c.s c.t c.n m }) := by
  refine runTask_done start _ ?_
  rw [tm_bind_ok (getTk_run c), tm_bind_ok (stallUnless_pass (tokensClear_iff.mpr clear) c)]
  rfl

theorem wsb_waits {m : BitVec 8} {s : State} {c : TCtx} {n : Fin 8} {tk : TaskRt} (start : Starts (.wsb m) 1 s c)
    (task : s.tasks.get? (key2 s.cur.1 s.cur.2) = some tk) (named : m.getLsbD n = true) (counted : c.tk.sbcnt[n] ≠ 0) :
    exec (.wsb m) s = .next (waiting s tk false) := by
  have unclear : tokensClear c.tk m = false := Bool.eq_false_iff.mpr fun clear => counted (tokensClear_iff.mp clear n named)
  refine runTask_wait start task _ ?_
  rw [tm_bind_ok (getTk_run c), tm_bind_error (stallUnless_stall unclear c)]

/-! ### Fences (R326) -/

section
variable {c : TCtx}

/-- What a fence waits for is there. -/
theorem fenceClear_iff : (!accessPending c.s c.t c.n && c.tk.pend.isEmpty && c.tk.updpend == 0) = true ↔
    accessPending c.s c.t c.n = false ∧ c.tk.pend = [] ∧ c.tk.updpend = 0 := by
  simp only [Bool.and_eq_true, Bool.not_eq_true', List.isEmpty_iff, beq_iff_eq, and_assoc]

variable (unflagged : c.tk.wflags = [])
include unflagged

theorem fenceGlobal_run :
    fenceGlobal c = Machine.stallUnless (!accessPending c.s c.t c.n && c.tk.pend.isEmpty && c.tk.updpend == 0) c := by
  unfold fenceGlobal
  rw [tm_bind_ok (getTk_run c), unflagged]
  rfl

theorem fenceGlobal_passes (complete : accessPending c.s c.t c.n = false) (free : c.tk.pend = []) (none : c.tk.updpend = 0) :
    fenceGlobal c = .ok ((), c) := by
  rw [fenceGlobal_run unflagged]
  exact stallUnless_pass (fenceClear_iff.mpr ⟨complete, free, none⟩) c

theorem fenceGlobal_waits (outstanding : accessPending c.s c.t c.n = true ∨ c.tk.pend ≠ [] ∨ c.tk.updpend ≠ 0) :
    fenceGlobal c = .error (.wait false) := by
  rw [fenceGlobal_run unflagged]
  refine stallUnless_stall (Bool.eq_false_iff.mpr fun clear => ?_) c
  obtain ⟨complete, free, none⟩ := fenceClear_iff.mp clear
  obtain pending | held | counted := outstanding
  · exact Bool.false_ne_true (complete.symm.trans pending)
  · exact held free
  · exact counted none

end

theorem fenceAndTokenResult_holds : fenceAndTokenResult := by
  refine ⟨fun m s c start => ⟨wsb_completes start, fun n tk => wsb_waits start⟩, ?global, ?globalWaits, ?shared⟩
  case global =>
    intro s c start unflagged complete free none
    exact runTask_done start _ (fenceGlobal_passes unflagged complete free none)
  case globalWaits =>
    intro s c tk start task unflagged outstanding
    exact runTask_wait start task _ (fenceGlobal_waits unflagged outstanding)
  case shared =>
    intro s c start unflagged complete free none
    have passes := fenceGlobal_passes unflagged complete free none
    refine ⟨fun clean => runTask_done start _ ?_, fun dirty => ?_⟩
    · rw [tm_bind_ok passes, tm_bind_ok (getTk_run c), clean]
      rfl
    · refine (runTask_hold (counted := false) (c' := { c with tk := { c.tk with wait := .confirm } }) start _ ?_).trans ?_
      · rw [tm_bind_ok passes, tm_bind_ok (getTk_run _), dirty]
        rfl
      · obtain ⟨tk, task, rfl⟩ := start.task
        rfl

/-- Settles O32. -/
theorem transferWaitFenceToken : Obligations.TransferWaitFenceToken := ⟨transferAndWaitResult_holds, fenceAndTokenResult_holds⟩

end Sys2Proof.Machine

/-! PROOFS. Translations refilled, pages answered for, and translations invalidated (R265 to R268, R387). -/

namespace Sys2Proof.Machine

/-! ### Refills (R265) -/

theorem translationRefill_walked {s : State} {l : Layer} {pasid va : Nat} {e : Tlb} (caches : Layer.caches l = true)
    (unheld : s.tlb? l pasid va = none) (within : canonical va = true) (device : isDevice va = true) (mapped : walk s pasid va = .ok e) :
    translationRefill l pasid va s = insertTlb s l e := by
  simp only [translationRefill, caches, unheld, within, device, mapped, Option.isSome_none, Bool.not_true, Bool.false_and, Bool.or_self,
    Bool.false_eq_true, if_false]

/-- The entries of a place that stay when one is put into it. -/
def keptTlbs (s : State) (l : Layer) : List (Layer × Tlb) :=
  let mine := s.tlbs.filter (fun x => x.1 == l)
  match layerEntries l with
  | some n => mine.drop (mine.length + 1 - n)
  | none => mine

section
variable {s : State} {l : Layer} {e : Tlb}

theorem insertTlb_tlbs : (insertTlb s l e).tlbs = s.tlbs.filter (fun x => x.1 != l) ++ keptTlbs s l ++ [(l, e)] := rfl

theorem keptTlbs_subset : keptTlbs s l ⊆ s.tlbs.filter (fun x => x.1 == l) := by
  unfold keptTlbs
  split
  · exact List.drop_subset _ _
  · exact List.Subset.refl _

theorem keptTlbs_length {n : Nat} (entries : layerEntries l = some n) (positive : 0 < n) : (keptTlbs s l).length + 1 ≤ n := by
  simp only [keptTlbs, entries, List.length_drop]
  omega

theorem mem_insertTlb_self : (l, e) ∈ (insertTlb s l e).tlbs := by
  rw [insertTlb_tlbs]
  exact List.mem_append_right _ (List.mem_singleton_self _)

theorem mem_insertTlb_of_ne {x : Layer × Tlb} (held : x ∈ s.tlbs) (elsewhere : x.1 ≠ l) : x ∈ (insertTlb s l e).tlbs := by
  rw [insertTlb_tlbs, List.append_assoc]
  exact List.mem_append_left _ (List.mem_filter.mpr ⟨held, bne_iff_ne.mpr elsewhere⟩)

/-- The entries of a place after one has been put into it: those that stay, and that one. -/
theorem insertTlb_filter : (insertTlb s l e).tlbs.filter (fun x => x.1 == l) = keptTlbs s l ++ [(l, e)] := by
  have others : (s.tlbs.filter (fun x => x.1 != l)).filter (fun x => x.1 == l) = [] := by
    simp only [List.filter_filter, List.filter_eq_nil_iff, Bool.and_eq_true, bne_iff_ne, beq_iff_eq]
    exact fun _ _ ⟨mine, other⟩ => other mine
  have kept : (keptTlbs s l).filter (fun x => x.1 == l) = keptTlbs s l :=
    List.filter_eq_self.mpr fun x mem => (List.mem_filter.mp (keptTlbs_subset mem)).2
  have put : [(l, e)].filter (fun x => x.1 == l) = [(l, e)] := by simp only [List.filter_cons, beq_self_eq_true, if_true, List.filter_nil]
  rw [insertTlb_tlbs, List.filter_append, List.filter_append, others, kept, put, List.nil_append]

theorem insertTlb_length {n : Nat} (entries : layerEntries l = some n) (positive : 0 < n) :
    ((insertTlb s l e).tlbs.filter (fun x => x.1 == l)).length ≤ n := by
  rw [insertTlb_filter, List.length_append, List.length_singleton]
  exact keptTlbs_length entries positive

end

/-! ### Answers for pages (R267, R387) -/

/-- The host's pages when it maps one more: those of the process that overlap it go. -/
def withHostPage (s : State) (p : HostPage) : State :=
  { s with hostPages := p :: s.hostPages.filter (fun q => !(q.pasid == p.pasid && overlaps (q.va, q.size) (p.va, p.size))) }

section
variable {s : State} {l : Layer} {pasid va : Nat}

theorem answerPage_answered {ok : Bool} : (l, pasid, pageOf va) ∉ (answerPage s pasid va ok).pageReqs := by
  intro asked
  have kept := (List.mem_filter.mp asked).2
  simp only [beq_self_eq_true, Bool.and_self, Bool.not_true, Bool.false_eq_true] at kept

theorem answerPage_failed (asked : (l, pasid, pageOf va) ∈ s.pageReqs) (there : l ≠ .gone) :
    (l, pasid, pageOf va) ∈ (answerPage s pasid va false).pageFails := by
  refine List.mem_append_right _ (List.mem_filter.mpr ⟨asked, ?_⟩)
  simp only [beq_self_eq_true, Bool.and_self, Bool.true_and, bne_iff_ne]
  exact there

theorem pageAsked (asked : (l, pasid, pageOf va) ∈ s.pageReqs) : s.pageReqs.any (fun r => r.2.1 == pasid && r.2.2 == pageOf va) = true := by
  refine List.any_eq_true.mpr ⟨_, asked, ?_⟩
  simp only [beq_self_eq_true, Bool.and_self]

section
variable (host : isDevice va = false) (asked : (l, pasid, pageOf va) ∈ s.pageReqs)
include host asked

theorem priResponse_failed : priResponse pasid va none s = answerPage s pasid va false := by
  simp only [priResponse, host, pageAsked asked, Bool.not_true, Bool.or_self, Bool.false_eq_true, if_false]

theorem priResponse_mapped {base size pa : Nat} {r w : Bool} (allowed : pageOk va base size = true) :
    priResponse pasid va (some (base, size, pa, r, w)) s = answerPage (withHostPage s ⟨pasid, base, size, pa, r, w⟩) pasid va true := by
  simp only [priResponse, host, pageAsked asked, allowed, Bool.not_true, Bool.or_self, Bool.false_eq_true, if_false, withHostPage]

end

section
variable {root : Nat} {writes : List (Nat × W64)} (device : isDevice va = true) (asked : (l, pasid, pageOf va) ∈ s.pageReqs)
include device asked

theorem osPageResponse_installed : osPageResponse pasid va root writes true s =
    answerPage (writeEntries writes { s with roots := s.roots.set pasid root }) pasid va true := by
  simp only [osPageResponse, device, pageAsked asked, Bool.not_true, Bool.or_self, Bool.false_eq_true, if_false]

theorem osPageResponse_failed : osPageResponse pasid va root writes false s = answerPage s pasid va false := by
  simp only [osPageResponse, device, pageAsked asked, Bool.not_true, Bool.not_false, Bool.or_self, Bool.false_eq_true, if_false, if_true]

end
end

/-! ### Invalidations (R268, R387) -/

section
variable {s : State} {pasid va bytes : Nat} {e : Layer × Tlb}

theorem mem_invalidate : e ∈ (invalidate pasid va bytes s).tlbs ↔
    e ∈ s.tlbs ∧ ¬ (e.2.pasid = pasid ∧ overlaps (e.2.va, e.2.size) (va, bytes) = true) := by
  simp only [invalidate, List.mem_filter, Bool.not_eq_true', ← Bool.not_eq_true, Bool.and_eq_true, beq_iff_eq]

theorem atsInvalidation_waits (busy : translatedInFlight s pasid (va, bytes) = true) : atsInvalidation pasid va bytes s = s := if_pos busy

theorem atsInvalidation_done (idle : translatedInFlight s pasid (va, bytes) = false) : atsInvalidation pasid va bytes s =
    { invalidate pasid va bytes s with
      hostPages := s.hostPages.filter (fun p => !(p.pasid == pasid && overlaps (p.va, p.size) (va, bytes))) } :=
  if_neg (Bool.eq_false_iff.mp idle)

theorem invalidate_gone (held : e ∈ (invalidate pasid va bytes s).tlbs) (own : e.2.pasid = pasid) :
    overlaps (e.2.va, e.2.size) (va, bytes) = false := by
  obtain ⟨-, apart⟩ := mem_invalidate.mp held
  exact Bool.eq_false_iff.mpr fun meets => apart ⟨own, meets⟩

theorem invalidate_kept (held : e ∈ s.tlbs) (other : e.2.pasid ≠ pasid) : e ∈ (invalidate pasid va bytes s).tlbs :=
  mem_invalidate.mpr ⟨held, fun ⟨own, _⟩ => other own⟩

end

/-! ### The events -/

section
variable {s : State}

theorem exec_translationRefill {l : Layer} {pasid va : Nat} (subject : s.subj = .refill l pasid va) (powered : s.powered = true) :
    exec .translationRefill s = .next (translationRefill l pasid va s) := by
  change execTranslationRefill s = _
  simp only [execTranslationRefill, subject, powered, if_true]

theorem exec_priResponse {pasid va : Nat} {page : Option (Nat × Nat × Nat × Bool × Bool)} (subject : s.subj = .hostPage pasid va page)
    (powered : s.powered = true) : exec .priResponse s = .next (priResponse pasid va page s) := by
  change execPriResponse s = _
  simp only [execPriResponse, subject, powered, if_true]

theorem exec_osPageResponse {pasid va root : Nat} {writes : List (Nat × W64)} {ok : Bool} (subject : s.subj = .osPage pasid va root writes ok)
    (powered : s.powered = true) : exec .osPageResponse s = .next (osPageResponse pasid va root writes ok s) := by
  change execOsPageResponse s = _
  simp only [execOsPageResponse, subject, powered, if_true]

theorem exec_atsInvalidation {pasid va bytes : Nat} (subject : s.subj = .pages pasid va bytes) (powered : s.powered = true) :
    exec .atsInvalidation s = .next (atsInvalidation pasid va bytes s) := by
  change execAtsInvalidation s = _
  simp only [execAtsInvalidation, subject, powered, if_true]

end

/-- Settles O48. -/
theorem translationEvents : Obligations.TranslationEvents := by
  refine ⟨?refill, ?put, ?host, ?os, ?invalidate⟩
  case refill =>
    intro s l pasid va e subject powered caches unheld within device mapped
    rw [exec_translationRefill subject powered, translationRefill_walked caches unheld within device mapped]
  case put =>
    exact fun s l e => ⟨mem_insertTlb_self, fun n entries positive => insertTlb_length entries positive,
      fun x held elsewhere => mem_insertTlb_of_ne held elsewhere⟩
  case host =>
    intro s pasid va l host powered asked
    refine ⟨fun subject => ?_, fun base size pa r w subject allowed => ?_⟩
    · rw [exec_priResponse subject powered, priResponse_failed host asked]
      exact ⟨_, rfl, answerPage_answered, answerPage_failed asked, rfl⟩
    · rw [exec_priResponse subject powered, priResponse_mapped host asked allowed]
      exact ⟨_, rfl, answerPage_answered, rfl, List.mem_cons_self⟩
  case os =>
    intro s pasid va root writes l device powered asked
    refine ⟨fun subject => ?_, fun subject => ?_⟩
    · rw [exec_osPageResponse subject powered, osPageResponse_installed device asked]
    · rw [exec_osPageResponse subject powered, osPageResponse_failed device asked]
  case invalidate =>
    intro s pasid va bytes subject powered
    refine ⟨fun busy => ?_, fun idle => ?_⟩
    · rw [exec_atsInvalidation subject powered, atsInvalidation_waits busy]
    · rw [exec_atsInvalidation subject powered, atsInvalidation_done idle]
      exact ⟨_, rfl, fun e held own => invalidate_gone held own, fun e held other => invalidate_kept held other, rfl, rfl⟩

end Sys2Proof.Machine

/-! PROOFS. What lighters do with the records of the channels at their ports (R275, R276, R295, R339). -/

namespace Sys2Proof.Machine

/-! ### The events -/

section
variable {s : State}

theorem exec_transferRequestRecord {t c : Nat} (subject : s.subj = .chan t c) :
    exec .transferRequestRecord s = .next (transferRequestRecord t c s) := by
  change execTransferRequestRecord s = _
  simp only [execTransferRequestRecord, subject]

theorem exec_accumulateStreamRecord {t c : Nat} (subject : s.subj = .chan t c) :
    exec .accumulateStreamRecord s = .next (accumulateStreamRecord t c s) := by
  change execAccumulateStreamRecord s = _
  simp only [execAccumulateStreamRecord, subject]

end

/-! ### Requests from a channel (R276) -/

theorem buf_cons_of_head {ch : ChanRt} {x : Rec} (head : ch.buf.head? = some x) : ∃ rest, ch.buf = x :: rest :=
  List.head?_eq_some_iff.mp head

theorem token_or_null_iff {x : Rec} : (isToken x || rType x == tNull) = true ↔ isToken x = true ∨ rType x = tNull := by
  rw [Bool.or_eq_true, beq_iff_eq]

/-- Unit `k` of a record's payload. -/
def recordUnit (x : Rec) (k : Nat) : W64 := x.units[k]?.getD 0

/-- The request that record `x` of a channel with producer `node` makes. -/
def recordRequest (x : Rec) (t node : Nat) : LReq := LReq.ofUnits 0 t node (recordUnit x 0) (recordUnit x 1) (recordUnit x 2) (recordUnit x 3)

/-- Record `x` is a sound request at port `port` of a lighter (R275, R276). -/
def soundRequest (x : Rec) (tn : Tenure) (t node port : Nat) : Prop :=
  rType x = tXfer ∧ hCarg x.hdr = port ∧ (recordRequest x t node).tk = false ∧ (recordRequest x t node).malformed tn = false

theorem unsoundRequest_iff {x : Rec} {tn : Tenure} {t node port : Nat} : (rType x != tXfer || hCarg x.hdr != port || (recordRequest x t node).tk ||
    (recordRequest x t node).malformed tn) = true ↔ ¬ soundRequest x tn t node port := by
  simp only [soundRequest, Bool.or_eq_true, bne_iff_ne, ← Bool.not_eq_true]
  tauto

section
variable {s : State} {t c port : Nat} {tn : Tenure} {ch : ChanRt} {x : Rec} (at_ : portHead s t c tn ch (.xfer port) x)
include at_

theorem transferRequestRecord_eq : transferRequestRecord t c s =
    if isToken x || rType x == tNull then popHead s t c
    else if rType x != tXfer || hCarg x.hdr != port || (recordRequest x t ch.e.src).tk || (recordRequest x t ch.e.src).malformed tn then
      engineFault (popHead s t c) t cXferRequest 6 ch.e.src (s.lighterOf tn ch.e.src port) (recordUnit x 0)
    else if !lighterRoom s (s.lighterOf tn ch.e.src port) then s
    else injectReq (popHead s t c) t ch.e.src (s.lighterOf tn ch.e.src port) (recordUnit x 0) (recordUnit x 1) (recordUnit x 2)
      (recordUnit x 3) := by
  obtain ⟨-, tenure, channel, bound, head, inner, moves⟩ := at_
  obtain ⟨rest, buf⟩ := buf_cons_of_head head
  simp only [transferRequestRecord, tenure, channel, bound, buf, inner, moves, bne_self_eq_false, Bool.not_true, Bool.or_self,
    Bool.false_eq_true, if_false, recordRequest, recordUnit] <;> rfl

theorem transferRequestRecord_passes (idle : isToken x = true ∨ rType x = tNull) : transferRequestRecord t c s = popHead s t c := by
  rw [transferRequestRecord_eq at_, if_pos (token_or_null_iff.mpr idle)]

theorem transferRequestRecord_injects (plain : isToken x = false) (sound : soundRequest x tn t ch.e.src port)
    (room : lighterRoom s (s.lighterOf tn ch.e.src port) = true) : transferRequestRecord t c s =
    injectReq (popHead s t c) t ch.e.src (s.lighterOf tn ch.e.src port) (recordUnit x 0) (recordUnit x 1) (recordUnit x 2) (recordUnit x 3) := by
  have busy : ¬ (isToken x || rType x == tNull) = true := by
    rw [plain, sound.1]
    decide
  have held : ¬ (!lighterRoom s (s.lighterOf tn ch.e.src port)) = true := by simp only [room, Bool.not_true, Bool.false_eq_true, not_false_iff]
  rw [transferRequestRecord_eq at_, if_neg busy, if_neg fun unsound => unsoundRequest_iff.mp unsound sound, if_neg held]

theorem transferRequestRecord_faults (plain : isToken x = false) (notNull : rType x ≠ tNull)
    (unsound : ¬ soundRequest x tn t ch.e.src port) : transferRequestRecord t c s =
    engineFault (popHead s t c) t cXferRequest 6 ch.e.src (s.lighterOf tn ch.e.src port) (recordUnit x 0) := by
  have busy : ¬ (isToken x || rType x == tNull) = true := fun idle =>
    (token_or_null_iff.mp idle).elim (fun token => Bool.false_ne_true (plain.symm.trans token)) notNull
  rw [transferRequestRecord_eq at_, if_neg busy, if_pos (unsoundRequest_iff.mpr unsound)]

end

/-! ### Accumulate streams (R295, R339) -/

/-- The state when an accumulate stream has halted at a record (R295). -/
def streamHalted (s : State) (t c : Nat) : State :=
  (popHead s t c).modTenure t (fun y => { y with haltedStreams := c :: y.haltedStreams })

/-- What a record of an accumulate stream comes to, once its elements have been accumulated as far as translations reach. -/
def streamOutcome (s : State) (t lt : Nat) (tn : Tenure) (x : Rec) : Except (Option Nat) State → State
  | .ok s1 => recAhead s1 t ((List.range (s1.nextMsg - s.nextMsg)).map (s.nextMsg + ·)) x
  | .error none => s
  | .error (some a) => askPage s (.accs lt t) tn.pasid a

section
variable {s : State} {t c port wid : Nat} {tn : Tenure} {ch : ChanRt} {x : Rec} (at_ : portHead s t c tn ch (.accs port wid) x)
  (flows : tn.haltedStreams.contains c = false)
include at_ flows

theorem accumulateStreamRecord_stern (stern : rType x = tStern) :
    accumulateStreamRecord t c s = flushLighter (popHead s t c) t (s.lighterOf tn ch.e.src port) := by
  obtain ⟨-, tenure, channel, bound, head, inner, moves⟩ := at_
  obtain ⟨rest, buf⟩ := buf_cons_of_head head
  simp only [accumulateStreamRecord, tenure, channel, bound, buf, inner, moves, flows, stern, bne_self_eq_false, Bool.not_true, Bool.or_self,
    Bool.false_eq_true, if_false, beq_self_eq_true, if_true]

theorem accumulateStreamRecord_passes (notStern : rType x ≠ tStern) (idle : isToken x = true ∨ rType x = tNull) :
    accumulateStreamRecord t c s = popHead s t c := by
  obtain ⟨-, tenure, channel, bound, head, inner, moves⟩ := at_
  obtain ⟨rest, buf⟩ := buf_cons_of_head head
  simp only [accumulateStreamRecord, tenure, channel, bound, buf, inner, moves, flows, bne_self_eq_false, Bool.not_true, Bool.or_self,
    Bool.false_eq_true, if_false, beq_eq_false_iff_ne.mpr notStern, token_or_null_iff.mpr idle, if_true]

section
variable {va : W64} {us : List W64} {f : EFmt} {w : WinE} (plain : isToken x = false) (data : rType x = tData) (units : x.units = va :: us)
  (format : accFmt? (hFmt x.hdr) = some f) (window : tn.win? wid = some w) (within : canonical va.toNat = true)
include plain data units format window within

theorem accumulateStreamRecord_halts (off : va.toNat % 16 ≠ 0 ∨ winIndex? (tn.wbaseOf w) w.count va.toNat = none) :
    accumulateStreamRecord t c s =
      engineFault (streamHalted s t c) t cAccRange 6 ch.e.src (s.lighterOf tn ch.e.src port) (accArg wid va.toNat) := by
  obtain ⟨-, tenure, channel, bound, head, inner, moves⟩ := at_
  obtain ⟨rest, buf⟩ := buf_cons_of_head head
  have notStern : (tData == tStern) = false := by decide
  have notNull : (tData == tNull) = false := by decide
  simp only [accumulateStreamRecord, tenure, channel, bound, buf, inner, moves, flows, plain, data, units, format, window, within, notStern,
    notNull, bne_self_eq_false, Bool.not_true, Bool.or_self, Bool.false_eq_true, if_false, List.headD_cons, List.isEmpty_cons]
  by_cases aligned : va.toNat % 16 = 0
  · have outside := off.resolve_left fun unaligned => unaligned aligned
    simp only [aligned, ne_eq, not_true, if_false, outside, streamHalted]
  · simp only [ne_eq, aligned, not_false_iff, if_true, streamHalted]

theorem accumulateStreamRecord_streams {i : Nat} (aligned : va.toNat % 16 = 0) (inside : winIndex? (tn.wbaseOf w) w.count va.toNat = some i) :
    accumulateStreamRecord t c s = streamOutcome s t (s.lighterOf tn ch.e.src port) tn x
      (streamElems (popHead s t c) t c ch.e.src (s.lighterOf tn ch.e.src port) tn w f i (elemsOf f.width us)) := by
  obtain ⟨-, tenure, channel, bound, head, inner, moves⟩ := at_
  obtain ⟨rest, buf⟩ := buf_cons_of_head head
  have notStern : (tData == tStern) = false := by decide
  have notNull : (tData == tNull) = false := by decide
  simp only [accumulateStreamRecord, tenure, channel, bound, buf, inner, moves, flows, plain, data, units, format, window, within, notStern,
    notNull, aligned, inside, bne_self_eq_false, Bool.not_true, Bool.or_self, Bool.false_eq_true, if_false, List.headD_cons,
    List.isEmpty_cons, List.tail_cons, ne_eq, not_true] <;> rfl

end
end

theorem streamElems_cons {s : State} {t c node lt i x va : Nat} {xs : List Nat} {tn : Tenure} {w : WinE} {f : EFmt} {pa : Option Nat}
    (goes : streamWord s t tn lt w i = .go va pa) : streamElems s t c node lt tn w f i (x :: xs) =
      streamElems (lighterAcc s t node lt tn w va pa (accPartial w.e0 (f.decode x))) t c node lt tn w f (i + 1) xs := by
  rw [streamElems, goes]

theorem lighterRecords_holds : lighterRecords := by
  refine ⟨?requests, ?streams, fun s t c node lt i x xs tn w f va pa => streamElems_cons⟩
  case requests =>
    intro s t c port tn ch x at_ lt u q
    rw [exec_transferRequestRecord at_.1]
    refine ⟨fun idle => ?_, fun plain kind carg counted formed room => ?_, fun plain notNull unsound => ?_⟩
    · rw [transferRequestRecord_passes at_ idle]
    · rw [transferRequestRecord_injects at_ plain ⟨kind, carg, counted, formed⟩ room]
      rfl
    · rw [transferRequestRecord_faults at_ plain notNull]
      · rfl
      · rintro ⟨kind, carg, counted, formed⟩
        obtain other | other | other | other := unsound
        · exact other kind
        · exact other carg
        · exact Bool.false_ne_true (counted.symm.trans other)
        · exact Bool.false_ne_true (formed.symm.trans other)
  case streams =>
    intro s t c port wid tn ch x at_ flows lt halted
    rw [exec_accumulateStreamRecord at_.1]
    refine ⟨fun stern => ?_, fun notStern idle => ?_, fun plain data va us f w units format window within =>
      ⟨fun i aligned inside => ?_, fun off => ?_⟩⟩
    · rw [accumulateStreamRecord_stern at_ flows stern]
    · rw [accumulateStreamRecord_passes at_ flows notStern idle]
    · dsimp only
      rw [accumulateStreamRecord_streams at_ flows plain data units format window within aligned inside]
      refine ⟨fun s1 run => ?_, fun run => ?_, fun a run => ?_⟩ <;>
      · rw [run]
        rfl
    · rw [accumulateStreamRecord_halts at_ flows plain data units format window within off]
      rfl

end Sys2Proof.Machine

/-! PROOFS. How lighters perform requests: their bursts, the reads and the blocks of these, and their ends (R274, R277, R278, R280, R337, R339,
R344, R346, R380, R396). -/

namespace Sys2Proof.Machine

/-! ### The events -/

section
variable {s : State}

theorem exec_lighterStart {lt k : Nat} (subject : s.subj = .request lt k) : exec .lighterRequest s = .next (startReq s lt k) := by
  change execLighterRequest s = _
  simp only [execLighterRequest, subject]

theorem exec_lighterBurst {lt k blk : Nat} {ue : Bool} (subject : s.subj = .burst lt k blk ue) :
    exec .lighterRequest s = .next (lighterBurst lt k blk ue s) := by
  change execLighterRequest s = _
  simp only [execLighterRequest, subject]

theorem exec_lighterComplete {lt k : Nat} (subject : s.subj = .request lt k) : exec .lighterComplete s = .next (lighterComplete lt k s) := by
  change execLighterComplete s = _
  simp only [execLighterComplete, subject]

end

/-! ### Blocks (R277, R344, R346) -/

theorem blockAddr_blockOf {a : Int} (low : 0 ≤ a) (high : a < 2 ^ 57) : blockAddr (blockOf a) = 64 * (a / 64) := by
  have number : ((blockOf a : Nat) : Int) = a / 64 := by
    unfold blockOf
    omega
  have within : blockOf a < 2 ^ 57 := by omega
  rw [blockAddr, if_pos within, number]

section
variable {q : LReq} {tn : Tenure} {b : Nat} {p : Piece}

/-- Where the part of row `r` in block `b` begins. -/
def LReq.pieceLow (q : LReq) (b r : Nat) : Int := max (q.dstRow r) (blockAddr b)

/-- Where the part of row `r` in block `b` ends. -/
def LReq.pieceHigh (q : LReq) (tn : Tenure) (b r : Nat) : Int := min (q.dstRow r + q.dstBytes tn) (blockAddr b + 64)

/-- The piece of row `r` in block `b`, where the row touches the block. -/
def LReq.rowPiece (q : LReq) (tn : Tenure) (b r : Nat) : Piece :=
  { row := r, off := (q.pieceLow b r - q.dstRow r).toNat, at_ := (q.pieceLow b r - blockAddr b).toNat,
    len := (q.pieceHigh tn b r - q.pieceLow b r).toNat }

theorem mem_pieces : p ∈ q.pieces tn b ↔ ∃ r, r < q.rows ∧ q.pieceLow b r < q.pieceHigh tn b r ∧ q.rowPiece tn b r = p := by
  simp only [LReq.pieces, List.mem_filterMap, List.mem_range, Option.ite_none_right_eq_some, Option.some.injEq]
  rfl

theorem pieces_bounds (mem : p ∈ q.pieces tn b) : p.row < q.rows ∧ 0 < p.len ∧ p.at_ + p.len ≤ 64 ∧
    p.off + p.len ≤ q.dstBytes tn ∧ q.dstRow p.row + (p.off : Int) = blockAddr b + (p.at_ : Int) := by
  obtain ⟨r, row, meets, rfl⟩ := mem_pieces.mp mem
  dsimp only [LReq.rowPiece, LReq.pieceLow, LReq.pieceHigh] at meets ⊢
  refine ⟨row, ?_⟩
  omega

theorem pieces_cover {r j : Nat} (row : r < q.rows) (byte : j < q.dstBytes tn) (low : 0 ≤ q.dstRow r + (j : Int))
    (high : q.dstRow r + (j : Int) < 2 ^ 57) :
    ∃ p ∈ q.pieces tn (blockOf (q.dstRow r + (j : Int))), p.row = r ∧ p.off ≤ j ∧ j < p.off + p.len := by
  have base := blockAddr_blockOf low high
  refine ⟨q.rowPiece tn (blockOf (q.dstRow r + (j : Int))) r, mem_pieces.mpr ⟨r, row, ?_, rfl⟩, rfl, ?_⟩
  · dsimp only [LReq.pieceLow, LReq.pieceHigh]
    omega
  · dsimp only [LReq.rowPiece, LReq.pieceLow, LReq.pieceHigh]
    omega

end

/-! ### Reads (R274, R277, R339, R380, R396) -/

theorem nextRead_bounds {src : List (Int × Nat)} {got n : Nat} {va : Int} (next : nextRead src got = some (va, n)) :
    0 < n ∧ (va % 64).toNat + n ≤ 64 ∧ ∃ e ∈ src, e.1 ≤ va ∧ va + (n : Int) ≤ e.1 + (e.2 : Int) := by
  induction src generalizing got with
  | nil => cases next
  | cons e rest ih =>
    obtain ⟨start, len⟩ := e
    simp only [nextRead] at next
    split at next
    case isTrue read =>
      obtain ⟨positive, within, e, mem, inside⟩ := ih next
      exact ⟨positive, within, e, List.mem_cons_of_mem _ mem, inside⟩
    case isFalse unread =>
      simp only [Option.some.injEq, Prod.mk.injEq] at next
      obtain ⟨rfl, rfl⟩ := next
      refine ⟨by omega, by omega, (start, len), List.mem_cons_self, ?_⟩
      dsimp only
      omega

section
variable {s : State} {tn : Tenure} {lt key fuel : Nat} {src : List (Int × Nat)} {ue : Bool} {q : LReq}

/-- The next read of a request's source, where the request goes on and nothing is to come before it (R339). -/
def nextGather (s : State) (q : LReq) (key : Nat) (src : List (Int × Nat)) : Option (Int × Nat) :=
  if q.stopped || q.lost.contains key || fencedOut s q.t none q.id then none else nextRead src (q.part key).length

section
variable (held : req? s lt q.id = some q)
include held

theorem gather_rests (rests : nextGather s q key src = none) : gather tn lt q.id key src ue (fuel + 1) s = s := by
  unfold nextGather at rests
  simp only [gather, held, rests]

end

variable {va : Int} {n : Nat} (held : req? s lt q.id = some q) (next : nextGather s q key src = some (va, n))
include held next

theorem gather_faults {code : Nat} {arg : W64} (access : lighterAccess s lt q.id tn.pasid false va = .fault code arg) :
    gather tn lt q.id key src ue (fuel + 1) s = stopReq s lt q.id code arg := by
  unfold nextGather at next
  simp only [gather, held, next, access]

variable {pa : Phys} (access : lighterAccess s lt q.id tn.pasid false va = .ok pa)
include access

theorem gather_loses (lost : pairLost s (lt / 12) (unitDie (physUnit pa)) = true) :
    gather tn lt q.id key src ue (fuel + 1) s = loseRead s q.t lt q.id key (unitDie (physUnit pa)) := by
  unfold nextGather at next
  simp only [gather, held, next, access, lost, if_true]

variable (live : pairLost s (lt / 12) (unitDie (physUnit pa)) = false)
include live

theorem gather_uncorrectable :
    gather tn lt q.id key src true (fuel + 1) s = stopReq s lt q.id cMemoryUe (BitVec.ofInt 64 va) := by
  unfold nextGather at next
  simp only [gather, held, next, access, live, Bool.false_eq_true, if_false, if_true]

theorem gather_reads (unwatched : tn.watchHit 4 va.toNat n = none) :
    gather tn lt q.id key src false (fuel + 1) s = gather tn lt q.id key src false fuel
      (modReq s lt q.id (fun r => { r with parts := r.parts.set key (r.part key ++ memRead s q.t va.toNat pa n) })) := by
  unfold nextGather at next
  simp only [gather, held, next, access, live, unwatched, Bool.false_eq_true, if_false]

end

/-! ### Starts and bursts (R277, R278) -/

section
variable {s : State} {lt : Nat} {q : LReq}

section
variable (held : req? s lt q.id = some q)
include held

theorem startReq_waits (unready : mayStart s lt q.id = false) : startReq s lt q.id = s := by
  simp only [startReq, held, unready, Bool.not_false, Bool.or_true, if_true]

theorem startReq_starts (idle : q.started = false) (ready : mayStart s lt q.id = true) : startReq s lt q.id =
    let s1 := modReq s lt q.id (fun r => { r with started := true })
    { s1 with lighters := s1.lighters.modify lt (fun l => { l with lastTenure := q.t }) } := by
  simp only [startReq, held, idle, ready, Bool.not_true, Bool.or_self, Bool.false_eq_true, if_false]

theorem startReq_started (started : q.started = true) : startReq s lt q.id = s := by
  simp only [startReq, held, started, Bool.true_or, if_true]

end

theorem started_of_mayBurst {blk : Nat} (may : q.mayBurst blk = true) : q.started = true := by
  simp only [LReq.mayBurst, Bool.and_eq_true] at may
  tauto

section
variable {tn : Tenure} {blk : Nat} {ue : Bool} {p : Piece} {ps : List Piece} (held : heldReq s lt q tn) (may : q.mayBurst blk = true)
  (pieces : q.pieces tn blk = p :: ps)
include held may pieces

theorem lighterBurst_faults {code : Nat} {arg : W64}
    (access : lighterAccess s lt q.id tn.pasid true (blockAddr blk + (p.at_ : Int)) = .fault code arg) :
    lighterBurst lt q.id blk ue s = stopReq s lt q.id code arg := by
  obtain ⟨request, tenure, moves⟩ := held
  simp only [lighterBurst, startReq_started request (started_of_mayBurst may), request, tenure, moves, may, pieces, access, Bool.not_true,
    Bool.or_self, Bool.false_eq_true, if_false]

theorem lighterBurst_goes {pa : Phys} (access : lighterAccess s lt q.id tn.pasid true (blockAddr blk + (p.at_ : Int)) = .ok pa) :
    lighterBurst lt q.id blk ue s = burstOut s tn q lt blk (p :: ps) (pa.back p.at_) ue := by
  obtain ⟨request, tenure, moves⟩ := held
  simp only [lighterBurst, startReq_started request (started_of_mayBurst may), request, tenure, moves, may, pieces, access, Bool.not_true,
    Bool.or_self, Bool.false_eq_true, if_false]

end

section
variable {tn : Tenure} {blk : Nat} {ue : Bool} {ps : List Piece} {pa : Phys} {q1 : LReq} (plain : q.xfen = false)
  (after : req? (gatherAll s tn lt q.id blk (pieceSource q ps) ue) lt q.id = some q1)
include plain after

theorem burstOut_sends (runs : q1.stopped = false) (whole : (q1.part blk).length = srcLen (pieceSource q ps)) :
    burstOut s tn q lt blk ps pa ue =
      sendBlock (gatherAll s tn lt q.id blk (pieceSource q ps) ue) q1 lt blk (blockAddr blk).toNat (cutPieces ps (q1.part blk)) pa := by
  unfold pieceSource at after whole ⊢
  simp only [burstOut, plain, after, runs, whole, bne_self_eq_false, Bool.or_self, Bool.false_eq_true, if_false]

theorem burstOut_waits (short : q1.stopped = true ∨ (q1.part blk).length ≠ srcLen (pieceSource q ps)) :
    burstOut s tn q lt blk ps pa ue = gatherAll s tn lt q.id blk (pieceSource q ps) ue := by
  have rests : (q1.stopped || (q1.part blk).length != srcLen (pieceSource q ps)) = true := by
    rw [Bool.or_eq_true, bne_iff_ne]
    exact short
  unfold pieceSource at after rests ⊢
  simp only [burstOut, plain, after, rests, Bool.false_eq_true, if_false, if_true]

end
end

/-! ### Completion (R277, R280, R337) -/

theorem payloadDone_blocks {s : State} {tn : Tenure} {q : LReq} (done : payloadDone s tn q = true) :
    q.out = [] ∧ ∀ r, r < q.rows → ∀ b ∈ q.rowBlocks tn r, b ∈ q.done := by
  simp only [payloadDone, Bool.and_eq_true, List.isEmpty_iff, List.all_eq_true, List.mem_range, List.contains_iff_mem] at done
  exact done.1

/-- The lighters once a request has ended: it has left its own. -/
theorem finishReq_lighters {s : State} {lt : Nat} {q : LReq} : (finishReq s lt q).lighters =
    s.lighters.modify lt (fun l => { l with reqs := l.reqs.filter (fun r => r.id != q.id) }) := by
  unfold finishReq
  cases q.tk <;> rfl

theorem finishReq_gone {s : State} {lt : Nat} {q : LReq} : req? (finishReq s lt q) lt q.id = none := by
  rw [req?, finishReq_lighters, Map.get?_modify_self]
  cases s.lighters.get? lt with
  | none => rfl
  | some l =>
    refine List.find?_eq_none.mpr fun r mem => ?_
    rw [beq_iff_eq]
    exact bne_iff_ne.mp (List.mem_filter.mp mem).2

section
variable {s : State} {lt : Nat} {q : LReq} {tn : Tenure} (request : req? s lt q.id = some q) (tenure : s.tenures.get? q.t = some tn)
  (started : q.started = true) (landed : q.out = [])
include request tenure started landed

theorem lighterComplete_stopped (stopped : q.stopped = true) : lighterComplete lt q.id s = finishReq s lt q := by
  simp only [lighterComplete, request, tenure, started, landed, stopped, List.isEmpty_nil, Bool.not_true, Bool.or_self, Bool.false_eq_true,
    if_false, if_true]

variable (runs : q.stopped = false)
include runs

theorem lighterComplete_unfinished (payload : payloadDone s tn q = false) : lighterComplete lt q.id s = s := by
  simp only [lighterComplete, request, tenure, started, landed, runs, payload, List.isEmpty_nil, Bool.not_true, Bool.not_false, Bool.true_or,
    Bool.or_self, Bool.false_eq_true, if_false, if_true]

variable (payload : payloadDone s tn q = true) (moves : partsMove s q.t = true)
include payload moves

/-- A request whose payload is performed goes on to its completion word, or to its end. -/
theorem lighterComplete_performed : lighterComplete lt q.id s =
    if q.cwen && !q.done.contains cwBurst then
      if isDevice ((q.dst : Int) + q.cwoff).toNat && reqPortOut s lt q.id then s else sendCompletion s tn q lt
    else if !q.tk && reqPortOut s lt q.id then s else finishReq s lt q := by
  simp only [lighterComplete, request, tenure, started, landed, runs, payload, moves, List.isEmpty_nil, Bool.not_true, Bool.or_self,
    Bool.false_eq_true, if_false]

section
variable (word : q.cwen = true) (unwritten : q.done.contains cwBurst = false)
include word unwritten

theorem lighterComplete_wordWaits (device : isDevice ((q.dst : Int) + q.cwoff).toNat = true) (out : reqPortOut s lt q.id = true) :
    lighterComplete lt q.id s = s := by
  simp only [lighterComplete_performed request tenure started landed runs payload moves, word, unwritten, device, out, Bool.not_false,
    Bool.and_self, if_true]

theorem lighterComplete_word {pa : Phys}
    (performed : isDevice ((q.dst : Int) + q.cwoff).toNat = true → reqPortOut s lt q.id = false)
    (access : lighterAccess s lt q.id tn.pasid true ((q.dst : Int) + q.cwoff) = .ok pa) : lighterComplete lt q.id s =
      sendBlock s q lt cwBurst ((q.dst : Int) + q.cwoff).toNat [(0, leBytes q.cval 8)] pa := by
  have free : (isDevice ((q.dst : Int) + q.cwoff).toNat && reqPortOut s lt q.id) = false := Bool.and_eq_false_imp.mpr performed
  simp only [lighterComplete_performed request tenure started landed runs payload moves, word, unwritten, free, sendCompletion, access,
    Bool.not_false, Bool.and_self, Bool.false_eq_true, if_false, if_true]

end

variable (written : q.cwen = false ∨ q.done.contains cwBurst = true)
include written

theorem lighterComplete_written :
    lighterComplete lt q.id s = if !q.tk && reqPortOut s lt q.id then s else finishReq s lt q := by
  rw [lighterComplete_performed request tenure started landed runs payload moves, if_neg]
  obtain off | done := written
  · simp only [off, Bool.false_and, Bool.false_eq_true, not_false_iff]
  · simp only [done, Bool.not_true, Bool.and_false, Bool.false_eq_true, not_false_iff]

theorem lighterComplete_ends (performed : q.tk = true ∨ reqPortOut s lt q.id = false) : lighterComplete lt q.id s = finishReq s lt q := by
  rw [lighterComplete_written request tenure started landed runs payload moves written, if_neg]
  obtain counted | free := performed
  · simp only [counted, Bool.not_true, Bool.false_and, Bool.false_eq_true, not_false_iff]
  · simp only [free, Bool.and_false, Bool.false_eq_true, not_false_iff]

theorem lighterComplete_endWaits (uncounted : q.tk = false) (out : reqPortOut s lt q.id = true) : lighterComplete lt q.id s = s := by
  simp only [lighterComplete_written request tenure started landed runs payload moves written, uncounted, out, Bool.not_false,
    Bool.and_self, if_true]

end

theorem lighterRequests_holds : lighterRequests := by
  refine ⟨?starts, ?bursts, ?gathers, fun src got n va => nextRead_bounds, fun q tn b p => pieces_bounds, fun q tn r j => pieces_cover,
    ?completes, fun s tn q => payloadDone_blocks, fun s lt q => finishReq_gone⟩
  case starts =>
    intro s lt q subject request idle
    rw [exec_lighterStart subject]
    exact ⟨fun ready => congrArg _ (startReq_starts request idle ready), fun unready => congrArg _ (startReq_waits request unready)⟩
  case bursts =>
    intro s lt blk ue q tn p ps subject held may plain pieces
    rw [exec_lighterBurst subject]
    refine ⟨fun pa access q1 after => ?_, fun code arg access => congrArg _ (lighterBurst_faults held may pieces access)⟩
    rw [lighterBurst_goes held may pieces access]
    exact ⟨fun runs whole => congrArg _ (burstOut_sends plain after runs whole),
      fun short => congrArg _ (burstOut_waits plain after short)⟩
  case gathers =>
    intro s tn lt key n fuel src va q request runs kept next
    have going (ordered : fencedOut s q.t none q.id = false) : nextGather s q key src = some (va, n) := by
      simp only [nextGather, runs, kept, ordered, next, Bool.or_self, Bool.false_eq_true, if_false]
    refine ⟨fun ue behind => gather_rests request ?_, fun pa ue ordered access lost => gather_loses request (going ordered) access lost,
      fun pa ordered access live => ⟨fun unwatched => gather_reads request (going ordered) access live unwatched,
        gather_uncorrectable request (going ordered) access live⟩,
      fun code arg ue ordered access => gather_faults request (going ordered) access⟩
    simp only [nextGather, behind, Bool.or_true, if_true]
  case completes =>
    intro s lt q tn subject request tenure started landed
    rw [exec_lighterComplete subject]
    refine ⟨fun stopped => congrArg _ (lighterComplete_stopped request tenure started landed stopped), fun runs payload moves => ?_,
      fun runs payload => congrArg _ (lighterComplete_unfinished request tenure started landed runs payload)⟩
    refine ⟨fun word unwritten device out => ?_, fun pa word unwritten performed access => ?_, fun written =>
      ⟨fun performed => ?_, fun uncounted out => ?_⟩⟩
    · exact congrArg _ (lighterComplete_wordWaits request tenure started landed runs payload moves word unwritten device out)
    · exact congrArg _ (lighterComplete_word request tenure started landed runs payload moves word unwritten performed access)
    · exact congrArg _ (lighterComplete_ends request tenure started landed runs payload moves written performed)
    · exact congrArg _ (lighterComplete_endWaits request tenure started landed runs payload moves written uncounted out)

end Sys2Proof.Machine

/-! PROOFS. Two requests of one number in a transform: each of them takes the output under its own row (R275, R279). -/

namespace Sys2Proof.Machine

/-! ### A lighter that holds two requests of one number -/

/-- A request of number 3 whose data passes through transform 1: two rows of 32 bytes. -/
def rowReq : LReq := { LReq.ofUnits 3 1 0 0x4100000000010000 0x0300000000020000 0x10001F 0x20000020 with started := true }

/-- Its twin: it has the request's number, and stands at row 1. -/
def twinReq : LReq := { rowReq with row := 1 }

/-- A tenure with a transform from channel 0 to channel 1, whose rows come out as long as they go in. -/
def transformTenure : Tenure :=
  { bareTenure 0 [] with
    binds := [(0, .xf 1 1 1), (1, .xf 1 1 1)],
    g := { (bareTenure 0 []).g with chans := [plainChan extEnd 0 0 0, plainChan 0 0 extEnd 0] } }

/-- An output record of one unit. -/
def rowOutput : Rec := dataRec 0 0 0 [7]

/-- The output end of the transform, with the record. -/
def outputChan : ChanRt := { ChanRt.entry (plainChan 0 0 extEnd 0) with buf := [rowOutput] }

/-- The lighter holds both requests, and the output record stands at the end of the transform. -/
def twinS : State :=
  { State.reset with
    dawn := { State.reset.dawn with power := .on }, tenures := [(1, transformTenure)], nextTenure := 2, subj := .request 0 3
    chans := [(key2 1 0, ChanRt.entry (plainChan extEnd 0 0 0)), (key2 1 1, outputChan)]
    lighters := [(0, { LighterRt.empty with reqs := [rowReq, twinReq] })] }

/-- The output that each request of lighter 0 has got, by rows. -/
def rowsGot (s : State) : List (Map (List Byte)) := (s.lighter 0).reqs.map LReq.got

theorem twinS_heldReq : heldReq twinS 0 rowReq transformTenure := ⟨by decide +kernel, by decide +kernel, by decide +kernel⟩

/-- The model puts the output under the row of each request that has the number. -/
theorem twinS_rowsGot : rowsGot (transformRow 0 3 false twinS) = [[(0, [7, 0, 0, 0, 0, 0, 0, 0])], [(1, [7, 0, 0, 0, 0, 0, 0, 0])]] := by
  decide +kernel

/-- The state that the statement gives: the output is under the row of the first request, at both. -/
def twinTaken : State :=
  modReq (recAhead (popHead twinS 1 1) 1 [3] rowOutput) 0 3
    (fun y => { y with got := y.got.set rowReq.row (rowReq.got.getD rowReq.row [] ++ unitBytes rowOutput.units) })

theorem twinTaken_rowsGot : rowsGot twinTaken = [[(0, [7, 0, 0, 0, 0, 0, 0, 0])], [(0, [7, 0, 0, 0, 0, 0, 0, 0])]] := by decide +kernel

/-- Refutes O56, by the clause on the output record that belongs to the row in a transform: the statement writes the row of the request that
the lighter finds by its number into every request of that number, where the model writes each one's own row. The two differ in a state whose
lighter holds two requests of one number at different rows, which the statement does not leave out: it has no hypothesis that numbers are
distinct. (Numbers come from one counter, so requests that are injected have distinct ones. The clause on the piece of the source row that is
sent takes `q.sent` so too. The other two parts of the statement hold: `lighterRecords_holds`, `lighterRequests_holds`.) -/
theorem not_lighterEvents : ¬ Obligations.LighterEvents := by
  intro h
  obtain ⟨-, -, rows⟩ := h
  obtain ⟨-, goesOn⟩ := rows twinS 0 0 1 1 1 rowReq transformTenure outputChan rfl twinS_heldReq rfl rfl
    (by decide +kernel) (by decide +kernel) (by decide +kernel)
  obtain ⟨takes, -⟩ := goesOn (by decide)
  obtain ⟨-, payload⟩ := takes rowOutput [] rfl
  obtain ⟨belongs, -⟩ := payload (by decide +kernel) (by decide +kernel) (by decide +kernel)
  have stated : exec .transformRow twinS = .next twinTaken := belongs (by decide +kernel) (by decide +kernel)
  have same : transformRow 0 3 false twinS = twinTaken := Host.Outcome.next.inj stated
  have got := twinS_rowsGot
  rw [same, twinTaken_rowsGot] at got
  exact absurd got (by decide)

end Sys2Proof.Machine

/-! PROOFS. Traps taken and returned from (R375, R376, R378). -/

namespace Sys2Proof.Machine

/-! ### What a trap saves, and when the node halts instead (R375, R376) -/

/-- No handler takes the fault: none is enabled, one runs already, or the fault is TASK_HALT (R376). -/
theorem unhandled_iff {tk : TaskRt} {code : Nat} : (!(bitOf tk.tvec.toNat 15) || tk.tstat == 1 || code == cTaskHalt) = true ↔
    tk.tvec.getLsbD 15 = false ∨ tk.tstat = 1 ∨ code = 0x0209 := by
  have enabled : bitOf tk.tvec.toNat 15 = tk.tvec.getLsbD 15 := rfl
  simp only [enabled, cTaskHalt, Bool.or_eq_true, Bool.not_eq_true', beq_iff_eq, or_assoc]

theorem takeTrap_handled {s : State} {t n code : Nat} {tk : TaskRt} {arg : W64} {src : Int} (enabled : tk.tvec.getLsbD 15 = true)
    (outside : tk.tstat ≠ 1) (handled : code ≠ 0x0209) :
    takeTrap s t n tk code arg src = { s with tasks := s.tasks.set (key2 t n) { tk with
      st := .running, pc := ((tk.tvec.toNat % 4096 : Nat) : Int), tpc := BitVec.ofInt 16 tk.pc, tcause := BitVec.ofNat 16 code,
      targ := arg, tsrc := BitVec.ofInt 16 src, tstat := 1 } } := by
  refine if_neg fun stops => ?_
  obtain disabled | running | halt := unhandled_iff.mp stops
  · exact Bool.false_ne_true (disabled.symm.trans enabled)
  · exact outside running
  · exact handled halt

theorem takeTrap_unhandled {s : State} {t n code : Nat} {tk : TaskRt} {arg : W64} {src : Int}
    (stops : tk.tvec.getLsbD 15 = false ∨ tk.tstat = 1 ∨ code = 0x0209) :
    takeTrap s t n tk code arg src = reportFault (haltNode { s with tasks := s.tasks.set (key2 t n) tk } t n) t
      { code := code, src := 0, prec := true, nest := tk.tstat == 1, node := n, engine := 0xFF, pc := (tk.pc % 256).toNat, arg := arg } :=
  if_pos (unhandled_iff.mpr stops)

/-- Settles O24: the trap is taken by a handler, or by none. -/
theorem trapEntry : Obligations.TrapEntry := fun _ _ _ _ _ _ _ => ⟨takeTrap_handled, takeTrap_unhandled⟩

/-! ### The instructions (R376, R378) -/

/-- The word of `rte` (R136). -/
theorem instrWord_rte : (instrWord .rte).setWidth 64 = 0xF8000001#64 := by decide

section
variable {s : State} {c : TCtx}

theorem rte_returns (start : Starts .rte 1 s c) (handler : c.tk.tstat = 1) : exec .rte s = .next (completed s { c with
    tk := { c.tk with pc := (c.tk.tpc.toNat : Int), tstat := 0 }, next := (c.tk.tpc.toNat : Int) }) := by
  refine runTask_done start _ ?_
  rw [tm_bind_ok (getTk_run c), tm_bind_ok (raiseIf_pass (bne_eq_false_iff_eq.mpr handler) _ _ c), tm_bind_ok (modTk_run _ c)]
  rfl

theorem rte_outside (start : Starts .rte 1 s c) (outside : c.tk.tstat ≠ 1) :
    exec .rte s = .next (takeTrap s s.cur.1 s.cur.2 c.tk 0x0200 0xF8000001#64 c.tk.pc) := by
  refine runTask_trap start _ ?_
  rw [tm_bind_ok (getTk_run c), tm_bind_error (raiseIf_fail (bne_iff_ne.mpr outside) _ _ c), instrWord_rte]
  rfl

theorem trap_traps {a : Opnd} {c1 : TCtx} {x : W32} (start : Starts (.trap a) 1 s c) (ha : read32 a c = .ok (x, c1)) :
    exec (.trap a) s = .next (takeTrap s s.cur.1 s.cur.2 c.tk 0x0207 (x.setWidth 64) c.tk.pc) :=
  runTask_trap start _ (tm_bind_ok ha)

end

/-- Settles O25: `rte` by whether a handler runs, and every other instruction raises its fault. -/
theorem trapInstructions : Obligations.TrapInstructions :=
  ⟨fun _ _ => rte_returns, fun _ _ => rte_outside, fun _ _ _ _ _ => trap_traps, fun _ _ start => runTask_trap start _ rfl,
    fun _ _ start => runTask_trap start _ rfl, fun _ _ _ start => runTask_trap start _ rfl, fun _ _ _ start => runTask_trap start _ rfl⟩

end Sys2Proof.Machine

/-! PROOFS. Atomics leave the cell, and the words that they leave at their homes (R285, R286, R288). -/

namespace Sys2Proof.Machine

/-! ### What all atomics share (R286) -/

/-- The context in which the node counts one more acknowledgement that is due (R290). -/
def TCtx.updRaised (c : TCtx) : TCtx := { c with tk := { c.tk with updpend := c.tk.updpend + 1 } }

theorem takeUpd_ok {c : TCtx} (room : c.tk.updpend ≠ 255) : takeUpd c = .ok ((), c.updRaised) := by
  unfold takeUpd
  rw [tm_bind_ok (getTk_run c), tm_bind_ok (stallUnless_pass (bne_iff_ne.mpr room) c)]
  rfl

section
variable {op : AtomOp} {size : Nat} {dst : Option Opnd} {ord : Bool} {a b : Opnd} {c c1 c2 c3 : TCtx} {va : W64} {x e pa : Nat} {tn : Tenure}

theorem sendAtomic_ok (ready : atomicReady c tn size dst va pa) :
    sendAtomic op size dst ord va x e c = .ok ((), atomicSent c tn op size dst ord va pa x e) := by
  obtain ⟨tenure, within, aligned, translated, apart, free, room⟩ := ready
  unfold sendAtomic
  rw [tm_bind_ok (checkAddr_ok within aligned), tm_bind_ok translated, tm_bind_ok (getS_run c), tm_bind_ok (raiseIf_pass apart _ _ c)]
  cases dst with
  | none =>
    dsimp only
    rw [tm_bind_ok (takeUpd_ok (room rfl)), tm_bind_ok (getTk_run _), tm_bind_ok (taskSend_ok (c := c.updRaised) tenure)]
    rfl
  | some d =>
    dsimp only
    rw [tm_bind_ok (free d rfl).useReg, tm_bind_ok (getTk_run _), tm_bind_ok (taskSend_ok tenure)]
    rfl

theorem atomOperand_eq (b : Opnd) (c : TCtx) : atomOperand b true c = (read64 b c).map (fun r => (r.1.toNat, r.2)) ∧
    atomOperand b false c = (read32 b c).map (fun r => (r.1.toNat, r.2)) := by
  constructor
  · cases h : read64 b c with
    | ok r => exact tm_bind_ok h
    | error x => exact tm_bind_error h
  · cases h : read32 b c with
    | ok r => exact tm_bind_ok h
    | error x => exact tm_bind_error h

variable {dbl : Bool}

theorem bodyAtom_ok (ha : read64 a c = .ok (va, c1)) (hb : atomOperand b dbl c1 = .ok (x, c2))
    (ready : atomicReady c2 tn (if dbl then 8 else 4) dst va pa) :
    bodyAtom op dst a b ord dbl c = .ok ((), atomicSent c2 tn op (if dbl then 8 else 4) dst ord va pa x 0) := by
  unfold bodyAtom
  rw [tm_bind_ok ha, tm_bind_ok hb, sendAtomic_ok ready]

theorem bodyCas_ok {d : Opnd} (ha : read64 a c = .ok (va, c1)) (he : atomOperand b dbl c1 = .ok (e, c2))
    (hx : atomOperand (nextReg b) dbl c2 = .ok (x, c3)) (ready : atomicReady c3 tn (if dbl then 8 else 4) (some d) va pa) :
    bodyCas d a b ord dbl c = .ok ((), atomicSent c3 tn .cas (if dbl then 8 else 4) (some d) ord va pa x e) := by
  unfold bodyCas
  rw [tm_bind_ok ha, tm_bind_ok he, tm_bind_ok hx, sendAtomic_ok ready]

theorem bodyFadd_ok {y : W32} (ha : read64 a c = .ok (va, c1)) (hb : read32 b c1 = .ok (y, c2)) (ready : atomicReady c2 tn size dst va pa) :
    bodyFadd op size dst a b c = .ok ((), atomicSent c2 tn op size dst false va pa (y.toNat % 2 ^ (8 * size)) 0) := by
  unfold bodyFadd
  rw [tm_bind_ok ha, tm_bind_ok hb, sendAtomic_ok ready]

end

/-! ### They leave (R286, R288) -/

theorem atomicIssues_holds : atomicIssues := by
  refine ⟨?plain, ?fetch, ?cas, atomOperand_eq⟩
  case plain =>
    simp only [atomicRules, List.forall_mem_cons, List.not_mem_nil, false_implies, implies_true, and_true]
    refine ⟨?_, ?_, ?_, ?_, ?_, ?_, ?_, ?_⟩ <;>
      exact fun _ _ _ _ _ _ _ _ _ _ _ start ha hb ready => runTask_done start _ (bodyAtom_ok ha hb ready)
  case fetch =>
    simp only [atomicFetchRules, List.forall_mem_cons, List.not_mem_nil, false_implies, implies_true, and_true]
    refine ⟨?_, ?_, ?_, ?_, ?_, ?_, ?_, ?_, ?_⟩ <;>
      exact fun _ _ _ _ _ _ _ _ _ _ _ _ _ start ha hb ready => runTask_done start _ (bodyAtom_ok ha hb ready)
  case cas => exact fun _ _ _ _ _ _ _ _ _ _ _ _ _ _ _ start ha he hx ready => runTask_done start _ (bodyCas_ok ha he hx ready)

theorem floatAtomicIssues_holds : floatAtomicIssues := by
  simp only [floatAtomicIssues, List.forall_mem_cons, List.not_mem_nil, false_implies, implies_true, and_true]
  refine ⟨⟨?_, ?_⟩, ?_, ?_⟩
  · exact fun _ _ _ _ _ _ _ _ _ _ start ha hb ready => runTask_done start _ (bodyFadd_ok ha hb ready)
  · exact fun _ _ _ _ _ _ _ _ _ _ start ha hb ready => runTask_done start _ (bodyFadd_ok ha hb ready)
  · exact fun _ _ _ _ _ _ _ _ _ _ _ start ha hb ready => runTask_done start _ (bodyFadd_ok ha hb ready)
  · exact fun _ _ _ _ _ _ _ _ _ _ _ start ha hb ready => runTask_done start _ (bodyFadd_ok ha hb ready)

/-! ### The words at home (R286) -/

section
variable {size old x : Nat} (e : Nat) (hx : x < 2 ^ (8 * size))
include hx

/-- The signed minimum of two words is the lesser of their signed values. -/
theorem sextInt_atomNew_min : sextInt (atomNew .min size old x e).1 (8 * size) = min (sextInt old (8 * size)) (sextInt x (8 * size)) := by
  by_cases less : sextInt x (8 * size) < sextInt old (8 * size)
  · simp only [atomNew, if_pos less, Nat.mod_eq_of_lt hx, min_eq_right less.le]
  · simp only [atomNew, if_neg less, min_eq_left (not_lt.mp less)]

theorem sextInt_atomNew_max : sextInt (atomNew .max size old x e).1 (8 * size) = max (sextInt old (8 * size)) (sextInt x (8 * size)) := by
  by_cases less : sextInt old (8 * size) < sextInt x (8 * size)
  · simp only [atomNew, if_pos less, Nat.mod_eq_of_lt hx, max_eq_right less.le]
  · simp only [atomNew, if_neg less, max_eq_left (not_lt.mp less)]

end

/-- The operand, and the expected value of `cas`, are below the word's range, so that reducing them changes nothing. -/
theorem atomicNewWord_holds : atomicNewWord := by
  intro size old x e _ _ hx he
  refine ⟨rfl, ?_, ?_, ?_, ?_, sextInt_atomNew_min e hx, sextInt_atomNew_max e hx, ?_, ?_, ?_⟩ <;>
    simp only [atomNew, Nat.mod_eq_of_lt hx, Nat.mod_eq_of_lt he]

/-- Settles O30: every atomic sends what `sendAtomic` sends, and its new word is that of its rule. -/
theorem atomicsIssueAndResult : Obligations.AtomicsIssueAndResult := ⟨⟨atomicIssues_holds, floatAtomicIssues_holds⟩, atomicNewWord_holds⟩

end Sys2Proof.Machine

/-! PROOFS. Accumulates leave the cell with what its residual tile holds for their word, and residuals are flushed (R293, R294, R298). -/

namespace Sys2Proof.Machine

/-! ### Accumulates (R293) -/

/-- The context in which the tile holds no residual of a word any more, and the word is noted for the cycle `now` (R293, R301). -/
def TCtx.tileTaken (c : TCtx) (wid : Nat) (va : W64) (now : Nat) : TCtx :=
  { c with tk := { c.tk with
      tile := c.tk.tile.filter (fun r => !(r.wid == wid && r.addr == va.toNat))
      accNow := (now, (wid, va.toNat) :: (if c.tk.accNow.1 = now then c.tk.accNow.2 else [])) } }

/-- What an accumulate adds, of 64 bits or of at most 32 (R293). -/
def accOperand (f : EFmt) (b : Opnd) : TM W64 := if f = .int true 64 then read64 b else do pure ((← read32 b).setWidth 64)

section
variable {f : EFmt} {wid : BitVec 6} {a b : Opnd} {c c1 c2 : TCtx} {va x : W64} {w : WinE} {pa : Option Nat} {tn : Tenure}

theorem accOperand_double (hb : read64 b c = .ok (x, c1)) : accOperand (.int true 64) b c = .ok (x, c1) := hb

theorem accOperand_word {y : W32} (narrow : f ≠ .int true 64) (hb : read32 b c = .ok (y, c1)) : accOperand f b c = .ok (y.setWidth 64, c1) := by
  rw [accOperand, if_neg narrow, tm_bind_ok hb]
  rfl

/-- An accumulate goes on with what it adds. -/
theorem accOperand_then {α : Type} (hb : accOperand f b c = .ok (x, c1)) (k : W64 → TM α) :
    (if f = .int true 64 then read64 b >>= k else read32 b >>= fun y => pure (y.setWidth 64) >>= k) c = k x c1 := by
  by_cases double : f = .int true 64
  · rw [accOperand, if_pos double] at hb
    rw [if_pos double, tm_bind_ok hb]
  · rw [accOperand, if_neg double] at hb
    obtain ⟨y, c', read, wide⟩ := tm_bind_eq_ok hb
    rw [if_neg double, tm_bind_ok read]
    exact tm_bind_ok wide

theorem bodyAcc_ok (ha : read64 a c = .ok (va, c1)) (hb : accOperand f b c1 = .ok (x, c2))
    (target : accTarget wid.toNat va c2 = .ok ((w, pa), c2)) (tenure : c2.s.tenures.get? c2.t = some tn) (room : c2.tk.updpend ≠ 255) :
    bodyAcc f wid a b c = .ok ((), accumulateSent c2 tn wid.toNat va w pa (accPartial w.e0 (f.decode x.toNat))) := by
  unfold bodyAcc
  rw [tm_bind_ok ha]
  refine (accOperand_then hb _).trans ?_
  dsimp only
  rw [tm_bind_ok target]
  dsimp only
  let taken := c2.tileTaken wid.toNat va (c2.s.nowOn (tn.dieOf c2.n))
  rw [tm_bind_ok (getTk_run c2), tm_bind_ok (getS_run c2), tm_bind_ok (getTn_ok tenure), tm_bind_ok (getN_run c2),
    tm_bind_ok (c' := taken) rfl, tm_bind_ok (takeUpd_ok (c := taken) room), tm_bind_ok (getTn_ok (c := taken.updRaised) tenure),
    tm_bind_ok (taskSend_ok (c := taken.updRaised) tenure)]
  rfl

end

/-! ### Flushes (R294, R298) -/

theorem taskFlush_ok {c : TCtx} {p : Residual → Bool} {tn : Tenure} (tenure : c.s.tenures.get? c.t = some tn)
    (room : c.tk.updpend.toNat + (c.tk.tile.filter p).length ≤ 255) :
    taskFlush p c = .ok ((), { c with
      s := flushList c.s c.t c.n none (tn.dieOf c.n) (c.tk.tile.filter p),
      tk := { c.tk with tile := c.tk.tile.filter (fun r => !p r), updpend := c.tk.updpend + BitVec.ofNat 8 (c.tk.tile.filter p).length } }) := by
  unfold taskFlush
  rw [tm_bind_ok (getTk_run c), tm_bind_ok (getTn_ok tenure), tm_bind_ok (stallUnless_pass (decide_eq_true room) c)]
  rfl

section
variable {wid : BitVec 6} {s : State} {c c1 : TCtx} {tn : Tenure} (start : Starts (.flushr wid) 1 s c) (tenure : c.s.tenures.get? c.t = some tn)
include start tenure

theorem flushr_flushes (known : (tn.win? wid.toNat).isSome) (flushed : taskFlush (fun r => r.wid == wid.toNat) c = .ok ((), c1)) :
    exec (.flushr wid) s = .next (completed s c1) := by
  refine runTask_done start _ ?_
  rw [tm_bind_ok (getTn_ok tenure), tm_bind_ok (raiseIf_pass (Option.isNone_eq_false_iff.mpr known) _ _ c), flushed]

theorem flushr_unknown (unknown : tn.win? wid.toNat = none) :
    exec (.flushr wid) s = .next (takeTrap s s.cur.1 s.cur.2 c.tk 0x0405 (accArg wid.toNat 0) c.tk.pc) := by
  refine runTask_trap start _ ?_
  rw [tm_bind_ok (getTn_ok tenure), tm_bind_error (raiseIf_fail (Option.isNone_iff_eq_none.mpr unknown) _ _ c)]
  rfl

end

/-- Each accumulate of `accumulateRules` adds a word of at most 32 bits. -/
theorem accumulateRules_exec : ∀ e ∈ accumulateRules, e.2 ≠ .int true 64 ∧
    ∀ wid a b s, exec (e.1 wid a b) s = run1 (e.1 wid a b) (bodyAcc e.2 wid a b) s := by
  simp only [accumulateRules, List.forall_mem_cons, List.not_mem_nil, false_implies, implies_true, and_true]
  refine ⟨?_, ?_, ?_, ?_, ?_, ?_, ?_, ?_, ?_⟩ <;> exact ⟨by decide, fun _ _ _ _ => rfl⟩

/-- Settles O31: each accumulate sends its partial with the residual of its word, and each flush the residuals of the windows that it names. -/
theorem accumulateIssues : Obligations.AccumulateIssues := by
  refine ⟨?words, ?double, fun _ _ _ _ _ start tenure => ⟨flushr_flushes start tenure, flushr_unknown start tenure⟩,
    fun _ _ _ start flushed => runTask_done start _ flushed, fun _ _ _ => taskFlush_ok⟩
  case words =>
    intro e rule wid a b s c c1 c2 va x w pa tn start ha hb target tenure room
    obtain ⟨narrow, runs⟩ := accumulateRules_exec e rule
    have leaves := bodyAcc_ok ha (accOperand_word narrow hb) target tenure room
    rw [BitVec.toNat_setWidth_of_le (by decide)] at leaves
    exact (runs wid a b s).trans (runTask_done start _ leaves)
  case double =>
    exact fun _ _ _ _ _ _ _ _ _ _ _ _ start ha hb target tenure room =>
      runTask_done start _ (bodyAcc_ok ha (accOperand_double hb) target tenure room)

end Sys2Proof.Machine

/-! PROOFS. Accumulates and flushes at their homes, refusals, acknowledgements, and residuals that grow old (R285, R290, R293, R296 to R298, R301). -/

namespace Sys2Proof.Machine

/-! ### Accumulates at their home (R293, R296, R305) -/

section
variable {s : State} {m wid va : Nat} {x : Msg} {pa : Option Nat} {part : W128} {flags : BitVec 8}

theorem exec_accumulateArrival (hs : s.subj = .msg m) : exec .accumulateArrival s = .next (accumulateArrival m false s) := by
  change execAccumulateArrival s = _
  simp only [execAccumulateArrival, hs]

theorem exec_flushDelivery (hs : s.subj = .msg m) : exec .flushDelivery s = .next (flushDelivery m false s) := by
  change execFlushDelivery s = _
  simp only [execFlushDelivery, hs]

theorem exec_refusalReply (hs : s.subj = .msg m) : exec .refusalReply s = .next (refusalReply m s) := by
  change execRefusalReply s = _
  simp only [execRefusalReply, hs]

/-- A partial with good data is kept from its word by a live gate alone (R305). -/
theorem accRefusedAtWord_good (s : State) : accRefusedAtWord s x wid va pa false =
    if pa.any (fun a => clobbers s (.dev a) 16) then some (partialFault s x wid cGateClobber 7 (BitVec.ofNat 64 va) false) else none := rfl

/-- A partial that reaches its word, or a live gate over it, is acknowledged either way. -/
def partialLands (s : State) (x : Msg) (wid va : Nat) (pa : Option Nat) (part : Aw) : State :=
  match accRefusedAtWord s x wid va pa false with
  | some s => reply s x .accAck
  | none => accWatch (reply (wakeWaiters (accPerform s x.t wid va pa part)) x .accAck) x wid va

theorem partialLands_performed {part : Aw} (apart : pa.any (fun a => clobbers s (.dev a) 16) = false) :
    partialLands s x wid va pa part = accWatch (reply (wakeWaiters (accPerform s x.t wid va pa part)) x .accAck) x wid va := by
  simp only [partialLands, accRefusedAtWord_good, apart, Bool.false_eq_true, if_false]

theorem partialLands_gate {part : Aw} (gate : pa.any (fun a => clobbers s (.dev a) 16) = true) :
    partialLands s x wid va pa part = reply (partialFault s x wid cGateClobber 7 (BitVec.ofNat 64 va) false) x .accAck := by
  simp only [partialLands, accRefusedAtWord_good, gate, if_true]

/-- The unit at which an accumulate arrives has seen its port (R296). -/
def quotaSeen (s : State) (x : Msg) (wid : Nat) : QuotaRt :=
  ((s.units.getD x.home (QuotaRt.fresh (s.nowOn (unitDie x.home)))).at_ (s.nowOn (unitDie x.home))).see x.t wid (sourcePort x)

/-- The quota of an accumulate's window (R296). -/
def quotaOf (s : State) (x : Msg) (wid : Nat) : Nat := ((s.tenures.get? x.t).bind (fun tn => tn.win? wid)).elim 0 WinE.quota

/-- The unit has accepted the accumulate, which counts toward its port's quota (R296). -/
def accAccepted (s : State) (x : Msg) (wid : Nat) : State :=
  { consume s x with units := (consume s x).units.set x.home ((quotaSeen s x wid).accept x.t wid (sourcePort x)) }

section
variable (home : atHome s m x) (unfenced : fencedOut s x.t x.issuer m = false)
include home unfenced

theorem accumulateArrival_acc (kind : x.kind = .acc wid va pa part flags) : accumulateArrival m false s =
    if (quotaSeen s x wid).refuses x.t wid (sourcePort x) (quotaOf s x wid) then
      reply { consume s x with units := (consume s x).units.set x.home (quotaSeen s x wid) } x (.refusal wid va pa part flags)
    else partialLands (accAccepted s x wid) x wid va pa (part, flags) := by
  obtain ⟨-, hm, crossed, current⟩ := home
  simp only [accumulateArrival, hm, crossed, kind, current, unfenced, Option.isSome_none, Bool.not_true, Bool.false_eq_true, if_false]
  rfl

theorem flushDelivery_flush (kind : x.kind = .flush wid va pa part flags) :
    flushDelivery m false s = partialLands (consume s x) x wid va pa (part, flags) := by
  obtain ⟨-, hm, crossed, current⟩ := home
  simp only [flushDelivery, hm, crossed, kind, current, unfenced, Option.isSome_none, Bool.not_true, Bool.false_eq_true, if_false]
  rfl

end

/-! ### Acknowledgements and refusals at the cell (R290, R296, R297, R301) -/

section
variable (home : atHome s m x) (fresh : expired s x = false)
include home fresh

theorem accumulateAcknowledgement_cell (kind : x.kind = .accAck) (cell : x.lighter = none) :
    accumulateAcknowledgement m s = (consume s x).modTask x.t x.node (fun k => { k with updpend := k.updpend - 1 }) := by
  obtain ⟨-, hm, crossed, current⟩ := home
  simp only [accumulateAcknowledgement, hm, crossed, kind, cell, delivered_iff.mpr ⟨current, fresh⟩, Option.isSome_none, Bool.not_true,
    Bool.false_eq_true, if_false]

variable (kind : x.kind = .refusal wid va pa part flags)
include kind

theorem refusalReply_late (late : lateRefusal s x wid va = true) : refusalReply m s = s := by
  obtain ⟨-, hm, crossed, current⟩ := home
  simp only [refusalReply, hm, crossed, kind, delivered_iff.mpr ⟨current, fresh⟩, late, Option.isSome_none, Bool.not_true,
    Bool.false_eq_true, if_false, if_true]

theorem refusalReply_cell (cell : x.lighter = none) (first : lateRefusal s x wid va = false) :
    refusalReply m s = cellRefusal (consume s x) x ⟨wid, va, part, flags, s.nowOn (replyDie s x)⟩ := by
  obtain ⟨-, hm, crossed, current⟩ := home
  simp only [refusalReply, hm, crossed, kind, cell, delivered_iff.mpr ⟨current, fresh⟩, first, Option.isSome_none, Bool.not_true,
    Bool.false_eq_true, if_false]

end
end

/-- A partial whose set of the tile is empty takes a free way of it (R297). -/
theorem tilePut_free {setOf : Nat → Nat} {tile : List Residual} {r : Residual} (free : ∀ e ∈ tile, setOf e.addr ≠ setOf r.addr) :
    tilePut setOf tile r = (tile ++ [r], none) := by
  have absent : tile.find? (fun e => e.wid == r.wid && e.addr == r.addr) = none := by
    refine List.find?_eq_none.mpr fun e he same => free e he ?_
    obtain ⟨-, addr⟩ := Bool.and_eq_true_iff.mp same
    rw [eq_of_beq addr]
  have none_there : tile.filter (fun e => setOf e.addr == setOf r.addr) = [] :=
    List.filter_eq_nil_iff.mpr fun e he same => free e he (eq_of_beq same)
  simp only [tilePut, absent, none_there]

theorem cellRefusal_free {s : State} {x : Msg} {r : Residual} {k : TaskRt} {tn : Tenure} (task : s.tasks.get? (key2 x.t x.node) = some k)
    (tenure : s.tenures.get? x.t = some tn) (free : ∀ e ∈ k.tile, cellSet e.addr ≠ cellSet r.addr) :
    cellRefusal s x r = { s with tasks := s.tasks.set (key2 x.t x.node) { k with tile := k.tile ++ [r], updpend := k.updpend - 1 } } := by
  simp only [cellRefusal, task, tenure, tilePut_free free]

/-! ### A unit's quota and its interval (R296) -/

theorem QuotaRt.refuses_iff {q : QuotaRt} {t wid port quota : Nat} : q.refuses t wid port quota = true ↔
    quota ≠ 0 ∧ quota ≤ q.countOf t wid port ∧ ∃ x ∈ q.seen, x.1 = t ∧ x.2.1 = wid ∧ x.2.2 ≠ port := by
  simp only [QuotaRt.refuses, Bool.and_eq_true, bne_iff_ne, decide_eq_true_eq, List.any_eq_true, beq_iff_eq, and_assoc]

section
variable {s : State} {u : Nat} {q : QuotaRt} (hs : s.subj = .unit u) (unit : s.units.get? u = some q)
include hs unit

theorem exec_acceptanceIntervalEnd :
    exec .acceptanceIntervalEnd s = .next { s with units := s.units.set u (q.at_ (s.nowOn (unitDie u))) } := by
  change execAcceptanceIntervalEnd s = _
  simp only [execAcceptanceIntervalEnd, hs, acceptanceIntervalEnd, Map.getD, unit, Option.getD_some]

theorem acceptanceInterval_over (ended : q.start + 256 ≤ s.nowOn (unitDie u)) :
    exec .acceptanceIntervalEnd s = .next { s with units := s.units.set u ⟨[], [], s.nowOn (unitDie u) / 256 * 256⟩ } := by
  rw [exec_acceptanceIntervalEnd hs unit, QuotaRt.at_, if_pos ended]
  rfl

theorem acceptanceInterval_lasts (lasts : s.nowOn (unitDie u) < q.start + 256) :
    exec .acceptanceIntervalEnd s = .next { s with units := s.units.set u q } := by
  rw [exec_acceptanceIntervalEnd hs unit, QuotaRt.at_, if_neg (not_le.mpr lasts)]

end

/-! ### Residuals that grow old (R298) -/

theorem exec_residualAgeExpiry_cell {s : State} {t n addr : Nat} {k : TaskRt} {tn : Tenure} {r : Residual} (hs : s.subj = .residual (.cell t n) addr)
    (task : s.tasks.get? (key2 t n) = some k) (tenure : s.tenures.get? t = some tn)
    (old : k.tile.find? (fun r => r.addr == addr && decide (r.born + 65536 ≤ s.nowOn (tn.dieOf n))) = some r) (room : k.updpend ≠ 255) :
    exec .residualAgeExpiry s = .next (flushOne { s with tasks := s.tasks.set (key2 t n) { k with
      tile := k.tile.filter (fun e => e != r), updpend := k.updpend + 1 } } t n none (tn.dieOf n) r) := by
  change execResidualAgeExpiry s = _
  simp only [execResidualAgeExpiry, hs, residualAgeExpiry, task, tenure, old, if_neg room]

/-- Settles O50: each clause is the lemma about its event, an accumulate by its quota and by the gate words, and a flush by these alone. -/
theorem accumulateEvents : Obligations.AccumulateEvents := by
  refine ⟨?messages, fun q t wid port quota => QuotaRt.refuses_iff, fun s t n addr k tn r => exec_residualAgeExpiry_cell,
    fun s u q hs unit => ⟨acceptanceInterval_over hs unit, acceptanceInterval_lasts hs unit⟩⟩
  case messages =>
    intro s m wid va x pa part flags home
    obtain ⟨hs, -⟩ := id home
    refine ⟨fun kind unfenced beyond => ?refused, fun kind unfenced within => ⟨fun apart => ?performed, fun gate => ?gate⟩,
      fun kind unfenced apart => ?flushed, fun kind fresh cell => ?acknowledged, fun kind fresh late => ?late,
      fun k tn kind fresh cell first task tenure free => ?enters⟩
    case refused =>
      have beyond : (quotaSeen s x wid).refuses x.t wid (sourcePort x) (quotaOf s x wid) = true := beyond
      rw [exec_accumulateArrival hs, accumulateArrival_acc home unfenced kind, if_pos beyond]
      rfl
    case performed =>
      have within : ¬ (quotaSeen s x wid).refuses x.t wid (sourcePort x) (quotaOf s x wid) = true := Bool.eq_false_iff.mp within
      rw [exec_accumulateArrival hs, accumulateArrival_acc home unfenced kind, if_neg within]
      exact congrArg Host.Outcome.next (partialLands_performed (s := accAccepted s x wid) apart)
    case gate =>
      have within : ¬ (quotaSeen s x wid).refuses x.t wid (sourcePort x) (quotaOf s x wid) = true := Bool.eq_false_iff.mp within
      rw [exec_accumulateArrival hs, accumulateArrival_acc home unfenced kind, if_neg within]
      exact congrArg Host.Outcome.next (partialLands_gate (s := accAccepted s x wid) gate)
    case flushed => rw [exec_flushDelivery hs, flushDelivery_flush home unfenced kind, partialLands_performed apart]
    case acknowledged => rw [exec_accumulateAcknowledgement hs, accumulateAcknowledgement_cell home fresh kind cell]
    case late => rw [exec_refusalReply hs, refusalReply_late home fresh kind late]
    case enters => 
      rw [exec_refusalReply hs, refusalReply_cell home fresh kind cell first,
        cellRefusal_free (r := ⟨wid, va, part, flags, s.nowOn (replyDie s x)⟩) task tenure free]

end Sys2Proof.Machine

/-! PROOFS. Arrivals and waits at gates, `quiet`, and contributions to combine trees (R310, R316, R325, R396). -/

namespace Sys2Proof.Machine

/-! ### `gate.arr` (R310) -/

section
variable {gid : Nat} {a b : Opnd} {c c1 c2 : TCtx} {g : Nat} {r : GateRt} {tn : Tenure}

/-- The tenure's writes at the host port come before what an arrival that leaves now releases (R338). -/
def TCtx.arrMarked (c : TCtx) : TCtx := { c with s := markArr c.s c.t c.s.nextMsg (fun _ => true) }

theorem bodyGateArr_ok {x : W32} (ha : read32 a c = .ok (x, c1)) (gate : gateByGid c1.s c1.t gid = some (g, r)) (some_ : 1 ≤ x.toNat % 256)
    (small : x.toNat < 512) (tenure : c1.s.tenures.get? c1.t = some tn) (passes : fenceGlobal c1 = .ok ((), c1)) :
    bodyGateArr gid a c = .ok ((), { c1 with s := sent c1.arrMarked tn (tn.sliceUnit g) (.gateArr g (x.toNat % 256) (bitOf x.toNat 8)) }) := by
  have sound : (x.toNat % 256 == 0 || x.toNat / 512 != 0) = false := by
    rw [Bool.or_eq_false_iff, beq_eq_false_iff_ne, bne_eq_false_iff_eq]
    omega
  unfold bodyGateArr
  rw [tm_bind_ok ha, tm_bind_ok (getS_run c1), tm_bind_ok (getT_run c1), gate]
  dsimp only
  rw [tm_bind_ok (raiseIf_pass sound _ _ c1), tm_bind_ok passes, tm_bind_ok (c' := c1.arrMarked) rfl, tm_bind_ok (getTn_ok (c := c1.arrMarked) tenure),
    tm_bind_ok (taskSend_ok (c := c1.arrMarked) tenure)]
  rfl

/-! ### `gate.wait` (R310, R396) -/

/-- The request of a `gate.wait` of node `n`, on die `here`, comes to gate `g`, on die `there`: it registers a waiter while the gate stands at the
generation that it names. -/
def gateWaitLook (t n g here there : Nat) (r : GateRt) (e : W32) : TM Unit := do
  if pairLost (← getS) here there then waitLost here there
  else if r.gen = e.toNat then
    let now := (← getS).nowOn there
    let r := { r with waiters := r.waiters ++ [(n, e.toNat)] }.retime now false
    modS (fun s => { s with gates := s.gates.set (key2 t g) r })
    modTk (fun k => { k with wait := .gate g e })
    holdHere r.timer.isNone
  else modST (fun s t n => orderGate s t n g r.gen)

section
variable {e : W32} (tenure : c.s.tenures.get? c.t = some tn)
include tenure

section
variable (first : c.tk.wait = .none) (ha : read32 a c = .ok (e, c1)) (gate : gateByGid c1.s c.t gid = some (g, r))
include first ha gate

theorem bodyGateWait_looks : bodyGateWait gid a c = gateWaitLook c.t c.n g (tn.dieOf c.n) (tn.dieOf g) r e c1 := by
  unfold bodyGateWait
  rw [tm_bind_ok (getT_run c), tm_bind_ok (getN_run c), tm_bind_ok (getTn_ok tenure), tm_bind_ok (getTk_run c), first]
  dsimp only
  rw [tm_bind_ok ha, tm_bind_ok (getS_run c1), gate]
  rfl

theorem bodyGateWait_lost (lost : pairLost c1.s (tn.dieOf c.n) (tn.dieOf g) = true) :
    bodyGateWait gid a c = waitLost (tn.dieOf c.n) (tn.dieOf g) c1 := by
  rw [bodyGateWait_looks tenure first ha gate, gateWaitLook, tm_bind_ok (getS_run c1), if_pos lost]

variable (live : pairLost c1.s (tn.dieOf c.n) (tn.dieOf g) = false)
include live

theorem bodyGateWait_moved (moved : r.gen ≠ e.toNat) :
    bodyGateWait gid a c = .ok ((), { c1 with s := orderGate c1.s c1.t c1.n g r.gen }) := by
  rw [bodyGateWait_looks tenure first ha gate, gateWaitLook, tm_bind_ok (getS_run c1), if_neg (Bool.eq_false_iff.mp live), if_neg moved]
  rfl

/-- The waiter is registered, and the gate's timer runs on or starts (R308, R310). -/
theorem bodyGateWait_waits (same : r.gen = e.toNat) {r1 : GateRt}
    (registered : r1 = { r with waiters := r.waiters ++ [(c.n, e.toNat)] }.retime (c1.s.nowOn (tn.dieOf g)) false) :
    bodyGateWait gid a c = .error (.hold r1.timer.isNone { c1 with
      s := { c1.s with gates := c1.s.gates.set (key2 c.t g) r1 }, tk := { c1.tk with wait := .gate g e } }) := by
  rw [bodyGateWait_looks tenure first ha gate, gateWaitLook, tm_bind_ok (getS_run c1), if_neg (Bool.eq_false_iff.mp live), if_pos same, registered]
  rfl

end

section
variable (waits : c.tk.wait = .gate g e) (gate : c.s.gates.get? (key2 c.t g) = some r) (released : ∀ w ∈ r.waiters, w.1 ≠ c.n)
include waits gate released

/-- A node that the gate has released has no waiter there, and looks at the pair that the report crosses. -/
theorem bodyGateWait_released : bodyGateWait gid a c = (if pairLost c.s (tn.dieOf g) (tn.dieOf c.n) then waitLost (tn.dieOf g) (tn.dieOf c.n)
    else do
      modST (fun s t n => orderGate s t n g (e.toNat + 1))
      modTk (fun k => { k with wait := .none })) c := by
  have gone : r.waiters.any (fun w => w.1 == c.n) = false := List.any_eq_false.mpr fun w hw same => released w hw (eq_of_beq same)
  unfold bodyGateWait
  rw [tm_bind_ok (getT_run c), tm_bind_ok (getN_run c), tm_bind_ok (getTn_ok tenure), tm_bind_ok (getTk_run c), waits]
  dsimp only
  rw [tm_bind_ok (getS_run c), gate]
  simp only [gone, Bool.false_eq_true, if_false]
  rw [tm_bind_ok (getS_run c)]

theorem bodyGateWait_reported (live : pairLost c.s (tn.dieOf g) (tn.dieOf c.n) = false) : bodyGateWait gid a c =
    .ok ((), { c with s := orderGate c.s c.t c.n g (e.toNat + 1), tk := { c.tk with wait := .none } }) := by
  rw [bodyGateWait_released tenure waits gate released, if_neg (Bool.eq_false_iff.mp live)]
  rfl

theorem bodyGateWait_unreported (lost : pairLost c.s (tn.dieOf g) (tn.dieOf c.n) = true) :
    bodyGateWait gid a c = waitLost (tn.dieOf g) (tn.dieOf c.n) c := by
  rw [bodyGateWait_released tenure waits gate released, if_pos lost]

end
end

/-! ### `quiet` (R325) -/

theorem bodyQuiet_declared {graph g : Bool} (declared : c.tk.wait = .quiet g .quiet) :
    bodyQuiet graph c = .ok ((), { c with tk := { c.tk with wait := .none } }) := by
  unfold bodyQuiet
  rw [tm_bind_ok (getTk_run c), declared]
  rfl

theorem bodyQuiet_asks {graph : Bool} (first : c.tk.wait = .none) :
    bodyQuiet graph c = .error (.hold false { c with tk := { c.tk with wait := .quiet graph .asked } }) := by
  unfold bodyQuiet
  rw [tm_bind_ok (getTk_run c), first]
  rfl

/-- Both forms of `quiet` ask for a wave of their scope. -/
theorem quiet_asks {i : Instr} {graph : Bool} {s : State} (runs : exec i s = run1 i (bodyQuiet graph) s) (start : Starts i 1 s c)
    (first : c.tk.wait = .none) : exec i s = .next { s with
      tasks := s.tasks.set (key2 s.cur.1 s.cur.2) { c.tk with st := .running, wait := .quiet graph .asked } } := by
  have asked := runTask_hold start (instrWord i) (bodyQuiet_asks (graph := graph) first)
  obtain ⟨tk, task, rfl⟩ := start.task
  exact runs.trans asked

theorem quiet_completes {i : Instr} {graph g : Bool} {s : State} (runs : exec i s = run1 i (bodyQuiet graph) s) (start : Starts i 1 s c)
    (declared : c.tk.wait = .quiet g .quiet) : exec i s = .next (completed s { c with tk := { c.tk with wait := .none } }) :=
  runs.trans (runTask_done start _ (bodyQuiet_declared declared))

/-! ### `comb.send` (R316) -/

theorem bodyCombSend_ok {x : W32} {y : W64} {tr : TreeE} {parent slot round : Nat} (ha : read32 a c = .ok (x, c1)) (hb : read64 b c1 = .ok (y, c2))
    (tenure : c2.s.tenures.get? c2.t = some tn) (tree : tn.tree? (x.toNat % 65536) = some tr)
    (leaf : tr.leaves[x.toNat / 65536]? = some (c2.n, parent, slot)) (low : 0 ≤ y.toInt) (high : y.toInt + 8 * tr.ulen ≤ c2.tk.bankBytes)
    (aligned : y.toInt % 8 = 0) (due : c2.tk.rounds.getD (65536 * (x.toNat % 65536) + x.toNat / 65536) 0 = round)
    (room : pathHolds c2.s c2.t tr parent round = false) :
    bodyCombSend a b c = .ok ((), { c2 with
      s := sent c2 tn (tn.combUnit (x.toNat % 65536) parent)
        (.contrib (x.toNat % 65536) parent slot round (bankUnits c2.tk.bank y.toInt.toNat tr.ulen) none),
      tk := { c2.tk with rounds := c2.tk.rounds.set (65536 * (x.toNat % 65536) + x.toNat / 65536) (round + 1) } }) := by
  have own : (c2.n != c2.n) = false := bne_self_eq_false _
  have within : (decide (y.toInt < 0) || decide ((c2.tk.bankBytes : Int) < y.toInt + 8 * tr.ulen)) = false := by
    rw [Bool.or_eq_false_iff, decide_eq_false_iff_not, decide_eq_false_iff_not]
    exact ⟨not_lt.mpr low, not_lt.mpr high⟩
  have even : decide (y.toInt % 8 ≠ 0) = false := decide_eq_false (not_not.mpr aligned)
  unfold bodyCombSend
  rw [tm_bind_ok ha, tm_bind_ok hb, tm_bind_ok (getTn_ok tenure), tm_bind_ok (getN_run c2)]
  simp only [tree, leaf, Option.bind_some, Option.map_some]
  rw [tm_bind_ok (raiseIf_pass own _ _ c2), tm_bind_ok (getTk_run c2), tm_bind_ok (raiseIf_pass within _ _ c2),
    tm_bind_ok (raiseIf_pass even _ _ c2), tm_bind_ok (getS_run c2), tm_bind_ok (getT_run c2), due, room,
    tm_bind_ok (c' := c2) rfl]
  exact tm_bind_ok (taskSend_ok (c := c2) tenure)

end

/-- Settles O33: each clause is the lemma about what its instruction comes to in the state that it names. -/
theorem gateQuietCombineResult : Obligations.GateQuietCombineResult := by
  refine ⟨?arrives, ?waits, ?released, ?quiet, ?combine⟩
  case arrives =>
    intro gid a s c c1 x g r tn start ha gate some_ small tenure unflagged complete free none
    exact runTask_done start _ (bodyGateArr_ok ha gate some_ small tenure (fenceGlobal_passes unflagged complete free none))
  case waits =>
    intro gid a s c c1 e g r tn start tenure first ha gate lost r1
    refine ⟨fun live moved => ?_, fun live same => ?_, fun gone => ?_⟩
    · exact runTask_done start _ (bodyGateWait_moved tenure first ha gate live moved)
    · refine (runTask_hold start _ (bodyGateWait_waits tenure first ha gate live same (r1 := r1) rfl)).trans ?_
      cases r1.timer <;> rfl
    · exact runTask_hold start _ (bodyGateWait_lost tenure first ha gate gone)
  case released =>
    intro gid a s c e g r tn start tenure waits gate released
    exact ⟨fun live => runTask_done start _ (bodyGateWait_reported tenure waits gate released live),
      fun lost => runTask_hold start _ (bodyGateWait_unreported tenure waits gate released lost)⟩
  case quiet =>
    simp only [List.forall_mem_cons, List.not_mem_nil, false_implies, implies_true, and_true]
    exact ⟨fun s c start => ⟨fun g => quiet_completes (graph := false) rfl start, quiet_asks rfl start⟩,
      fun s c start => ⟨fun g => quiet_completes (graph := true) rfl start, quiet_asks rfl start⟩⟩
  case combine =>
    intro a b s c c1 c2 x y tn tr parent slot start ha hb tenure tree leaf low high aligned round room
    exact runTask_done start _ (bodyCombSend_ok ha hb tenure tree leaf low high aligned rfl room)

end Sys2Proof.Machine

/-! PROOFS. What running a passage instruction comes to; jumps, counters and predicates of passage programs (R352, R354, R355, R368). -/

namespace Sys2Proof.Machine

/-! ### Running a passage instruction (R352) -/

theorem passTo_within {s : State} {t pc : Nat} (within : pc < 65536) : passTo s t pc = passageAt s t pc := by
  simp only [passTo, if_neg (not_le.mpr within)]
  rfl

section
variable {s s' : State} {tn : Tenure} {len : Nat} {f : State → Nat → Tenure → PStep}

/-- An instruction that waits, or has faulted, leaves the lockkeeper at its word. -/
theorem runPassage_stay (tenure : s.tenures.get? s.cur.1 = some tn) (stays : f s s.cur.1 tn = .stay s') : runPassage len f s = .next s' := by
  simp only [runPassage, tenure, stays]

theorem runPassage_retired (tenure : s.tenures.get? s.cur.1 = some tn) (retires : f s s.cur.1 tn = .retired s') :
    runPassage len f s = .next s' := by
  simp only [runPassage, tenure, retires]

theorem runPassage_next (at_ : atPassage s tn len) (done : f s s.cur.1 tn = .next s') :
    runPassage len f s = .next (passageAt s' s.cur.1 (tn.lk.lpc.toNat + len)) := by
  obtain ⟨tenure, within⟩ := at_
  simp only [runPassage, tenure, done, passTo_within within]

theorem runPassage_jump {x : BitVec 16} (tenure : s.tenures.get? s.cur.1 = some tn) (jumps : f s s.cur.1 tn = .jump s' x.toNat) :
    runPassage len f s = .next (passageAt s' s.cur.1 x.toNat) := by
  simp only [runPassage, tenure, jumps, passTo_within x.isLt]

/-- An instruction that jumps where `b` holds, and else goes on. -/
theorem runPassage_branch {x : BitVec 16} {b : Bool} {p : Prop} [Decidable p] (at_ : atPassage s tn len) (taken : b = true ↔ p)
    (done : f s s.cur.1 tn = if b then .jump s' x.toNat else .next s') :
    runPassage len f s = .next (passageAt s' s.cur.1 (if p then x.toNat else tn.lk.lpc.toNat + len)) := by
  by_cases h : p
  · rw [if_pos h, runPassage_jump at_.1 (done.trans (if_pos (taken.mpr h)))]
  · rw [if_neg h, runPassage_next at_ (done.trans (if_neg (h ∘ taken.mp)))]

end

/-! ### Counters and predicates (R354, R355) -/

theorem counterNumbers (k : BitVec 2) : k = 0 ∨ k = 1 ∨ k = 2 ∨ k = 3 := by revert k; decide

/-- A counter set is the one that reads otherwise than before. -/
theorem counter_setCounter (l : Lockkeeper) (j k : BitVec 2) (v : BitVec 20) :
    (l.setCounter k v).counter j = if j = k then v else l.counter j := by
  obtain rfl | rfl | rfl | rfl := counterNumbers k <;> obtain rfl | rfl | rfl | rfl := counterNumbers j <;> rfl

/-- The bit of a mask that is 1 at `m` alone. -/
theorem oneAt_bits (m n : BitVec 3) : (1#8 <<< m.toNat).getLsbD n.toNat = decide (n = m) := by revert m n; decide

theorem getLsbD_putBit (x : BitVec 8) (m n : BitVec 3) (b : Bool) : (putBit x m b).getLsbD n.toNat = if n = m then b else x.getLsbD n.toNat := by
  have within : decide (n.toNat < 8) = true := decide_eq_true n.isLt
  cases b
  · simp only [putBit, Bool.false_eq_true, if_false, BitVec.getLsbD_and, BitVec.getLsbD_not, oneAt_bits, within, Bool.true_and]
    by_cases same : n = m <;> simp [same]
  · simp only [putBit, if_true, BitVec.getLsbD_or, oneAt_bits]
    by_cases same : n = m <;> simp [same]

theorem passageCountersAndJumps_holds : passageCountersAndJumps :=
  ⟨fun x s _ at_ => show execJmp x s = _ from runPassage_jump at_.1 rfl,
    fun k v s _ at_ => show execCount k v s = _ from runPassage_next at_ rfl,
    fun k x s _ at_ => show execDecJnz k x s = _ from runPassage_branch at_ bne_iff_ne rfl,
    fun p s _ at_ => show execWave p s = _ from runPassage_next at_ rfl, counter_setCounter⟩

section
variable {s : State} {tn : Tenure} {neg : Bool} {m : BitVec 3} {x : BitVec 16} (at_ : atPassage s tn 1)
include at_

theorem choose_jumps (applied : predicateAhead s s.cur.1 tn m.toNat = false) (valid : tn.lk.qvalid.getLsbD m.toNat = true) :
    exec (.choose neg m x) s = .next (passageAt (withLk s (fun l => { l with qvalid := putBit l.qvalid m false })) s.cur.1
      (if tn.lk.qval.getLsbD m.toNat ≠ neg then x.toNat else tn.lk.lpc.toNat + 1)) := by
  change execChoose neg m x s = _
  refine runPassage_branch (b := tn.lk.qval.getLsbD m.toNat != neg) at_ bne_iff_ne ?_
  simp only [applied, valid, Bool.not_true, Bool.false_eq_true, if_false]
  rfl

theorem choose_blocks (applied : predicateAhead s s.cur.1 tn m.toNat = false) (invalid : tn.lk.qvalid.getLsbD m.toNat = false) :
    exec (.choose neg m x) s = .next (s.modTenure s.cur.1 (fun tn => { tn with lkBlocked := true })) := by
  change execChoose neg m x s = _
  refine runPassage_stay at_.1 ?_
  simp only [applied, invalid, Bool.not_false, Bool.false_eq_true, if_false, if_true]
  rfl

theorem choose_behindRecord (ahead : predicateAhead s s.cur.1 tn m.toNat = true) : exec (.choose neg m x) s = .next s :=
  show execChoose neg m x s = _ from runPassage_stay at_.1 (if_pos ahead)

end

theorem passagePredicates_holds : passagePredicates :=
  ⟨fun v m s _ at_ => show execSetp v m s = _ from runPassage_next at_ rfl, fun _ _ _ _ _ => choose_jumps, fun _ _ _ _ _ => choose_blocks,
    fun _ _ _ _ _ => choose_behindRecord, fun m s _ at_ valid => show execWaitp m s = _ from runPassage_next at_ (if_pos valid),
    fun m s _ at_ invalid => show execWaitp m s = _ from runPassage_stay at_.1 (if_neg (Bool.eq_false_iff.mp invalid)), getLsbD_putBit⟩

/-- Settles O34: a jump, a branch, or the next word, by what the instruction comes to. -/
theorem passageCountersAndPredicates : Obligations.PassageCountersAndPredicates := ⟨passageCountersAndJumps_holds, passagePredicates_holds⟩

end Sys2Proof.Machine

/-! PROOFS. `ireload`, `yield`, watchpoints and bindings of passage programs (R355, R358, R360, R362). -/

namespace Sys2Proof.Machine

section
variable {s : State} {tn : Tenure}

/-! ### `ireload` and `yield` (R355, R362) -/

theorem ireload_inLock (at_ : atPassage s tn 1) (locked : tn.lk.lstate = 2) : exec .ireload s =
    .next (passageAt (withLk s (fun l => { l with ireq := l.ireq ||| 1 })) s.cur.1 (tn.lk.lpc.toNat + 1)) :=
  show execIreload s = _ from runPassage_next at_ (if_neg (by simp only [locked, bne_self_eq_false, Bool.false_eq_true, not_false_eq_true]))

theorem ireload_outside (at_ : atPassage s tn 1) (outside : tn.lk.lstate ≠ 2) :
    exec .ireload s = .next (engineFault s s.cur.1 0x0600 9 0xFFFFFF 0xFF (tn.lk.lpc.setWidth 64)) :=
  show execIreload s = _ from runPassage_stay at_.1 (if_pos (bne_iff_ne.mpr outside))

theorem yield_alone (at_ : atPassage s tn 1) (alone : tn.partner = none) : exec .yield_ s = .next (passageAt s s.cur.1 (tn.lk.lpc.toNat + 1)) := by
  change execYield_ s = _
  refine runPassage_next at_ ?_
  simp only [alone]

theorem yield_toReady {p : Nat} (at_ : atPassage s tn 1) (partner : tn.partner = some p) (isReady : ready s p = true) : exec .yield_ s =
    .next (passageAt (s.modTenure s.cur.1 (fun x => { x with yielded := true })) s.cur.1 (tn.lk.lpc.toNat + 1)) := by
  change execYield_ s = _
  refine runPassage_next at_ ?_
  simp only [partner, isReady, if_true]

/-! ### Bindings (R358) -/

/-- A channel whose pound is not entered takes a binding. -/
theorem doBind_bindable {c : Nat} (t : Nat) (b : Binding) (h : bindable tn c) : doBind c b s t tn = .next (setBind s t c b) := by
  obtain ⟨e, chan, apart⟩ := h
  have free : (tn.lk.lstate == 1 && tn.chanPound e == tn.lk.lpound.toNat) = false := by
    rw [Bool.eq_false_iff, Ne, Bool.and_eq_true, beq_iff_eq, beq_iff_eq]
    exact apart
  simp only [doBind, chan, free, Bool.false_eq_true, if_false]

/-- Every `bind` but that of a virtual queue only sets the binding. -/
theorem runPassage_bind {c : Nat} (b : Binding) (at_ : atPassage s tn 3) (h : bindable tn c) :
    runPassage 3 (doBind c b) s = .next (passageAt (setBind s s.cur.1 c b) s.cur.1 (tn.lk.lpc.toNat + 3)) :=
  runPassage_next at_ (doBind_bindable s.cur.1 b h)

/-- A queue of the tenure's process and of the port's direction, connected to its peer, can be bound. -/
theorem fitsPort {q : VqRt} {output : Bool} (own : q.pasid = tn.pasid) (way : q.output = output) (live : q.bridgeLost = false) :
    (q.pasid != tn.pasid || q.output != output || q.bridgeLost) = false := by
  simp only [own, way, live, bne_self_eq_false, Bool.or_self]

section
variable {c : BitVec 24} {off : BitVec 28} {q : VqRt} (at_ : atPassage s tn 3) (h : bindable tn c.toNat)
include at_ h

theorem bindVq_unknown (unknown : s.vqs.get? (tn.argWord off.toNat % 4294967296) = none) :
    exec (.bindVq c off) s = .next (engineFault s s.cur.1 0x0602 9 0xFFFFFF 0xFF (BitVec.ofNat 64 c.toNat)) := by
  change execBindVq c off s = _
  refine runPassage_stay at_.1 ?_
  simp only [doBindVq, doBind_bindable _ _ h, unknown]
  rfl

variable (known : s.vqs.get? (tn.argWord off.toNat % 4294967296) = some q) (own : q.pasid = tn.pasid) (way : q.output = extDst tn.g c.toNat)
  (live : q.bridgeLost = false)
include known own way live

theorem bindVq_free (free : q.bound = none) :
    let id := tn.argWord off.toNat % 4294967296
    exec (.bindVq c off) s = .next (passageAt { setBind s s.cur.1 c.toNat (.vq id) with
      vqs := (setBind s s.cur.1 c.toNat (.vq id)).vqs.modify id (fun q => { q with bound := some (s.cur.1, c.toNat), counted := 0 }) }
      s.cur.1 (tn.lk.lpc.toNat + 3)) := by
  change execBindVq c off s = _
  refine runPassage_next at_ ?_
  simp only [doBindVq, doBind_bindable _ _ h, known, fitsPort own way live, free, Bool.false_eq_true, if_false]

theorem bindVq_busy {p : Nat × Nat} (held : q.bound = some p) (other : p ≠ (s.cur.1, c.toNat)) :
    exec (.bindVq c off) s = .next (engineFault s s.cur.1 0x0601 9 0xFFFFFF 0xFF (BitVec.ofNat 64 c.toNat)) := by
  change execBindVq c off s = _
  refine runPassage_stay at_.1 ?_
  simp only [doBindVq, doBind_bindable _ _ h, known, fitsPort own way live, held, if_neg other, Bool.false_eq_true, if_false]
  rfl

end
end

theorem passageReloadYieldWatch_holds : passageReloadYieldWatch :=
  ⟨fun _ _ at_ => ⟨ireload_inLock at_, ireload_outside at_⟩, fun _ _ at_ => ⟨yield_alone at_, fun _ => yield_toReady at_⟩,
    fun w rd wr at_ arg base units mask s _ here => show execWatch w rd wr at_ arg base units mask s = _ from runPassage_next here rfl,
    fun w s _ at_ => show execUnwatch w s = _ from runPassage_next at_ rfl⟩

theorem passageBinds_holds : passageBinds := by
  refine ⟨?arg, ?xfer, ?accs, ?xf, ?pred, ?vq⟩
  case arg => exact fun c off len s tn at_ h => show execBindArg c off len s = _ from runPassage_bind _ at_ h
  case xfer => exact fun c port s tn at_ h => show execBindXfer c port s = _ from runPassage_bind _ at_ h
  case accs => exact fun c port wid s tn at_ h => show execBindAccs c port wid s = _ from runPassage_bind _ at_ h
  case xf => exact fun c x a b s tn at_ h => show execBindXf c x a b s = _ from runPassage_bind _ at_ h
  case pred => exact fun c m s tn at_ h => show execBindPred c m s = _ from runPassage_bind _ at_ h
  case vq =>
    exact fun c off s tn at_ h => ⟨fun q known own way live => bindVq_free at_ h known own way live, bindVq_unknown at_ h,
      fun q p known own way live => bindVq_busy at_ h known own way live⟩

/-- Settles O35: each instruction by the state of the lockkeeper, of the partner, and of the queue that it names. -/
theorem passageReloadWatchBind : Obligations.PassageReloadWatchBind := ⟨passageReloadYieldWatch_holds, passageBinds_holds⟩

end Sys2Proof.Machine

/-! PROOFS. `enter`, `quiet`, the locks and `settle` of passage programs (R325, R355 to R357, R359). -/

namespace Sys2Proof.Machine

/-! ### Memory reached, and waves awaited (R325, R338, R340, R357) -/

section
variable {s : State} {tn : Tenure} {rs : List MemRange} {k : PStep} {graph : Bool} {before : State → State}

theorem withRanges_reached (h : reached s tn rs) : withRanges s s.cur.1 tn rs k = k := by
  obtain ⟨⟨ps, translated⟩, clear⟩ := h
  have free : (!rs.isEmpty && fencedOut s s.cur.1 (some extEnd) s.nextMsg) = false := by
    obtain rfl | clear := clear
    · rfl
    · rw [clear, Bool.and_false]
  simp only [withRanges, translated, free, Bool.false_eq_true, if_false]

theorem awaitQuiet_declared {g : Bool} (declared : tn.lkWait = .quiet g .quiet) : awaitQuiet graph before s s.cur.1 tn k = k := by
  simp only [awaitQuiet, declared]

theorem awaitQuiet_runs {g : Bool} {v : QuietSt} (asked : tn.lkWait = .quiet g v) (runs : v ≠ .quiet) :
    awaitQuiet graph before s s.cur.1 tn k = .stay s := by
  cases v with
  | quiet => exact absurd rfl runs
  | _ => simp only [awaitQuiet, asked]

theorem awaitQuiet_asks (first : notAsked tn) : awaitQuiet graph before s s.cur.1 tn k =
    .stay ((before s).modTenure s.cur.1 (fun x => { x with lkWait := .quiet graph .asked })) := by
  unfold awaitQuiet
  split
  case h_1 declared => exact absurd declared (first _ _)
  case h_2 asked => exact absurd asked (first _ _)
  case h_3 => rfl

theorem drainPound_asked {g : Bool} {v : QuietSt} (asked : tn.lkWait = .quiet g v) :
    drainPound s s.cur.1 tn k = awaitQuiet true id s s.cur.1 tn k := by
  simp only [drainPound, asked]

theorem drainPound_first (first : notAsked tn) : drainPound s s.cur.1 tn k =
    if rootsDone s s.cur.1 then .stay ((flushTiles s s.cur.1).modTenure s.cur.1 (fun x => { x with lkWait := .quiet true .asked })) else .stay s := by
  unfold drainPound
  split
  case h_1 asked => exact absurd asked (first _ _)
  case h_2 => rw [awaitQuiet_asks first]

/-- The pound's windows and gates written back, once the memory that they have is reached (R292, R304, R357). -/
theorem writeBacks_reached {k : State → PStep} (h : reached s tn (leavingRanges s tn)) : writeBacks s s.cur.1 tn k =
    k (wakeWaiters (writeGates s.cur.1 tn.pasid (gateImages s s.cur.1 tn) (publish s.cur.1 tn true tn.leavingWins s))) :=
  withRanges_reached h

theorem notAsked_of_none (h : tn.lkWait = .none) : notAsked tn := fun g v asked => by rw [h] at asked; cases asked

/-- An instruction of the entered pound alone raises PASSAGE_STATE out of it. -/
theorem badPassage_eq : badPassage s s.cur.1 tn = .stay (engineFault s s.cur.1 0x0600 9 0xFFFFFF 0xFF (tn.lk.lpc.setWidth 64)) := rfl

end

/-! ### `enter` (R356) -/

section
variable {s : State} {tn : Tenure} {k : BitVec 12}

/-- The entry of a pound begins its own load. -/
theorem enter_begins (at_ : atPassage s tn 1) (out : tn.lk.lstate ≠ 1) (bound : endsBound tn k.toNat = true)
    (h : tn.load = none ∨ tn.lkWait ≠ .begun ∧ (tn.lk.lhint.toNat ≠ k.toNat ∨ tn.lk.ireq ≠ 0)) : exec (.enter k) s =
    .next (readLoad (s.modTenure s.cur.1 (fun x => { x with load := none, lkWait := .begun })) s.cur.1 k.toNat 0) := by
  change execEnter k s = _
  refine runPassage_stay at_.1 ?_
  have apart : (tn.lk.lstate == 1 || !endsBound tn k.toNat) = false := by
    rw [bound, Bool.not_true, Bool.or_false, beq_eq_false_iff_ne]
    exact out
  cases load : tn.load with
  | none => simp only [doEnter, apart, load, Bool.false_eq_true, if_false]
  | some l =>
    obtain none_ | ⟨waits, own⟩ := h
    · exact absurd (load.symm.trans none_) (Option.some_ne_none l)
    · have begins : ((tn.lk.lhint.toNat != k.toNat || tn.lk.ireq != 0) && tn.lkWait != .begun) = true := by
        simp only [Bool.and_eq_true, Bool.or_eq_true, bne_iff_ne]
        exact ⟨own, waits⟩
      simp only [doEnter, apart, load, begins, Bool.false_eq_true, if_false, if_true]

section
variable {l : Load} (at_ : atPassage s tn 1) (out : tn.lk.lstate ≠ 1) (bound : endsBound tn k.toNat = true) (load : tn.load = some l)
  (begun : tn.lkWait = .begun ∨ tn.lk.lhint.toNat = k.toNat ∧ tn.lk.ireq = 0)
include out bound load begun

/-- The load under way is the pound's own, or the hinted one. -/
theorem doEnter_loaded : doEnter k.toNat s s.cur.1 tn =
    if !l.committed then .stay s else withRanges s s.cur.1 tn (entryRanges tn l) (.next (switchPound s s.cur.1 tn l)) := by
  have apart : (tn.lk.lstate == 1 || !endsBound tn k.toNat) = false := by
    rw [bound, Bool.not_true, Bool.or_false, beq_eq_false_iff_ne]
    exact out
  have awaited : ((tn.lk.lhint.toNat != k.toNat || tn.lk.ireq != 0) && tn.lkWait != .begun) = false := by
    rw [Bool.and_eq_false_iff, Bool.or_eq_false_iff, bne_eq_false_iff_eq, bne_eq_false_iff_eq, bne_eq_false_iff_eq]
    exact begun.symm
  simp only [doEnter, apart, load, awaited, Bool.false_eq_true, if_false]

include at_

theorem enter_waits (loading : l.committed = false) : exec (.enter k) s = .next s := by
  change execEnter k s = _
  refine runPassage_stay at_.1 ((doEnter_loaded out bound load begun).trans ?_)
  rw [loading, Bool.not_false, if_pos rfl]

theorem enter_switches (committed : l.committed = true) (reach : reached s tn (entryRanges tn l)) :
    exec (.enter k) s = .next (passageAt (switchPound s s.cur.1 tn l) s.cur.1 (tn.lk.lpc.toNat + 1)) := by
  change execEnter k s = _
  refine runPassage_next at_ ((doEnter_loaded out bound load begun).trans ?_)
  rw [committed, Bool.not_true, if_neg Bool.false_ne_true, withRanges_reached reach]

end

theorem enter_refused (at_ : atPassage s tn 1) (h : tn.lk.lstate = 1 ∨ endsBound tn k.toNat = false) :
    exec (.enter k) s = .next (engineFault s s.cur.1 0x0600 9 0xFFFFFF 0xFF (tn.lk.lpc.setWidth 64)) := by
  change execEnter k s = _
  refine runPassage_stay at_.1 ((if_pos ?_).trans badPassage_eq)
  simpa only [Bool.or_eq_true, beq_iff_eq, Bool.not_eq_true'] using h

end

theorem passageEnter_holds : passageEnter :=
  ⟨fun _ _ _ at_ out bound => ⟨fun none_ => enter_begins at_ out bound (.inl none_), fun waits own => enter_begins at_ out bound (.inr ⟨waits, own⟩)⟩,
    fun _ _ _ _ at_ out bound load begun => ⟨enter_waits at_ out bound load begun, enter_switches at_ out bound load begun⟩,
    fun _ _ _ => enter_refused⟩

/-! ### `quiet`, the locks and `settle` (R355, R357, R359) -/

section
variable {s s' : State} {tn : Tenure} {f : State → Nat → Tenure → PStep} (entered : tn.lk.lstate = 1)
include entered

/-- In an entered pound an instruction of the pound is not refused. -/
theorem notRefused {x y : PStep} : (if tn.lk.lstate != 1 then x else y) = y :=
  if_neg (by simp only [entered, bne_self_eq_false, Bool.false_eq_true, not_false_eq_true])

variable {p : Bool} (at_ : atPassage s tn 1)
include at_

theorem quiet_asksWave (first : notAsked tn) :
    exec (.quiet p) s = .next (s.modTenure s.cur.1 (fun x => { x with lkWait := .quiet (!p) .asked })) :=
  show execQuiet p s = _ from runPassage_stay at_.1 ((notRefused entered).trans (awaitQuiet_asks first))

theorem quiet_waits {g : Bool} {v : QuietSt} (asked : tn.lkWait = .quiet g v) (runs : v ≠ .quiet) : exec (.quiet p) s = .next s :=
  show execQuiet p s = _ from runPassage_stay at_.1 ((notRefused entered).trans (awaitQuiet_runs asked runs))

theorem quiet_goesOn {g : Bool} (declared : tn.lkWait = .quiet g .quiet) :
    exec (.quiet p) s = .next (passageAt s s.cur.1 (tn.lk.lpc.toNat + 1)) :=
  show execQuiet p s = _ from runPassage_next at_ ((notRefused entered).trans (awaitQuiet_declared declared))

end

section
variable {s : State} {tn : Tenure} {hv : Bool} {k : BitVec 12} (entered : tn.lk.lstate = 1)

/-- A lock's drain, and what follows it (R357). -/
def lockDrain (s : State) (t : Nat) (tn : Tenure) : PStep :=
  drainPound s t tn (writeBacks s t tn (fun s => .next (modLk (leavePound (keepLeft s t tn) t) t (fun l => { l with lstate := 2 }))))

include entered

theorem doLock_hint (named : hv = true) (first : tn.lkWait = .none) : doLock hv k.toNat s s.cur.1 tn =
    let hinted := s.modTenure s.cur.1 (fun x => { x with lk := { x.lk with lhint := BitVec.ofNat 16 k.toNat }, lkWait := .begun })
    .stay (if tn.partner.isSome || (tn.lk.lhint.toNat == k.toNat && tn.load.isSome) then hinted
      else readLoad (hinted.modTenure s.cur.1 (fun x => { x with load := none, codePage := none })) s.cur.1 k.toNat 0) := by
  refine (notRefused entered).trans ?_
  simp only [first, named, if_true]

theorem doLock_asked {g : Bool} {v : QuietSt} (asked : tn.lkWait = .quiet g v) : doLock hv k.toNat s s.cur.1 tn = lockDrain s s.cur.1 tn := by
  refine (notRefused entered).trans ?_
  simp only [asked]
  rfl

/-- A lock that has not asked for a wave, with no hint to give first. -/
theorem doLock_first (first : notAsked tn) (noHint : hv = true → tn.lkWait ≠ .none) : doLock hv k.toNat s s.cur.1 tn =
    if rootsDone s s.cur.1 then .stay ((flushTiles s s.cur.1).modTenure s.cur.1 (fun x => { x with lkWait := .quiet true .asked })) else .stay s := by
  refine (notRefused entered).trans ?_
  split
  case h_1 none_ =>
    rw [if_neg (fun named => noHint named none_)]
    exact drainPound_first first
  case h_2 => exact drainPound_first first

variable (at_ : atPassage s tn 1)
include at_

theorem lock_drains (first : notAsked tn) (noHint : hv = true → tn.lkWait ≠ .none) :
    (rootsDone s s.cur.1 = false → exec (.lock hv k) s = .next s) ∧
    (rootsDone s s.cur.1 = true → exec (.lock hv k) s =
      .next ((flushTiles s s.cur.1).modTenure s.cur.1 (fun x => { x with lkWait := .quiet true .asked }))) :=
  ⟨fun due => show execLock hv k s = _ from
      runPassage_stay at_.1 ((doLock_first entered first noHint).trans (if_neg (Bool.eq_false_iff.mp due))),
    fun done => show execLock hv k s = _ from runPassage_stay at_.1 ((doLock_first entered first noHint).trans (if_pos done))⟩

theorem lock_hints (named : hv = true) (first : tn.lkWait = .none) :
    let hinted := s.modTenure s.cur.1 (fun x => { x with lk := { x.lk with lhint := BitVec.ofNat 16 k.toNat }, lkWait := .begun })
    (tn.partner ≠ none ∨ tn.lk.lhint.toNat = k.toNat ∧ tn.load ≠ none → exec (.lock hv k) s = .next hinted) ∧
    (tn.partner = none → (tn.lk.lhint.toNat ≠ k.toNat ∨ tn.load = none) → exec (.lock hv k) s =
      .next (readLoad (hinted.modTenure s.cur.1 (fun x => { x with load := none, codePage := none })) s.cur.1 k.toNat 0)) := by
  have stays {s' : State} (h : doLock hv k.toNat s s.cur.1 tn = .stay s') : exec (.lock hv k) s = .next s' :=
    show execLock hv k s = _ from runPassage_stay at_.1 h
  refine ⟨fun kept => stays ((doLock_hint entered named first).trans ?_), fun alone fresh => stays ((doLock_hint entered named first).trans ?_)⟩
  · refine congrArg PStep.stay (if_pos ?_)
    simpa only [Bool.or_eq_true, Bool.and_eq_true, Option.isSome_iff_ne_none, beq_iff_eq] using kept
  · refine congrArg PStep.stay (if_neg ?_)
    simp only [Bool.or_eq_true, Bool.and_eq_true, Option.isSome_iff_ne_none, beq_iff_eq]
    exact fun kept => kept.elim (· alone) (fun same => fresh.elim (· same.1) same.2)

theorem lock_waits {g : Bool} {v : QuietSt} (asked : tn.lkWait = .quiet g v) (runs : v ≠ .quiet) : exec (.lock hv k) s = .next s :=
  show execLock hv k s = _ from
    runPassage_stay at_.1 ((doLock_asked entered asked).trans ((drainPound_asked asked).trans (awaitQuiet_runs asked runs)))

theorem lock_leaves {g : Bool} (declared : tn.lkWait = .quiet g .quiet) (reach : reached s tn (leavingRanges s tn)) :
    exec (.lock hv k) s = .next (passageAt ((leavePound (keepLeft (wakeWaiters (writeGates s.cur.1 tn.pasid (gateImages s s.cur.1 tn)
      (publish s.cur.1 tn true tn.leavingWins s))) s.cur.1 tn) s.cur.1).modTenure s.cur.1 (fun x => { x with lk := { x.lk with lstate := 2 } }))
      s.cur.1 (tn.lk.lpc.toNat + 1)) :=
  show execLock hv k s = _ from runPassage_next at_ ((doLock_asked entered declared).trans
    ((drainPound_asked declared).trans ((awaitQuiet_declared declared).trans (writeBacks_reached reach))))

end

section
variable {s : State} {tn : Tenure} {w : BitVec 6} {x : WinE} (window : tn.g.wins.find? (fun e => e.wid == w.toNat) = some x)
include window

/-- `settle` of a window that the entered pound may settle. -/
theorem doSettle_own (entered : tn.lk.lstate = 1) (own : x.isLocal = true → x.pound = tn.lk.lpound.toNat) : doSettle w.toNat s s.cur.1 tn =
    awaitQuiet true (fun s => flushTiles s s.cur.1) s s.cur.1 tn
      (withRanges s s.cur.1 tn (publishRanges tn true x) (.next (wakeWaiters (publish s.cur.1 tn true [x] s)))) := by
  have allowed : (tn.lk.lstate != 1 || (x.isLocal && x.pound != tn.lk.lpound.toNat)) = false := by
    simpa only [entered, bne_self_eq_false, Bool.false_or, Bool.and_eq_false_imp, bne_eq_false_iff_eq] using own
  unfold doSettle
  simp only [window, allowed, Bool.false_eq_true, if_false]
  rfl

theorem settle_refused (at_ : atPassage s tn 1) (h : tn.lk.lstate ≠ 1 ∨ x.isLocal = true ∧ x.pound ≠ tn.lk.lpound.toNat) :
    exec (.settle w) s = .next (engineFault s s.cur.1 0x0600 9 0xFFFFFF 0xFF (tn.lk.lpc.setWidth 64)) := by
  have refused : (tn.lk.lstate != 1 || (x.isLocal && x.pound != tn.lk.lpound.toNat)) = true := by
    simpa only [Bool.or_eq_true, Bool.and_eq_true, bne_iff_ne] using h
  change execSettle w s = _
  refine runPassage_stay at_.1 (Eq.trans ?_ badPassage_eq)
  simp only [doSettle, window, refused, if_true]

end

/-- Out of a pound they raise PASSAGE_STATE. -/
theorem poundInstructions_refused {p hv : Bool} {k : BitVec 12} {w : BitVec 6} {s : State} {tn : Tenure} (at_ : atPassage s tn 1)
    (out : tn.lk.lstate ≠ 1) : ∀ i ∈ [Instr.quiet p, .lock hv k, .settle w],
    exec i s = .next (engineFault s s.cur.1 0x0600 9 0xFFFFFF 0xFF (tn.lk.lpc.setWidth 64)) := by
  have refused : (tn.lk.lstate != 1) = true := bne_iff_ne.mpr out
  simp only [List.forall_mem_cons, List.not_mem_nil, false_implies, implies_true, and_true]
  refine ⟨?_, ?_, ?_⟩
  · exact show execQuiet p s = _ from runPassage_stay at_.1 ((if_pos refused).trans badPassage_eq)
  · exact show execLock hv k s = _ from runPassage_stay at_.1 ((if_pos refused).trans badPassage_eq)
  · cases window : tn.g.wins.find? (fun e => e.wid == w.toNat) with
    | none =>
      change execSettle w s = _
      refine runPassage_stay at_.1 (Eq.trans ?_ badPassage_eq)
      simp only [doSettle, window]
    | some x => exact settle_refused window at_ (.inl out)

theorem passageQuietLockSettle_holds : passageQuietLockSettle := by
  refine ⟨fun p s tn at_ entered => ⟨quiet_asksWave entered at_, fun g v => quiet_waits entered at_, fun g => quiet_goesOn entered at_⟩,
    fun hv k s tn at_ entered first => ⟨lock_drains entered at_ first, lock_hints entered at_⟩,
    fun hv k s tn at_ entered => ⟨fun g v => lock_waits entered at_, fun g => lock_leaves entered at_⟩,
    fun w x s tn at_ entered window own => ?settles, fun p hv k w i named s tn at_ out => poundInstructions_refused at_ out i named,
    fun w x s tn at_ _ window isLocal apart => settle_refused window at_ (.inr ⟨isLocal, apart⟩)⟩
  case settles =>
    have settles := doSettle_own (s := s) window entered own
    refine ⟨fun first => ?_, fun g v asked runs => ?_, fun g declared reach => ?_⟩
    · exact show execSettle w s = _ from runPassage_stay at_.1 (settles.trans (awaitQuiet_asks first))
    · exact show execSettle w s = _ from runPassage_stay at_.1 (settles.trans (awaitQuiet_runs asked runs))
    · exact show execSettle w s = _ from
        runPassage_next at_ (settles.trans ((awaitQuiet_declared declared).trans (withRanges_reached reach)))

end Sys2Proof.Machine

/-! PROOFS. `done` and `fault`: the course of retirement, and what it leaves (R65, R66, R77, R366). -/

namespace Sys2Proof.Machine

/-! ### Retirement leaves the tenure's queues, subtrees and planes to others (R65, R66, R71, R77) -/

/-- A virtual queue that the tenure had bound is free, and keeps its records. -/
def VqRt.released (q : VqRt) (t : Nat) : VqRt :=
  match q.bound with
  | some (o, _) => if o = t then { q with bound := none, counted := 0 } else q
  | none => q

theorem releaseBinds_vqs (s : State) (t : Nat) : (releaseBinds s t).vqs = s.vqs.map (fun e => (e.1, e.2.released t)) := by
  refine List.map_congr_left fun e _ => ?_
  cases bound : e.2.bound with
  | none => simp only [VqRt.released, bound]
  | some p => by_cases mine : p.1 = t <;> simp [VqRt.released, bound, mine]

theorem withSub_sub_ne {s : State} {j k : Nat} (x : SubRt) (h : k ≠ j) : (withSub s j x).sub k = s.sub k := by
  simp only [withSub, State.sub, Map.getD, Map.get?_set_ne _ _ _ _ h]

/-- A subtree that tenure `t` has left, at cycle `now`, owing what was sent before message `m` (R77). -/
def SubRt.leftBy (x : SubRt) (t m now : Nat) : SubRt :=
  if x.owners == [t] then { x with owed := x.owed ++ [(t, m)], st := .draining, since := now }
  else { x with owed := x.owed ++ [(t, m)], owners := x.owners.filter (fun o => o != t) }

theorem SubRt.leftBy_alone {x : SubRt} {t : Nat} (m now : Nat) (alone : x.owners = [t]) :
    (x.leftBy t m now).owners = [t] ∧ (x.leftBy t m now).st = .draining ∧ (x.leftBy t m now).since = now := by
  rw [leftBy, if_pos (beq_iff_eq.mpr alone)]
  exact ⟨alone, rfl, rfl⟩

theorem leaveSubs_cons (s : State) (t j : Nat) (ks : List Nat) :
    leaveSubs t (j :: ks) s = leaveSubs t ks (withSub s j ((s.sub j).leftBy t s.nextMsg (subNow s j))) := rfl

/-- A subtree that the tenure alone holds drains from now on, whatever else it leaves with it. -/
theorem leaveSubs_drains {t k : Nat} {ks : List Nat} {s : State} (alone : (s.sub k).owners = [t])
    (h : k ∈ ks ∨ (s.sub k).st = .draining ∧ (s.sub k).since = subNow s k) :
    ((leaveSubs t ks s).sub k).st = .draining ∧ ((leaveSubs t ks s).sub k).since = subNow s k := by
  induction ks generalizing s with
  | nil => exact h.resolve_left List.not_mem_nil
  | cons j ks ih =>
    rw [leaveSubs_cons]
    by_cases here : k = j
    · subst here
      obtain ⟨owners, drains⟩ := SubRt.leftBy_alone s.nextMsg (subNow s k) alone
      exact ih ((congrArg SubRt.owners (withSub_sub_self s k _)).trans owners) (.inr (by rw [withSub_sub_self]; exact drains))
    · have other := withSub_sub_ne (s := s) ((s.sub j).leftBy t s.nextMsg (subNow s j)) here
      refine ih ((congrArg SubRt.owners other).trans alone) ?_
      rw [other]
      exact h.imp_left (fun mem => (List.mem_cons.mp mem).resolve_left here)

/-- What leaving subtrees leaves as it is. -/
theorem leaveSubs_rest (t : Nat) (ks : List Nat) (s : State) : ∃ m, leaveSubs t ks s = { s with subtrees := m } := by
  induction ks generalizing s with
  | nil => exact ⟨s.subtrees, rfl⟩
  | cons k ks ih =>
    obtain ⟨m, same⟩ := ih (withSub s k ((s.sub k).leftBy t s.nextMsg (subNow s k)))
    exact ⟨m, same⟩

section
variable {s : State} {t : Nat} {tn : Tenure} (tenure : s.tenures.get? t = some tn)
include tenure

theorem leaveRegion_queues : (leaveRegion s t).queues = s.queues ∧ (leaveRegion s t).vqs = s.vqs := by
  cases region : tn.region with
  | none => simp only [leaveRegion, tenure, region, and_self]
  | some r =>
    obtain ⟨m, rest⟩ := leaveSubs_rest t r.subtrees s
    cases partner : tn.partner <;> simp [leaveRegion, tenure, region, partner, rest]

theorem leaveRegion_subtrees {r : Region} (region : tn.region = some r) : (leaveRegion s t).subtrees = (leaveSubs t r.subtrees s).subtrees := by
  cases partner : tn.partner <;> simp [leaveRegion, tenure, region, partner]

theorem leaveRegion_plane {r : Region} {p : Nat} (region : tn.region = some r) (partner : tn.partner = some p) :
    (leaveRegion s t).planes.get? r.first = some { region := r, t := t, zeroing := false, bound := s.nextMsg, since := s.nowOn tn.baseDie } := by
  simp [leaveRegion, tenure, region, partner, Map.get?_set_self]

end

/-! ### The completions of its LAUNCH (R65, R66) -/

/-- A completion waits behind those that wait already. -/
theorem addCpl_pending {s : State} {q idx status w3hi : Nat} {result detail : W64} {fin joined : Bool} {x : QueueRt} {c : Cmd}
    (queue : s.queues.get? q = some x) (cmd : x.cmd? idx = some c) :
    ∃ y, (addCpl s q idx status result detail w3hi fin joined).queues.get? q = some y ∧
      y.pending = x.pending ++ [completionOf c idx status result detail w3hi fin joined] ∧ (fin = false → y.cmd? idx = some c) := by
  have same : (if fin then leaveAsks s (fun l => l == .command q idx) else s).queues = s.queues := by cases fin <;> rfl
  refine ⟨_, by rw [addCpl, State.modQueue_queues, same, Map.get?_modify_self, queue]; rfl, ?_, fun pending => ?_⟩
  · simp only [cmd]
    rfl
  · simp only [cmd, pending]
    exact cmd

/-- The completion with fin = 0 of a LAUNCH that still has to come. -/
def firstDue (tn : Tenure) (c : Cmd) : List Cpl :=
  if tn.fin0 then [] else [completionOf c tn.cmd 0 (BitVec.ofNat 64 tn.handle) 0 0 false false]

section
variable {s : State} {t : Nat} {tn : Tenure} (tenure : s.tenures.get? t = some tn)
include tenure

theorem launchFirst_pending {x : QueueRt} {c : Cmd} (queue : s.queues.get? tn.queue = some x) (cmd : x.cmd? tn.cmd = some c) :
    ∃ y, (launchFirst s t).queues.get? tn.queue = some y ∧ y.pending = x.pending ++ firstDue tn c ∧ y.cmd? tn.cmd = some c := by
  cases written : tn.fin0 with
  | true =>
    refine ⟨x, ?_, ?_, cmd⟩
    · simp only [launchFirst, tenure, written, if_true, queue]
    · simp only [firstDue, written, if_true, List.append_nil]
  | false =>
    obtain ⟨y, queue', pending, kept⟩ := addCpl_pending (status := stOk) (result := BitVec.ofNat 64 tn.handle) (detail := 0) (w3hi := 0)
      (fin := false) (joined := false) queue cmd
    refine ⟨y, ?_, ?_, kept rfl⟩
    · simp only [launchFirst, tenure, written, Bool.false_eq_true, if_false]
      exact queue'
    · simp only [firstDue, written, Bool.false_eq_true, if_false]
      exact pending

/-- The first completion changes the tenure's note of it alone. -/
theorem launchFirst_tenure : (launchFirst s t).tenures.get? t = some { tn with fin0 := true } := by
  cases written : tn.fin0 with
  | true =>
    have same : { tn with fin0 := true } = tn := by rw [← written]
    simp only [launchFirst, tenure, written, if_true, same]
  | false =>
    have kept : (addCpl s tn.queue tn.cmd stOk (BitVec.ofNat 64 tn.handle) 0 0 false false).tenures = s.tenures := rfl
    simp only [launchFirst, tenure, written, Bool.false_eq_true, if_false, State.modTenure_tenures, kept, Map.get?_modify_self, Option.map_some]

theorem launchLast_pending {x : QueueRt} {c : Cmd} (status : Nat) (result detail : W64) (queue : s.queues.get? tn.queue = some x)
    (cmd : x.cmd? tn.cmd = some c) : ∃ y, (launchLast s t status result detail).queues.get? tn.queue = some y ∧
      y.pending = x.pending ++ firstDue tn c ++ [completionOf c tn.cmd status result detail tn.homeOr.toNat true (!tn.fin0)] := by
  obtain ⟨y, queue', pending, kept⟩ := launchFirst_pending tenure queue cmd
  obtain ⟨z, last, behind, -⟩ := addCpl_pending (status := status) (result := result) (detail := detail) (w3hi := tn.homeOr.toNat) (fin := true)
    (joined := !tn.fin0) queue' kept
  refine ⟨z, ?_, by rw [behind, pending]⟩
  simp only [launchLast, tenure]
  exact last

end

/-- What the completions of a LAUNCH leave as it is. -/
def State.beyondLaunch (s : State) : State := { s with queues := [], tenures := [], pageReqs := [], pageFails := [] }

theorem addCpl_beyond (s : State) (q idx status w3hi : Nat) (result detail : W64) (fin joined : Bool) :
    (addCpl s q idx status result detail w3hi fin joined).beyondLaunch = s.beyondLaunch := by
  cases fin <;> rfl

theorem launchFirst_beyond (s : State) (t : Nat) : (launchFirst s t).beyondLaunch = s.beyondLaunch := by
  unfold launchFirst
  split
  case h_1 tn _ =>
    split
    case isTrue => rfl
    case isFalse => exact addCpl_beyond s tn.queue tn.cmd stOk 0 (BitVec.ofNat 64 tn.handle) 0 false false
  case h_2 => rfl

theorem launchLast_beyond (s : State) (t status : Nat) (result detail : W64) :
    (launchLast s t status result detail).beyondLaunch = s.beyondLaunch := by
  unfold launchLast
  split
  case h_1 => exact (addCpl_beyond _ _ _ _ _ _ _ _ _).trans (launchFirst_beyond s t)
  case h_2 => rfl

theorem launchLast_tenure {s : State} {t : Nat} {tn : Tenure} (tenure : s.tenures.get? t = some tn) (status : Nat) (result detail : W64) :
    (launchLast s t status result detail).tenures.get? t = some { tn with fin0 := true } := by
  simp only [launchLast, tenure]
  exact launchFirst_tenure tenure

/-! ### Retirement (R366) -/

@[simp] theorem removeTenure_queues (s : State) (t : Nat) : (removeTenure s t).queues = s.queues := rfl
@[simp] theorem removeTenure_vqs (s : State) (t : Nat) : (removeTenure s t).vqs = s.vqs := rfl
@[simp] theorem removeTenure_subtrees (s : State) (t : Nat) : (removeTenure s t).subtrees = s.subtrees := rfl
@[simp] theorem removeTenure_planes (s : State) (t : Nat) : (removeTenure s t).planes = s.planes := rfl
@[simp] theorem removeTenure_tenures (s : State) (t : Nat) : (removeTenure s t).tenures = s.tenures.erase t := rfl

theorem retire_retiredTo {s : State} {t : Nat} {tn : Tenure} (tenure : s.tenures.get? t = some tn) (status : Nat) (result detail : W64) :
    retiredTo s (retire s t status result detail) t tn status result detail := by
  -- the state in which the LAUNCH has its completions, and the tenure still its region
  generalize completed : launchLast (releaseBinds s t) t status result detail = s1
  have left : retire s t status result detail = removeTenure (leaveRegion s1 t) t := by rw [← completed]; rfl
  have tenure1 : s1.tenures.get? t = some { tn with fin0 := true } := completed ▸ launchLast_tenure (s := releaseBinds s t) tenure status result detail
  have beyond : s1.beyondLaunch = (releaseBinds s t).beyondLaunch := completed ▸ launchLast_beyond _ _ _ _ _
  have same {α : Type} (f : State → α) : f s1.beyondLaunch = f (releaseBinds s t).beyondLaunch := congrArg f beyond
  have subs (k : Nat) : s1.sub k = s.sub k := same (fun u => u.sub k)
  have now (k : Nat) : subNow s1 k = subNow s k := same (fun u => subNow u k)
  obtain ⟨queues, vqs⟩ := leaveRegion_queues tenure1
  rw [left]
  refine ⟨?gone, ?released, ?drains, ?plane, ?completions⟩
  case gone => rw [removeTenure_tenures, Map.get?_erase, if_pos rfl]
  case released =>
    intro id q known
    have released : s1.vqs = s.vqs.map (fun e => (e.1, e.2.released t)) := (same State.vqs).trans (releaseBinds_vqs s t)
    rw [removeTenure_vqs, vqs, released, Map.get?_mapVal s.vqs (fun _ q => q.released t), known]
    rfl
  case drains =>
    intro r region k mem alone
    have drains := leaveSubs_drains (ks := r.subtrees) ((congrArg SubRt.owners (subs k)).trans alone) (.inl mem)
    have sub : (removeTenure (leaveRegion s1 t) t).sub k = (leaveSubs t r.subtrees s1).sub k := by
      simp only [State.sub, removeTenure_subtrees, leaveRegion_subtrees tenure1 region]
    rw [sub, ← now k]
    exact drains
  case plane =>
    intro r p region partner
    have plane := leaveRegion_plane tenure1 region partner
    have next : s1.nextMsg = s.nextMsg := same State.nextMsg
    have since : s1.nowOn tn.baseDie = s.nowOn tn.baseDie := same (fun u => u.nowOn tn.baseDie)
    rw [removeTenure_planes, plane, next]
    exact congrArg (fun n => some (PlaneRt.mk r t false s.nextMsg n)) since
  case completions =>
    intro x c queue cmd
    obtain ⟨y, queue1, pending⟩ := launchLast_pending (s := releaseBinds s t) tenure status result detail queue cmd
    rw [completed] at queue1
    refine ⟨y, ?_, pending⟩
    rw [removeTenure_queues, queues, queue1]

/-! ### The course of `done` and `fault` (R366) -/

section
variable {i : Instr} {status : Nat} {result detail : Tenure → W64} (runs : ∀ s, exec i s = runPassage 1 (doRetire status result detail) s)

/-- The last write-backs of a tenure, after which it awaits the confirming read. -/
def lastWrites (s : State) (t : Nat) (tn : Tenure) : PStep :=
  writeBacks s t tn (fun s => .stay ((dropGates t s).modTenure t (fun x => { x with lkWait := .confirm })))

section
variable {s : State} {tn : Tenure}

theorem lastWrites_reached (reach : reached s tn (leavingRanges s tn)) : lastWrites s s.cur.1 tn =
    .stay ((dropGates s.cur.1 (wakeWaiters (writeGates s.cur.1 tn.pasid (gateImages s s.cur.1 tn) (publish s.cur.1 tn true tn.leavingWins s)))).modTenure
      s.cur.1 (fun x => { x with lkWait := .confirm })) :=
  writeBacks_reached (k := fun s' => .stay ((dropGates s.cur.1 s').modTenure s.cur.1 (fun x => { x with lkWait := .confirm }))) reach

/-- A tenure that has left its pound writes back at once. -/
theorem doRetire_left (left : tn.lk.lstate = 2) (first : tn.lkWait = .none) :
    doRetire status result detail s s.cur.1 tn = lastWrites s s.cur.1 tn := by
  simp only [doRetire, first]
  exact if_pos (beq_iff_eq.mpr left)

/-- Within a pound, or before any, it drains first. -/
theorem doRetire_drains (within : tn.lk.lstate ≠ 2) (h : tn.lkWait = .none ∨ ∃ g v, tn.lkWait = .quiet g v) :
    doRetire status result detail s s.cur.1 tn = drainPound s s.cur.1 tn (lastWrites s s.cur.1 tn) := by
  have undecided : ¬ (tn.lk.lstate == 2) = true := fun left => within (eq_of_beq left)
  obtain first | ⟨g, v, asked⟩ := h
  · simp only [doRetire, first]
    exact if_neg undecided
  · simp only [doRetire, asked]
    exact if_neg undecided

end

include runs

theorem retireCourse_holds : retireCourse i status result detail := by
  intro s tn tenure
  have stays {s' : State} (h : doRetire status result detail s s.cur.1 tn = .stay s') : exec i s = .next s' :=
    (runs s).trans (runPassage_stay tenure h)
  refine ⟨fun within first => ?drains, fun g v within asked running => ?waits, fun way reach => ?writes, fun confirm => ?confirms,
    fun begun => ?retires⟩
  case drains =>
    have drains := (doRetire_drains (s := s) (status := status) (result := result) (detail := detail) within (.inl first)).trans
      (drainPound_first (notAsked_of_none first))
    exact ⟨fun due => stays (drains.trans (if_neg (Bool.eq_false_iff.mp due))), fun done => stays (drains.trans (if_pos done))⟩
  case waits =>
    exact stays ((doRetire_drains within (.inr ⟨g, v, asked⟩)).trans ((drainPound_asked asked).trans (awaitQuiet_runs asked running)))
  case writes =>
    refine stays (Eq.trans ?_ (lastWrites_reached reach))
    obtain ⟨left, first⟩ | ⟨within, g, declared⟩ := way
    · exact doRetire_left left first
    · exact (doRetire_drains within (.inr ⟨g, .quiet, declared⟩)).trans ((drainPound_asked declared).trans (awaitQuiet_declared declared))
  case confirms => exact stays (by simp only [doRetire, confirm])
  case retires =>
    refine ⟨_, (runs s).trans (runPassage_retired tenure ?_), retire_retiredTo tenure status (result tn) (detail tn)⟩
    simp only [doRetire, begun]

end

/-- Settles O37: both instructions run the course of `doRetire`, whose end leaves what `retire` does. -/
theorem passageRetires : Obligations.PassageRetires :=
  ⟨retireCourse_holds (fun _ => rfl), fun v => retireCourse_holds (i := .fault v) (fun _ => rfl)⟩

end Sys2Proof.Machine

/-! PROOFS. A window's image keeps no Reserved bit of a flag byte (R9, R122, R291). -/

namespace Sys2Proof.Machine

theorem flagsOf_reserved (b : Byte) : (flagsOf b).getLsbD 7 = false := by
  simp only [flagsOf, BitVec.getLsbD_and]
  have mask : (0x3F : Byte).getLsbD 7 = false := by decide
  rw [mask, Bool.and_false]

theorem imageAw_reserved (bs : List Byte) (i : Nat) : (imageAw bs i).2.getLsbD 7 = false := flagsOf_reserved _

/-- The words of a window whose flag bytes have every bit set, the two Reserved ones too. -/
def overflagged : Nat → Aw := fun _ => (0, 0xFF)

/-- Refutes O36, by the clause on the words of a window's image (`writtenBack`): it takes a window's words from every function to a word and a
flag byte, and says that the image reads as those words. The flag byte that is read has its Reserved bits 0 (R9, R122), so one with such a bit set,
as in every word of `overflagged`, reads as another. (No flag that the model sets has such a bit. The parts on `enter` and on `quiet`, `lock` and
`settle` hold: `passageEnter_holds`, `passageQuietLockSettle_holds`.) -/
theorem not_passageEnterAndLeave : ¬ Obligations.PassageEnterAndLeave := by
  rintro ⟨-, -, -, words, -⟩
  obtain ⟨-, reads, -⟩ := words (List.replicate 256 0) 1 overflagged 0 (List.length_replicate.trans (by decide))
  have flag := imageAw_reserved (winImage (List.replicate 256 0) 1 overflagged) 0
  rw [reads (by decide)] at flag
  exact absurd flag (by decide)

end Sys2Proof.Machine

/-! PROOFS. What the management controller answers (R402, R403, R406). -/

namespace Sys2Proof.Machine

/-! ### The answers of a powered module -/

theorem answer_powered {s : State} (powered : s.powered = true) (type code : Nat) (body : List Nat) :
    answer s type code body = answered s type code body := by
  rw [answer, if_pos powered]; rfl

theorem spdm_powered {s : State} (powered : s.powered = true) (code : Nat) (body : List Nat) :
    spdm s code body = answered s 0x05 code body := answer_powered powered ..

theorem takeNat_answer {s : State} (powered : s.powered = true) (type code : Nat) (body : Nat → List Nat) :
    takeNat s (fun x s => answer s type code (body x)) =
      answered { s with freeCtr := s.freeCtr + 1 } type code (body (Config.freeNat s.freeCtr)) :=
  answer_powered (s := { s with freeCtr := s.freeCtr + 1 }) powered ..

/-! ### A budget set over MCTP (R28) -/

theorem setBudget_powered (d : Nat) (w : W32) (s : State) : (setBudget d w s).powered = s.powered := by
  unfold setBudget
  split
  · split <;> rfl
  · rfl

theorem setBudget_mctp (d : Nat) (w : W32) (s : State) : (setBudget d w s).mctp = s.mctp := by
  unfold setBudget
  split
  · split <;> rfl
  · rfl

theorem setBudget_noDie {d : Nat} (beyond : ¬ d < 4) (w : W32) (s : State) : setBudget d w s = s := dif_neg beyond

theorem exec_setBudget {s : State} {d : Nat} {w : W32} (subj : s.subj = .die d w) (powered : s.powered = true) :
    exec .setBudget s = .next (answered (setBudget d w s) 0x7F 0x11 []) := by
  have answers := answer_powered ((setBudget_powered d w s).trans powered) 0x7F 0x11 []
  show execSetBudget s = _
  simp only [execSetBudget, subj, if_pos powered, answers]

theorem exec_setBudget_effect {s : State} {d : Nat} {w : W32} (subj : s.subj = .die d w) (powered : s.powered = true) :
    ∃ t, exec .setBudget s = .next t ∧ t.mctp = s.mctp ++ [{ type := 0x7F, code := 0x11, body := [] }] ∧
      (∀ h : d < 4, 600 ≤ w.toNat → w.toNat ≤ 1250 → otherBudgets s d + w.toNat ≤ 5000 → (t.gov[d]).budget = w) ∧
      ((w.toNat < 600 ∨ 1250 < w.toNat ∨ 5000 < otherBudgets s d + w.toNat) → t.gov = s.gov) := by
  refine ⟨_, exec_setBudget subj powered, congrArg (· ++ _) (setBudget_mctp d w s), fun die lo hi sum => ?_, fun bad => ?_⟩
  · have taken := setBudget_taken (d := ⟨d, die⟩) lo hi sum
    simp only at taken
    simp [answered, taken]
  · have ignored : setBudget d w s = s := by
      by_cases die : d < 4
      · exact setBudget_ignored (d := ⟨d, die⟩) bad
      · exact setBudget_noDie die w s
    exact (congrArg State.gov ignored : (setBudget d w s).gov = s.gov)

/-! ### Challenges and measurements (R402, R403) -/

theorem exec_challenge {s : State} {nonce : BitVec 256} (subj : s.subj = .challenge 0 nonce) (powered : s.powered = true) :
    exec .challenge s = .next (match s.dawn.seed with
      | some k => answered s 0x05 6 [(Config.spdmSign k [6, nonce.toNat, (Config.sha256 s.certificate).toNat]).toNat]
      | none => answered s 0x05 0 [6]) := by
  show execChallenge s = _
  cases seed : s.dawn.seed <;> simp only [execChallenge, subj, seed, spdm_powered powered, if_pos]

/-- A measurement of one index of the attestation log. -/
theorem exec_getMeasurements {s : State} {idx : Nat} {signed : Bool} {nonce : BitVec 256}
    (subj : s.subj = .measurements idx signed nonce) (powered : s.powered = true) (lo : 1 ≤ idx) (hi : idx ≤ 8) :
    exec .getMeasurements s = .next (if signed = false then answered s 0x05 7 [s.measurement idx]
      else match s.dawn.seed with
        | some k => answered s 0x05 7 [s.measurement idx, (Config.spdmSign k [7, nonce.toNat, s.measurement idx]).toNat]
        | none => answered s 0x05 0 [7]) := by
  have number : idx ≠ 0 := by omega
  have all : idx ≠ 255 := by omega
  have known : ¬ (8 < idx ∧ idx ≠ 255) := by omega
  show execGetMeasurements s = _
  simp only [execGetMeasurements, subj, spdm_powered powered, if_neg number, if_neg all, if_neg known]
  cases signed <;> rfl

/-- Settles O58: each message is answered as the controller's function has it, once the module is powered; the budget is taken or ignored as R28 has it. -/
theorem managementAnswers : Obligations.ManagementAnswers := by
  unfold Obligations.ManagementAnswers
  refine ⟨fun s powered => ⟨?status, ?cycle, ?version, ?capabilities, ?algorithms, ?digests⟩,
    fun s d w subj powered => exec_setBudget_effect subj powered, fun s c subj powered => ?control,
    fun s off len subj powered => ?certificate, fun s nonce subj powered => ⟨fun k seed => ?challenged, fun failed => ?unchallenged⟩,
    fun s idx signed nonce subj powered lo hi => ⟨?plain, ?signed, ?unsigned⟩⟩
  case status => exact congrArg Host.Outcome.next (takeNat_answer powered 0x7F 0x10 (fun temp => s.dawn.status.toNat :: temp :: _))
  case cycle =>
    show execPowerCycleRequest s = _
    rw [execPowerCycleRequest, if_pos powered, answer_powered powered]
  case version => exact congrArg Host.Outcome.next (spdm_powered powered ..)
  case capabilities => exact congrArg Host.Outcome.next (takeNat_answer powered 0x05 2 (fun x => [x]))
  case algorithms => exact congrArg Host.Outcome.next (spdm_powered powered ..)
  case digests => exact congrArg Host.Outcome.next (spdm_powered powered ..)
  case control =>
    have answers : execMctpControlMessage s = .next (takeNat s (fun x s => answer s 0x00 c.toNat [x])) := by
      simp only [execMctpControlMessage, subj]
    exact answers.trans (congrArg Host.Outcome.next (takeNat_answer powered 0x00 c.toNat (fun x => [x])))
  case certificate =>
    show execGetCertificate s = _
    simp only [execGetCertificate, subj, if_pos, spdm_powered powered]
  case challenged => rw [exec_challenge subj powered, seed]
  case unchallenged => rw [exec_challenge subj powered, failed]
  case plain =>
    intro plain
    rw [exec_getMeasurements subj powered lo hi, if_pos plain]
  case signed =>
    intro k signed seed
    rw [exec_getMeasurements subj powered lo hi, if_neg (by simp [signed]), seed]
  case unsigned =>
    intro signed failed
    rw [exec_getMeasurements subj powered lo hi, if_neg (by simp [signed]), failed]

end Sys2Proof.Machine

/-! PROOFS. Die links (R392 to R395), the outside links (R388, R389, R396), and the stages of dawn (R397 to R405). -/

namespace Sys2Proof.Machine

/-! ### A flit that the wire has not changed (R392, R393) -/

theorem Flit.body_lt (f : Flit) : f.body < 2 ^ 544 := by
  have payload := f.payload.isLt
  have number := f.fseq.isLt
  have ack := f.ack.isLt
  unfold Flit.body
  split <;> omega

/-- No bit of a flit is changed. -/
theorem noise_none : (0 : BitVec 576).toNat = 0 := BitVec.toNat_zero

theorem Flit.crcHolds_unchanged (f : Flit) : f.crcHolds 0 = true := by
  have body : f.bits % 2 ^ 544 = f.body := by
    rw [Flit.bits, Nat.add_mul_mod_self_right, Nat.mod_eq_of_lt f.body_lt]
  have crc : f.bits / 2 ^ 544 = (crc32c 544 f.body).toNat := by
    rw [Flit.bits, Nat.add_mul_div_right _ _ (Nat.two_pow_pos 544), Nat.div_eq_of_lt f.body_lt, Nat.zero_add]
  simp only [Flit.crcHolds, noise_none, Nat.xor_zero, body, crc, BitVec.ofNat_toNat, BitVec.setWidth_eq, beq_self_eq_true]

theorem Flit.seqRead_unchanged (f : Flit) : f.seqRead 0 = f.fseq := by
  have payload := f.payload.isLt
  have number := f.fseq.isLt
  have read : f.bits / 2 ^ 512 % 2 ^ 10 = f.fseq.toNat := by
    unfold Flit.bits Flit.body
    split <;> omega
  apply BitVec.eq_of_toNat_eq
  rw [Flit.seqRead, noise_none, Nat.xor_zero, BitVec.toNat_ofNat, read]

/-! ### A flit received (R393 to R395) -/

section
variable {s : State} {src dst k : Nat} {m : ModRt} {f : Flit} {rest : List Flit} {noise : BitVec 576}

/-- The flit is off the wire. -/
def flitTaken (s : State) (src dst k : Nat) (rest : List Flit) : State :=
  modWay s src dst k (fun m => { m with wire := rest, received := m.received + 1 })

/-- The packet of an accepted flit, which is its last, taken at the receiver. -/
def packetTaken (s : State) (src dst : Nat) (p : Packet) : State :=
  let arrived := packetArrives (s.linkOf src dst) s p
  { arrived.2 with links := arrived.2.links.set (linkKey src dst) arrived.1 }

theorem exec_flitReceive (subj : s.subj = .flit src dst k noise) : exec .flitReceive s = .next (flitReceive src dst k noise s) := by
  show execFlitReceive s = _
  simp only [execFlitReceive, subj]

theorem packetTaken_pumped (s : State) (p : Packet) :
    (match packetArrives (s.linkOf src dst) s p with
      | (l, u) => pumpLink { u with links := u.links.set (linkKey src dst) l } src dst) = pumpLink (packetTaken s src dst p) src dst := by
  unfold packetTaken
  generalize packetArrives (s.linkOf src dst) s p = arrived
  obtain ⟨l, u⟩ := arrived
  rfl

/-- The flit that stands next fails its CRC, is the expected one, or is another; each answer is written for the flit off the wire. -/
theorem flitReceive_next (next : nextFlit s src dst k m f rest) : flitReceive src dst k noise s =
    if f.crcHolds noise = false then
      pumpLink (crcFailure (modWay (flitTaken s src dst k rest) src dst k ModRt.replayed) src dst k) src dst
    else if f.seqRead noise = m.expect then
      let s1 := modWay (flitTaken s src dst k rest) src dst k ModRt.accepted
      if f.part + 1 = f.pkt.flits then pumpLink (packetTaken s1 src dst f.pkt) src dst else pumpLink s1 src dst
    else if (m.expect - f.seqRead noise).toNat ≤ 512 then pumpLink (flitTaken s src dst k rest) src dst
    else pumpLink (modWay (flitTaken s src dst k rest) src dst k ModRt.replayed) src dst := by
  obtain ⟨mod, sends, wire⟩ := next
  unfold flitReceive
  split
  case h_1 none => rw [mod] at none; contradiction
  case h_2 m' mod' =>
    obtain rfl : m' = m := Option.some.inj (mod'.symm.trans mod)
    split
    case h_1 empty => rw [wire] at empty; contradiction
    case h_2 f' rest' wire' =>
      obtain ⟨rfl, rfl⟩ := List.cons.inj (wire'.symm.trans wire)
      rw [if_neg (by simp [sends])]
      extract_lets s1 s2
      cases crc : f'.crcHolds noise
      · rw [if_pos (by rfl), if_pos rfl]
        rfl
      · rw [if_neg (show ¬ (!true) = true by decide), if_neg (show ¬ true = false by decide)]
        by_cases number : f'.seqRead noise = m'.expect
        · rw [if_pos number, if_pos number]
          by_cases whole : f'.part + 1 = f'.pkt.flits
          · rw [if_pos whole, if_pos whole]
            exact packetTaken_pumped _ _
          · rw [if_neg whole, if_neg whole]
            rfl
        · rw [if_neg number, if_neg number]
          rfl

end

/-! ### Pair-sequence order (R394) -/

theorem seqBefore_iff {a b : Nat} (hb : b < 4294967296) :
    seqBefore a b = true ↔ ∃ d, 0 < d ∧ d ≤ 2147483648 ∧ b = (a + d) % 4294967296 := by
  simp only [seqBefore, Bool.and_eq_true, decide_eq_true_eq]
  constructor
  · rintro ⟨pos, near⟩
    exact ⟨_, pos, near, by omega⟩
  · rintro ⟨d, pos, near, rfl⟩
    omega

theorem seqBefore_self (a : Nat) : seqBefore a a = false := by
  have none : (a + 4294967296 - a % 4294967296) % 4294967296 = 0 := by omega
  simp [seqBefore, none]

theorem packetArrives_late {l : LinkRt} {p : Packet} (late : seqBefore p.pseq l.expect = true) (s : State) : packetArrives l s p = (l, s) := by
  simp only [packetArrives, late, Bool.true_or, if_true]

theorem packetArrives_expected {l : LinkRt} {p : Packet} (number : p.pseq = l.expect) (held : l.held = [])
    (s : State) : packetArrives l s p = ({ l with expect := (l.expect + 1) % 4294967296 }, crossed s p.msg) := by
  simp [packetArrives, number, seqBefore_self, held, handOn]

/-! ### Modules that retrain, and that retire (R395) -/

section
variable {s : State} {src dst k : Nat} {m : ModRt}

theorem exec_retrainComplete {ok : Bool} (subj : s.subj = .retrain src dst k ok) (mod : (s.linkOf src dst).mods[k]? = some m)
    (retraining : m.st = .retraining) :
    exec .retrainComplete s = .next (if ok = true then
      pumpPair (logModule (modModule s src dst k
        (fun m => { m with st := .half, wasHalf := true, nak := false, wire := m.replay })) src dst k .half) src dst
      else retireModule s src dst k) := by
  have trains : (m.st != .retraining) = false := by rw [retraining]; rfl
  show execRetrainComplete s = _
  simp only [execRetrainComplete, subj, retrainComplete, mod, trains, Bool.false_eq_true, if_false]

theorem linkOf_set (s : State) (src dst : Nat) (l : LinkRt) :
    ({ s with links := s.links.set (linkKey src dst) l } : State).linkOf src dst = l := Map.getD_set_self ..

theorem retireWay_link (mod : (s.linkOf src dst).mods[k]? = some m) : (retireWay s src dst k).linkOf src dst =
    { s.linkOf src dst with mods := (s.linkOf src dst).mods.set k { m with st := .retired, replay := [], wire := [] },
                            queue := packetsOf m.replay ++ (s.linkOf src dst).queue } := by
  simp only [retireWay, mod, linkOf_set]

theorem pumpLink_dead (dead : ∀ m ∈ (s.linkOf src dst).mods, m.st = .retired) : pumpLink s src dst =
    writeOffAll src dst ((s.linkOf src dst).held ++ (s.linkOf src dst).queue)
      { s with links := s.links.set (linkKey src dst) { s.linkOf src dst with held := [], queue := [] } } := by
  have all : (s.linkOf src dst).mods.all (fun m => m.st == .retired) = true :=
    List.all_eq_true.mpr (fun m mem => beq_iff_eq.mpr (dead m mem))
  simp only [pumpLink, all, if_true]

end

theorem linkEvents_holds : linkEvents := by
  refine ⟨fun f => ⟨f.crcHolds_unchanged, f.seqRead_unchanged⟩, fun s src dst k m f rest noise next subj => ⟨?failed, ?accepted, ?other⟩,
    fun a b _ hb => seqBefore_iff hb, fun l s p => ⟨fun late => packetArrives_late late s, fun number _ held => packetArrives_expected number held s⟩,
    fun s src dst k ok m subj mod retraining => ⟨?trained, ?untrained⟩, fun s src dst k m mod => ?retired, fun s src dst dead => pumpLink_dead dead⟩
  case failed =>
    intro failed
    rw [exec_flitReceive subj, flitReceive_next next, if_pos failed]
    rfl
  case accepted =>
    intro holds number
    refine ⟨fun part => ?_, fun whole => ?_⟩ <;> rw [exec_flitReceive subj, flitReceive_next next, if_neg (by rw [holds]; decide), if_pos number]
    · exact congrArg Host.Outcome.next (if_neg part)
    · exact congrArg Host.Outcome.next (if_pos whole)
  case other =>
    intro holds number
    refine ⟨fun before => ?_, fun gap => ?_⟩ <;> rw [exec_flitReceive subj, flitReceive_next next, if_neg (by rw [holds]; decide), if_neg number]
    · rw [if_pos before]; rfl
    · rw [if_neg (Nat.not_le.mpr gap)]; rfl
  case trained => exact fun trained => by rw [exec_retrainComplete subj mod retraining, if_pos trained]
  case untrained => exact fun failed => by rw [exec_retrainComplete subj mod retraining, if_neg (by simp [failed])]
  case retired =>
    have within : k < (s.linkOf src dst).mods.length := (List.getElem?_eq_some_iff.mp mod).1
    simp only [retireWay_link mod, List.getElem?_set_self within, Option.map_some, and_self]

/-! ### Tenures that are ended together (R388) -/

theorem modTenure_absent {s : State} {k : Nat} (absent : s.tenures.get? k = none) (t : Nat) (f : Tenure → Tenure) :
    (s.modTenure t f).tenures.get? k = none := by
  rw [State.modTenure_tenures]
  by_cases same : k = t
  · rw [same, Map.get?_modify_self, ← same, absent]; rfl
  · rw [Map.get?_modify_ne _ _ _ _ same, absent]

/-- What ending tenures of `s` leaves in `u`: the queues, the time, the table roots and the bundles sent, and no tenure that was not there. -/
structure EndedFrom (s u : State) : Prop where
  queues : u.queues = s.queues
  now : u.nowNs = s.nowNs
  roots : u.roots = s.roots
  ethOut : u.ethOut = s.ethOut
  absent : ∀ k, s.tenures.get? k = none → u.tenures.get? k = none

theorem EndedFrom.refl (s : State) : EndedFrom s s := ⟨rfl, rfl, rfl, rfl, fun _ h => h⟩

theorem EndedFrom.trans {s u v : State} (first : EndedFrom s u) (second : EndedFrom u v) : EndedFrom s v :=
  ⟨second.queues.trans first.queues, second.now.trans first.now, second.roots.trans first.roots, second.ethOut.trans first.ethOut,
    fun k h => second.absent k (first.absent k h)⟩

theorem leaveRegion_endedFrom (s : State) (t : Nat) : EndedFrom s (leaveRegion s t) := by
  cases tenure : s.tenures.get? t with
  | none => simp only [leaveRegion, tenure]; exact .refl s
  | some tn =>
    cases region : tn.region with
    | none => simp only [leaveRegion, tenure, region]; exact .refl s
    | some r =>
      obtain ⟨m, rest⟩ := leaveSubs_rest t r.subtrees s
      have left (u : State) (same : u.tenures = s.tenures) (k : Nat) (absent : s.tenures.get? k = none) (p : Nat) (f g : Tenure → Tenure) :
          ((u.modTenure p f).modTenure t g).tenures.get? k = none ∧ (u.modTenure t g).tenures.get? k = none :=
        have absent := (congrArg (fun x : Map Tenure => x.get? k) same).trans absent
        ⟨modTenure_absent (modTenure_absent absent ..) .., modTenure_absent absent ..⟩
      cases partner : tn.partner with
      | none =>
        simp only [leaveRegion, tenure, region, partner, rest]
        exact ⟨rfl, rfl, rfl, rfl, fun k absent => (left _ rfl k absent 0 id _).2⟩
      | some p =>
        simp only [leaveRegion, tenure, region, partner, rest]
        exact ⟨rfl, rfl, rfl, rfl, fun k absent => (left _ rfl k absent _ _ _).1⟩

theorem endTenure_gone (s : State) (t : Nat) : (endTenure s t).tenures.get? t = none := by
  rw [endTenure, removeTenure_tenures, Map.get?_erase, if_pos rfl]

theorem removeTenure_endedFrom (s : State) (t : Nat) : EndedFrom s (removeTenure s t) := by
  refine ⟨rfl, rfl, rfl, rfl, fun k gone => ?_⟩
  rw [removeTenure_tenures, Map.get?_erase, gone, ite_self]

theorem endTenure_endedFrom (s : State) (t : Nat) : EndedFrom s (endTenure s t) := by
  have released : EndedFrom s (releaseBinds (dropBlocks s t) t) := ⟨rfl, rfl, rfl, rfl, fun _ h => h⟩
  exact (released.trans (leaveRegion_endedFrom _ t)).trans (removeTenure_endedFrom _ t)

theorem endAll_endedFrom (l : List (Nat × Tenure)) (s : State) : EndedFrom s (endAll l s) := by
  induction l generalizing s with
  | nil => exact .refl s
  | cons e l ih => exact (endTenure_endedFrom s e.1).trans (ih _)

theorem endAll_gone (l : List (Nat × Tenure)) (s : State) : ∀ e ∈ l, (endAll l s).tenures.get? e.1 = none := by
  induction l generalizing s with
  | nil => exact fun _ mem => absurd mem List.not_mem_nil
  | cons e l ih =>
    intro x mem
    rcases List.mem_cons.mp mem with rfl | later
    · exact (endAll_endedFrom l (endTenure s x.1)).absent _ (endTenure_gone s x.1)
    · exact ih _ x later

theorem Map.get?_none_or_mem {α : Type} (m : Map α) (k : Nat) : m.get? k = none ∨ ∃ e ∈ m, e.1 = k := by
  induction m with
  | nil => exact .inl rfl
  | cons e m ih =>
    by_cases here : e.1 = k
    · exact .inr ⟨e, List.mem_cons_self, here⟩
    · rcases ih with none | ⟨x, mem, key⟩
      · exact .inl (by rw [Map.get?, if_neg here, none])
      · exact .inr ⟨x, List.mem_cons_of_mem _ mem, key⟩

theorem endAll_tenures (s : State) (k : Nat) : (endAll s.tenures { s with queues := [] }).tenures.get? k = none := by
  rcases Map.get?_none_or_mem s.tenures k with none | ⟨e, mem, rfl⟩
  · exact (endAll_endedFrom s.tenures { s with queues := [] }).absent k none
  · exact endAll_gone s.tenures { s with queues := [] } e mem

theorem functionReset_holds (s : State) : let t := functionReset s
    (∀ q, t.queues.get? q = none) ∧ (∀ k, t.tenures.get? k = none) ∧ t.vqs = [] ∧ t.bar2 = msixReset ∧
      t.mboxDoor = 0 ∧ t.mboxRsp = none ∧ t.msixPba = [] ∧ t.hostPort = [] ∧
      t.gov = Vector.replicate 4 { GovRt.reset with last := s.interval } := by
  have ended := endAll_endedFrom s.tenures { s with queues := [] }
  have absent := endAll_tenures s
  unfold functionReset
  generalize endAll s.tenures { s with queues := [] } = u at ended absent ⊢
  have interval : u.interval = s.interval := congrArg (· / 50000) ended.now
  simp only [ended.queues, interval, and_true]
  exact ⟨fun _ => rfl, absent⟩

theorem outsideEvents_holds : outsideEvents := by
  refine ⟨fun s i mem powered => ⟨functionReset s, ?_, functionReset_holds s⟩, fun s rate width subj => ?_, fun s x subj powered => ?_⟩
  · rcases List.mem_cons.mp mem with rfl | mem
    · exact congrArg Host.Outcome.next (if_pos powered)
    · rw [List.mem_singleton.mp mem]
      exact congrArg Host.Outcome.next (if_pos powered)
  · show execPcieRetrain s = _
    simp only [execPcieRetrain, subj]
  · show execCorrectableError s = _
    simp only [execCorrectableError, subj, if_pos powered]

/-! ### Power good and the loader (R397 to R403) -/

theorem dawnStatus_idfail {stage : Nat} (early : stage < 2) (failed : Bool) : bitOf (dawnStatus stage failed 0).toNat 3 = failed := by
  match stage, early with
  | 0, _ => cases failed <;> decide
  | 1, _ => cases failed <;> decide

@[simp] theorem powerReset_dawn (s : State) (p : Power) :
    (powerReset s p).dawn = { DawnRt.reset with power := p, flash := s.dawn.flash, counter := s.dawn.counter } := by simp only [powerReset]
@[simp] theorem powerReset_mctp (s : State) (p : Power) : (powerReset s p).mctp = s.mctp := by simp only [powerReset]
@[simp] theorem powerReset_hostMem (s : State) (p : Power) : (powerReset s p).hostMem = s.hostMem := by simp only [powerReset]
@[simp] theorem powerReset_devMem (s : State) (p : Power) : (powerReset s p).devMem = [] := by simp only [powerReset, State.reset]
@[simp] theorem powerReset_tenures (s : State) (p : Power) : (powerReset s p).tenures = [] := by simp only [powerReset, State.reset]
@[simp] theorem powerReset_queues (s : State) (p : Power) : (powerReset s p).queues = [] := by simp only [powerReset, State.reset]

/-- Dawn 0 as power good begins it, with the identity that the loader finds. -/
def dawnZero (seed : Option (BitVec 256)) (d : DawnRt) : DawnRt :=
  { DawnRt.reset with
    flash := d.flash, counter := d.counter, seed := seed, counterAtPowerOn := d.counter, status := dawnStatus 0 seed.isNone 0
    log := firstLog d.flash d.counter }

/-- Dawn 1 with the image of an accepted slot. -/
def dawnOne (seed : Option (BitVec 256)) (d : DawnRt) (slot : Nat) : DawnRt :=
  { dawnZero seed d with
    status := dawnStatus 1 seed.isNone 0, log := loaderLog d.flash d.counter slot
    image := some (slot, BitVec.ofNat 32 (headerSvn (slotHeader d.flash slot))) }

/-- The identity that the loader finds (R402). -/
def seedOf (x : BitVec 256) (d : DawnRt) : Option (BitVec 256) := Config.reconstruct x (flashPart d.flash 2)

section
variable {s : State} (x : BitVec 256)

theorem powerGood_noSlot (refused : acceptSlot s.dawn.flash s.dawn.counter = none) : powerGood x s =
    stopDawn { powerReset s .on with dawn := dawnZero (seedOf x s.dawn) s.dawn } 0
      (if slotOk s.dawn.flash 0 = true ∨ slotOk s.dawn.flash 1 = true then 2 else 1) := by
  have dawn := powerReset_dawn s .on
  unfold powerGood
  generalize powerReset s .on = b at dawn ⊢
  simp only [dawn, refused, Bool.or_eq_true]
  rfl

theorem powerGood_noRecord {slot : Nat} (accepted : acceptSlot s.dawn.flash s.dawn.counter = some slot)
    (bad : ¬ Config.recordOk (flashPart s.dawn.flash 1) = true) :
    powerGood x s = stopDawn { powerReset s .on with dawn := dawnOne (seedOf x s.dawn) s.dawn slot } 1 3 := by
  have dawn := powerReset_dawn s .on
  unfold powerGood
  generalize powerReset s .on = b at dawn ⊢
  simp only [dawn, accepted, if_neg bad]
  rfl

theorem powerGood_record {slot : Nat} (accepted : acceptSlot s.dawn.flash s.dawn.counter = some slot)
    (good : Config.recordOk (flashPart s.dawn.flash 1) = true) :
    ∃ units up, powerGood x s = { powerReset s .on with
      dawn := { dawnOne (seedOf x s.dawn) s.dawn slot with serial := Config.recordSerial (flashPart s.dawn.flash 1), units := units }
      ethUp := up } := by
  have dawn := powerReset_dawn s .on
  unfold powerGood
  generalize powerReset s .on = b at dawn ⊢
  simp only [dawn, accepted, if_pos good]
  exact ⟨_, _, rfl⟩

end

/-- A stage that stops keeps all but its status, and reports its cause. -/
theorem stopDawn_eq (s : State) (d : DawnRt) {stage cause : Nat} {failed : Bool} (early : stage < 2)
    (status : d.status = dawnStatus stage failed 0) : stopDawn { s with dawn := d } stage cause =
      { s with dawn := { d with status := dawnStatus stage failed cause }
               mctp := s.mctp ++ [{ type := 0x7F, code := 3, body := [stage, cause] }] } := by
  have idfail : State.idfail { s with dawn := d } = failed :=
    (congrArg (fun w : W32 => bitOf w.toNat 3) status).trans (dawnStatus_idfail early failed)
  simp only [stopDawn, report, idfail]

theorem exec_powerGood {s : State} {x : BitVec 256} (subj : s.subj = .sram x) (off : s.powered = false) :
    exec .powerGood s = .next (powerGood x s) := by
  show execPowerGood s = _
  simp only [execPowerGood, subj, off, Bool.false_and, Bool.false_eq_true, if_false]

/-- What power good leaves. -/
theorem powerGood_holds (x : BitVec 256) (s : State) : let t := powerGood x s
    t.powered = true ∧ t.dawn.flash = s.dawn.flash ∧ t.dawn.counter = s.dawn.counter ∧
      t.dawn.counterAtPowerOn = s.dawn.counter ∧ t.tenures = [] ∧
      let idfail := (Config.reconstruct x (flashPart s.dawn.flash 2)).isNone
      (∀ slot, acceptSlot s.dawn.flash s.dawn.counter = some slot → t.dawn.status = dawnStatus 1 idfail
          (if Config.recordOk (flashPart s.dawn.flash 1) = true then 0 else 3) ∧
        t.dawn.log = loaderLog s.dawn.flash s.dawn.counter slot ∧
        t.mctp = s.mctp ++ (if Config.recordOk (flashPart s.dawn.flash 1) = true then [] else [{ type := 0x7F, code := 3, body := [1, 3] }]) ∧
        (Config.recordOk (flashPart s.dawn.flash 1) = true → t.dawn.serial = Config.recordSerial (flashPart s.dawn.flash 1))) ∧
      (acceptSlot s.dawn.flash s.dawn.counter = none →
        let cause := if slotOk s.dawn.flash 0 = true ∨ slotOk s.dawn.flash 1 = true then 2 else 1
        t.dawn.status = dawnStatus 0 idfail cause ∧ t.dawn.log = firstLog s.dawn.flash s.dawn.counter ∧
        t.mctp = s.mctp ++ [{ type := 0x7F, code := 3, body := [0, cause] }]) := by
  have mctp := powerReset_mctp s .on
  have tenures := powerReset_tenures s .on
  cases accept : acceptSlot s.dawn.flash s.dawn.counter with
  | none =>
    simp only [powerGood_noSlot x accept]
    generalize powerReset s .on = b at mctp tenures ⊢
    simp only [stopDawn_eq b (dawnZero (seedOf x s.dawn) s.dawn) (by decide : 0 < 2) rfl]
    simp only [mctp, tenures]
    exact ⟨rfl, rfl, rfl, rfl, trivial, fun _ => nofun, fun _ => ⟨rfl, rfl, trivial⟩⟩
  | some slot =>
    by_cases record : Config.recordOk (flashPart s.dawn.flash 1) = true
    · obtain ⟨units, up, good⟩ := powerGood_record x accept record
      simp only [good, if_pos record, List.append_nil]
      generalize powerReset s .on = b at mctp tenures ⊢
      refine ⟨rfl, rfl, rfl, rfl, tenures, fun _ same => ?_, nofun⟩
      rw [← Option.some.inj same]
      exact ⟨rfl, rfl, mctp, fun _ => trivial⟩
    · simp only [powerGood_noRecord x accept record, if_neg record]
      generalize powerReset s .on = b at mctp tenures ⊢
      simp only [stopDawn_eq b (dawnOne (seedOf x s.dawn) s.dawn slot) (by decide : 1 < 2) rfl]
      simp only [mctp, tenures]
      refine ⟨rfl, rfl, rfl, rfl, trivial, fun _ same => ?_, nofun⟩
      rw [← Option.some.inj same]
      exact ⟨rfl, rfl, trivial, fun good => absurd good record⟩

/-! ### Trained memory, and the repair map (R397, R403, R404) -/

section
variable {s : State} (powered : s.powered = true) (sound : s.dawnError = false)
include powered sound

/-- A stage that has not stopped goes on. -/
theorem dawnGoesOn {n : Nat} (stage : s.stage = n) : (!s.powered || s.stage != n || s.dawnError) = false := by
  simp [powered, sound, stage]

theorem exec_hbmTrained {cs : List Nat} (subj : s.subj = .failed cs) (stage : s.stage = 1) :
    exec .hbmTrainingComplete s = .next (if sliceLost cs = true then stopDawn s 1 4
      else { s with dawn := { s.dawn with
        status := dawnStatus 2 s.idfail 0, failedChannels := cs
        log := (s.dawn.log.set 5 (Config.sha256 Config.policyTables)).set 6 (Config.sha256 Config.selfTestCode) } }) := by
  show execHbmTrainingComplete s = _
  simp only [execHbmTrainingComplete, subj, hbmTrained, dawnGoesOn powered sound stage, Bool.false_eq_true, if_false]

/-- The repair map as the module takes it: with the channels that failed to train, and without what the part record takes away. -/
def reconciled (s : State) (map : RepairMap) : RepairMap :=
  lessUnits { map with deadChannels := s.dawn.failedChannels } (Config.recordOff (flashPart s.dawn.flash 1))

theorem exec_selfTested {map : RepairMap} (subj : s.subj = .repair map) (stage : s.stage = 2) :
    exec .selfTestComplete s = .next (let m := reconciled s map
      if anyRegion m = false ∨ sliceBytes m < 536870912 then stopDawn s 2 5
      else { s with
        repair := m, links := dawnLinks m diePairs []
        dawn := { s.dawn with
          status := dawnStatus 3 s.idfail 0, caps := Config.recordCaps (flashPart s.dawn.flash 1) &&& Config.hardwareCaps &&& 0xF
          log := s.dawn.log.set 7 (Config.sha256 (Config.repairImage m)) } }) := by
  show execSelfTestComplete s = _
  simp only [execSelfTestComplete, subj, selfTested, dawnGoesOn powered sound stage, Bool.false_eq_true, if_false, Bool.or_eq_true,
    Bool.not_eq_true', decide_eq_true_eq]
  rfl

end

theorem measurement_setOthers (s : State) (a b : BitVec 256) {k : Nat} (five : k ≠ 5) (six : k ≠ 6) :
    (((s.dawn.log.set 5 a).set 6 b).getD k 0).toNat = s.measurement k := by
  rw [Map.getD_set_ne _ _ _ six, Map.getD_set_ne _ _ _ five]; rfl

/-! ### The anti-rollback counter (R401), and loss of power (R405) -/

theorem exec_counterRaise {s : State} {v svn : W32} {slot : Nat} (subj : s.subj = .value v) (powered : s.powered = true)
    (image : s.dawn.image = some (slot, svn)) :
    exec .counterRaise s = .next (answered (if s.dawn.counter.toNat < v.toNat ∧ v.toNat ≤ svn.toNat
      then { s with dawn := { s.dawn with counter := v } } else s) 0x7F 0x13 []) := by
  have raises : exec .counterRaise s = .next (counterRaise v s) := by
    show execCounterRaise s = _
    simp only [execCounterRaise, subj]
  rw [raises]
  simp only [counterRaise, image, powered, Bool.true_and, Bool.and_eq_true, decide_eq_true_eq]
  by_cases raised : s.dawn.counter.toNat < v.toNat ∧ v.toNat ≤ svn.toNat <;> simp only [raised, and_self, if_true, if_false]
  · rw [answer_powered]
    exact powered
  · rw [answer_powered powered]

theorem exec_thermalTrip {s : State} {d : Nat} {w : W32} {g : GovRt} (subj : s.subj = .die d w) (powered : s.powered = true)
    (governor : s.gov[d]? = some g) :
    exec .thermalTrip s = .next (if g.fclk.toNat ≤ g.floor.toNat then powerReset (report s 2 [d]) .off else s) := by
  show execThermalTrip s = _
  simp only [execThermalTrip, subj, thermalTrip, governor, powered, Bool.true_and, decide_eq_true_eq]

theorem dawnEvents_holds : dawnEvents := by
  refine ⟨fun s x subj off => ⟨powerGood x s, exec_powerGood subj off, powerGood_holds x s⟩,
    fun s cs subj powered stage sound => ⟨fun lost => ?lost, fun kept => ?trained⟩,
    fun s map subj powered stage sound => ⟨fun little => ?little, fun region bytes => ?sealed⟩,
    fun s v svn slot subj powered image => ⟨fun above atMost => ?raised, fun outside => ?kept⟩, fun s powered => ?undervoltage,
    fun s d w g subj powered governor => ⟨fun floor => ?off, fun above => ?on⟩, fun s p => by simp⟩
  case lost => rw [exec_hbmTrained powered sound subj stage, if_pos lost]
  case trained =>
    rw [exec_hbmTrained powered sound subj stage, if_neg (by simp [kept])]
    exact ⟨_, rfl, rfl, rfl, fun k five six => measurement_setOthers s _ _ five six⟩
  case little =>
    rw [exec_selfTested powered sound subj stage]
    exact congrArg Host.Outcome.next (if_pos little)
  case sealed =>
    have enough : ¬ (anyRegion (reconciled s map) = false ∨ sliceBytes (reconciled s map) < 536870912) := by
      rintro (none | small)
      · exact absurd (region.symm.trans none) (by decide)
      · exact absurd bytes (Nat.not_le.mpr small)
    rw [exec_selfTested powered sound subj stage]
    simp only [if_neg enough]
    exact ⟨_, rfl, rfl, rfl, rfl⟩
  case raised => rw [exec_counterRaise subj powered image, if_pos ⟨above, atMost⟩]
  case kept => rw [exec_counterRaise subj powered image, if_neg (by omega)]
  case undervoltage => exact congrArg Host.Outcome.next (if_pos powered)
  case off => rw [exec_thermalTrip subj powered governor, if_pos floor]
  case on => rw [exec_thermalTrip subj powered governor, if_neg (Nat.not_le.mpr above)]

/-- Settles O57, by the cases of each event of a die link, of the outside links and of dawn. -/
theorem linkAndDawnEvents : Obligations.LinkAndDawnEvents := ⟨linkEvents_holds, outsideEvents_holds, dawnEvents_holds⟩

end Sys2Proof.Machine

/-! PROOFS. Gates (R306 to R308, R327), combining trees (R314, R315), and dusk waves (R320 to R322). -/

namespace Sys2Proof.Machine

/-! ### An arrival at its gate (R306, R327) -/

@[simp] theorem GateRt.retime_gen (r : GateRt) (now : Nat) (restart : Bool) : (r.retime now restart).gen = r.gen := by
  unfold GateRt.retime; split <;> [rfl; (split <;> rfl)]

@[simp] theorem GateRt.retime_arrived (r : GateRt) (now : Nat) (restart : Bool) : (r.retime now restart).arrived = r.arrived := by
  unfold GateRt.retime; split <;> [rfl; (split <;> rfl)]

@[simp] theorem GateRt.retime_early (r : GateRt) (now : Nat) (restart : Bool) : (r.retime now restart).early = r.early := by
  unfold GateRt.retime; split <;> [rfl; (split <;> rfl)]

@[simp] theorem GateRt.retime_count (r : GateRt) (now : Nat) (restart : Bool) : (r.retime now restart).count = r.count := by
  unfold GateRt.retime; split <;> [rfl; (split <;> rfl)]

section
variable {r : GateRt} {now n : Nat} {par : Bool}

theorem GateRt.defers_iff : r.defers now n par = true ↔
    par ≠ bitOf r.gen 0 ∧ r.count < r.early + n ∧ ∀ c, r.excess = some c → now ≤ c := by
  cases excess : r.excess <;> simp [GateRt.defers, excess, and_assoc]

theorem GateRt.arrive_counted (current : par = bitOf r.gen 0) (short : r.arrived + n < r.count) :
    r.arrive now n par = ({ r with arrived := r.arrived + n }.retime now false, false) := by
  rw [GateRt.arrive, if_pos current, if_neg (Nat.not_le.mpr short)]

theorem GateRt.arrive_early (next : par ≠ bitOf r.gen 0) (within : r.early + n ≤ r.count) :
    r.arrive now n par = ({ r with early := r.early + n }.retime now false, false) := by
  rw [GateRt.arrive, if_neg next, if_neg (Nat.not_lt.mpr within)]

/-- An opening takes the early arrivals for its own. -/
theorem GateRt.openOnce_counts (r : GateRt) (now : Nat) : (r.openOnce now).1.gen = (r.gen + 1) % 4294967296 ∧
    (r.openOnce now).1.arrived = r.early ∧ (r.openOnce now).1.early = 0 ∧ (r.openOnce now).1.count = r.count := by
  simp [GateRt.openOnce]

theorem GateRt.openAll_once (early : r.early < r.count) : r.openAll now = r.openOnce now := by
  obtain ⟨-, arrived, -, count⟩ := r.openOnce_counts now
  have short : (r.openOnce now).1.arrived ≠ (r.openOnce now).1.count := by omega
  simp only [GateRt.openAll, if_neg short]

theorem GateRt.arrive_full (current : par = bitOf r.gen 0) (full : r.arrived + n = r.count) (early : r.early < r.count) :
    (r.arrive now n par).1 = (GateRt.openOnce { r with arrived := r.count } now).1 := by
  have once := GateRt.openAll_once (r := { r with arrived := r.count }) (now := now) early
  rw [GateRt.arrive, if_pos current, if_pos full.ge, once]

end

/-- An arrival below the count is counted, one that makes it up opens the gate, and an early one waits for the opening after. -/
theorem GateRt.arrive_holds (r : GateRt) (now n : Nat) (par : Bool) :
    (par = bitOf r.gen 0 → r.arrived + n < r.count →
      (r.arrive now n par).2 = false ∧ (r.arrive now n par).1.arrived = r.arrived + n ∧ (r.arrive now n par).1.gen = r.gen) ∧
    (par = bitOf r.gen 0 → r.arrived + n = r.count → r.early < r.count → (r.arrive now n par).1.gen = (r.gen + 1) % 2 ^ 32 ∧
      (r.arrive now n par).1.arrived = r.early ∧ (r.arrive now n par).1.early = 0) ∧
    (par ≠ bitOf r.gen 0 → r.early + n ≤ r.count →
      (r.arrive now n par).2 = false ∧ (r.arrive now n par).1.early = r.early + n ∧ (r.arrive now n par).1.arrived = r.arrived) := by
  refine ⟨fun current short => ?_, fun current full early => ?_, fun next within => ?_⟩
  · simp [GateRt.arrive_counted current short]
  · obtain ⟨gen, arrived, none, -⟩ := ({ r with arrived := r.count } : GateRt).openOnce_counts now
    rw [GateRt.arrive_full current full early]
    exact ⟨gen, arrived, none⟩
  · simp [GateRt.arrive_early next within]

section
variable {s : State} {m g n : Nat} {x : Msg} {par : Bool} {r : GateRt} (home : atHome s m x) (kind : x.kind = .gateArr g n par)
include home kind

theorem exec_gateArrival_awaits (away : partsLand s x.t = false) : exec .gateArrival s = .next s := by
  obtain ⟨subj, msg, near, current⟩ := home
  show execGateArrival s = _
  simp [execGateArrival, subj, gateArrival, msg, near, current, kind, away]

theorem exec_gateArrival (lands : partsLand s x.t = true) {s0 : State} (expired : gateExpire x.t g s = s0)
    (gate : s0.gates.get? (key2 x.t g) = some r) :
    exec .gateArrival s = .next (
      if r.halted = true then consume s0 x
      else if r.defers (gateCycle s0 x.t g) n par = true then
        { s0 with gates := s0.gates.set (key2 x.t g) { r with excess := some (r.excess.getD (gateCycle s0 x.t g)) } }
      else gateCount (consume s0 x) x.t g m r (gateNow s0 x.t g) n par) := by
  obtain ⟨subj, msg, near, current⟩ := home
  show execGateArrival s = _
  simp only [execGateArrival, subj, gateArrival, msg, near, current, kind, lands, expired, gate, Option.isSome_none, Bool.not_true, Bool.false_eq_true, if_false]

end

/-- A gate that has counted an arrival raises GATE_OVERRUN where it went beyond the count, or a Permit beyond what it may owe. -/
theorem gateCount_eq (s : State) (t g m : Nat) (r : GateRt) (now n : Nat) (par : Bool) : gateCount s t g m r now n par =
    let after := GateRt.arrive { r with excess := none } now n par
    let s2 := countArr { s with gates := s.gates.set (key2 t g) after.1 } t m g (r.gen + if par = bitOf r.gen 0 then 1 else 2)
    if after.2 = true then nodeFault s2 t g cGateOverrun (gateOverrunArg after.1) else s2 := rfl

theorem exec_gateArrival_effect {s : State} {m g n : Nat} {x : Msg} {par : Bool} {r : GateRt} (home : atHome s m x)
    (kind : x.kind = .gateArr g n par) (lands : partsLand s x.t = true) :
    let s0 := gateExpire x.t g s
    s0.gates.get? (key2 x.t g) = some r →
    let now := gateCycle s0 x.t g
    (r.halted = true → exec .gateArrival s = .next (consume s0 x)) ∧
    (r.halted = false → r.defers now n par = true → exec .gateArrival s =
      .next { s0 with gates := s0.gates.set (key2 x.t g) { r with excess := some (r.excess.getD now) } }) ∧
    (r.halted = false → r.defers now n par = false →
      let after := GateRt.arrive { r with excess := none } (gateNow s0 x.t g) n par
      let s2 := countArr { consume s0 x with gates := (consume s0 x).gates.set (key2 x.t g) after.1 } x.t m g
        (r.gen + if par = bitOf r.gen 0 then 1 else 2)
      (after.2 = false → exec .gateArrival s = .next s2) ∧
      (after.2 = true → exec .gateArrival s = .next (nodeFault s2 x.t g cGateOverrun (gateOverrunArg after.1)))) := by
  intro s0 gate now
  have arrival := exec_gateArrival home kind lands rfl gate
  refine ⟨fun halted => ?_, fun runs waits => ?_, fun runs counts => ⟨fun within => ?_, fun overrun => ?_⟩⟩
  · rw [arrival, if_pos halted]
  · rw [arrival, if_neg (by simp [runs]), if_pos waits]
  all_goals
    rw [arrival, if_neg (by simp [runs]), if_neg (Bool.not_eq_true _ ▸ counts), gateCount_eq]
  · exact congrArg Host.Outcome.next (if_neg (by rw [within]; decide))
  · exact congrArg Host.Outcome.next (if_pos overrun)

/-! ### Permits and time-outs of gates (R307, R308) -/

theorem exec_gatePermit {s : State} {t g port c owed : Nat} {r : GateRt} (subj : s.subj = .gate t g port)
    (gate : s.gates.get? (key2 t g) = some r) (runs : r.halted = false) (moves : partsMove s t = true)
    (out : r.outs.find? (fun o => o.1 == port) = some (port, c, owed)) (owes : owed ≠ 0)
    (slot : 0 < ((s.chan? t c).map ChanRt.free).getD 0) : exec .gatePermit s = .next (sendRec { s with
      gates := s.gates.set (key2 t g) { r with
        outs := r.outs.map (fun o => if o.1 == port then (o.1, o.2.1, o.2.2 - min owed 64) else o) } }
      t c (Rec.follow (madeRec tPermit (r.gen % 65536) (min owed 64)) (openedOrd s t g r.gen))) := by
  have sends : ¬ (owed = 0 ∨ ((s.chan? t c).map ChanRt.free).getD 0 = 0) := by omega
  show execGatePermit s = _
  simp only [execGatePermit, subj, gatePermit, gate, runs, moves, out, if_neg sends, Bool.not_true, Bool.or_false, Bool.false_eq_true, if_false]

theorem exec_gateTimeout {s : State} {t g start : Nat} {r : GateRt} (subj : s.subj = .node t g) (gate : s.gates.get? (key2 t g) = some r)
    (timer : r.timer = some start) (runs : r.halted = false) (moves : partsMove s t = true) :
    exec .gateTimeout s = .next (if gateNow s t g ≤ start + 2 ^ (10 + r.texp) then s
      else nodeFault s t g cGateTimeout (BitVec.ofNat 64 (r.arrived + r.gid * 65536))) := by
  show execGateTimeout s = _
  simp only [execGateTimeout, subj, gateTimeout, if_pos moves, gateExpire, gate, timer, runs, Bool.false_or, decide_eq_true_eq]

/-! ### Rounds of a combining tree (R314, R315) -/

theorem exec_contributionArrival {s : State} {m tree k slot round : Nat} {x : Msg} {us : List W64} {miss : Option Missing} {tn : Tenure}
    {tr : TreeE} (home : atHome s m x) (kind : x.kind = .contrib tree k slot round us miss) (lands : partsLand s x.t = true)
    (tenure : (consume (combineExpire x.t tree k (combineExpire x.t tree k s)) x).tenures.get? x.t = some tn) (known : tn.tree? tree = some tr) :
    exec .contributionArrival s =
      .next (enterRound (consume (combineExpire x.t tree k (combineExpire x.t tree k s)) x) x.t tn tr k slot round us miss) := by
  obtain ⟨subj, msg, near, current⟩ := home
  show execContributionArrival s = _
  simp only [execContributionArrival, subj, contributionArrival, msg, near, current, kind, lands, tenure, known, Option.isSome_none, Bool.not_true,
    Bool.false_eq_true, if_false]

section
variable {s : State} {t k slot round : Nat} {tn : Tenure} {x : TreeE} {us : List W64} {miss : Option Missing} {c : CombRt}

/-- The first value of a round begins it, and completes it where the entry has one child. -/
theorem enterRound_first (entry : s.combs.get? (combKey t x.tree k) = some c) (open_ : c.done.contains round = false)
    (fresh : ∀ r ∈ c.rounds, r.round ≠ round) :
    enterRound s t tn x k slot round us miss =
      let r : Round := ⟨round, [(slot, us, miss)], combNow s t tn x.tree k⟩
      let s1 := { s with combs := s.combs.set (combKey t x.tree k) { c with rounds := r :: c.rounds } }
      if x.nch k ≤ 1 then closeRound s1 t tn x k r else s1 := by
  have none : c.rounds.find? (fun r => r.round == round) = none :=
    List.find?_eq_none.mpr (fun r mem => by simpa using fresh r mem)
  have others : c.rounds.filter (fun q => q.round != round) = c.rounds :=
    List.filter_eq_self.mpr (fun r mem => by simpa using fresh r mem)
  have found : s.combs.getD (combKey t x.tree k) CombRt.empty = c := by rw [Map.getD, entry]; rfl
  simp only [enterRound, found, open_, none, others, Bool.false_eq_true, if_false, Option.getD_none, List.nil_append, List.length_singleton]

theorem combineExpire_expired {tree : Nat} {r : Round} (tenure : s.tenures.get? t = some tn) (entry : s.combs.get? (combKey t tree k) = some c)
    (known : tn.tree? tree = some x) (timed : x.texp ≠ 15)
    (expired : c.rounds.find? (fun r => decide (r.start + 2 ^ (10 + x.texp) < combNow s t tn tree k)) = some r) :
    combineExpire t tree k s = forwardRound { s with combs := s.combs.set (combKey t tree k) { c with
        rounds := c.rounds.filter (fun q => q.round != r.round), done := r.round :: c.done } } t tn x k r.round
      (x.combineAll ((bySlot r.kids).map (fun c => c.2.1))) (lowerMissing (some (k, x.missMask k r)) r.missing) := by
  simp only [combineExpire, tenure, entry, known, expired, if_neg timed]

theorem exec_combineTimeout {tree : Nat} (subj : s.subj = .entry t tree k) (moves : partsMove s t = true) :
    exec .combineTimeout s = .next (combineExpire t tree k s) := by
  show execCombineTimeout s = _
  simp only [execCombineTimeout, subj, combineTimeout, if_pos moves]

end

/-! ### Waves (R320 to R322) -/

section
variable {s : State} {t : Nat} {tn : Tenure} (tenure : s.tenures.get? t = some tn) (runs : wavesRun s t = true)
include tenure

theorem modTenure_eqAt {f g : Tenure → Tenure} (same : f tn = g tn) : s.modTenure t f = s.modTenure t g := by
  simp only [State.modTenure, Map.modify, tenure, same]

include runs

theorem exec_wavePeriod (subj : s.subj = .tenure t) (idle : tn.wave = none) (graph : quietPending s t true = false)
    (pound : quietPending s t false = false) :
    exec .wavePeriod s = .next (if s.nowOn tn.baseDie < tn.lastWave + tn.lk.wper.toNat then s else startWave s t true) := by
  show execWavePeriod s = _
  simp only [execWavePeriod, subj, wavePeriod, tenure, runs, idle, graph, pound, Option.isSome_none, Bool.not_true, Bool.or_false, Bool.false_or,
    decide_eq_true_eq]

theorem exec_wavePass_idle (subj : s.subj = .tenure t) (idle : tn.wave = none) :
    exec .wavePass s = .next (if quietPending s t true = true then startWave s t true
      else if quietPending s t false = true then startWave s t false else s) := by
  show execWavePass s = _
  simp only [execWavePass, subj, wavePass, tenure, runs, idle, Bool.not_true, Bool.false_eq_true, if_false]

theorem exec_wavePass_first (subj : s.subj = .tenure t) {w : WaveSt} (wave : tn.wave = some w) (first : w.first = none) :
    exec .wavePass s = .next (s.modTenure t (fun y => { y with wave := some (WaveSt.start w.graph (some (sumsOf s t w))) })) := by
  show execWavePass s = _
  simp only [execWavePass, subj, wavePass, tenure, runs, wave, first, Bool.not_true, Bool.false_eq_true, if_false]

theorem exec_wavePass_second (subj : s.subj = .tenure t) {w : WaveSt} {y : Sums} (wave : tn.wave = some w) (first : w.first = some y) :
    exec .wavePass s = .next (waveVerdict s t w.graph (waveEnds (lossAhead s t tn) y (sumsOf s t w)) (sumsOf s t w)) := by
  show execWavePass s = _
  simp only [execWavePass, subj, wavePass, tenure, runs, wave, first, Bool.not_true, Bool.false_eq_true, if_false]

theorem exec_wavePass_visit {p : Nat} (subj : s.subj = .node t p) {w : WaveSt} (wave : tn.wave = some w) :
    exec .wavePass s = .next (s.modTenure t (fun y => { y with wave := some (w.visit s t tn p) })) := by
  have visits : exec .wavePass s = .next (s.modTenure t (fun y => { y with wave := y.wave.map (fun w => w.visit s t y p) })) := by
    show execWavePass s = _
    simp only [execWavePass, subj, waveVisit, runs, Bool.not_true, Bool.false_eq_true, if_false]
  rw [visits, modTenure_eqAt tenure]
  rw [wave]; rfl

end

section
variable {a b : Sums} {lossy : Bool}

theorem waveEnds_plain (plain : leftBehind a b = false ∨ verdict a b ≠ .busy) (may : verdict a b ≠ .stalled ∨ lossy = false) :
    waveEnds lossy a b = verdict a b := by
  have same : ¬ (verdict a b = .busy ∧ leftBehind a b = true) := fun ⟨busy, left⟩ => plain.elim (fun h => by simp [h] at left) (· busy)
  have ends : ¬ (verdict a b = .stalled ∧ lossy = true) := fun ⟨stalled, loss⟩ => may.elim (· stalled) (fun h => by simp [h] at loss)
  simp only [waveEnds, if_neg same, if_neg ends]

theorem waveEnds_left (left : leftBehind a b = true) (busy : verdict a b = .busy) (sound : lossy = false) : waveEnds lossy a b = .stalled := by
  simp [waveEnds, left, busy, sound]

theorem waveEnds_lossy (loss : lossy = true) (stalls : leftBehind a b = true ∧ verdict a b = .busy ∨ verdict a b = .stalled) :
    waveEnds lossy a b = .busy := by
  rcases stalls with ⟨left, busy⟩ | stalled
  · simp [waveEnds, left, busy, loss]
  · simp [waveEnds, stalled, loss]

end

/-- Settles O51: an arrival by the gate it finds behind its time-out, a contribution by the round it enters, a pass by the wave under way. -/
theorem gatesTreesAndWaves : Obligations.GatesTreesAndWaves := by
  unfold Obligations.GatesTreesAndWaves
  refine ⟨fun s m g n x par r home kind => ⟨exec_gateArrival_awaits home kind, fun lands => exec_gateArrival_effect home kind lands⟩,
    fun r now n par => GateRt.defers_iff, fun r now n par _ => r.arrive_holds now n par,
    fun s t g port c owed r subj gate runs moves out owes slot => exec_gatePermit subj gate runs moves out owes slot,
    fun s t g start r subj gate timer runs moves => ⟨fun expired => ?gateExpired, fun within => ?gateWaits⟩,
    fun s m tree k slot round x us miss tn tr home kind lands => exec_contributionArrival home kind lands,
    fun s t k slot round tn x us miss c entry open_ fresh => ⟨fun one => ?lastChild, fun more => ?moreChildren⟩,
    fun s t tree k tn c x r subj tenure entry known timed expired =>
      ⟨exec_combineTimeout subj, combineExpire_expired tenure entry known timed expired⟩,
    fun s t tn subj tenure runs => ⟨fun idle graph pound => ⟨fun passed => ?period, fun early => ?early, ?noRequest⟩, fun idle pending => ?request,
      fun w wave first => exec_wavePass_first tenure runs subj wave first, fun w y wave first => ?second⟩,
    fun s t p tn w subj tenure runs wave => ?visit⟩
  case gateExpired => rw [exec_gateTimeout subj gate timer runs moves, if_neg (Nat.not_le.mpr expired)]
  case gateWaits => rw [exec_gateTimeout subj gate timer runs moves, if_pos within]
  case lastChild => rw [enterRound_first entry open_ fresh, if_pos one]
  case moreChildren => rw [enterRound_first entry open_ fresh, if_neg (Nat.not_le.mpr more)]
  case period => rw [exec_wavePeriod tenure runs subj idle graph pound, if_neg (Nat.not_lt.mpr passed)]
  case early => rw [exec_wavePeriod tenure runs subj idle graph pound, if_pos early]
  case noRequest => rw [exec_wavePass_idle tenure runs subj idle, if_neg (by simp [graph]), if_neg (by simp [pound])]
  case request => rw [exec_wavePass_idle tenure runs subj idle, if_pos pending]
  case second =>
    refine ⟨fun plain may => ?_, fun left busy sound => ?_, fun loss stalls => ?_⟩ <;> rw [exec_wavePass_second tenure runs subj wave first]
    · rw [waveEnds_plain plain may]
    · rw [waveEnds_left left busy sound]
    · rw [waveEnds_lossy loss stalls]
  case visit =>
    rw [exec_wavePass_visit tenure runs subj wave]
    simp only [WaveSt.visit, List.contains_iff_mem]

end Sys2Proof.Machine

/-! PROOFS. Fault records, the hold, and migration (R363, R365, R367, R371 to R373). -/

namespace Sys2Proof.Machine

/-! ### A fault record and the log it enters (R371, R372) -/

theorem FaultRec.packed_fields (r : FaultRec) (code : r.code < 65536) (src : r.src < 16) (node : r.node < 16777216) (engine : r.engine < 256)
    (pc : r.pc < 256) : ∃ u : W64, r.packed.units[0]? = some u ∧
      bitsOf u.toNat 0 16 = r.code ∧ bitsOf u.toNat 16 4 = r.src ∧ bitOf u.toNat 20 = r.prec ∧ bitOf u.toNat 21 = r.nest ∧
      bitsOf u.toNat 22 2 = 0 ∧ bitsOf u.toNat 24 24 = r.node ∧ bitsOf u.toNat 48 8 = r.engine ∧ bitsOf u.toNat 56 8 = r.pc ∧
      FaultRec.ofRec r.packed = r := by
  have read := FaultRec.ofRec_packed r code src node engine pc
  refine ⟨_, rfl, congrArg FaultRec.code read, congrArg FaultRec.src read, congrArg FaultRec.prec read, congrArg FaultRec.nest read, ?_,
    congrArg FaultRec.node read, congrArg FaultRec.engine read, congrArg FaultRec.pc read, read⟩
  cases prec : r.prec <;> cases nest : r.nest <;>
    simp [FaultRec.unit0, bitsOf, Nat.shiftRight_eq_div_pow, prec, nest] <;> omega

section
variable {tn : Tenure} {now : Nat} {r f : FaultRec} {rest : List FaultRec}

theorem Tenure.logFault_first (empty : tn.log = []) : tn.logFault now r = { tn with log := [r], faultAt := now } := by
  simp only [Tenure.logFault, empty]

/-- A further record: where it came in the first one's cycle from a lower node, it stands first. -/
theorem Tenure.logFault_further (log : tn.log = f :: rest) : tn.logFault now r =
    let log := if tn.faultAt = now ∧ r.node < f.node then r :: tn.log else tn.log ++ [r]
    { tn with log := log.take 16, logOver := tn.logOver + (log.length - 16) } := by
  simp only [Tenure.logFault, log]

theorem Tenure.logFault_behind (log : tn.log = f :: rest) (behind : ¬ (tn.faultAt = now ∧ r.node < f.node)) :
    (tn.logFault now r).log = (if tn.log.length < 16 then tn.log ++ [r] else tn.log.take 16) := by
  simp only [Tenure.logFault_further log, if_neg behind]
  split
  · exact List.take_of_length_le (by simpa using by omega)
  · exact List.take_append_of_le_length (by omega)

theorem Tenure.logFault_ahead (log : tn.log = f :: rest) (cycle : tn.faultAt = now) (lower : r.node < f.node) :
    (tn.logFault now r).log.head? = some r := by
  simp only [Tenure.logFault_further log, if_pos (And.intro cycle lower)]
  rfl

theorem Tenure.logFault_length (log : tn.log = f :: rest) :
    (tn.logFault now r).log.length + (tn.logFault now r).logOver = tn.log.length + 1 + tn.logOver := by
  have longer : (if tn.faultAt = now ∧ r.node < f.node then r :: tn.log else tn.log ++ [r]).length = tn.log.length + 1 := by
    split <;> simp
  simp only [Tenure.logFault_further log, List.length_take, longer]
  omega

end

section
variable {s : State} {t k : Nat} {tn : Tenure} {r : FaultRec}

/-- A fault record taken off its lane is lost on a held tenure, starts a pause of a running one, and is logged by a paused one. -/
theorem exec_faultRecordArrival (subj : s.subj = .faultRecord t k) (powered : s.powered = true) (tenure : s.tenures.get? t = some tn)
    (lane : tn.laneFaults[k]? = some r) :
    let s0 := s.modTenure t (fun y => { y with faultLane := y.faultLane.eraseIdx k })
    let s1 := s0.modTenure t (fun y => Tenure.logFault y (s.nowOn tn.baseDie) r)
    (tn.phase = .running → exec .faultRecordArrival s = .next (s1.modTenure t (fun y => { y with
      phase := .pausing, pause := some ⟨true, s.clk, true, none, []⟩ }))) ∧
    (tn.phase = .paused → exec .faultRecordArrival s = .next s1) ∧ (tn.phase = .held → exec .faultRecordArrival s = .next s0) := by
  have arrival : exec .faultRecordArrival s = .next (faultArrival t k s) := by
    show execFaultRecordArrival s = _
    simp only [execFaultRecordArrival, subj, if_pos powered]
  intro s0 s1
  refine ⟨fun phase => ?_, fun phase => ?_, fun phase => ?_⟩ <;>
    · rw [arrival]
      simp only [faultArrival, tenure, lane, phase]
      rfl

end

/-! ### The hold, and a region taken back (R363, R373) -/

theorem exec_holdTimeout {s : State} {t : Nat} {tn : Tenure} (subj : s.subj = .tenure t) (powered : s.powered = true)
    (tenure : s.tenures.get? t = some tn) (held : tn.phase = .held) :
    exec .holdTimeout s = .next (if tn.heldSince + 10000000000 ≤ s.nowNs then endTenure s t else s) := by
  show execHoldTimeout s = _
  simp only [execHoldTimeout, subj, if_pos powered, holdTimeout, tenure, held, beq_self_eq_true, Bool.true_and, decide_eq_true_eq]

/-- What leaving a region leaves as it is. -/
theorem leaveRegion_rest (s : State) (t : Nat) : ∃ m p l, leaveRegion s t = { s with subtrees := m, planes := p, tenures := l } := by
  cases tenure : s.tenures.get? t with
  | none => exact ⟨s.subtrees, s.planes, s.tenures, by simp only [leaveRegion, tenure]⟩
  | some tn =>
    cases region : tn.region with
    | none => exact ⟨s.subtrees, s.planes, s.tenures, by simp only [leaveRegion, tenure, region]⟩
    | some r =>
      obtain ⟨m, rest⟩ := leaveSubs_rest t r.subtrees s
      cases partner : tn.partner <;>
        · simp only [leaveRegion, tenure, region, partner, rest]
          exact ⟨_, _, _, rfl⟩

theorem exec_regionReclaim {s : State} {t : Nat} {tn : Tenure} (subj : s.subj = .tenure t) (powered : s.powered = true)
    (tenure : s.tenures.get? t = some tn) (paused : tn.phase = .paused) (region : tn.region.isSome = true) :
    ∃ s1, exec .regionReclaim s = .next s1 ∧ s1.hostMem = s.hostMem ∧ s1.devMem = s.devMem ∧
      s1.subtrees = (leaveRegion s t).subtrees ∧ s1.tasks = s.tasks ∧ s1.chans = s.chans := by
  obtain ⟨m, p, l, rest⟩ := leaveRegion_rest s t
  have reclaim : exec .regionReclaim s = .next (regionReclaim t s) := by
    show execRegionReclaim s = _
    simp only [execRegionReclaim, subj, if_pos powered]
  rw [reclaim]
  simp only [regionReclaim, tenure, paused, region, beq_self_eq_true, Bool.and_self, if_true, rest]
  exact ⟨_, rfl, rfl, rfl, rfl, rfl, rfl⟩

/-! ### A graph placed anew from its object (R365) -/

/-- Tenure `t` stands, and its pound was entered with lockkeeper `e`. -/
def enteredWith (s : State) (t : Nat) (e : Lockkeeper) : Prop := ∃ tn, s.tenures.get? t = some tn ∧ tn.lkEnter = e

theorem modTenure_found {s : State} {t : Nat} {tn : Tenure} (tenure : s.tenures.get? t = some tn) (f : Tenure → Tenure) :
    (s.modTenure t f).tenures.get? t = some (f tn) := by
  rw [State.modTenure_tenures, Map.get?_modify_self, tenure]; rfl

theorem enteredWith_modTenure {s : State} {t : Nat} {e : Lockkeeper} (entered : enteredWith s t e) (p : Nat) {f : Tenure → Tenure}
    (keeps : ∀ x, (f x).lkEnter = x.lkEnter) : enteredWith (s.modTenure p f) t e := by
  obtain ⟨tn, tenure, lk⟩ := entered
  by_cases same : t = p
  · subst same
    exact ⟨f tn, modTenure_found tenure f, (keeps tn).trans lk⟩
  · exact ⟨tn, by rw [State.modTenure_tenures, Map.get?_modify_ne _ _ _ _ same, tenure], lk⟩

theorem enteredWith_leaveRegion {s : State} {t : Nat} {e : Lockkeeper} (entered : enteredWith s t e) : enteredWith (leaveRegion s t) t e := by
  obtain ⟨tn, tenure, -⟩ := id entered
  cases region : tn.region with
  | none => simpa only [leaveRegion, tenure, region] using entered
  | some r =>
    obtain ⟨m, rest⟩ := leaveSubs_rest t r.subtrees s
    have kept (p : Map PlaneRt) : enteredWith { s with subtrees := m, planes := p } t e := entered
    cases partner : tn.partner with
    | none =>
      simp only [leaveRegion, tenure, region, partner, rest]
      refine enteredWith_modTenure (kept _) t ?_
      exact fun _ => rfl
    | some p =>
      simp only [leaveRegion, tenure, region, partner, rest]
      refine enteredWith_modTenure (enteredWith_modTenure (kept _) p ?_) t ?_ <;> exact fun _ => rfl

theorem exec_replacementFallback {s : State} {t : Nat} {tn : Tenure} (subj : s.subj = .tenure t) (powered : s.powered = true)
    (tenure : s.tenures.get? t = some tn) (paused : tn.phase = .paused) (misses : missingFeatures s tn ≠ 0) :
    ∃ s1 tn1, exec .replacementFallback s = .next s1 ∧ s1.tenures.get? t = some tn1 ∧
      tn1.phase = .replacing ∧ tn1.lk = tn.lkEnter ∧ tn1.place = none ∧ tn1.iG = 0 ∧ tn1.cG = 0 := by
  obtain ⟨tn0, left, lk⟩ := enteredWith_leaveRegion (s := zeroCounted s t) ⟨tn, tenure, rfl⟩
  have falls : exec .replacementFallback s = .next (replacementFallback t s) := by
    show execReplacementFallback s = _
    simp only [execReplacementFallback, subj, if_pos powered]
  have lacks : (missingFeatures s tn != 0) = true := bne_iff_ne.mpr misses
  have still : (clearParts (leaveRegion (zeroCounted s t) t) t).tenures.get? t = some tn0 := left
  rw [falls]
  simp only [replacementFallback, tenure, paused, lacks, beq_self_eq_true, Bool.and_self, if_true]
  exact ⟨_, _, rfl, modTenure_found (by exact still) _, rfl, lk, rfl, rfl, rfl⟩

/-! ### A process that leaves the module (R367) -/

section
variable {s : State} {pasid peer : Nat} (subj : s.subj = .process pasid peer) (powered : s.powered = true)
  (migrates : bitOf s.dawn.caps.toNat 2 = true) (unshared : hostInUse s pasid = false) (port : s.ethUp.toList.any id = true)
include subj powered migrates unshared port

theorem exec_processMigration : exec .processMigration s = .next (
    if (tenuresOf s pasid).all (fun e => e.2.phase == .paused || e.2.phase == .pausedAdmission) = true then
      let u := endAll (tenuresOf s pasid) s
      { u with ethOut := u.ethOut ++ [bundleOf s pasid], roots := u.roots.erase pasid, vqs := u.vqs.filter (fun e => e.2.pasid != pasid) }
    else pauseAll (tenuresOf s pasid) s) := by
  show execProcessMigration s = _
  simp only [execProcessMigration, subj, if_pos powered, processMigration, migrates, unshared, port, Bool.not_true, Bool.or_false,
    Bool.false_eq_true, if_false]

theorem exec_processMigration_paused (paused : ∀ e ∈ tenuresOf s pasid, e.2.phase = .paused ∨ e.2.phase = .pausedAdmission) :
    ∃ s1, exec .processMigration s = .next s1 ∧
      s1.ethOut = s.ethOut ++ [bundleOf s pasid] ∧ (∀ e ∈ s1.vqs, e.2.pasid ≠ pasid) ∧ s1.roots = s.roots.erase pasid := by
  have all : (tenuresOf s pasid).all (fun e => e.2.phase == .paused || e.2.phase == .pausedAdmission) = true :=
    List.all_eq_true.mpr (fun e mem => by simpa using paused e mem)
  have ended := endAll_endedFrom (tenuresOf s pasid) s
  rw [exec_processMigration subj powered migrates unshared port, if_pos all]
  refine ⟨_, rfl, congrArg (· ++ [bundleOf s pasid]) ended.ethOut, fun e mem => ?_, congrArg (fun m : Map Nat => m.erase pasid) ended.roots⟩
  exact bne_iff_ne.mp (List.mem_filter.mp mem).2

theorem exec_processMigration_running (runs : ∃ e ∈ tenuresOf s pasid, e.2.phase = .running) :
    exec .processMigration s = .next (pauseAll (tenuresOf s pasid) s) := by
  obtain ⟨e, mem, phase⟩ := runs
  have some_ : ¬ (tenuresOf s pasid).all (fun e => e.2.phase == .paused || e.2.phase == .pausedAdmission) = true := fun all => by
    simpa [phase] using List.all_eq_true.mp all e mem
  rw [exec_processMigration subj powered migrates unshared port, if_neg some_]

end

/-! ### A process that comes to the module (R367) -/

theorem physWrite_keeps (s : State) (p : Phys) (bs : List Byte) : (physWrite s p bs).ethIn = s.ethIn ∧ (physWrite s p bs).dawn = s.dawn := by
  cases p <;> exact ⟨rfl, rfl⟩

theorem writePages_keeps (pasid : Nat) (l : List (Nat × Byte)) (s : State) :
    (writePages pasid l s).ethIn = s.ethIn ∧ (writePages pasid l s).dawn = s.dawn := by
  induction l generalizing s with
  | nil => exact ⟨rfl, rfl⟩
  | cons e l ih =>
    rw [writePages]
    obtain ⟨ethIn, dawn⟩ := ih (match walk s pasid e.1 with
      | .ok w => physWrite s (w.phys e.1) [e.2]
      | _ => s)
    refine ⟨ethIn.trans ?_, dawn.trans ?_⟩ <;> split
    · exact (physWrite_keeps ..).1
    · rfl
    · exact (physWrite_keeps ..).2
    · rfl

theorem missingFeatures_sameDawn {s u : State} (same : u.dawn = s.dawn) (tn : Tenure) : missingFeatures u tn = missingFeatures s tn := by
  simp only [missingFeatures, same]

theorem joinMap_single {α : Type} (ren : Nat → Nat) (k : Nat) (x : α) (m : Map α) : joinMap ren [(k, x)] m = m.set (ren k) x := rfl

theorem exec_migrationReceive {s : State} {pasid k : Nat} {b : Bundle} (subj : s.subj = .bundle k pasid) (powered : s.powered = true)
    (migrates : bitOf s.dawn.caps.toNat 2 = true) (arrived : s.ethIn[k]? = some b) (mapped : pagesMapped s pasid b = true) :
    ∃ s1, exec .migrationReceive s = .next s1 ∧
      s1.ethIn = s.ethIn.eraseIdx k ∧ s1.nextTenure = s.nextTenure + b.tenures.length ∧
      (∀ i q, b.vqs = [(i, q)] → ∃ q1, s1.vqs.get? (freshId s.vqs s.nextVq) = some q1 ∧ q1.pasid = pasid ∧ q1.ring = q.ring) ∧
      (∀ i tn, b.tenures = [(i, tn)] → ∃ tn1, s1.tenures.get? s.nextTenure = some tn1 ∧ tn1.pasid = pasid ∧ tn1.region = none ∧
        tn1.handle = s.handles.getD pasid 1 % 4294967296 ∧ tn1.phase = (if tn.phase = .paused then (if missingFeatures s tn = 0 then .replacing else .paused) else .admission)) := by
  have receives : exec .migrationReceive s = .next (migrationReceive k pasid s) := by
    show execMigrationReceive s = _
    simp only [execMigrationReceive, subj, if_pos powered]
  rw [receives]
  simp only [migrationReceive, arrived, migrates, mapped, Bool.not_true, Bool.or_self, Bool.false_eq_true, if_false]
  obtain ⟨ethIn, dawn⟩ := writePages_keeps pasid (b.pages.flatMap (fun e => e.bytes.map (fun x => (e.va + x.1, x.2)))) s
  refine ⟨_, rfl, congrArg (fun l : List Bundle => l.eraseIdx k) ethIn, rfl, fun i q vqs => ?_, fun i tn tenures => ?_⟩
  · simp only [vqs, List.map_cons, List.map_nil, freshVqs, List.idxOf_cons_self, joinMap_single, List.getElem?_cons_zero, Option.getD_some, id]
    exact ⟨_, Map.get?_set_self .., rfl, rfl⟩
  · simp only [tenures, List.map_cons, List.map_nil, List.idxOf_cons_self, joinMap_single, Nat.add_zero, Nat.sub_self, id, beq_iff_eq,
      missingFeatures_sameDawn dawn]
    exact ⟨_, Map.get?_set_self .., rfl, rfl, rfl, rfl⟩

/-- Settles O45, by the phases of the tenure that an event finds, and by what a tenure's leaving, a region's, and pages written leave as they were. -/
theorem faultHoldMigrate : Obligations.FaultHoldMigrate := by
  unfold Obligations.FaultHoldMigrate
  refine ⟨fun r => ?packed, fun s t k tn r subj powered tenure lane => exec_faultRecordArrival subj powered tenure lane,
    fun tn now r f rest => ⟨Tenure.logFault_first, Tenure.logFault_behind, Tenure.logFault_ahead, fun logged => ?logged⟩,
    fun s t tn subj powered tenure => ⟨fun held passed => ?ends, fun held waits => ?holds, exec_regionReclaim subj powered tenure,
      exec_replacementFallback subj powered tenure⟩,
    fun s pasid peer subj powered migrates unshared port => ⟨exec_processMigration_paused subj powered migrates unshared port,
      exec_processMigration_running subj powered migrates unshared port⟩,
    fun s pasid k b subj powered migrates arrived mapped => exec_migrationReceive subj powered migrates arrived mapped⟩
  case packed =>
    obtain ⟨type, fmt, len, seq, carg⟩ := r.packed_hdr
    exact ⟨type, fmt, len, seq, carg, rfl, rfl, r.packed_fields⟩
  case logged =>
    obtain ⟨f, rest, log⟩ := List.exists_cons_of_ne_nil logged
    exact Tenure.logFault_length log
  case ends => rw [exec_holdTimeout subj powered tenure held, if_pos passed]
  case holds => rw [exec_holdTimeout subj powered tenure held, if_neg (Nat.not_le.mpr waits)]

end Sys2Proof.Machine
